-- ==== Sys2Proof/Word.lean ====
section
/-!
DEFINITION. Sys2Proof/Word.lean: the word types (R4, R6): a register is 32 bits, a byte is 8 bits.
-/
namespace Sys2Proof

/-- A 32-bit register or memory word (R6). -/
abbrev Word := BitVec 32

/-- One byte; multi-byte values are little-endian (R5). -/
abbrev Byte := BitVec 8

end Sys2Proof
end

