-- ==== Sys2Proof/Syntax.lean ====
section
/-!
DEFINITION. Sys2Proof/Syntax.lean: the commands of the block: one constructor per row of the opcode table. The table
gives the rows no fields, so each row's operands are the model's (assumption log 5): what comes from outside the device
(a host's value, a flit's bytes, an analogue result, a fault), never what the device itself holds.
-/
namespace Sys2Proof

/-- Who accesses registers: HP0 to HP3, or the service port (R19, R23). -/
inductive Port where
  | hp (p : Fin 4)
  | svc
deriving DecidableEq, Repr

/-- The two dies of the package (R16). -/
inductive Die where
  | field
  | engine
deriving DecidableEq, Repr

/-- What the analogue part gives one conversion (R87, R88), in 1/256 raw LSB: the differential voltage at the pins, with the effect of
a test current, at the lane's gain; the deviation of the result, before the slice's corrections and after dither and chopping
were removed, from the signal at the gain stage; whether the gain stage or converter was out of range, whether a pin was out of
the common-mode range, and, when neither is so, how many ns ago the input came back into both ranges. -/
structure Conv where
  pins : Int
  err : Int := 0
  ovr : Bool := false
  cm : Bool := false
  back : Nat := 1000000
deriving DecidableEq, Repr

/-- An access of a port: the byte address in its BARs and the width in bytes (R6, R367). -/
structure Access where
  addr : Nat
  size : Nat := 4
deriving DecidableEq, Repr

/-- What the three voters report on one transaction (R217, R219). -/
structure Voting where
  /-- the member each of V1, V2, V3 names as odd; none = no disagreement seen -/
  n1 : Option (Fin 3) := none
  n2 : Option (Fin 3) := none
  n3 : Option (Fin 3) := none
  /-- no two copies agree -/
  noMaj : Bool := false
  /-- a voter whose copy differs at the commit stage from two matching ones; no two copies there match -/
  diff : Option (Fin 3) := none
  apart : Bool := false
  /-- ECLK cycle within the frame -/
  cycle : Nat := 0
deriving DecidableEq, Repr

/-- A fault locator's completed capture: its instance, and what the voters report on the record's transaction (R185, R217). -/
structure RfloRun where
  inst : Fin 1024
  vote : Voting
deriving DecidableEq, Repr

/-- Consecutive samples of a binary input (R349, R350): what its pad reads in mV, and TB_NS at each of them. -/
structure DiSamples where
  millivolts : Int
  stamps : List Word
deriving DecidableEq, Repr

/-- What the host has set in a port's configuration space (R366, R367): a payload size of 256 rather than 128 bytes, the read request
size as a power of two times 128 bytes, and the addresses of BAR0 and BAR2. -/
structure PciSetup where
  largePayload : Bool := false
  readSize : Fin 6 := 2
  bar0 : BitVec 64 := 0#64
  bar2 : BitVec 64 := 0#64
deriving DecidableEq, Repr

/-- A fast input and the CCLK cycles since its last change (R351). -/
structure FastSpan where
  input : Fin 8
  cycles : Nat
deriving DecidableEq, Repr

/-- The poisoned word that a protection element consumes (R168): none, a word of its inputs, or one of its own state. -/
inductive Poison where
  | clean
  | input
  | own
deriving DecidableEq, Repr

/-- Memory words that the run of a job reads: of each member's own local SRAM, and of the shared SRAM (R212, R215, R396). -/
structure JobReads where
  own : List Nat := []
  shared : List Nat := []
deriving DecidableEq, Repr

/-- Bits of a memory word found flipped: the word's place in its scrub step, and the bits, data below and check bits above (R403). -/
structure Upset where
  word : Fin 64
  bits : BitVec 39
deriving DecidableEq, Repr

/-- The density of a wing's DRAM: 2, 4, 6 or 8 GiB (R397). -/
inductive Density where
  | gib2
  | gib4
  | gib6
  | gib8
deriving DecidableEq, Repr

/-- The operand of a Mydun instruction: SPACE[3:0] and INDEX[21:0] (R236). -/
structure Opnd where
  space : Nat
  index : Nat
deriving DecidableEq, Repr

/-- A store of records: the event log of a partition, or the kennel (R293). -/
inductive Store where
  | log (p : Fin 4)
  | kennel
deriving DecidableEq, Repr

/-- The rings of a host port (R373). -/
inductive Ring where
  | cmd
  | cpl
  | evq
  | rcq
  | msq
deriving DecidableEq, Repr

/-- Measurement data of a sniff step (R127-R133): load item: sensed voltage in mV of each output, mean of the last 4 frames; binary
inputs: mean current in 10 uA. -/
structure SniffData where
  vals : List Nat := []
deriving DecidableEq, Repr

/-- Every command (opcode table): those with operands first, then those without, each in the order of the
chapters. Field-side and process events carry what the environment supplies. -/
inductive Instr where
  /- power, reset and start-up -/
  | powerOn (retained : Bool)
  | resetNAssert (widthNs : Nat)
  | resetNRelease (bootSrc : Bool)
  | sysResetKey (p : Port) (v : Word)
  | fillComplete (west east : Density)
  /- die-to-die link -/
  | rawFlitSend (pack : Fin 8) (strobe : Fin 128) (conv : List Conv)
  | rawFlitReceive (bytes : List Byte)
  | frameStrobeReceive (bytes : List Byte)
  | statusFlitReceive (bytes : List Byte)
  | outputCommand (bytes : List Byte) (lateNs : Nat)
  | registerAccessFlit (bytes : List Byte)
  | registerResponseFlit (bytes : List Byte)
  | kennelWriteFlit (bytes : List Byte)
  | idleFlitReceive (die : Die) (bytes : List Byte)
  | replayRequest (die : Die) (seq : Fin 4096)
  | stageAFlitCheck (pack : Fin 8) (strobe : Fin 128)
  | linkWatchdogExpiry (die : Die)
  /- registers -/
  | registerWrite (p : Port) (a : Access) (v : Word)
  | lowWordRead (p : Port) (a : Access)
  | highWordRead (p : Port) (a : Access)
  /- triad -/
  | ingressAgreement (first second : List (BitVec 64)) (cycle : Nat)
  | voterSelfTest (wrong : List (List Bool)) (cycle : Fin 131072)
  | elementInstanceRun (i : Fin 1024) (reads : JobReads) (v : Voting)
  | zoneRun (z : Fin 8) (reads : JobReads) (v : Voting)
  | schemeTaskRun (part : Fin 4) (task : Fin 8) (reads : List (Nat × JobReads)) (v : Voting)
  | frameClosureJob (v w x : Voting)
  | latentDivergenceSweep (first : List (BitVec 64)) (cycle : Fin 131072)
  /- modes and power states -/
  | modeRequest (p : Port) (v : Word)
  | pwrPackWrite (p : Port) (v : Word)
  | packStopComplete (pack : Fin 8)
  | pwrRefWrite (p : Port) (v : Word)
  | pwrTriadWrite (p : Port) (v : Word)
  /- lanes and slices -/
  | afeLaneWrite (p : Port) (lane : Fin 256) (v : Word)
  | laneSettingsApply (lane : Fin 256)
  | afeInjWrite (p : Port) (lane : Fin 256) (v : Word)
  | injectionApply (lane : Fin 256)
  | cnvTrimWrite (p : Port) (bay : Fin 32) (k : Fin 8) (skew : Bool) (v : Word)
  | trimApply (bay : Fin 32)
  | cnvRestore (p : Port) (bay : Fin 32) (v : Word)
  | cnvCtrlWrite (p : Port) (bay : Fin 32) (v : Word)
  | offsetWindowEnd (bay : Fin 32) (est : List (BitVec 16))
  | gainWindowEnd (bay : Fin 32) (even odd : BitVec 16)
  | dllLock (bay : Fin 32)
  | skewMeasure (lane : Fin 256)
  | dcLevelResult (lane : Fin 256)
  /- filter chain -/
  | integratorSettled (lane : Fin 256)
  | decLaneWrite (p : Port) (lane : Fin 384) (v : Word)
  | decLaneApply (lane : Fin 384)
  | thresholdWrite (p : Port) (lane : Fin 384) (hh : Bool) (v : Word)
  | thresholdApply (lane : Fin 384)
  /- auxiliary converter and survey -/
  | auxGo (p : Port) (v : Word)
  | auxCmpArm (p : Port) (v : Word)
  | auxConversionDone (code : Fin 65536)
  | auxUrgentRequest (p : Port) (v : Word)
  | supplyWindow (codes : List (Fin 65536))
  | surveyCommand (p : Port) (v : Word)
  | sniffMeasurementStep (d : SniffData)
  | pdelayRespReceive (port : Fin 4) (dst src : BitVec 48) (tags : List Byte) (typ : BitVec 16) (msg trailer : List Byte)
  | pdelayTimeout (port : Fin 4)
  /- measurement -/
  | msrCfgWrite (p : Port) (bay : Fin 48) (v : Word)
  | msrCfgApply (bay : Fin 48)
  | msrFrameRead (p : Port) (bay : Fin 48)
  | harmonicAnalysis (bay : Fin 48)
  | synchrophasorReport (bay : Fin 48)
  /- protection elements -/
  | pelSidxWrite (p : Port) (v : Word)
  | pelSdataWrite (p : Port) (v : Word)
  | settingCommit (p : Port) (v : Word)
  | settingCommitCheck (p : Port)
  | pelHostBlock (p : Port) (i : Fin 1024) (v : Word)
  | pelInstanceReset (p : Port) (i : Fin 1024) (v : Word)
  | rfloCaptureComplete (run : RfloRun)
  /- traveling waves -/
  | twDetection (lane : Fin 256)
  | twBayRearm (bay : Fin 32)
  | twArrivalRecord (bay : Fin 32)
  | twCaptureComplete (buf : Fin 8)
  | twDoubleEndedGo (p : Port) (bay : Fin 32) (v : Word)
  | twDoubleEndedCheck (bay : Fin 32)
  /- heel -/
  | heelRequest (p : Port) (v : Word)
  | heelProbationEnd (matched : Bool) (cycle : Fin 131072)
  /- Mydun instructions -/
  | ld (o : Opnd)
  | ldn (o : Opnd)
  | and (o : Opnd)
  | andn (o : Opnd)
  | or (o : Opnd)
  | orn (o : Opnd)
  | xor (o : Opnd)
  | st (o : Opnd)
  | stn (o : Opnd)
  | set (o : Opnd)
  | rst (o : Opnd)
  | rise (o : Opnd)
  | fall (o : Opnd)
  | ton (o : Opnd)
  | tof (o : Opnd)
  | tp (o : Opnd)
  | trst (o : Opnd)
  | ctu (o : Opnd)
  | ctd (o : Opnd)
  | crs (o : Opnd)
  | spt (o : Opnd)
  | spv (o : Opnd)
  | letT (o : Opnd)
  | lcv (o : Opnd)
  | ldf (o : Opnd)
  | stf (o : Opnd)
  | addf (o : Opnd)
  | subf (o : Opnd)
  | mulf (o : Opnd)
  | divf (o : Opnd)
  | minf (o : Opnd)
  | maxf (o : Opnd)
  | gtf (o : Opnd)
  | gef (o : Opnd)
  | ltf (o : Opnd)
  | lef (o : Opnd)
  | self (o : Opnd)
  | ldk (o : Opnd)
  | stk (o : Opnd)
  | addk (o : Opnd)
  | subk (o : Opnd)
  | mulk (o : Opnd)
  | andk (o : Opnd)
  | ork (o : Opnd)
  | xork (o : Opnd)
  | gtk (o : Opnd)
  | eqk (o : Opnd)
  | ltk (o : Opnd)
  | jmp (off : BitVec 26)
  | jt (off : BitVec 26)
  | jf (off : BitVec 26)
  /- forcing and on-line change -/
  | forceSet (p : Port) (part : Fin 4) (v : Word)
  | forceRelease (p : Port) (part : Fin 4) (v : Word)
  | forceReleaseAll (p : Port) (part : Fin 4) (v : Word)
  | forceCommandCheck (part : Fin 4)
  | schemeSwap (part : Fin 4)
  | schemeCarryOver (part : Fin 4)
  /- recorders -/
  | recorderEnable (p : Port) (r : Fin 16) (v : Word)
  | recorderArm (p : Port) (r : Fin 16) (v : Word)
  | recorderStop (p : Port) (r : Fin 16) (v : Word)
  | hostTrigger (p : Port) (r : Fin 16) (v : Word)
  | recorderCommandEffect (r : Fin 16)
  | triggerEdgeTenWrite (p : Port) (r : Fin 16) (v : Word)
  | recorderRowWrite (r : Fin 16)
  | recordingClose (r : Fin 16)
  | segmentCopyDone (r : Fin 16)
  | recorderStopComplete (r : Fin 16)
  | runDelivered (r : Fin 16)
  | trendCompressionSlice (r : Fin 16)
  /- event log and kennel -/
  | logRecordWrite (p : Fin 4)
  | storeFreeze (st : Store)
  | storeUnfreeze (st : Store)
  | freezeTimeout (st : Store)
  | storeClear (st : Store)
  | readWindowLoad (p : Port) (st : Store) (v : Word)
  | readWindowReady (st : Store)
  /- time base -/
  | timFreqWrite (p : Port) (v : Word)
  | timNsRead (p : Port)
  | captureFirstRead (p : Port) (src : Fin 5)
  | phaseStep (p : Port) (v : Word)
  | slew (p : Port) (v : Word)
  | secondsLoad (p : Port) (v : Word)
  | ppsInEdge (falling : Bool)
  /- process bus -/
  | ethernetFrameReceive (port : Fin 4) (bytes : List Byte) (fcsOk : Bool)
  | ptpFifoPop (p : Port) (port : Fin 4) (v : Word)
  | ptpTransmit (p : Port) (port : Fin 4) (v : Word)
  | ptpTransmitDone (port : Fin 4)
  | pbLinkChange (port : Fin 4) (up : Bool)
  | prpDiscardExpiry (pair : Fin 2)
  | gooseRetransmit (block : Fin 64)
  | gooseSubscriptionExpiry (sub : Fin 256)
  | svStreamLoss (stream : Fin 16)
  | svStreamRestore (stream : Fin 16)
  /- field inputs and outputs -/
  | bankStateChange (bank : Fin 4) (millivolts : Nat)
  | driverUndervoltage (bank : Fin 4) (millivolts : Nat)
  | diDebouncedChange (n : Fin 56) (samples : DiSamples)
  | fastInputEdge (m : Fin 8) (millivolts : Int) (cycles : Nat)
  | fastInputPeriodOverflow (span : FastSpan)
  | fastInputClear (p : Port) (m : Fin 8) (v : Word)
  | outputThermalShutdown (n : Fin 32) (celsius : Nat)
  | outputCurrentLimit (n : Fin 32) (active : Bool) (microseconds : Nat)
  | outputFaultChange (n : Fin 32) (v0 v1 milliamps dropMv : Nat)
  | outputBlankingEnd (n : Fin 32)
  | bankOvercurrent (bank : Fin 4) (above : Bool) (frame : BitVec 32)
  | bankDrop (p : Port) (v : Word)
  | bankRelease (p : Port) (v : Word)
  /- host ports and queues -/
  | commandDoorbell (p : Fin 4) (v : Word)
  | commandFetch (p : Fin 4) (entry : List Byte)
  | nop (p : Fin 4)
  | pedigreeLoad (p : Fin 4)
  | deltaLoad (p : Fin 4)
  | attest (p : Fin 4)
  | unusedOpcode (p : Fin 4)
  | completionDoorbell (p : Fin 4) (v : Word)
  | recordQueueDoorbell (p : Fin 4) (q : Ring) (v : Word)
  | queueEnable (p : Fin 4) (q : Ring) (v : Word)
  | queueDisable (p : Fin 4) (q : Ring) (v : Word)
  | dmaReadError (p : Fin 4)
  | portReset (p : Fin 4) (cause : Fin 6)
  | portLinkUp (p : Fin 4) (speed width : Fin 4) (setup : PciSetup)
  | svcWrite (bytes : List Byte)
  | svcRead (bytes : List Byte)
  /- memories -/
  | correctionWriteBack (region : Fin 9) (addr : Nat) (upset : BitVec 39)
  | scrubStep (region : Fin 9) (upsets : List Upset)
  | rowRetireComplete (region : Fin 9)
  | bucketLeak (region : Fin 9)
  | mergeBufferFlush (region : Fin 9)
  | checkerTestWrite (p : Port) (v : Word)
  | checkerTestRead (p : Port) (v : Word)
  /- pedigree and security -/
  | qspiLoadCommand (p : Port) (v : Word)
  | pedigreeReadDone (image : List Byte) (headers : List (List Byte)) (ok : Bool)
  | fuseProgramSlot (p : Port) (v : Word)
  | fuseRevokeSlot (p : Port) (v : Word)
  | fuseAdvanceCounter (p : Port) (v : Word)
  | fuseOperationDone (blown : Nat) (verified : Bool)
  /- supplies, continued -/
  | svcUnknownOpcode (bytes : List Byte)
  /- commands without operands, in the same order of chapters -/
  | supplyBelowThreshold
  | clockStartComplete
  | supervisorPowerUp (retained : Bool)
  | vddAoWarning
  | frameBoundary
  | commitUnit
  | budgetFlagChange
  | gJobDeadlineMiss
  | linkRetrainComplete
  | admissionComplete
  | planSwap
  | queueService
  | modeRequestEffect
  | standbyEntry
  | packEnEffect
  | triadGateEffect
  | triadGateStop
  | triadRestart
  | stageAOutput
  | auxFrameTrigger
  | auxCompareFire
  | auxConfigApply
  | surveyCommandEffect
  | surveyItemEnd
  | cableStepStart
  | cableStepEnd (bay : Fin 32)
  | cableWaitTimeout
  | surveyEnd
  | settingsApply
  | twLocationSlice
  | twvConfigApply
  | heelCheck
  | heelCopyDone
  | mEnd
  | not
  | push
  | andp
  | orp
  | absf
  | negf
  | sqrtf
  | itof
  | ftoi
  | comtradeFormattingSlice
  | eventSequence
  | repeatRunTimeout
  | kennelRecordWrite
  | phaseStepApply
  | slewStart
  | slewComplete
  | secondsLoadArm
  | realignComplete
  | secondRollover
  | tbNsWrap
  | ppsOutPulse
  | ppsInLoss
  | prpSupervisionTimer
  | fioConfigApply
  | pedigreeVerifyDone
  | stagingComplete
  | loadRefused
  | fuseCommandCheck
  | attestReportDone
  | supplyAboveThreshold
  | supervisorStop
  | vddAoWarningClear
  | ppsOutPulseEnd
  | sramZeroingComplete
deriving DecidableEq, Repr

end Sys2Proof
end

