-- ==== Sys2Proof/Decode.lean ====
section
/-!
DEFINITION. Sys2Proof/Decode.lean: the command that a word of the opcode table's bits spells. The table gives none of its
rows any bits, so no word spells a command (assumption log 5).
-/
namespace Sys2Proof

/-- No row of the table has bits: every word is answered none. -/
def decodeTableWord (_nbits _w : Nat) : Option Instr := none

end Sys2Proof
end

