-- ==== Sys2Proof/Config.lean ====
section
/-!
DEFINITION. Sys2Proof/Config.lean: what one device fixes and its manual leaves open. Every constant here is opaque: no
proof can see a value of it, so a claim that holds, holds for every value (assumption log 1, 2, 3, 4). Where the manual bounds such
a value, the definition beside it puts every value inside the bound.
-/
namespace Sys2Proof.Config

/-! ### Values of silicon and fuses (R8 "silicon", R99 "fuse", R433 "fuse") -/

/-- SYS_VER.MAJOR and MINOR, the silicon stepping. -/
opaque sysVer : Word
/-- The stage-A coefficients fixed in silicon, DEC_ACOEF[i], i = 0-963, and what R100 says of a set (below). -/
opaque rawCoef : Nat → Int
/-- Whether n coefficients from index b on are a set of R100: 32-bit values that sum to exactly 2^30, and of a linear-phase preset
symmetric. -/
def coefSet (b n : Nat) (linear : Bool) : Bool :=
  let c := fun i => rawCoef (b + i)
  ((List.range n).foldl (fun a i => a + c i) 0 == 2 ^ 30) &&
    (List.range n).all (fun i => decide (-(2 ^ 31) ≤ c i) && decide (c i < 2 ^ 31) && (!linear || c i == c (n - 1 - i)))
/-- Coefficient i of the set that starts at b: the silicon's where it is a set of R100, so that every coefficient that is ever used
belongs to one; the set of one tap stands for the rest. -/
def coefOf (b n mid : Nat) (linear : Bool) (i : Nat) : BitVec 32 :=
  if coefSet b n linear then BitVec.ofInt 32 (rawCoef (b + i)) else if i = mid then BitVec.ofNat 32 (2 ^ 30) else 0#32
/-- DEC_ACOEF[i]: FAST linear and minimum phase, BALANCED, QUIET (R101, R116). -/
def acoef (i : Nat) : BitVec 32 :=
  if i < 97 then coefOf 0 97 48 true i
  else if i < 194 then coefOf 97 97 20 false (i - 97)
  else if i < 451 then coefOf 194 257 128 true (i - 194)
  else if i < 964 then coefOf 451 513 256 true (i - 451) else 0#32
/-- A device's own value in a range the manual states. -/
opaque rawFuse : (kind i : Nat) → Nat
/-- CNV_STRIM.FACT of lane L, the production delay code, 32 to 96 (R84). -/
def fact (l : Nat) : Nat := 32 + rawFuse 0 l % 65
/-- CNV_SUBGAIN production word of bay b: two signed gains within 2 000 ppm (R99). -/
def subgain (b : Nat) : Word :=
  (BitVec.ofInt 16 ((rawFuse 1 (2 * b + 1) % 4001 : Nat) - 2000 : Int)) ++ BitVec.ofInt 16 ((rawFuse 1 (2 * b) % 4001 : Nat) - 2000 : Int)
/-- A tree loop's code, 32 to 224 (R99); the loops are analogue. -/
def treeCode (n : Nat) : Nat := 32 + n % 193
/-- CNV_TREE production word of bay b (R99). -/
def tree (b : Nat) : Word := BitVec.ofNat 32 (treeCode (rawFuse 2 (2 * b)) + 256 * treeCode (rawFuse 2 (2 * b + 1)))
/-- CNV_LOFS production value of lane L, signed, within 1 024 units of 1/16 raw LSB, as a 16-bit pattern (R99). -/
def lofs (l : Nat) : Nat := (BitVec.ofInt 16 ((rawFuse 3 l % 2049 : Nat) - 1024 : Int)).toNat
/-- The hold instant of lane L with TRIM = 0, in ps after its nominal instant: within 5 ns of it and within 2 ns of every other lane's
(R25, R84). -/
def holdPs (l : Nat) : Int := ((rawFuse 4 0 % 8001 : Nat) - 4000 : Int) + ((rawFuse 5 l % 2001 : Nat) - 1000 : Int)
/-- The production gain factor of lane L, in units of 2^-24 (R88 step 3). -/
opaque prodGain : Nat → Nat
/-- The production input capacitance C_IN of lane L in fF, 25 pF within 5 pF (R130, R440). -/
def cin (l : Nat) : Nat := 20000 + rawFuse 6 l % 10001
/-- SEC_DEVID, the device identity (R430). -/
opaque devId : BitVec 64
/-- The bytes of the identity modulus, but for what makes it a modulus of R419. -/
opaque rawPub : Nat → Byte
/-- SEC_DEVPUB, the identity modulus, big-endian: 4 096 bits, odd (R419, R430). -/
def devPub (i : Nat) : Byte := if i = 0 then rawPub i ||| 0x80#8 else if i = 511 then rawPub i ||| 1#8 else rawPub i
/-- The private exponent that belongs to the identity modulus (R430, R431): it has no register. -/
opaque devKey : Nat
/-- Whether a RESET_N pulse of the given length between 200 ns and 1 us resets the device (R443 leaves it open). -/
opaque resetPulse : Nat → Bool

/-! ### Free values: results the manual does not state -/

/-- A fresh unstated word; the step applies it to State.freeIx and advances that counter. -/
opaque freeWord : Nat → BitVec 32
/-- A fresh unstated natural number. -/
opaque freeNat : Nat → Nat
/-- A fresh unstated truth value. -/
opaque freeBool : Nat → Bool
/-- Which of the two nearest integers a rounding "to nearest" takes on a tie where the manual names no rule. -/
opaque tieUp : Nat → Bool

/-- Sign and payload of the NaN that operation `op` gives from its operands (R242 names no pattern). -/
opaque nanBits : (op : Nat) → BitVec 32 → BitVec 32 → BitVec 32
/-- Which operand MINF (0) and MAXF (1) return for a comparison of +0 with -0 (R242 names none). -/
opaque zeroPick : Nat → BitVec 32 → BitVec 32 → Bool

/-! ### Deviations of real functions (R107, R152, R175, R182); Reals.lean bounds them -/

/-- Which of the two neighbours in binary32 the device gives for a real that is none itself (R138). -/
opaque roundUp : Rat → Bool
/-- By how much the device's evaluation of function `fn` at x and y deviates. -/
opaque deviation : (fn : Nat) → Rat → Rat → Rat
/-- How a real value is written in a .cfg file (R287 names the values and no format). -/
opaque realText : Rat → List (BitVec 8)

end Sys2Proof.Config
end

