-- ==== Sys2Proof/Machine/Bits.lean ====
section
/-!
DEFINITION. Sys2Proof/Machine/Bits.lean: bit fields (R4), byte order (R5) and two's complement.
-/
namespace Sys2Proof

/-- NAME[hi:lo] of a word, both bounds inclusive (R4). -/
def field (w : Word) (hi lo : Nat) : Nat := w.toNat / 2 ^ lo % 2 ^ (hi + 1 - lo)

/-- The word with NAME[hi:lo] replaced by v, taken modulo the field's width (R4). -/
def setField (w : Word) (hi lo v : Nat) : Word :=
  BitVec.ofNat 32
    (w.toNat % 2 ^ lo + 2 ^ lo * (v % 2 ^ (hi + 1 - lo)) + 2 ^ (hi + 1) * (w.toNat / 2 ^ (hi + 1)))

/-- NAME[n] of a word (R4). -/
def bit (w : Word) (n : Nat) : Bool := w.getLsbD n

/-- The word with NAME[n] replaced (R4). -/
def setBit (w : Word) (n : Nat) (b : Bool) : Word := setField w n n b.toNat

/-- Bit n of a natural number. -/
def natBit (x n : Nat) : Bool := x / 2 ^ n % 2 == 1

/-- A Boolean as 0 or 1. -/
def b2n (b : Bool) : Nat := b.toNat

/-- x with bit n replaced. -/
def natSetBit (x n : Nat) (b : Bool) : Nat :=
  x % 2 ^ n + 2 ^ n * b.toNat + 2 ^ (n + 1) * (x / 2 ^ (n + 1))

/-- The low n bytes of a number, least significant first (R5). -/
def bytesLE : Nat → Nat → List Byte
  | 0, _ => []
  | n + 1, v => BitVec.ofNat 8 v :: bytesLE n (v / 256)

/-- The number that little-endian bytes spell (R5). -/
def fromLE : List Byte → Nat
  | [] => 0
  | b :: bs => b.toNat + 256 * fromLE bs

/-- The number that octets spell most significant first (octet strings of R5). -/
def fromBE (bs : List Byte) : Nat := bs.foldl (fun a b => a * 256 + b.toNat) 0

/-- The low n bytes of a number, most significant first. -/
def bytesBE (n v : Nat) : List Byte := (bytesLE n v).reverse

/-- The n bytes from offset i of a byte list, missing ones absent. -/
def slice (bs : List Byte) (i n : Nat) : List Byte := (bs.drop i).take n

/-- The little-endian number in bytes i .. i+n-1. -/
def leAt (bs : List Byte) (i n : Nat) : Nat := fromLE (slice bs i n)

/-- The low `bits` bits of x read as two's complement. -/
def sext (bits x : Nat) : Int :=
  let y := x % 2 ^ bits
  if y < 2 ^ (bits - 1) then (y : Int) else (y : Int) - (2 ^ bits : Nat)

/-- An integer as a two's complement pattern of `bits` bits. -/
def toTwos (bits : Nat) (x : Int) : Nat := (x % (2 ^ bits : Nat)).toNat

/-- The integer clamped into lo .. hi. -/
def clampInt (lo hi x : Int) : Int := if x < lo then lo else if hi < x then hi else x

/-- x + 1, held at the bound (a saturating counter). -/
def satInc (bound x : Nat) : Nat := if x < bound then x + 1 else bound

/-- x + n, held at the bound. -/
def satAdd (bound x n : Nat) : Nat := if x + n < bound then x + n else bound

/-- Division rounded up. -/
def ceilDiv (a b : Nat) : Nat := (a + b - 1) / b

/-- The integer nearest to num/den, ties to even (den > 0). -/
def roundEven (num : Int) (den : Nat) : Int :=
  let q := num / (den : Int)
  let r := num % (den : Int)
  if 2 * r < den then q
  else if (den : Int) < 2 * r then q + 1
  else if q % 2 = 0 then q else q + 1

/-- The integer nearest to num/den, ties upward (den > 0). -/
def roundUp (num : Int) (den : Nat) : Int := (2 * num + (den : Int)) / (2 * (den : Int))

/-- List access with a default. -/
def nth {α : Type} (d : α) (l : List α) (i : Nat) : α := l.getD i d

/-- The list with entry i replaced by f of it; unchanged beyond its end. -/
def modAt {α : Type} (l : List α) (i : Nat) (f : α → α) : List α := l.modify i f

/-- Whether frame counter value `now` has reached `due`, modulo 2^32 (R39). -/
def frameReached (now due : Nat) : Bool := (now + 2 ^ 32 - due % 2 ^ 32) % 2 ^ 32 < 2 ^ 31

end Sys2Proof
end

