-- ==== Sys2Proof/Machine/RegMap.lean ====
section
/-!
DEFINITION. Sys2Proof/Machine/RegMap.lean: the registers of the blocks in BAR0 (R17), each with its place, its access
code (R7) and its reset value (R8), from the register tables of the chapters. A register is named by its BAR0 offset;
registers that exist once per port (HQ, the setting window of R193, BAR2) are named by that offset plus a port tag.
-/
namespace Sys2Proof

/-- One row of a register table: `n1` windows `s1` apart, each holding `n2` registers `s2` apart; the bits a write
stores (rw), clears (w1c) and acts on without storing (wo); the reset value; the rsv bits, which must be written zero. -/
structure RegRow where
  name : String
  base : Nat
  n1 : Nat
  s1 : Nat
  n2 : Nat
  s2 : Nat
  rw : Word
  w1c : Word
  wo : Word
  reset : Word
  rsv : Word
deriving DecidableEq, Repr

namespace Reg

def SYS_ID : Nat := 0x000000
def SYS_VER : Nat := 0x000004
def SYS_STAT : Nat := 0x000010
def SYS_MODE : Nat := 0x000014
def SYS_MODE_REQ : Nat := 0x000018
def SYS_MODE_RES : Nat := 0x00001C
def SYS_MODE_FRAME : Nat := 0x000020
def SYS_SAFE_CAUSE : Nat := 0x000024
def SYS_SAFE_FRAME : Nat := 0x000028
def SYS_RESET : Nat := 0x000030
def SYS_TEST : Nat := 0x000034
def SYS_TESTPAT : Nat := 0x000038
def SYS_LINKCNT : Nat := 0x000040
def PWR_PACK : Nat := 0x010000
def PWR_PACKSTAT : Nat := 0x010004
def PWR_REF : Nat := 0x010008
def PWR_TRIAD : Nat := 0x01000C
def PWR_CAP : Nat := 0x010100
def PWR_TJMAX : Nat := 0x010104
def PWR_TAU : Nat := 0x010108
def PWR_RTH : Nat := 0x01010C
def PWR_PMEAS : Nat := 0x010110
def PWR_THOT : Nat := 0x010114
def PWR_THETA : Nat := 0x010118
def PWR_ALLOW : Nat := 0x01011C
def PWR_BSTAT : Nat := 0x010120
def PWR_ODEF_TOT_LO : Nat := 0x010128
def PWR_ODEF_TOT_HI : Nat := 0x01012C
def PWR_ODEF (i : Nat) : Nat := 0x010200 + 0x8 * i
def PWR_ODROP (i : Nat) : Nat := 0x010204 + 0x8 * i
def AFE_LANE (i : Nat) : Nat := 0x020000 + 0x4 * i
def AFE_INJ (i : Nat) : Nat := 0x020400 + 0x4 * i
def AFE_LSTAT (i : Nat) : Nat := 0x020800 + 0x4 * i
def AFE_OVRCNT (i : Nat) : Nat := 0x020C00 + 0x4 * i
def CNV_CTRL (i : Nat) : Nat := 0x030000 + 0x100 * i
def CNV_STAT (i : Nat) : Nat := 0x030004 + 0x100 * i
def CNV_SUBGAIN (i : Nat) : Nat := 0x030008 + 0x100 * i
def CNV_TREE (i : Nat) : Nat := 0x03000C + 0x100 * i
def CNV_LTRIM (i j : Nat) : Nat := 0x030020 + 0x100 * i + 4 * j
def CNV_STRIM (i j : Nat) : Nat := 0x030040 + 0x100 * i + 4 * j
def CNV_SKEW (i j : Nat) : Nat := 0x030060 + 0x100 * i + 4 * j
def CNV_DCMEAS (i j : Nat) : Nat := 0x030080 + 0x100 * i + 4 * j
def CNV_LOFS (i j : Nat) : Nat := 0x0300A0 + 0x100 * i + 4 * j
def DEC_LANE (i : Nat) : Nat := 0x040000 + 0x4 * i
def DEC_HI (i : Nat) : Nat := 0x040800 + 0x4 * i
def DEC_HH (i : Nat) : Nat := 0x041000 + 0x4 * i
def DEC_TSTAT (i : Nat) : Nat := 0x041800 + 0x4 * i
def DEC_LSTAT (i : Nat) : Nat := 0x042000 + 0x4 * i
def DEC_ACOEF (i : Nat) : Nat := 0x044000 + 0x4 * i
def AUX_CFG : Nat := 0x050000
def AUX_MASK_LO : Nat := 0x050004
def AUX_MASK_HI : Nat := 0x050008
def AUX_CMP : Nat := 0x05000C
def AUX_GO : Nat := 0x050010
def AUX_URG : Nat := 0x050014
def AUX_URGRES : Nat := 0x050018
def AUX_STAT : Nat := 0x05001C
def AUX_RES (i : Nat) : Nat := 0x050100 + 0x4 * i
def SNF_CMD : Nat := 0x060000
def SNF_STAT : Nat := 0x060004
def SNF_BAYS : Nat := 0x060008
def SNF_DOMASK : Nat := 0x06000C
def SNF_SUPSTAT : Nat := 0x060010
def SNF_INT (i : Nat) : Nat := 0x060100 + 0x4 * i
def SNF_REC (i : Nat) : Nat := 0x068000 + 0x4 * i
def MSR_CFG (i : Nat) : Nat := 0x070000 + 0x400 * i
def MSR_FSTAT (i : Nat) : Nat := 0x070004 + 0x400 * i
def MSR_FRAME (i : Nat) : Nat := 0x070008 + 0x400 * i
def MSR_QUAL (i : Nat) : Nat := 0x07000C + 0x400 * i
def MSR_QUAL2 (i : Nat) : Nat := 0x070010 + 0x400 * i
def MSR_FREQ (i : Nat) : Nat := 0x070020 + 0x400 * i
def MSR_ROCOF (i : Nat) : Nat := 0x070024 + 0x400 * i
def MSR_MAG (i j : Nat) : Nat := 0x070040 + 0x400 * i + 8 * j
def MSR_ANG (i j : Nat) : Nat := 0x070044 + 0x400 * i + 8 * j
def MSR_RMS (i j : Nat) : Nat := 0x070080 + 0x400 * i + 4 * j
def MSR_ISEQ (i j : Nat) : Nat := 0x0700A0 + 0x400 * i + 4 * j
def MSR_VSEQ (i j : Nat) : Nat := 0x0700B8 + 0x400 * i + 4 * j
def MSR_PQ (i j : Nat) : Nat := 0x0700E0 + 0x400 * i + 4 * j
def MSR_PTOT (i j : Nat) : Nat := 0x0700F8 + 0x400 * i + 4 * j
def MSR_THD (i j : Nat) : Nat := 0x070120 + 0x400 * i + 4 * j
def MSR_HMASK (i : Nat) : Nat := 0x070200 + 0x400 * i
def MSR_SYNC (i : Nat) : Nat := 0x070204 + 0x400 * i
def MSR_HFRAME (i : Nat) : Nat := 0x070208 + 0x400 * i
def PEL_ICFG (i : Nat) : Nat := 0x080000 + 0x20 * i
def PEL_ISTAT (i : Nat) : Nat := 0x080004 + 0x20 * i
def PEL_IFLAG (i : Nat) : Nat := 0x080008 + 0x20 * i
def PEL_ICNT (i : Nat) : Nat := 0x08000C + 0x20 * i
def PEL_IVAL (i : Nat) : Nat := 0x080010 + 0x20 * i
def PEL_IACC (i : Nat) : Nat := 0x080014 + 0x20 * i
def PEL_ICTRL (i : Nat) : Nat := 0x080018 + 0x20 * i
def PEL_ZCFG (i : Nat) : Nat := 0x088000 + 0x20 * i
def PEL_ZSTAT (i : Nat) : Nat := 0x088004 + 0x20 * i
def PEL_ZMEM_LO (i : Nat) : Nat := 0x088008 + 0x20 * i
def PEL_ZMEM_HI (i : Nat) : Nat := 0x08800C + 0x20 * i
def PEL_ZID (i : Nat) : Nat := 0x088010 + 0x20 * i
def PEL_ZIR (i : Nat) : Nat := 0x088014 + 0x20 * i
def PEL_ZCNT (i : Nat) : Nat := 0x088018 + 0x20 * i
def PEL_ZFLAG (i : Nat) : Nat := 0x08801C + 0x20 * i
def PEL_SIDX : Nat := 0x08C000
def PEL_SDATA : Nat := 0x08C004
def PEL_SCOMMIT : Nat := 0x08C008
def PEL_SSTAT : Nat := 0x08C00C
def PEL_NINST : Nat := 0x08F000
def PEL_POISCNT : Nat := 0x08F004
def PEL_LASTPOIS : Nat := 0x08F008
def PEL_LASTPFRM : Nat := 0x08F00C
def TWV_LCFG (i : Nat) : Nat := 0x090000 + 0x10 * i
def TWV_LCORR (i : Nat) : Nat := 0x090004 + 0x10 * i
def TWV_LLAST (i : Nat) : Nat := 0x090008 + 0x10 * i
def TWV_LSTAT (i : Nat) : Nat := 0x09000C + 0x10 * i
def TWV_BCFG (i : Nat) : Nat := 0x092000 + 0x40 * i
def TWV_LEN (i : Nat) : Nat := 0x092004 + 0x40 * i
def TWV_VEL (i : Nat) : Nat := 0x092008 + 0x40 * i
def TWV_RTHR (i : Nat) : Nat := 0x09200C + 0x40 * i
def TWV_BLAST_EV (i : Nat) : Nat := 0x092010 + 0x40 * i
def TWV_BLAST_NS (i : Nat) : Nat := 0x092014 + 0x40 * i
def TWV_BLAST_SECLO (i : Nat) : Nat := 0x092018 + 0x40 * i
def TWV_BLAST_SECHI (i : Nat) : Nat := 0x09201C + 0x40 * i
def TWV_LOC_D1 (i : Nat) : Nat := 0x092020 + 0x40 * i
def TWV_LOC_D2 (i : Nat) : Nat := 0x092024 + 0x40 * i
def TWV_LOC_STAT (i : Nat) : Nat := 0x092028 + 0x40 * i
def TWV_DREM_NS (i : Nat) : Nat := 0x09202C + 0x40 * i
def TWV_DREM_SECLO (i : Nat) : Nat := 0x092030 + 0x40 * i
def TWV_DREM_SECHI (i : Nat) : Nat := 0x092034 + 0x40 * i
def TWV_DEVNO (i : Nat) : Nat := 0x092038 + 0x40 * i
def TWV_DCMD (i : Nat) : Nat := 0x09203C + 0x40 * i
def TWV_GDLY : Nat := 0x09F000
def TWV_EVNO : Nat := 0x09F004
def TWV_GSTAT : Nat := 0x09F008
def TWV_GIVEUP : Nat := 0x09F00C
def ENG_FRAME : Nat := 0x0A0000
def ENG_FSEC : Nat := 0x0A0004
def ENG_PLAN : Nat := 0x0A0008
def ENG_ADM_STAT : Nat := 0x0A0010
def ENG_ADM_SLOT : Nat := 0x0A0014
def ENG_ADM_LOAD : Nat := 0x0A0018
def ENG_SLOTLOAD (i : Nat) : Nat := 0x0A0400 + 0x4 * i
def ENG_POLICY : Nat := 0x0A0800
def ENG_TSTAT : Nat := 0x0A0804
def ENG_FAULT : Nat := 0x0A0808
def ENG_FAULT_FRAME : Nat := 0x0A080C
def ENG_FAULT_CYC : Nat := 0x0A0810
def ENG_HEEL : Nat := 0x0A0814
def ENG_IAGR : Nat := 0x0A0818
def ENG_SWEEP : Nat := 0x0A081C
def ENG_VTEST : Nat := 0x0A0820
def ENG_XCNT : Nat := 0x0A0824
def ENG_DRVSTAT : Nat := 0x0A0828
def ENG_ISIG_LO : Nat := 0x0A0830
def ENG_ISIG_HI : Nat := 0x0A0834
def SLX_PSTAT (i : Nat) : Nat := 0x0B0000 + 0x4000 * i
def SLX_PCHK (i : Nat) : Nat := 0x0B0004 + 0x4000 * i
def SLX_SWAP (i : Nat) : Nat := 0x0B0008 + 0x4000 * i
def SLX_CHGCNT (i : Nat) : Nat := 0x0B000C + 0x4000 * i
def SLX_VIDX (i : Nat) : Nat := 0x0B0010 + 0x4000 * i
def SLX_VVID (i : Nat) : Nat := 0x0B0014 + 0x4000 * i
def SLX_VDATA (i : Nat) : Nat := 0x0B0018 + 0x4000 * i
def SLX_FIDX (i : Nat) : Nat := 0x0B0020 + 0x4000 * i
def SLX_FVAL (i : Nat) : Nat := 0x0B0024 + 0x4000 * i
def SLX_FVID (i : Nat) : Nat := 0x0B0028 + 0x4000 * i
def SLX_FCMD (i : Nat) : Nat := 0x0B002C + 0x4000 * i
def SLX_TCFG (i j : Nat) : Nat := 0x0B0100 + 0x4000 * i + 16 * j
def SLX_TCOST (i j : Nat) : Nat := 0x0B0104 + 0x4000 * i + 16 * j
def SLX_TSTAT (i j : Nat) : Nat := 0x0B0108 + 0x4000 * i + 16 * j
def SLX_TCNT (i j : Nat) : Nat := 0x0B010C + 0x4000 * i + 16 * j
def SLX_HVAL (i j : Nat) : Nat := 0x0B0200 + 0x4000 * i + 4 * j
def SLX_FTAB (i j : Nat) : Nat := 0x0B0400 + 0x4000 * i + 8 * j
def SLX_FTABV (i j : Nat) : Nat := 0x0B0404 + 0x4000 * i + 8 * j
def ACQ_RCFG (i : Nat) : Nat := 0x0C0000 + 0x800 * i
def ACQ_RPRE (i : Nat) : Nat := 0x0C0004 + 0x800 * i
def ACQ_RPOST (i : Nat) : Nat := 0x0C0008 + 0x800 * i
def ACQ_RSEG (i : Nat) : Nat := 0x0C000C + 0x800 * i
def ACQ_RCTRL (i : Nat) : Nat := 0x0C0010 + 0x800 * i
def ACQ_RSTAT (i : Nat) : Nat := 0x0C0014 + 0x800 * i
def ACQ_TEN (i : Nat) : Nat := 0x0C0018 + 0x800 * i
def ACQ_RCNT (i : Nat) : Nat := 0x0C001C + 0x800 * i
def ACQ_RLOST (i : Nat) : Nat := 0x0C0020 + 0x800 * i
def ACQ_SLOST_LO (i : Nat) : Nat := 0x0C0024 + 0x800 * i
def ACQ_SLOST_HI (i : Nat) : Nat := 0x0C0028 + 0x800 * i
def ACQ_LTRIG_NS (i : Nat) : Nat := 0x0C0030 + 0x800 * i
def ACQ_LTRIG_SECLO (i : Nat) : Nat := 0x0C0034 + 0x800 * i
def ACQ_LTRIG_SECHI (i : Nat) : Nat := 0x0C0038 + 0x800 * i
def ACQ_LTRIG_FRM (i : Nat) : Nat := 0x0C003C + 0x800 * i
def ACQ_BUFBASE (i : Nat) : Nat := 0x0C0040 + 0x800 * i
def ACQ_BUFSZ (i : Nat) : Nat := 0x0C0044 + 0x800 * i
def ACQ_DIGSZ (i : Nat) : Nat := 0x0C0048 + 0x800 * i
def ACQ_BW (i : Nat) : Nat := 0x0C004C + 0x800 * i
def ACQ_TRIG (i j : Nat) : Nat := 0x0C0100 + 0x800 * i + 4 * j
def ACQ_MCFG (i j : Nat) : Nat := 0x0C0200 + 0x800 * i + 4 * j
def ACQ_MPT (i j : Nat) : Nat := 0x0C0300 + 0x800 * i + 4 * j
def ACQ_GBW_WEST : Nat := 0x0CF000
def ACQ_GBW_EAST : Nat := 0x0CF004
def ACQ_FMT : Nat := 0x0CF008
def ACQ_PCHK : Nat := 0x0CF00C
def ACQ_UTCOFS : Nat := 0x0CF010
def ACQ_TQ : Nat := 0x0CF014
def EVL_LCFG (i : Nat) : Nat := 0x0D0000 + 0x1000 * i
def EVL_LCTRL (i : Nat) : Nat := 0x0D0004 + 0x1000 * i
def EVL_LSTAT (i : Nat) : Nat := 0x0D0008 + 0x1000 * i
def EVL_LBASE (i : Nat) : Nat := 0x0D000C + 0x1000 * i
def EVL_LFEND (i : Nat) : Nat := 0x0D0010 + 0x1000 * i
def EVL_LWPTR (i : Nat) : Nat := 0x0D0014 + 0x1000 * i
def EVL_LOLD (i : Nat) : Nat := 0x0D0018 + 0x1000 * i
def EVL_LRECS (i : Nat) : Nat := 0x0D001C + 0x1000 * i
def EVL_LLOST (i : Nat) : Nat := 0x0D0020 + 0x1000 * i
def EVL_LRPTR (i : Nat) : Nat := 0x0D0024 + 0x1000 * i
def EVL_LRSTAT (i : Nat) : Nat := 0x0D0028 + 0x1000 * i
def EVL_LRWIN (i j : Nat) : Nat := 0x0D0100 + 0x1000 * i + 4 * j
def EVL_KCTRL : Nat := 0x0D8004
def EVL_KSTAT : Nat := 0x0D8008
def EVL_KFEND : Nat := 0x0D8010
def EVL_KWPTR : Nat := 0x0D8014
def EVL_KOLD : Nat := 0x0D8018
def EVL_KRECS : Nat := 0x0D801C
def EVL_KLOST : Nat := 0x0D8020
def EVL_KRPTR : Nat := 0x0D8024
def EVL_KRSTAT : Nat := 0x0D8028
def EVL_KRWIN (i : Nat) : Nat := 0x0D8100 + 0x4 * i
def EVL_GSEQ : Nat := 0x0DF000
def EVL_GWRAP : Nat := 0x0DF004
def EVL_GCOAL : Nat := 0x0DF008
def TIM_NS : Nat := 0x0E0000
def TIM_NSEC : Nat := 0x0E0004
def TIM_SECLO : Nat := 0x0E0008
def TIM_SECHI : Nat := 0x0E000C
def TIM_WRAP : Nat := 0x0E0010
def TIM_FREQ : Nat := 0x0E0020
def TIM_STEP : Nat := 0x0E0024
def TIM_SLEW : Nat := 0x0E0028
def TIM_SLEWR : Nat := 0x0E002C
def TIM_CMD : Nat := 0x0E0030
def TIM_SETSECLO : Nat := 0x0E0034
def TIM_SETSECHI : Nat := 0x0E0038
def TIM_STAT : Nat := 0x0E003C
def TIM_SLEWREM : Nat := 0x0E0040
def TIM_STEPCNT : Nat := 0x0E0044
def TIM_PPSOUT : Nat := 0x0E0050
def TIM_PPSADV : Nat := 0x0E0054
def TIM_PPSIN_CFG : Nat := 0x0E0060
def TIM_PPSIN_NS : Nat := 0x0E0064
def TIM_PPSIN_NSEC : Nat := 0x0E0068
def TIM_PPSIN_SECLO : Nat := 0x0E006C
def TIM_PPSIN_SECHI : Nat := 0x0E0070
def TIM_PPSIN_STAT : Nat := 0x0E0074
def TIM_PRXLAT (i : Nat) : Nat := 0x0E0100 + 0x20 * i
def TIM_PTXLAT (i : Nat) : Nat := 0x0E0104 + 0x20 * i
def TIM_PEG_NS (i : Nat) : Nat := 0x0E0108 + 0x20 * i
def TIM_PEG_NSEC (i : Nat) : Nat := 0x0E010C + 0x20 * i
def TIM_PEG_SECLO (i : Nat) : Nat := 0x0E0110 + 0x20 * i
def TIM_PEG_SECHI (i : Nat) : Nat := 0x0E0114 + 0x20 * i
def TIM_PEG_ID (i : Nat) : Nat := 0x0E0118 + 0x20 * i
def PBX_PCFG (i : Nat) : Nat := 0x0F0000 + 0x40 * i
def PBX_PSTAT (i : Nat) : Nat := 0x0F0004 + 0x40 * i
def PBX_MACLO (i : Nat) : Nat := 0x0F0008 + 0x40 * i
def PBX_MACHI (i : Nat) : Nat := 0x0F000C + 0x40 * i
def PBX_RXFRM (i : Nat) : Nat := 0x0F0010 + 0x40 * i
def PBX_RXERR (i : Nat) : Nat := 0x0F0014 + 0x40 * i
def PBX_RXDROP (i : Nat) : Nat := 0x0F0018 + 0x40 * i
def PBX_TXFRM (i : Nat) : Nat := 0x0F001C + 0x40 * i
def PBX_PRPDUP (i : Nat) : Nat := 0x0F0020 + 0x40 * i
def PBX_PRPLAN (i : Nat) : Nat := 0x0F0024 + 0x40 * i
def PBX_PRXSTAT (i : Nat) : Nat := 0x0F0028 + 0x40 * i
def PBX_PRXCTL (i : Nat) : Nat := 0x0F002C + 0x40 * i
def PBX_PTXCTL (i : Nat) : Nat := 0x0F0030 + 0x40 * i
def PBX_GPCFG (i : Nat) : Nat := 0x0F0400 + 0x10 * i
def PBX_GPST (i : Nat) : Nat := 0x0F0404 + 0x10 * i
def PBX_GPSQ (i : Nat) : Nat := 0x0F0408 + 0x10 * i
def PBX_GPCHG (i : Nat) : Nat := 0x0F040C + 0x10 * i
def PBX_GSCFG (i : Nat) : Nat := 0x0F1000 + 0x10 * i
def PBX_GSSTAT (i : Nat) : Nat := 0x0F1004 + 0x10 * i
def PBX_GSLAST (i : Nat) : Nat := 0x0F1008 + 0x10 * i
def PBX_GSCNT (i : Nat) : Nat := 0x0F100C + 0x10 * i
def PBX_SVCFG (i : Nat) : Nat := 0x0F2000 + 0x20 * i
def PBX_SVSTAT (i : Nat) : Nat := 0x0F2004 + 0x20 * i
def PBX_SVLAST (i : Nat) : Nat := 0x0F2008 + 0x20 * i
def PBX_SVMISS (i : Nat) : Nat := 0x0F200C + 0x20 * i
def PBX_SVHELD (i : Nat) : Nat := 0x0F2010 + 0x20 * i
def PBX_SVCNT (i : Nat) : Nat := 0x0F2014 + 0x20 * i
def PBX_PTX (i j : Nat) : Nat := 0x0F4000 + 0x1000 * i + 4 * j
def PBX_PRX (i j : Nat) : Nat := 0x0F4400 + 0x1000 * i + 4 * j
def PBX_PCHK : Nat := 0x0FF000
def PBX_DSV : Nat := 0x0FF004
def PBX_GTQ : Nat := 0x0FF008
def FIO_DICFG (i : Nat) : Nat := 0x100000 + 0x4 * i
def FIO_DISTAT (i : Nat) : Nat := 0x100100 + 0x4 * i
def FIO_DILAST (i : Nat) : Nat := 0x100200 + 0x4 * i
def FIO_FCOUNT (i : Nat) : Nat := 0x100300 + 0x10 * i
def FIO_FPERIOD (i : Nat) : Nat := 0x100304 + 0x10 * i
def FIO_FSTAT (i : Nat) : Nat := 0x100308 + 0x10 * i
def FIO_FCTL (i : Nat) : Nat := 0x10030C + 0x10 * i
def FIO_DOCFG (i : Nat) : Nat := 0x100400 + 0x4 * i
def FIO_DOSTAT (i : Nat) : Nat := 0x100480 + 0x4 * i
def FIO_DOFLAG (i : Nat) : Nat := 0x100500 + 0x4 * i
def FIO_DOCNT (i : Nat) : Nat := 0x100580 + 0x4 * i
def FIO_DORES (i : Nat) : Nat := 0x100600 + 0x4 * i
def FIO_BSTAT (i : Nat) : Nat := 0x100700 + 0x4 * i
def FIO_BFLAG (i : Nat) : Nat := 0x100710 + 0x4 * i
def FIO_DOPWR (i : Nat) : Nat := 0x100720 + 0x4 * i
def FIO_SAFEPAT : Nat := 0x100800
def FIO_APPLIED : Nat := 0x100804
def FIO_CMDFRM : Nat := 0x100808
def FIO_BDROP : Nat := 0x100810
def HQ_PSTAT : Nat := 0x110000
def HQ_PERR : Nat := 0x110004
def HQ_ISTAT : Nat := 0x110008
def HQ_IEN : Nat := 0x11000C
def HQ_CMDBASE_LO : Nat := 0x110100
def HQ_CMDBASE_HI : Nat := 0x110104
def HQ_CMDSIZE : Nat := 0x110108
def HQ_CMDCTL : Nat := 0x11010C
def HQ_CMDSTAT : Nat := 0x110110
def HQ_CPLBASE_LO : Nat := 0x110120
def HQ_CPLBASE_HI : Nat := 0x110124
def HQ_CPLSIZE : Nat := 0x110128
def HQ_CPLCTL : Nat := 0x11012C
def HQ_CPLSTAT : Nat := 0x110130
def HQ_EVQ_BASE_LO : Nat := 0x110140
def HQ_EVQ_BASE_HI : Nat := 0x110144
def HQ_EVQ_SIZE : Nat := 0x110148
def HQ_EVQ_WB_LO : Nat := 0x11014C
def HQ_EVQ_WB_HI : Nat := 0x110150
def HQ_EVQ_CTL : Nat := 0x110154
def HQ_EVQ_PROD : Nat := 0x110158
def HQ_EVQ_LOST : Nat := 0x11015C
def HQ_RCQ_BASE_LO : Nat := 0x110160
def HQ_RCQ_BASE_HI : Nat := 0x110164
def HQ_RCQ_SIZE : Nat := 0x110168
def HQ_RCQ_WB_LO : Nat := 0x11016C
def HQ_RCQ_WB_HI : Nat := 0x110170
def HQ_RCQ_CTL : Nat := 0x110174
def HQ_RCQ_PROD : Nat := 0x110178
def HQ_RCQ_LOST : Nat := 0x11017C
def HQ_MSQ_BASE_LO : Nat := 0x110180
def HQ_MSQ_BASE_HI : Nat := 0x110184
def HQ_MSQ_SIZE : Nat := 0x110188
def HQ_MSQ_WB_LO : Nat := 0x11018C
def HQ_MSQ_WB_HI : Nat := 0x110190
def HQ_MSQ_CTL : Nat := 0x110194
def HQ_MSQ_PROD : Nat := 0x110198
def HQ_MSQ_LOST : Nat := 0x11019C
def MEM_CFG : Nat := 0x120000
def MEM_LASTUE_REG : Nat := 0x120004
def MEM_LASTUE_ADDR : Nat := 0x120008
def MEM_LASTUE_FRM : Nat := 0x12000C
def MEM_RCE (i : Nat) : Nat := 0x120100 + 0x20 * i
def MEM_RUE (i : Nat) : Nat := 0x120104 + 0x20 * i
def MEM_RBKT (i : Nat) : Nat := 0x120108 + 0x20 * i
def MEM_RBKTCFG (i : Nat) : Nat := 0x12010C + 0x20 * i
def MEM_RLAST (i : Nat) : Nat := 0x120110 + 0x20 * i
def MEM_RSCRUB (i : Nat) : Nat := 0x120114 + 0x20 * i
def MEM_RSPARE (i : Nat) : Nat := 0x120118 + 0x20 * i
def MEM_RFLAG (i : Nat) : Nat := 0x12011C + 0x20 * i
def MEM_TREG : Nat := 0x120400
def MEM_TADDR : Nat := 0x120404
def MEM_TDATA : Nat := 0x120408
def MEM_TCHK : Nat := 0x12040C
def MEM_TCTL : Nat := 0x120410
def MEM_TRDATA : Nat := 0x120414
def MEM_TRSTAT : Nat := 0x120418
def SEC_STAT : Nat := 0x130000
def SEC_VRES : Nat := 0x130004
def SEC_VITEM : Nat := 0x130008
def SEC_LOADCMD : Nat := 0x13000C
def SEC_RB : Nat := 0x130010
def SEC_BUILD : Nat := 0x130014
def SEC_DSEQ (i : Nat) : Nat := 0x130018 + 0x4 * i
def SEC_DEVID_LO : Nat := 0x130030
def SEC_DEVID_HI : Nat := 0x130034
def SEC_FUSECMD : Nat := 0x130040
def SEC_PEDHASH (i : Nat) : Nat := 0x130100 + 0x4 * i
def SEC_PARTHASH (i j : Nat) : Nat := 0x130140 + 0x40 * i + 4 * j
def SEC_ANCHOR (i j : Nat) : Nat := 0x130300 + 0x40 * i + 4 * j
def SEC_FUSEDATA (i : Nat) : Nat := 0x130400 + 0x4 * i
def SEC_DEVPUB (i : Nat) : Nat := 0x130800 + 0x4 * i
def SEC_DEVPUBHASH (i : Nat) : Nat := 0x130A00 + 0x4 * i

end Reg

/-- The registers of block SYS. -/
def regsSYS : List RegRow :=
  [⟨"SYS_ID", 0x000000, 1, 0x0, 1, 0, 0x00000000#32, 0x00000000#32, 0x00000000#32, 0x82561F7A#32, 0x00000000#32⟩,
   ⟨"SYS_VER", 0x000004, 1, 0x0, 1, 0, 0x00000000#32, 0x00000000#32, 0x00000000#32, 0x00000000#32, 0xFFFF0000#32⟩,
   ⟨"SYS_STAT", 0x000010, 1, 0x0, 1, 0, 0x00000000#32, 0x00000000#32, 0x00000000#32, 0x00000010#32, 0xFFFFFC07#32⟩,
   ⟨"SYS_MODE", 0x000014, 1, 0x0, 1, 0, 0x00000000#32, 0x00000000#32, 0x00000000#32, 0x00000000#32, 0xFFFFFF88#32⟩,
   ⟨"SYS_MODE_REQ", 0x000018, 1, 0x0, 1, 0, 0x00000007#32, 0x00000000#32, 0x00000000#32, 0x00000000#32, 0x7FFFFFF8#32⟩,
   ⟨"SYS_MODE_RES", 0x00001C, 1, 0x0, 1, 0, 0x00000000#32, 0x00000000#32, 0x00000000#32, 0x00000000#32, 0x1FFFFF00#32⟩,
   ⟨"SYS_MODE_FRAME", 0x000020, 1, 0x0, 1, 0, 0x00000000#32, 0x00000000#32, 0x00000000#32, 0x00000000#32, 0x00000000#32⟩,
   ⟨"SYS_SAFE_CAUSE", 0x000024, 1, 0x0, 1, 0, 0x00000000#32, 0x00000000#32, 0x00000000#32, 0x00000000#32, 0xFFFFFFF0#32⟩,
   ⟨"SYS_SAFE_FRAME", 0x000028, 1, 0x0, 1, 0, 0x00000000#32, 0x00000000#32, 0x00000000#32, 0x00000000#32, 0x00000000#32⟩,
   ⟨"SYS_RESET", 0x000030, 1, 0x0, 1, 0, 0x00000000#32, 0x00000000#32, 0x0000FFFF#32, 0x00000000#32, 0xFFFF0000#32⟩,
   ⟨"SYS_TEST", 0x000034, 1, 0x0, 1, 0, 0x00000001#32, 0x00000000#32, 0x00000000#32, 0x00000000#32, 0xFFFFFFFE#32⟩,
   ⟨"SYS_TESTPAT", 0x000038, 1, 0x0, 1, 0, 0xFFFFFFFF#32, 0x00000000#32, 0x00000000#32, 0x00000000#32, 0x00000000#32⟩]
  ++ [⟨"SYS_LINKCNT", 0x000040, 1, 0x0, 1, 0, 0x00000000#32, 0x00000000#32, 0x00000000#32, 0x00000000#32, 0x00000000#32⟩]

/-- The registers of block PWR. -/
def regsPWR : List RegRow :=
  [⟨"PWR_PACK", 0x010000, 1, 0x0, 1, 0, 0x000000FF#32, 0x00000000#32, 0x00000000#32, 0x00000000#32, 0xFFFFFF00#32⟩,
   ⟨"PWR_PACKSTAT", 0x010004, 1, 0x0, 1, 0, 0x00000000#32, 0x00000000#32, 0x00000000#32, 0x00000000#32, 0x88888888#32⟩,
   ⟨"PWR_REF", 0x010008, 1, 0x0, 1, 0, 0x00000007#32, 0x00000000#32, 0x00000000#32, 0x00000000#32, 0xFFFFFFF8#32⟩,
   ⟨"PWR_TRIAD", 0x01000C, 1, 0x0, 1, 0, 0x00000001#32, 0x00010000#32, 0x00000000#32, 0x00000000#32, 0xFFFEFCFE#32⟩,
   ⟨"PWR_CAP", 0x010100, 1, 0x0, 1, 0, 0x0000FFFF#32, 0x00000000#32, 0x00000000#32, 0x00000000#32, 0xFFFF0000#32⟩,
   ⟨"PWR_TJMAX", 0x010104, 1, 0x0, 1, 0, 0x000000FF#32, 0x00000000#32, 0x00000000#32, 0x00000000#32, 0xFFFFFF00#32⟩,
   ⟨"PWR_TAU", 0x010108, 1, 0x0, 1, 0, 0x00000000#32, 0x00000000#32, 0x00000000#32, 0x00000000#32, 0xFFFF0000#32⟩,
   ⟨"PWR_RTH", 0x01010C, 1, 0x0, 1, 0, 0x00000000#32, 0x00000000#32, 0x00000000#32, 0x00000000#32, 0xFFFF0000#32⟩,
   ⟨"PWR_PMEAS", 0x010110, 1, 0x0, 1, 0, 0x00000000#32, 0x00000000#32, 0x00000000#32, 0x00000000#32, 0xFFFF0000#32⟩,
   ⟨"PWR_THOT", 0x010114, 1, 0x0, 1, 0, 0x00000000#32, 0x00000000#32, 0x00000000#32, 0x00000000#32, 0xFFFC0000#32⟩,
   ⟨"PWR_THETA", 0x010118, 1, 0x0, 1, 0, 0x00000000#32, 0x00000000#32, 0x00000000#32, 0x00000000#32, 0xFFFF0000#32⟩,
   ⟨"PWR_ALLOW", 0x01011C, 1, 0x0, 1, 0, 0x00000000#32, 0x00000000#32, 0x00000000#32, 0x00000000#32, 0x00000000#32⟩]
  ++ [⟨"PWR_BSTAT", 0x010120, 1, 0x0, 1, 0, 0x00000000#32, 0x0000000C#32, 0x00000000#32, 0x00000000#32, 0xFFFFFFF0#32⟩,
   ⟨"PWR_ODEF_TOT_LO", 0x010128, 1, 0x0, 1, 0, 0x00000000#32, 0x00000000#32, 0x00000000#32, 0x00000000#32, 0x00000000#32⟩,
   ⟨"PWR_ODEF_TOT_HI", 0x01012C, 1, 0x0, 1, 0, 0x00000000#32, 0x00000000#32, 0x00000000#32, 0x00000000#32, 0x00000000#32⟩,
   ⟨"PWR_ODEF", 0x010200, 64, 0x8, 1, 0, 0x00000000#32, 0x00000000#32, 0x00000000#32, 0x00000000#32, 0x00000000#32⟩,
   ⟨"PWR_ODROP", 0x010204, 64, 0x8, 1, 0, 0x00000000#32, 0x00000000#32, 0x00000000#32, 0x00000000#32, 0x00000000#32⟩]

/-- The registers of block AFE. -/
def regsAFE : List RegRow :=
  [⟨"AFE_LANE", 0x020000, 256, 0x4, 1, 0, 0x00000033#32, 0x00000000#32, 0x00000000#32, 0x00000000#32, 0x7FFFFFCC#32⟩,
   ⟨"AFE_INJ", 0x020400, 256, 0x4, 1, 0, 0x00000073#32, 0x00000000#32, 0x00000000#32, 0x00000000#32, 0x3FFFFF8C#32⟩,
   ⟨"AFE_LSTAT", 0x020800, 256, 0x4, 1, 0, 0x00000000#32, 0x0000C000#32, 0x00000000#32, 0x00000000#32, 0xFFFF01CC#32⟩,
   ⟨"AFE_OVRCNT", 0x020C00, 256, 0x4, 1, 0, 0x00000000#32, 0x00000000#32, 0x00000000#32, 0x00000000#32, 0x00000000#32⟩]

/-- The registers of block CNV. -/
def regsCNV : List RegRow :=
  [⟨"CNV_CTRL", 0x030000, 32, 0x100, 1, 4, 0x000000F1#32, 0x00000000#32, 0x00000002#32, 0x00000000#32, 0xFFFFFF0C#32⟩,
   ⟨"CNV_STAT", 0x030004, 32, 0x100, 1, 4, 0x00000000#32, 0x00000000#32, 0x00000000#32, 0x00000000#32, 0xFFFFFFF0#32⟩,
   ⟨"CNV_SUBGAIN", 0x030008, 32, 0x100, 1, 4, 0x00000000#32, 0x00000000#32, 0x00000000#32, 0x00000000#32, 0x00000000#32⟩,
   ⟨"CNV_TREE", 0x03000C, 32, 0x100, 1, 4, 0x00000000#32, 0x00000000#32, 0x00000000#32, 0x00000000#32, 0xFFFF0000#32⟩,
   ⟨"CNV_LTRIM", 0x030020, 32, 0x100, 8, 4, 0xFFFFFFFF#32, 0x00000000#32, 0x00000000#32, 0x00000000#32, 0x00000000#32⟩,
   ⟨"CNV_STRIM", 0x030040, 32, 0x100, 8, 4, 0x000000FF#32, 0x00000000#32, 0x00000000#32, 0x00000000#32, 0x0080FF00#32⟩,
   ⟨"CNV_SKEW", 0x030060, 32, 0x100, 8, 4, 0x00000000#32, 0x00000000#32, 0x00000000#32, 0x00000000#32, 0x7FFF0000#32⟩,
   ⟨"CNV_DCMEAS", 0x030080, 32, 0x100, 8, 4, 0x00000000#32, 0x00000000#32, 0x00000000#32, 0x00000000#32, 0x7F000000#32⟩,
   ⟨"CNV_LOFS", 0x0300A0, 32, 0x100, 8, 4, 0x00000000#32, 0x00000000#32, 0x00000000#32, 0x00000000#32, 0xFFFF0000#32⟩]

/-- The registers of block DEC. -/
def regsDEC : List RegRow :=
  [⟨"DEC_LANE", 0x040000, 384, 0x4, 1, 0, 0x00FF0713#32, 0x00000000#32, 0x00000000#32, 0x00000000#32, 0x7F00F8EC#32⟩,
   ⟨"DEC_HI", 0x040800, 384, 0x4, 1, 0, 0xFFFFFFFF#32, 0x00000000#32, 0x00000000#32, 0x00000000#32, 0x00000000#32⟩,
   ⟨"DEC_HH", 0x041000, 384, 0x4, 1, 0, 0xFFFFFFFF#32, 0x00000000#32, 0x00000000#32, 0x00000000#32, 0x00000000#32⟩,
   ⟨"DEC_TSTAT", 0x041800, 384, 0x4, 1, 0, 0x00000000#32, 0x00000018#32, 0x00000000#32, 0x00000000#32, 0x0000FFC4#32⟩,
   ⟨"DEC_LSTAT", 0x042000, 384, 0x4, 1, 0, 0x00000000#32, 0x80000000#32, 0x00000000#32, 0x00000000#32, 0x7000FF03#32⟩,
   ⟨"DEC_ACOEF", 0x044000, 964, 0x4, 1, 0, 0x00000000#32, 0x00000000#32, 0x00000000#32, 0x00000000#32, 0x00000000#32⟩]

/-- The registers of block AUX. -/
def regsAUX : List RegRow :=
  [⟨"AUX_CFG", 0x050000, 1, 0x0, 1, 0, 0xFF3F0F03#32, 0x00000000#32, 0x00000000#32, 0x00000000#32, 0x00C0F0FC#32⟩,
   ⟨"AUX_MASK_LO", 0x050004, 1, 0x0, 1, 0, 0xFFFFFFFF#32, 0x00000000#32, 0x00000000#32, 0x00000000#32, 0x00000000#32⟩,
   ⟨"AUX_MASK_HI", 0x050008, 1, 0x0, 1, 0, 0x0000FFFF#32, 0x00000000#32, 0x00000000#32, 0x00000000#32, 0xFFFF0000#32⟩,
   ⟨"AUX_CMP", 0x05000C, 1, 0x0, 1, 0, 0xFFFFFFFF#32, 0x00000000#32, 0x00000000#32, 0x00000000#32, 0x00000000#32⟩,
   ⟨"AUX_GO", 0x050010, 1, 0x0, 1, 0, 0x00000000#32, 0x00000000#32, 0x00000001#32, 0x00000000#32, 0xFFFFFFFE#32⟩,
   ⟨"AUX_URG", 0x050014, 1, 0x0, 1, 0, 0x0000003F#32, 0x00000000#32, 0x00000000#32, 0x00000000#32, 0x7FFFFFC0#32⟩,
   ⟨"AUX_URGRES", 0x050018, 1, 0x0, 1, 0, 0x00000000#32, 0x00000000#32, 0x00000000#32, 0x00000000#32, 0x7FC00000#32⟩,
   ⟨"AUX_STAT", 0x05001C, 1, 0x0, 1, 0, 0x00000000#32, 0x00000004#32, 0x00000000#32, 0x00000000#32, 0x000000F0#32⟩,
   ⟨"AUX_RES", 0x050100, 32, 0x4, 1, 0, 0x00000000#32, 0x00000000#32, 0x00000000#32, 0x00000000#32, 0x00000000#32⟩]

/-- The registers of block SNF. -/
def regsSNF : List RegRow :=
  [⟨"SNF_CMD", 0x060000, 1, 0x0, 1, 0, 0x0000003F#32, 0x00000000#32, 0x00000000#32, 0x00000000#32, 0x3FFFFFC0#32⟩,
   ⟨"SNF_STAT", 0x060004, 1, 0x0, 1, 0, 0x00000000#32, 0x00000000#32, 0x00000000#32, 0x00000000#32, 0x00C00000#32⟩,
   ⟨"SNF_BAYS", 0x060008, 1, 0x0, 1, 0, 0xFFFFFFFF#32, 0x00000000#32, 0x00000000#32, 0xFFFFFFFF#32, 0x00000000#32⟩,
   ⟨"SNF_DOMASK", 0x06000C, 1, 0x0, 1, 0, 0xFFFFFFFF#32, 0x00000000#32, 0x00000000#32, 0xFFFFFFFF#32, 0x00000000#32⟩,
   ⟨"SNF_SUPSTAT", 0x060010, 1, 0x0, 1, 0, 0x00000000#32, 0x00000000#32, 0x00000000#32, 0x00000000#32, 0x7FFF0000#32⟩,
   ⟨"SNF_INT", 0x060100, 32, 0x4, 1, 0, 0x00000000#32, 0x00000000#32, 0x00000000#32, 0x00000000#32, 0x7FFF0000#32⟩,
   ⟨"SNF_REC", 0x068000, 436, 0x4, 1, 0, 0x00000000#32, 0x00000000#32, 0x00000000#32, 0x00000000#32, 0x00000000#32⟩]

/-- The registers of block MSR. -/
def regsMSR : List RegRow :=
  [⟨"MSR_CFG", 0x070000, 48, 0x400, 1, 4, 0xFFFFF737#32, 0x00000000#32, 0x00000000#32, 0x00000000#32, 0x000008C8#32⟩,
   ⟨"MSR_FSTAT", 0x070004, 48, 0x400, 1, 4, 0x00000000#32, 0x00000000#32, 0x00000000#32, 0x00000000#32, 0x7F0000F0#32⟩,
   ⟨"MSR_FRAME", 0x070008, 48, 0x400, 1, 4, 0x00000000#32, 0x00000000#32, 0x00000000#32, 0x00000000#32, 0x00000000#32⟩,
   ⟨"MSR_QUAL", 0x07000C, 48, 0x400, 1, 4, 0x00000000#32, 0x00000000#32, 0x00000000#32, 0x00000000#32, 0x00000000#32⟩,
   ⟨"MSR_QUAL2", 0x070010, 48, 0x400, 1, 4, 0x00000000#32, 0x00000000#32, 0x00000000#32, 0x00000000#32, 0xFFFFF800#32⟩,
   ⟨"MSR_FREQ", 0x070020, 48, 0x400, 1, 4, 0x00000000#32, 0x00000000#32, 0x00000000#32, 0x00000000#32, 0x00000000#32⟩,
   ⟨"MSR_ROCOF", 0x070024, 48, 0x400, 1, 4, 0x00000000#32, 0x00000000#32, 0x00000000#32, 0x00000000#32, 0x00000000#32⟩,
   ⟨"MSR_MAG", 0x070040, 48, 0x400, 8, 8, 0x00000000#32, 0x00000000#32, 0x00000000#32, 0x00000000#32, 0x00000000#32⟩,
   ⟨"MSR_ANG", 0x070044, 48, 0x400, 8, 8, 0x00000000#32, 0x00000000#32, 0x00000000#32, 0x00000000#32, 0x00000000#32⟩,
   ⟨"MSR_RMS", 0x070080, 48, 0x400, 8, 4, 0x00000000#32, 0x00000000#32, 0x00000000#32, 0x00000000#32, 0x00000000#32⟩,
   ⟨"MSR_ISEQ", 0x0700A0, 48, 0x400, 6, 4, 0x00000000#32, 0x00000000#32, 0x00000000#32, 0x00000000#32, 0x00000000#32⟩,
   ⟨"MSR_VSEQ", 0x0700B8, 48, 0x400, 6, 4, 0x00000000#32, 0x00000000#32, 0x00000000#32, 0x00000000#32, 0x00000000#32⟩]
  ++ [⟨"MSR_PQ", 0x0700E0, 48, 0x400, 6, 4, 0x00000000#32, 0x00000000#32, 0x00000000#32, 0x00000000#32, 0x00000000#32⟩,
   ⟨"MSR_PTOT", 0x0700F8, 48, 0x400, 4, 4, 0x00000000#32, 0x00000000#32, 0x00000000#32, 0x00000000#32, 0x00000000#32⟩,
   ⟨"MSR_THD", 0x070120, 48, 0x400, 8, 4, 0x00000000#32, 0x00000000#32, 0x00000000#32, 0x00000000#32, 0x00000000#32⟩,
   ⟨"MSR_HMASK", 0x070200, 48, 0x400, 1, 4, 0x000000FF#32, 0x00000000#32, 0x00000000#32, 0x00000000#32, 0xFFFFFF00#32⟩,
   ⟨"MSR_SYNC", 0x070204, 48, 0x400, 1, 4, 0x0000000F#32, 0x00000000#32, 0x00000000#32, 0x00000000#32, 0x00000FF0#32⟩,
   ⟨"MSR_HFRAME", 0x070208, 48, 0x400, 1, 4, 0x00000000#32, 0x00000000#32, 0x00000000#32, 0x00000000#32, 0x00000000#32⟩]

/-- The registers of block PEL. -/
def regsPEL : List RegRow :=
  [⟨"PEL_ICFG", 0x080000, 1024, 0x20, 1, 0, 0x00000000#32, 0x00000000#32, 0x00000000#32, 0x00000000#32, 0x6000CFC0#32⟩,
   ⟨"PEL_ISTAT", 0x080004, 1024, 0x20, 1, 0, 0x00000000#32, 0x00000000#32, 0x00000000#32, 0x00000000#32, 0x00000000#32⟩,
   ⟨"PEL_IFLAG", 0x080008, 1024, 0x20, 1, 0, 0x00000000#32, 0x0000001F#32, 0x00000000#32, 0x00000000#32, 0xFFFFFFE0#32⟩,
   ⟨"PEL_ICNT", 0x08000C, 1024, 0x20, 1, 0, 0x00000000#32, 0x00000000#32, 0x00000000#32, 0x00000000#32, 0x00000000#32⟩,
   ⟨"PEL_IVAL", 0x080010, 1024, 0x20, 1, 0, 0x00000000#32, 0x00000000#32, 0x00000000#32, 0x00000000#32, 0x00000000#32⟩,
   ⟨"PEL_IACC", 0x080014, 1024, 0x20, 1, 0, 0x00000000#32, 0x00000000#32, 0x00000000#32, 0x00000000#32, 0x00000000#32⟩,
   ⟨"PEL_ICTRL", 0x080018, 1024, 0x20, 1, 0, 0x00000001#32, 0x00000000#32, 0x00000002#32, 0x00000000#32, 0xFFFFFFFC#32⟩,
   ⟨"PEL_ZCFG", 0x088000, 8, 0x20, 1, 0, 0x00000000#32, 0x00000000#32, 0x00000000#32, 0x00000000#32, 0x00000000#32⟩,
   ⟨"PEL_ZSTAT", 0x088004, 8, 0x20, 1, 0, 0x00000000#32, 0x00000000#32, 0x00000000#32, 0x00000000#32, 0x00000000#32⟩,
   ⟨"PEL_ZMEM_LO", 0x088008, 8, 0x20, 1, 0, 0x00000000#32, 0x00000000#32, 0x00000000#32, 0x00000000#32, 0x00000000#32⟩,
   ⟨"PEL_ZMEM_HI", 0x08800C, 8, 0x20, 1, 0, 0x00000000#32, 0x00000000#32, 0x00000000#32, 0x00000000#32, 0x00000000#32⟩,
   ⟨"PEL_ZID", 0x088010, 8, 0x20, 1, 0, 0x00000000#32, 0x00000000#32, 0x00000000#32, 0x00000000#32, 0x00000000#32⟩]
  ++ [⟨"PEL_ZIR", 0x088014, 8, 0x20, 1, 0, 0x00000000#32, 0x00000000#32, 0x00000000#32, 0x00000000#32, 0x00000000#32⟩,
   ⟨"PEL_ZCNT", 0x088018, 8, 0x20, 1, 0, 0x00000000#32, 0x00000000#32, 0x00000000#32, 0x00000000#32, 0x00000000#32⟩,
   ⟨"PEL_ZFLAG", 0x08801C, 8, 0x20, 1, 0, 0x00000000#32, 0x00000007#32, 0x00000000#32, 0x00000000#32, 0xFFFFFFF8#32⟩,
   ⟨"PEL_SIDX", 0x08C000, 1, 0x0, 1, 0, 0x07FF007F#32, 0x00000000#32, 0x00000000#32, 0x00000000#32, 0xF800FF80#32⟩,
   ⟨"PEL_SDATA", 0x08C004, 1, 0x0, 1, 0, 0xFFFFFFFF#32, 0x00000000#32, 0x00000000#32, 0x00000000#32, 0x00000000#32⟩,
   ⟨"PEL_SCOMMIT", 0x08C008, 1, 0x0, 1, 0, 0x00000000#32, 0x00000000#32, 0x00000001#32, 0x00000000#32, 0xFFFFFFFE#32⟩,
   ⟨"PEL_SSTAT", 0x08C00C, 1, 0x0, 1, 0, 0x00000000#32, 0x00000000#32, 0x00000000#32, 0x00000000#32, 0x3F00FFF0#32⟩,
   ⟨"PEL_NINST", 0x08F000, 1, 0x0, 1, 0, 0x00000000#32, 0x00000000#32, 0x00000000#32, 0x00000000#32, 0x00000000#32⟩,
   ⟨"PEL_POISCNT", 0x08F004, 1, 0x0, 1, 0, 0x00000000#32, 0x00000000#32, 0x00000000#32, 0x00000000#32, 0x00000000#32⟩,
   ⟨"PEL_LASTPOIS", 0x08F008, 1, 0x0, 1, 0, 0x00000000#32, 0x00000000#32, 0x00000000#32, 0x00000000#32, 0x00000000#32⟩,
   ⟨"PEL_LASTPFRM", 0x08F00C, 1, 0x0, 1, 0, 0x00000000#32, 0x00000000#32, 0x00000000#32, 0x00000000#32, 0x00000000#32⟩]

/-- The registers of block TWV. -/
def regsTWV : List RegRow :=
  [⟨"TWV_LCFG", 0x090000, 256, 0x10, 1, 0, 0x8003FFFF#32, 0x00000000#32, 0x00000000#32, 0x00000000#32, 0x7FFC0000#32⟩,
   ⟨"TWV_LCORR", 0x090004, 256, 0x10, 1, 0, 0x0000FFFF#32, 0x00000000#32, 0x00000000#32, 0x00000000#32, 0xFFFF0000#32⟩,
   ⟨"TWV_LLAST", 0x090008, 256, 0x10, 1, 0, 0x00000000#32, 0x00000000#32, 0x00000000#32, 0x00000000#32, 0x00000000#32⟩,
   ⟨"TWV_LSTAT", 0x09000C, 256, 0x10, 1, 0, 0x00000000#32, 0x00000000#32, 0x00000000#32, 0x00000000#32, 0x000000FE#32⟩,
   ⟨"TWV_BCFG", 0x092000, 32, 0x40, 1, 0, 0x00FFCFFF#32, 0x00000000#32, 0x00000000#32, 0x00000000#32, 0xFF003000#32⟩,
   ⟨"TWV_LEN", 0x092004, 32, 0x40, 1, 0, 0xFFFFFFFF#32, 0x00000000#32, 0x00000000#32, 0x00000000#32, 0x00000000#32⟩,
   ⟨"TWV_VEL", 0x092008, 32, 0x40, 1, 0, 0xFFFFFFFF#32, 0x00000000#32, 0x00000000#32, 0x00000000#32, 0x00000000#32⟩,
   ⟨"TWV_RTHR", 0x09200C, 32, 0x40, 1, 0, 0x0003FFFF#32, 0x00000000#32, 0x00000000#32, 0x00000000#32, 0xFFFC0000#32⟩,
   ⟨"TWV_BLAST_EV", 0x092010, 32, 0x40, 1, 0, 0x00000000#32, 0x00000000#32, 0x00000000#32, 0x00000000#32, 0x00000000#32⟩,
   ⟨"TWV_BLAST_NS", 0x092014, 32, 0x40, 1, 0, 0x00000000#32, 0x00000000#32, 0x00000000#32, 0x00000000#32, 0x00000000#32⟩,
   ⟨"TWV_BLAST_SECLO", 0x092018, 32, 0x40, 1, 0, 0x00000000#32, 0x00000000#32, 0x00000000#32, 0x00000000#32, 0x00000000#32⟩,
   ⟨"TWV_BLAST_SECHI", 0x09201C, 32, 0x40, 1, 0, 0x00000000#32, 0x00000000#32, 0x00000000#32, 0x00000000#32, 0xFFFF0000#32⟩]
  ++ [⟨"TWV_LOC_D1", 0x092020, 32, 0x40, 1, 0, 0x00000000#32, 0x00000000#32, 0x00000000#32, 0x00000000#32, 0x00000000#32⟩,
   ⟨"TWV_LOC_D2", 0x092024, 32, 0x40, 1, 0, 0x00000000#32, 0x00000000#32, 0x00000000#32, 0x00000000#32, 0x00000000#32⟩,
   ⟨"TWV_LOC_STAT", 0x092028, 32, 0x40, 1, 0, 0x00000000#32, 0x00000000#32, 0x00000000#32, 0x00000000#32, 0x00000000#32⟩,
   ⟨"TWV_DREM_NS", 0x09202C, 32, 0x40, 1, 0, 0xFFFFFFFF#32, 0x00000000#32, 0x00000000#32, 0x00000000#32, 0x00000000#32⟩,
   ⟨"TWV_DREM_SECLO", 0x092030, 32, 0x40, 1, 0, 0xFFFFFFFF#32, 0x00000000#32, 0x00000000#32, 0x00000000#32, 0x00000000#32⟩,
   ⟨"TWV_DREM_SECHI", 0x092034, 32, 0x40, 1, 0, 0x0000FFFF#32, 0x00000000#32, 0x00000000#32, 0x00000000#32, 0xFFFF0000#32⟩,
   ⟨"TWV_DEVNO", 0x092038, 32, 0x40, 1, 0, 0xFFFFFFFF#32, 0x00000000#32, 0x00000000#32, 0x00000000#32, 0x00000000#32⟩,
   ⟨"TWV_DCMD", 0x09203C, 32, 0x40, 1, 0, 0x00000000#32, 0x00000000#32, 0x00000001#32, 0x00000000#32, 0x70FFFFFE#32⟩,
   ⟨"TWV_GDLY", 0x09F000, 1, 0x0, 1, 0, 0x00000000#32, 0x00000000#32, 0x00000000#32, 0x00000453#32, 0x00000000#32⟩,
   ⟨"TWV_EVNO", 0x09F004, 1, 0x0, 1, 0, 0x00000000#32, 0x00000000#32, 0x00000000#32, 0x00000000#32, 0x00000000#32⟩,
   ⟨"TWV_GSTAT", 0x09F008, 1, 0x0, 1, 0, 0x00000000#32, 0x00000000#32, 0x00000000#32, 0x00000000#32, 0x00000000#32⟩,
   ⟨"TWV_GIVEUP", 0x09F00C, 1, 0x0, 1, 0, 0x00000000#32, 0x00000000#32, 0x00000000#32, 0x00000000#32, 0x00000000#32⟩]

/-- The registers of block ENG. -/
def regsENG : List RegRow :=
  [⟨"ENG_FRAME", 0x0A0000, 1, 0x0, 1, 0, 0x00000000#32, 0x00000000#32, 0x00000000#32, 0x00000000#32, 0x00000000#32⟩,
   ⟨"ENG_FSEC", 0x0A0004, 1, 0x0, 1, 0, 0x00000000#32, 0x00000000#32, 0x00000000#32, 0x00000000#32, 0xFFFFC000#32⟩,
   ⟨"ENG_PLAN", 0x0A0008, 1, 0x0, 1, 0, 0x00000000#32, 0x00000000#32, 0x00000000#32, 0x00000000#32, 0x00000000#32⟩,
   ⟨"ENG_ADM_STAT", 0x0A0010, 1, 0x0, 1, 0, 0x00000000#32, 0x00000000#32, 0x00000000#32, 0x00000000#32, 0x0FF00000#32⟩,
   ⟨"ENG_ADM_SLOT", 0x0A0014, 1, 0x0, 1, 0, 0x00000000#32, 0x00000000#32, 0x00000000#32, 0x00000000#32, 0xFFFE0000#32⟩,
   ⟨"ENG_ADM_LOAD", 0x0A0018, 1, 0x0, 1, 0, 0x00000000#32, 0x00000000#32, 0x00000000#32, 0x00000000#32, 0xFF000000#32⟩,
   ⟨"ENG_SLOTLOAD", 0x0A0400, 256, 0x4, 1, 0, 0x00000000#32, 0x00000000#32, 0x00000000#32, 0x00000000#32, 0xFFFF0000#32⟩,
   ⟨"ENG_POLICY", 0x0A0800, 1, 0x0, 1, 0, 0x00000000#32, 0x00000000#32, 0x00000000#32, 0x00000000#32, 0xFFFFFFFE#32⟩,
   ⟨"ENG_TSTAT", 0x0A0804, 1, 0x0, 1, 0, 0x00000000#32, 0x00000000#32, 0x00000000#32, 0x00000077#32, 0xFFFFFC88#32⟩,
   ⟨"ENG_FAULT", 0x0A0808, 1, 0x0, 1, 0, 0x00000000#32, 0x00000000#32, 0x00000000#32, 0x00000000#32, 0x00030000#32⟩,
   ⟨"ENG_FAULT_FRAME", 0x0A080C, 1, 0x0, 1, 0, 0x00000000#32, 0x00000000#32, 0x00000000#32, 0x00000000#32, 0x00000000#32⟩,
   ⟨"ENG_FAULT_CYC", 0x0A0810, 1, 0x0, 1, 0, 0x00000000#32, 0x00000000#32, 0x00000000#32, 0x00000000#32, 0xFFFE0000#32⟩]
  ++ [⟨"ENG_HEEL", 0x0A0814, 1, 0x0, 1, 0, 0x00000030#32, 0x00000000#32, 0x00000001#32, 0x00000000#32, 0x3000FFCE#32⟩,
   ⟨"ENG_IAGR", 0x0A0818, 1, 0x0, 1, 0, 0x00000000#32, 0x00000000#32, 0x00000000#32, 0x00000000#32, 0x00000000#32⟩,
   ⟨"ENG_SWEEP", 0x0A081C, 1, 0x0, 1, 0, 0x00000000#32, 0x00000000#32, 0x00000000#32, 0x00000000#32, 0x0000FE00#32⟩,
   ⟨"ENG_VTEST", 0x0A0820, 1, 0x0, 1, 0, 0x00000000#32, 0x00070000#32, 0x00000000#32, 0x00000000#32, 0x7FF8FFF8#32⟩,
   ⟨"ENG_XCNT", 0x0A0824, 1, 0x0, 1, 0, 0x00000000#32, 0x00000000#32, 0x00000000#32, 0x00000000#32, 0x00000000#32⟩,
   ⟨"ENG_DRVSTAT", 0x0A0828, 1, 0x0, 1, 0, 0x00000000#32, 0x00000000#32, 0x00000000#32, 0x00000000#32, 0x00000000#32⟩,
   ⟨"ENG_ISIG_LO", 0x0A0830, 1, 0x0, 1, 0, 0x00000000#32, 0x00000000#32, 0x00000000#32, 0x00000000#32, 0x00000000#32⟩,
   ⟨"ENG_ISIG_HI", 0x0A0834, 1, 0x0, 1, 0, 0x00000000#32, 0x00000000#32, 0x00000000#32, 0x00000000#32, 0x00000000#32⟩]

/-- The registers of block SLX. -/
def regsSLX : List RegRow :=
  [⟨"SLX_PSTAT", 0x0B0000, 4, 0x4000, 1, 4, 0x00000000#32, 0x00000000#32, 0x00000000#32, 0x00000000#32, 0x00000000#32⟩,
   ⟨"SLX_PCHK", 0x0B0004, 4, 0x4000, 1, 4, 0x00000000#32, 0x00000000#32, 0x00000000#32, 0x00000000#32, 0x00000000#32⟩,
   ⟨"SLX_SWAP", 0x0B0008, 4, 0x4000, 1, 4, 0x00000000#32, 0x00000000#32, 0x00000000#32, 0x00000000#32, 0x00000000#32⟩,
   ⟨"SLX_CHGCNT", 0x0B000C, 4, 0x4000, 1, 4, 0x00000000#32, 0x00000000#32, 0x00000000#32, 0x00000000#32, 0x00000000#32⟩,
   ⟨"SLX_VIDX", 0x0B0010, 4, 0x4000, 1, 4, 0xB3FFFFFF#32, 0x00000000#32, 0x00000000#32, 0x00000000#32, 0x0C000000#32⟩,
   ⟨"SLX_VVID", 0x0B0014, 4, 0x4000, 1, 4, 0xFFFFFFFF#32, 0x00000000#32, 0x00000000#32, 0x00000000#32, 0x00000000#32⟩,
   ⟨"SLX_VDATA", 0x0B0018, 4, 0x4000, 1, 4, 0x00000000#32, 0x00000000#32, 0x00000000#32, 0x00000000#32, 0x00000000#32⟩,
   ⟨"SLX_FIDX", 0x0B0020, 4, 0x4000, 1, 4, 0x80071FFF#32, 0x00000000#32, 0x00000000#32, 0x00000000#32, 0x7FF8E000#32⟩,
   ⟨"SLX_FVAL", 0x0B0024, 4, 0x4000, 1, 4, 0xFFFFFFFF#32, 0x00000000#32, 0x00000000#32, 0x00000000#32, 0x00000000#32⟩,
   ⟨"SLX_FVID", 0x0B0028, 4, 0x4000, 1, 4, 0xFFFFFFFF#32, 0x00000000#32, 0x00000000#32, 0x00000000#32, 0x00000000#32⟩,
   ⟨"SLX_FCMD", 0x0B002C, 4, 0x4000, 1, 4, 0x00000000#32, 0x00000000#32, 0x00000003#32, 0x00000000#32, 0x70FFFFFC#32⟩,
   ⟨"SLX_TCFG", 0x0B0100, 4, 0x4000, 8, 16, 0x00000000#32, 0x00000000#32, 0x00000000#32, 0x00000000#32, 0x300000FF#32⟩]
  ++ [⟨"SLX_TCOST", 0x0B0104, 4, 0x4000, 8, 16, 0x00000000#32, 0x00000000#32, 0x00000000#32, 0x00000000#32, 0xFF000000#32⟩,
   ⟨"SLX_TSTAT", 0x0B0108, 4, 0x4000, 8, 16, 0x00000000#32, 0x00000030#32, 0x00000000#32, 0x00000000#32, 0x0000FF0F#32⟩,
   ⟨"SLX_TCNT", 0x0B010C, 4, 0x4000, 8, 16, 0x00000000#32, 0x00000000#32, 0x00000000#32, 0x00000000#32, 0x00000000#32⟩,
   ⟨"SLX_HVAL", 0x0B0200, 4, 0x4000, 64, 4, 0xFFFFFFFF#32, 0x00000000#32, 0x00000000#32, 0x00000000#32, 0x00000000#32⟩,
   ⟨"SLX_FTAB", 0x0B0400, 4, 0x4000, 256, 8, 0x00000000#32, 0x00000000#32, 0x00000000#32, 0x00000000#32, 0x00000000#32⟩,
   ⟨"SLX_FTABV", 0x0B0404, 4, 0x4000, 256, 8, 0x00000000#32, 0x00000000#32, 0x00000000#32, 0x00000000#32, 0x00000000#32⟩]

/-- The registers of block ACQ. -/
def regsACQ : List RegRow :=
  [⟨"ACQ_RCFG", 0x0C0000, 16, 0x800, 1, 4, 0x00000000#32, 0x00000000#32, 0x00000000#32, 0x00000000#32, 0x0007E000#32⟩,
   ⟨"ACQ_RPRE", 0x0C0004, 16, 0x800, 1, 4, 0x00000000#32, 0x00000000#32, 0x00000000#32, 0x00000000#32, 0xFF000000#32⟩,
   ⟨"ACQ_RPOST", 0x0C0008, 16, 0x800, 1, 4, 0x00000000#32, 0x00000000#32, 0x00000000#32, 0x00000000#32, 0xFF000000#32⟩,
   ⟨"ACQ_RSEG", 0x0C000C, 16, 0x800, 1, 4, 0x00000000#32, 0x00000000#32, 0x00000000#32, 0x00000000#32, 0xFF80E000#32⟩,
   ⟨"ACQ_RCTRL", 0x0C0010, 16, 0x800, 1, 4, 0x00000001#32, 0x00000000#32, 0x0000000E#32, 0x00000000#32, 0x7FFFFFF0#32⟩,
   ⟨"ACQ_RSTAT", 0x0C0014, 16, 0x800, 1, 4, 0x00000000#32, 0x08000000#32, 0x00000000#32, 0x00000000#32, 0x07FFE000#32⟩,
   ⟨"ACQ_TEN", 0x0C0018, 16, 0x800, 1, 4, 0x0000FFFF#32, 0x00000000#32, 0x00000000#32, 0x00000000#32, 0xFFFF0000#32⟩,
   ⟨"ACQ_RCNT", 0x0C001C, 16, 0x800, 1, 4, 0x00000000#32, 0x00000000#32, 0x00000000#32, 0x00000000#32, 0x00000000#32⟩,
   ⟨"ACQ_RLOST", 0x0C0020, 16, 0x800, 1, 4, 0x00000000#32, 0x00000000#32, 0x00000000#32, 0x00000000#32, 0x00000000#32⟩,
   ⟨"ACQ_SLOST_LO", 0x0C0024, 16, 0x800, 1, 4, 0x00000000#32, 0x00000000#32, 0x00000000#32, 0x00000000#32, 0x00000000#32⟩,
   ⟨"ACQ_SLOST_HI", 0x0C0028, 16, 0x800, 1, 4, 0x00000000#32, 0x00000000#32, 0x00000000#32, 0x00000000#32, 0x00000000#32⟩,
   ⟨"ACQ_LTRIG_NS", 0x0C0030, 16, 0x800, 1, 4, 0x00000000#32, 0x00000000#32, 0x00000000#32, 0x00000000#32, 0x00000000#32⟩]
  ++ [⟨"ACQ_LTRIG_SECLO", 0x0C0034, 16, 0x800, 1, 4, 0x00000000#32, 0x00000000#32, 0x00000000#32, 0x00000000#32, 0x00000000#32⟩,
   ⟨"ACQ_LTRIG_SECHI", 0x0C0038, 16, 0x800, 1, 4, 0x00000000#32, 0x00000000#32, 0x00000000#32, 0x00000000#32, 0xFFFF0000#32⟩,
   ⟨"ACQ_LTRIG_FRM", 0x0C003C, 16, 0x800, 1, 4, 0x00000000#32, 0x00000000#32, 0x00000000#32, 0x00000000#32, 0x00000000#32⟩,
   ⟨"ACQ_BUFBASE", 0x0C0040, 16, 0x800, 1, 4, 0x00000000#32, 0x00000000#32, 0x00000000#32, 0x00000000#32, 0x00000000#32⟩,
   ⟨"ACQ_BUFSZ", 0x0C0044, 16, 0x800, 1, 4, 0x00000000#32, 0x00000000#32, 0x00000000#32, 0x00000000#32, 0x00000000#32⟩,
   ⟨"ACQ_DIGSZ", 0x0C0048, 16, 0x800, 1, 4, 0x00000000#32, 0x00000000#32, 0x00000000#32, 0x00000000#32, 0x00000000#32⟩,
   ⟨"ACQ_BW", 0x0C004C, 16, 0x800, 1, 4, 0x00000000#32, 0x00000000#32, 0x00000000#32, 0x00000000#32, 0x00000000#32⟩,
   ⟨"ACQ_TRIG", 0x0C0100, 16, 0x800, 16, 4, 0x00000000#32, 0x00000000#32, 0x00000000#32, 0x00000000#32, 0x00000000#32⟩,
   ⟨"ACQ_MCFG", 0x0C0200, 16, 0x800, 4, 4, 0x00000000#32, 0x00000000#32, 0x00000000#32, 0x00000000#32, 0x300E0000#32⟩,
   ⟨"ACQ_MPT", 0x0C0300, 16, 0x800, 192, 4, 0x00000000#32, 0x00000000#32, 0x00000000#32, 0x00000000#32, 0x00000000#32⟩,
   ⟨"ACQ_GBW_WEST", 0x0CF000, 1, 0x0, 1, 0, 0x00000000#32, 0x00000000#32, 0x00000000#32, 0x00000000#32, 0x00000000#32⟩,
   ⟨"ACQ_GBW_EAST", 0x0CF004, 1, 0x0, 1, 0, 0x00000000#32, 0x00000000#32, 0x00000000#32, 0x00000000#32, 0x00000000#32⟩]
  ++ [⟨"ACQ_FMT", 0x0CF008, 1, 0x0, 1, 0, 0x00000000#32, 0x00000000#32, 0x00000000#32, 0x00000000#32, 0x00007FF0#32⟩,
   ⟨"ACQ_PCHK", 0x0CF00C, 1, 0x0, 1, 0, 0x00000000#32, 0x00000000#32, 0x00000000#32, 0x00000000#32, 0x00FF0000#32⟩,
   ⟨"ACQ_UTCOFS", 0x0CF010, 1, 0x0, 1, 0, 0xFFFFFFFF#32, 0x00000000#32, 0x00000000#32, 0x00000000#32, 0x00000000#32⟩,
   ⟨"ACQ_TQ", 0x0CF014, 1, 0x0, 1, 0, 0x0000003F#32, 0x00000000#32, 0x00000000#32, 0x00000000#32, 0xFFFFFFC0#32⟩]

/-- The registers of block EVL. -/
def regsEVL : List RegRow :=
  [⟨"EVL_LCFG", 0x0D0000, 4, 0x1000, 1, 4, 0x00000000#32, 0x00000000#32, 0x00000000#32, 0x00000000#32, 0x3FFFF800#32⟩,
   ⟨"EVL_LCTRL", 0x0D0004, 4, 0x1000, 1, 4, 0x00000001#32, 0x00000000#32, 0x00000002#32, 0x00000000#32, 0x7FFFFFFC#32⟩,
   ⟨"EVL_LSTAT", 0x0D0008, 4, 0x1000, 1, 4, 0x00000000#32, 0x40000000#32, 0x00000000#32, 0x00000000#32, 0x1FFFFF80#32⟩,
   ⟨"EVL_LBASE", 0x0D000C, 4, 0x1000, 1, 4, 0x00000000#32, 0x00000000#32, 0x00000000#32, 0x00000000#32, 0x00000000#32⟩,
   ⟨"EVL_LFEND", 0x0D0010, 4, 0x1000, 1, 4, 0x00000000#32, 0x00000000#32, 0x00000000#32, 0x00000000#32, 0x00000000#32⟩,
   ⟨"EVL_LWPTR", 0x0D0014, 4, 0x1000, 1, 4, 0x00000000#32, 0x00000000#32, 0x00000000#32, 0x00000000#32, 0x00000000#32⟩,
   ⟨"EVL_LOLD", 0x0D0018, 4, 0x1000, 1, 4, 0x00000000#32, 0x00000000#32, 0x00000000#32, 0x00000000#32, 0x00000000#32⟩,
   ⟨"EVL_LRECS", 0x0D001C, 4, 0x1000, 1, 4, 0x00000000#32, 0x00000000#32, 0x00000000#32, 0x00000000#32, 0x00000000#32⟩,
   ⟨"EVL_LLOST", 0x0D0020, 4, 0x1000, 1, 4, 0x00000000#32, 0x00000000#32, 0x00000000#32, 0x00000000#32, 0x00000000#32⟩,
   ⟨"EVL_LRPTR", 0x0D0024, 4, 0x1000, 1, 4, 0xFFFFFFFF#32, 0x00000000#32, 0x00000000#32, 0x00000000#32, 0x00000000#32⟩,
   ⟨"EVL_LRSTAT", 0x0D0028, 4, 0x1000, 1, 4, 0x00000000#32, 0x00000000#32, 0x00000000#32, 0x00000000#32, 0x7FFFFFFF#32⟩,
   ⟨"EVL_LRWIN", 0x0D0100, 4, 0x1000, 64, 4, 0x00000000#32, 0x00000000#32, 0x00000000#32, 0x00000000#32, 0x00000000#32⟩]
  ++ [⟨"EVL_KCTRL", 0x0D8004, 1, 0x0, 1, 0, 0x00000001#32, 0x00000000#32, 0x00000002#32, 0x00000000#32, 0x7FFFFFFC#32⟩,
   ⟨"EVL_KSTAT", 0x0D8008, 1, 0x0, 1, 0, 0x00000000#32, 0x58000000#32, 0x00000000#32, 0x00000000#32, 0x07FFFF80#32⟩,
   ⟨"EVL_KFEND", 0x0D8010, 1, 0x0, 1, 0, 0x00000000#32, 0x00000000#32, 0x00000000#32, 0x00000000#32, 0x00000000#32⟩,
   ⟨"EVL_KWPTR", 0x0D8014, 1, 0x0, 1, 0, 0x00000000#32, 0x00000000#32, 0x00000000#32, 0x00010000#32, 0x00000000#32⟩,
   ⟨"EVL_KOLD", 0x0D8018, 1, 0x0, 1, 0, 0x00000000#32, 0x00000000#32, 0x00000000#32, 0x00010000#32, 0x00000000#32⟩,
   ⟨"EVL_KRECS", 0x0D801C, 1, 0x0, 1, 0, 0x00000000#32, 0x00000000#32, 0x00000000#32, 0x00000000#32, 0x00000000#32⟩,
   ⟨"EVL_KLOST", 0x0D8020, 1, 0x0, 1, 0, 0x00000000#32, 0x00000000#32, 0x00000000#32, 0x00000000#32, 0x00000000#32⟩,
   ⟨"EVL_KRPTR", 0x0D8024, 1, 0x0, 1, 0, 0xFFFFFFFF#32, 0x00000000#32, 0x00000000#32, 0x00000000#32, 0x00000000#32⟩,
   ⟨"EVL_KRSTAT", 0x0D8028, 1, 0x0, 1, 0, 0x00000000#32, 0x00000000#32, 0x00000000#32, 0x00000000#32, 0x7FFFFFFF#32⟩,
   ⟨"EVL_KRWIN", 0x0D8100, 64, 0x4, 1, 0, 0x00000000#32, 0x00000000#32, 0x00000000#32, 0x00000000#32, 0x00000000#32⟩,
   ⟨"EVL_GSEQ", 0x0DF000, 1, 0x0, 1, 0, 0x00000000#32, 0x00000000#32, 0x00000000#32, 0x00000000#32, 0x00000000#32⟩,
   ⟨"EVL_GWRAP", 0x0DF004, 1, 0x0, 1, 0, 0x00000000#32, 0x00000000#32, 0x00000000#32, 0x00000000#32, 0xFFFFFF00#32⟩]
  ++ [⟨"EVL_GCOAL", 0x0DF008, 1, 0x0, 1, 0, 0x00000000#32, 0x00000000#32, 0x00000000#32, 0x00000000#32, 0x00000000#32⟩]

/-- The registers of block TIM. -/
def regsTIM : List RegRow :=
  [⟨"TIM_NS", 0x0E0000, 1, 0x0, 1, 0, 0x00000000#32, 0x00000000#32, 0x00000000#32, 0x00000000#32, 0x00000000#32⟩,
   ⟨"TIM_NSEC", 0x0E0004, 1, 0x0, 1, 0, 0x00000000#32, 0x00000000#32, 0x00000000#32, 0x00000000#32, 0x00000000#32⟩,
   ⟨"TIM_SECLO", 0x0E0008, 1, 0x0, 1, 0, 0x00000000#32, 0x00000000#32, 0x00000000#32, 0x00000000#32, 0x00000000#32⟩,
   ⟨"TIM_SECHI", 0x0E000C, 1, 0x0, 1, 0, 0x00000000#32, 0x00000000#32, 0x00000000#32, 0x00000000#32, 0xFFFF0000#32⟩,
   ⟨"TIM_WRAP", 0x0E0010, 1, 0x0, 1, 0, 0x00000000#32, 0x00000000#32, 0x00000000#32, 0x00000000#32, 0xFFFFFF00#32⟩,
   ⟨"TIM_FREQ", 0x0E0020, 1, 0x0, 1, 0, 0xFFFFFFFF#32, 0x00000000#32, 0x00000000#32, 0x00000000#32, 0x00000000#32⟩,
   ⟨"TIM_STEP", 0x0E0024, 1, 0x0, 1, 0, 0xFFFFFFFF#32, 0x00000000#32, 0x00000000#32, 0x00000000#32, 0x00000000#32⟩,
   ⟨"TIM_SLEW", 0x0E0028, 1, 0x0, 1, 0, 0xFFFFFFFF#32, 0x00000000#32, 0x00000000#32, 0x00000000#32, 0x00000000#32⟩,
   ⟨"TIM_SLEWR", 0x0E002C, 1, 0x0, 1, 0, 0x000001FF#32, 0x00000000#32, 0x00000000#32, 0x00000000#32, 0xFFFFFE00#32⟩,
   ⟨"TIM_CMD", 0x0E0030, 1, 0x0, 1, 0, 0x00000000#32, 0x00000000#32, 0x00000007#32, 0x00000000#32, 0x7FFFFFF8#32⟩,
   ⟨"TIM_SETSECLO", 0x0E0034, 1, 0x0, 1, 0, 0xFFFFFFFF#32, 0x00000000#32, 0x00000000#32, 0x00000000#32, 0x00000000#32⟩,
   ⟨"TIM_SETSECHI", 0x0E0038, 1, 0x0, 1, 0, 0x0000FFFF#32, 0x00000000#32, 0x00000000#32, 0x00000000#32, 0xFFFF0000#32⟩]
  ++ [⟨"TIM_STAT", 0x0E003C, 1, 0x0, 1, 0, 0x00000000#32, 0x00000000#32, 0x00000000#32, 0x00000000#32, 0x0000FFF0#32⟩,
   ⟨"TIM_SLEWREM", 0x0E0040, 1, 0x0, 1, 0, 0x00000000#32, 0x00000000#32, 0x00000000#32, 0x00000000#32, 0x00000000#32⟩,
   ⟨"TIM_STEPCNT", 0x0E0044, 1, 0x0, 1, 0, 0x00000000#32, 0x00000000#32, 0x00000000#32, 0x00000000#32, 0x00000000#32⟩,
   ⟨"TIM_PPSOUT", 0x0E0050, 1, 0x0, 1, 0, 0xC000FFFF#32, 0x00000000#32, 0x00000000#32, 0x00000000#32, 0x3FFF0000#32⟩,
   ⟨"TIM_PPSADV", 0x0E0054, 1, 0x0, 1, 0, 0x0001FFFF#32, 0x00000000#32, 0x00000000#32, 0x00000000#32, 0xFFFE0000#32⟩,
   ⟨"TIM_PPSIN_CFG", 0x0E0060, 1, 0x0, 1, 0, 0x00000003#32, 0x00000000#32, 0x00000000#32, 0x00000000#32, 0xFFFFFFFC#32⟩,
   ⟨"TIM_PPSIN_NS", 0x0E0064, 1, 0x0, 1, 0, 0x00000000#32, 0x00000000#32, 0x00000000#32, 0x00000000#32, 0x00000000#32⟩,
   ⟨"TIM_PPSIN_NSEC", 0x0E0068, 1, 0x0, 1, 0, 0x00000000#32, 0x00000000#32, 0x00000000#32, 0x00000000#32, 0x00000000#32⟩,
   ⟨"TIM_PPSIN_SECLO", 0x0E006C, 1, 0x0, 1, 0, 0x00000000#32, 0x00000000#32, 0x00000000#32, 0x00000000#32, 0x00000000#32⟩,
   ⟨"TIM_PPSIN_SECHI", 0x0E0070, 1, 0x0, 1, 0, 0x00000000#32, 0x00000000#32, 0x00000000#32, 0x00000000#32, 0xFF000000#32⟩,
   ⟨"TIM_PPSIN_STAT", 0x0E0074, 1, 0x0, 1, 0, 0x00000000#32, 0xC0000000#32, 0x00000000#32, 0x00000000#32, 0x1FFF0000#32⟩,
   ⟨"TIM_PRXLAT", 0x0E0100, 4, 0x20, 1, 0, 0x0000FFFF#32, 0x00000000#32, 0x00000000#32, 0x00000000#32, 0xFFFF0000#32⟩]
  ++ [⟨"TIM_PTXLAT", 0x0E0104, 4, 0x20, 1, 0, 0x0000FFFF#32, 0x00000000#32, 0x00000000#32, 0x00000000#32, 0xFFFF0000#32⟩,
   ⟨"TIM_PEG_NS", 0x0E0108, 4, 0x20, 1, 0, 0x00000000#32, 0x00000000#32, 0x00000000#32, 0x00000000#32, 0x00000000#32⟩,
   ⟨"TIM_PEG_NSEC", 0x0E010C, 4, 0x20, 1, 0, 0x00000000#32, 0x00000000#32, 0x00000000#32, 0x00000000#32, 0x00000000#32⟩,
   ⟨"TIM_PEG_SECLO", 0x0E0110, 4, 0x20, 1, 0, 0x00000000#32, 0x00000000#32, 0x00000000#32, 0x00000000#32, 0x00000000#32⟩,
   ⟨"TIM_PEG_SECHI", 0x0E0114, 4, 0x20, 1, 0, 0x00000000#32, 0x00000000#32, 0x00000000#32, 0x00000000#32, 0x00FF0000#32⟩,
   ⟨"TIM_PEG_ID", 0x0E0118, 4, 0x20, 1, 0, 0x00000000#32, 0x00000000#32, 0x00000000#32, 0x00000000#32, 0x7FF00000#32⟩]

/-- The registers of block PBX. -/
def regsPBX : List RegRow :=
  [⟨"PBX_PCFG", 0x0F0000, 4, 0x40, 1, 0, 0x00000000#32, 0x00000000#32, 0x00000000#32, 0x00000000#32, 0x1FFFFFFF#32⟩,
   ⟨"PBX_PSTAT", 0x0F0004, 4, 0x40, 1, 0, 0x00000000#32, 0x00000000#32, 0x00000000#32, 0x00000000#32, 0x3FFF0000#32⟩,
   ⟨"PBX_MACLO", 0x0F0008, 4, 0x40, 1, 0, 0x00000000#32, 0x00000000#32, 0x00000000#32, 0x00000000#32, 0x00000000#32⟩,
   ⟨"PBX_MACHI", 0x0F000C, 4, 0x40, 1, 0, 0x00000000#32, 0x00000000#32, 0x00000000#32, 0x00000000#32, 0xFFFF0000#32⟩,
   ⟨"PBX_RXFRM", 0x0F0010, 4, 0x40, 1, 0, 0x00000000#32, 0x00000000#32, 0x00000000#32, 0x00000000#32, 0x00000000#32⟩,
   ⟨"PBX_RXERR", 0x0F0014, 4, 0x40, 1, 0, 0x00000000#32, 0x00000000#32, 0x00000000#32, 0x00000000#32, 0x00000000#32⟩,
   ⟨"PBX_RXDROP", 0x0F0018, 4, 0x40, 1, 0, 0x00000000#32, 0x00000000#32, 0x00000000#32, 0x00000000#32, 0x00000000#32⟩,
   ⟨"PBX_TXFRM", 0x0F001C, 4, 0x40, 1, 0, 0x00000000#32, 0x00000000#32, 0x00000000#32, 0x00000000#32, 0x00000000#32⟩,
   ⟨"PBX_PRPDUP", 0x0F0020, 4, 0x40, 1, 0, 0x00000000#32, 0x00000000#32, 0x00000000#32, 0x00000000#32, 0x00000000#32⟩,
   ⟨"PBX_PRPLAN", 0x0F0024, 4, 0x40, 1, 0, 0x00000000#32, 0x00000000#32, 0x00000000#32, 0x00000000#32, 0x00000000#32⟩,
   ⟨"PBX_PRXSTAT", 0x0F0028, 4, 0x40, 1, 0, 0x00000000#32, 0x00000000#32, 0x00000000#32, 0x00000000#32, 0x0000FFF0#32⟩,
   ⟨"PBX_PRXCTL", 0x0F002C, 4, 0x40, 1, 0, 0x00000000#32, 0x00000000#32, 0x00000001#32, 0x00000000#32, 0xFFFFFFFE#32⟩]
  ++ [⟨"PBX_PTXCTL", 0x0F0030, 4, 0x40, 1, 0, 0x000001FF#32, 0x40000000#32, 0x00008000#32, 0x00000000#32, 0x3FFF7E00#32⟩,
   ⟨"PBX_GPCFG", 0x0F0400, 64, 0x10, 1, 0, 0x00000000#32, 0x00000000#32, 0x00000000#32, 0x00000000#32, 0x01FF0000#32⟩,
   ⟨"PBX_GPST", 0x0F0404, 64, 0x10, 1, 0, 0x00000000#32, 0x00000000#32, 0x00000000#32, 0x00000000#32, 0x00000000#32⟩,
   ⟨"PBX_GPSQ", 0x0F0408, 64, 0x10, 1, 0, 0x00000000#32, 0x00000000#32, 0x00000000#32, 0x00000000#32, 0x00000000#32⟩,
   ⟨"PBX_GPCHG", 0x0F040C, 64, 0x10, 1, 0, 0x00000000#32, 0x00000000#32, 0x00000000#32, 0x00000000#32, 0x00000000#32⟩,
   ⟨"PBX_GSCFG", 0x0F1000, 256, 0x10, 1, 0, 0x00000000#32, 0x00000000#32, 0x00000000#32, 0x00000000#32, 0x01FF0000#32⟩,
   ⟨"PBX_GSSTAT", 0x0F1004, 256, 0x10, 1, 0, 0x00000000#32, 0x00000000#32, 0x00000000#32, 0x00000000#32, 0x3FFF0000#32⟩,
   ⟨"PBX_GSLAST", 0x0F1008, 256, 0x10, 1, 0, 0x00000000#32, 0x00000000#32, 0x00000000#32, 0x00000000#32, 0x00000000#32⟩,
   ⟨"PBX_GSCNT", 0x0F100C, 256, 0x10, 1, 0, 0x00000000#32, 0x00000000#32, 0x00000000#32, 0x00000000#32, 0x00000000#32⟩,
   ⟨"PBX_SVCFG", 0x0F2000, 16, 0x20, 1, 0, 0x00000000#32, 0x00000000#32, 0x00000000#32, 0x00000000#32, 0x1F000000#32⟩,
   ⟨"PBX_SVSTAT", 0x0F2004, 16, 0x20, 1, 0, 0x00000000#32, 0x00000000#32, 0x00000000#32, 0x00000000#32, 0x3FFF0000#32⟩,
   ⟨"PBX_SVLAST", 0x0F2008, 16, 0x20, 1, 0, 0x00000000#32, 0x00000000#32, 0x00000000#32, 0x00000000#32, 0x00000000#32⟩]
  ++ [⟨"PBX_SVMISS", 0x0F200C, 16, 0x20, 1, 0, 0x00000000#32, 0x00000000#32, 0x00000000#32, 0x00000000#32, 0x00000000#32⟩,
   ⟨"PBX_SVHELD", 0x0F2010, 16, 0x20, 1, 0, 0x00000000#32, 0x00000000#32, 0x00000000#32, 0x00000000#32, 0x00000000#32⟩,
   ⟨"PBX_SVCNT", 0x0F2014, 16, 0x20, 1, 0, 0x00000000#32, 0x00000000#32, 0x00000000#32, 0x00000000#32, 0x00000000#32⟩,
   ⟨"PBX_PTX", 0x0F4000, 4, 0x1000, 64, 4, 0xFFFFFFFF#32, 0x00000000#32, 0x00000000#32, 0x00000000#32, 0x00000000#32⟩,
   ⟨"PBX_PRX", 0x0F4400, 4, 0x1000, 68, 4, 0x00000000#32, 0x00000000#32, 0x00000000#32, 0x00000000#32, 0x00000000#32⟩,
   ⟨"PBX_PCHK", 0x0FF000, 1, 0x0, 1, 0, 0x00000000#32, 0x00000000#32, 0x00000000#32, 0x00000000#32, 0x0FFF0000#32⟩,
   ⟨"PBX_DSV", 0x0FF004, 1, 0x0, 1, 0, 0x00000000#32, 0x00000000#32, 0x00000000#32, 0x00000000#32, 0xFFFF0000#32⟩,
   ⟨"PBX_GTQ", 0x0FF008, 1, 0x0, 1, 0, 0x000000FF#32, 0x00000000#32, 0x00000000#32, 0x00000000#32, 0xFFFFFF00#32⟩]

/-- The registers of block FIO. -/
def regsFIO : List RegRow :=
  [⟨"FIO_DICFG", 0x100000, 64, 0x4, 1, 0, 0x000301FF#32, 0x00000000#32, 0x00000000#32, 0x00000000#32, 0xFFFCFE00#32⟩,
   ⟨"FIO_DISTAT", 0x100100, 64, 0x4, 1, 0, 0x00000000#32, 0x00000000#32, 0x00000000#32, 0x00000000#32, 0x0000FFF0#32⟩,
   ⟨"FIO_DILAST", 0x100200, 64, 0x4, 1, 0, 0x00000000#32, 0x00000000#32, 0x00000000#32, 0x00000000#32, 0x00000000#32⟩,
   ⟨"FIO_FCOUNT", 0x100300, 8, 0x10, 1, 0, 0x00000000#32, 0x00000000#32, 0x00000000#32, 0x00000000#32, 0x00000000#32⟩,
   ⟨"FIO_FPERIOD", 0x100304, 8, 0x10, 1, 0, 0x00000000#32, 0x00000000#32, 0x00000000#32, 0x00000000#32, 0x00000000#32⟩,
   ⟨"FIO_FSTAT", 0x100308, 8, 0x10, 1, 0, 0x00000000#32, 0x00000000#32, 0x00000000#32, 0x00000000#32, 0x3FFFFFFF#32⟩,
   ⟨"FIO_FCTL", 0x10030C, 8, 0x10, 1, 0, 0x00000000#32, 0x00000000#32, 0x00000001#32, 0x00000000#32, 0xFFFFFFFE#32⟩,
   ⟨"FIO_DOCFG", 0x100400, 32, 0x4, 1, 0, 0x00000001#32, 0x00000000#32, 0x00000000#32, 0x00000000#32, 0xFFFFFFFE#32⟩,
   ⟨"FIO_DOSTAT", 0x100480, 32, 0x4, 1, 0, 0x00000000#32, 0x00000000#32, 0x00000000#32, 0x00000000#32, 0x00FF0000#32⟩,
   ⟨"FIO_DOFLAG", 0x100500, 32, 0x4, 1, 0, 0x00000000#32, 0x0000007F#32, 0x00000000#32, 0x00000000#32, 0xFFFFFF00#32⟩,
   ⟨"FIO_DOCNT", 0x100580, 32, 0x4, 1, 0, 0x00000000#32, 0x00000000#32, 0x00000000#32, 0x00000000#32, 0x00000000#32⟩,
   ⟨"FIO_DORES", 0x100600, 32, 0x4, 1, 0, 0x00000000#32, 0x00000000#32, 0x00000000#32, 0x00000000#32, 0xFFFF0000#32⟩]
  ++ [⟨"FIO_BSTAT", 0x100700, 4, 0x4, 1, 0, 0x00000000#32, 0x00000000#32, 0x00000000#32, 0x00000000#32, 0x0000FFE0#32⟩,
   ⟨"FIO_BFLAG", 0x100710, 4, 0x4, 1, 0, 0x00000000#32, 0x0000000F#32, 0x00000000#32, 0x00000000#32, 0xFFFFFFF0#32⟩,
   ⟨"FIO_DOPWR", 0x100720, 4, 0x4, 1, 0, 0x00000000#32, 0x00000000#32, 0x00000000#32, 0x00000000#32, 0xFFFF0000#32⟩,
   ⟨"FIO_SAFEPAT", 0x100800, 1, 0x0, 1, 0, 0x00000000#32, 0x00000000#32, 0x00000000#32, 0x00000000#32, 0x00000000#32⟩,
   ⟨"FIO_APPLIED", 0x100804, 1, 0x0, 1, 0, 0x00000000#32, 0x00000000#32, 0x00000000#32, 0x00000000#32, 0x00000000#32⟩,
   ⟨"FIO_CMDFRM", 0x100808, 1, 0x0, 1, 0, 0x00000000#32, 0x00000000#32, 0x00000000#32, 0x00000000#32, 0x00000000#32⟩,
   ⟨"FIO_BDROP", 0x100810, 1, 0x0, 1, 0, 0x00000000#32, 0x00000000#32, 0xFF0000FF#32, 0x00000000#32, 0x00FFFF00#32⟩]

/-- The registers of block HQ. -/
def regsHQ : List RegRow :=
  [⟨"HQ_PSTAT", 0x110000, 1, 0x0, 1, 0, 0x00000000#32, 0x00000000#32, 0x00000000#32, 0x20000000#32, 0x1CFFFF00#32⟩,
   ⟨"HQ_PERR", 0x110004, 1, 0x0, 1, 0, 0x00000000#32, 0x0000001F#32, 0x00000000#32, 0x00000000#32, 0xFFFFFFE0#32⟩,
   ⟨"HQ_ISTAT", 0x110008, 1, 0x0, 1, 0, 0x00000000#32, 0x0000FFF0#32, 0x00000000#32, 0x00000000#32, 0xFFFF000F#32⟩,
   ⟨"HQ_IEN", 0x11000C, 1, 0x0, 1, 0, 0x0000FFF0#32, 0x00000000#32, 0x00000000#32, 0x00000000#32, 0xFFFF000F#32⟩,
   ⟨"HQ_CMDBASE_LO", 0x110100, 1, 0x0, 1, 0, 0xFFFFFFC0#32, 0x00000000#32, 0x00000000#32, 0x00000000#32, 0x0000003F#32⟩,
   ⟨"HQ_CMDBASE_HI", 0x110104, 1, 0x0, 1, 0, 0xFFFFFFFF#32, 0x00000000#32, 0x00000000#32, 0x00000000#32, 0x00000000#32⟩,
   ⟨"HQ_CMDSIZE", 0x110108, 1, 0x0, 1, 0, 0x0000000F#32, 0x00000000#32, 0x00000000#32, 0x00000000#32, 0xFFFFFFF0#32⟩,
   ⟨"HQ_CMDCTL", 0x11010C, 1, 0x0, 1, 0, 0x00000001#32, 0x00000000#32, 0x00000000#32, 0x00000000#32, 0xFFFFFFFE#32⟩,
   ⟨"HQ_CMDSTAT", 0x110110, 1, 0x0, 1, 0, 0x00000000#32, 0x00000000#32, 0x00000000#32, 0x00000000#32, 0x3FF00000#32⟩,
   ⟨"HQ_CPLBASE_LO", 0x110120, 1, 0x0, 1, 0, 0xFFFFFFC0#32, 0x00000000#32, 0x00000000#32, 0x00000000#32, 0x0000003F#32⟩,
   ⟨"HQ_CPLBASE_HI", 0x110124, 1, 0x0, 1, 0, 0xFFFFFFFF#32, 0x00000000#32, 0x00000000#32, 0x00000000#32, 0x00000000#32⟩,
   ⟨"HQ_CPLSIZE", 0x110128, 1, 0x0, 1, 0, 0x0000000F#32, 0x00000000#32, 0x00000000#32, 0x00000000#32, 0xFFFFFFF0#32⟩]
  ++ [⟨"HQ_CPLCTL", 0x11012C, 1, 0x0, 1, 0, 0x0000FF03#32, 0x00000000#32, 0x00000000#32, 0x00000000#32, 0xFFFF00FC#32⟩,
   ⟨"HQ_CPLSTAT", 0x110130, 1, 0x0, 1, 0, 0x00000000#32, 0x00000000#32, 0x00000000#32, 0x00000000#32, 0x1E00E000#32⟩,
   ⟨"HQ_EVQ_BASE_LO", 0x110140, 1, 0x0, 1, 0, 0xFFFFF000#32, 0x00000000#32, 0x00000000#32, 0x00000000#32, 0x00000FFF#32⟩,
   ⟨"HQ_EVQ_BASE_HI", 0x110144, 1, 0x0, 1, 0, 0xFFFFFFFF#32, 0x00000000#32, 0x00000000#32, 0x00000000#32, 0x00000000#32⟩,
   ⟨"HQ_EVQ_SIZE", 0x110148, 1, 0x0, 1, 0, 0x0000001F#32, 0x00000000#32, 0x00000000#32, 0x00000000#32, 0xFFFFFFE0#32⟩,
   ⟨"HQ_EVQ_WB_LO", 0x11014C, 1, 0x0, 1, 0, 0xFFFFFFFC#32, 0x00000000#32, 0x00000000#32, 0x00000000#32, 0x00000003#32⟩,
   ⟨"HQ_EVQ_WB_HI", 0x110150, 1, 0x0, 1, 0, 0xFFFFFFFF#32, 0x00000000#32, 0x00000000#32, 0x00000000#32, 0x00000000#32⟩,
   ⟨"HQ_EVQ_CTL", 0x110154, 1, 0x0, 1, 0, 0x0000FF03#32, 0x00000000#32, 0x00000000#32, 0x00000000#32, 0x3FFF00FC#32⟩,
   ⟨"HQ_EVQ_PROD", 0x110158, 1, 0x0, 1, 0, 0x00000000#32, 0x00000000#32, 0x00000000#32, 0x00000000#32, 0x00000000#32⟩,
   ⟨"HQ_EVQ_LOST", 0x11015C, 1, 0x0, 1, 0, 0x00000000#32, 0x00000000#32, 0x00000000#32, 0x00000000#32, 0x00000000#32⟩,
   ⟨"HQ_RCQ_BASE_LO", 0x110160, 1, 0x0, 1, 0, 0xFFFFF000#32, 0x00000000#32, 0x00000000#32, 0x00000000#32, 0x00000FFF#32⟩,
   ⟨"HQ_RCQ_BASE_HI", 0x110164, 1, 0x0, 1, 0, 0xFFFFFFFF#32, 0x00000000#32, 0x00000000#32, 0x00000000#32, 0x00000000#32⟩]
  ++ [⟨"HQ_RCQ_SIZE", 0x110168, 1, 0x0, 1, 0, 0x0000001F#32, 0x00000000#32, 0x00000000#32, 0x00000000#32, 0xFFFFFFE0#32⟩,
   ⟨"HQ_RCQ_WB_LO", 0x11016C, 1, 0x0, 1, 0, 0xFFFFFFFC#32, 0x00000000#32, 0x00000000#32, 0x00000000#32, 0x00000003#32⟩,
   ⟨"HQ_RCQ_WB_HI", 0x110170, 1, 0x0, 1, 0, 0xFFFFFFFF#32, 0x00000000#32, 0x00000000#32, 0x00000000#32, 0x00000000#32⟩,
   ⟨"HQ_RCQ_CTL", 0x110174, 1, 0x0, 1, 0, 0x0000FF03#32, 0x00000000#32, 0x00000000#32, 0x00000000#32, 0x3FFF00FC#32⟩,
   ⟨"HQ_RCQ_PROD", 0x110178, 1, 0x0, 1, 0, 0x00000000#32, 0x00000000#32, 0x00000000#32, 0x00000000#32, 0x00000000#32⟩,
   ⟨"HQ_RCQ_LOST", 0x11017C, 1, 0x0, 1, 0, 0x00000000#32, 0x00000000#32, 0x00000000#32, 0x00000000#32, 0x00000000#32⟩,
   ⟨"HQ_MSQ_BASE_LO", 0x110180, 1, 0x0, 1, 0, 0xFFFFF000#32, 0x00000000#32, 0x00000000#32, 0x00000000#32, 0x00000FFF#32⟩,
   ⟨"HQ_MSQ_BASE_HI", 0x110184, 1, 0x0, 1, 0, 0xFFFFFFFF#32, 0x00000000#32, 0x00000000#32, 0x00000000#32, 0x00000000#32⟩,
   ⟨"HQ_MSQ_SIZE", 0x110188, 1, 0x0, 1, 0, 0x0000001F#32, 0x00000000#32, 0x00000000#32, 0x00000000#32, 0xFFFFFFE0#32⟩,
   ⟨"HQ_MSQ_WB_LO", 0x11018C, 1, 0x0, 1, 0, 0xFFFFFFFC#32, 0x00000000#32, 0x00000000#32, 0x00000000#32, 0x00000003#32⟩,
   ⟨"HQ_MSQ_WB_HI", 0x110190, 1, 0x0, 1, 0, 0xFFFFFFFF#32, 0x00000000#32, 0x00000000#32, 0x00000000#32, 0x00000000#32⟩,
   ⟨"HQ_MSQ_CTL", 0x110194, 1, 0x0, 1, 0, 0x0000FF03#32, 0x00000000#32, 0x00000000#32, 0x00000000#32, 0x3FFF00FC#32⟩]
  ++ [⟨"HQ_MSQ_PROD", 0x110198, 1, 0x0, 1, 0, 0x00000000#32, 0x00000000#32, 0x00000000#32, 0x00000000#32, 0x00000000#32⟩,
   ⟨"HQ_MSQ_LOST", 0x11019C, 1, 0x0, 1, 0, 0x00000000#32, 0x00000000#32, 0x00000000#32, 0x00000000#32, 0x00000000#32⟩]

/-- The registers of block MEM. -/
def regsMEM : List RegRow :=
  [⟨"MEM_CFG", 0x120000, 1, 0x0, 1, 0, 0x00000000#32, 0x00000000#32, 0x00000000#32, 0x00000000#32, 0x7FFF0000#32⟩,
   ⟨"MEM_LASTUE_REG", 0x120004, 1, 0x0, 1, 0, 0x00000000#32, 0x00000000#32, 0x00000000#32, 0x00000000#32, 0xFFFFFFF0#32⟩,
   ⟨"MEM_LASTUE_ADDR", 0x120008, 1, 0x0, 1, 0, 0x00000000#32, 0x00000000#32, 0x00000000#32, 0x00000000#32, 0x00000000#32⟩,
   ⟨"MEM_LASTUE_FRM", 0x12000C, 1, 0x0, 1, 0, 0x00000000#32, 0x00000000#32, 0x00000000#32, 0x00000000#32, 0x00000000#32⟩,
   ⟨"MEM_RCE", 0x120100, 9, 0x20, 1, 0, 0x00000000#32, 0x00000000#32, 0x00000000#32, 0x00000000#32, 0x00000000#32⟩,
   ⟨"MEM_RUE", 0x120104, 9, 0x20, 1, 0, 0x00000000#32, 0x00000000#32, 0x00000000#32, 0x00000000#32, 0x00000000#32⟩,
   ⟨"MEM_RBKT", 0x120108, 9, 0x20, 1, 0, 0x00000000#32, 0x00000000#32, 0x00000000#32, 0x00000000#32, 0xFFFF0000#32⟩,
   ⟨"MEM_RBKTCFG", 0x12010C, 9, 0x20, 1, 0, 0xFFFFFFFF#32, 0x00000000#32, 0x00000000#32, 0x03E80010#32, 0x00000000#32⟩,
   ⟨"MEM_RLAST", 0x120110, 9, 0x20, 1, 0, 0x00000000#32, 0x00000000#32, 0x00000000#32, 0x00000000#32, 0x00000000#32⟩,
   ⟨"MEM_RSCRUB", 0x120114, 9, 0x20, 1, 0, 0x00000000#32, 0x00000000#32, 0x00000000#32, 0x00000000#32, 0x00000000#32⟩,
   ⟨"MEM_RSPARE", 0x120118, 9, 0x20, 1, 0, 0x00000000#32, 0x00000000#32, 0x00000000#32, 0x00000000#32, 0x00000000#32⟩,
   ⟨"MEM_RFLAG", 0x12011C, 9, 0x20, 1, 0, 0x00000000#32, 0x0000000F#32, 0x00000000#32, 0x00000000#32, 0xFFFFFFF0#32⟩]
  ++ [⟨"MEM_TREG", 0x120400, 1, 0x0, 1, 0, 0x0000000F#32, 0x00000000#32, 0x00000000#32, 0x00000000#32, 0xFFFFFFF0#32⟩,
   ⟨"MEM_TADDR", 0x120404, 1, 0x0, 1, 0, 0xFFFFFFFF#32, 0x00000000#32, 0x00000000#32, 0x00000000#32, 0x00000000#32⟩,
   ⟨"MEM_TDATA", 0x120408, 1, 0x0, 1, 0, 0xFFFFFFFF#32, 0x00000000#32, 0x00000000#32, 0x00000000#32, 0x00000000#32⟩,
   ⟨"MEM_TCHK", 0x12040C, 1, 0x0, 1, 0, 0x0000007F#32, 0x00000000#32, 0x00000000#32, 0x00000000#32, 0xFFFFFF80#32⟩,
   ⟨"MEM_TCTL", 0x120410, 1, 0x0, 1, 0, 0x00000000#32, 0x00000000#32, 0x00000003#32, 0x00000000#32, 0x70FFFFFC#32⟩,
   ⟨"MEM_TRDATA", 0x120414, 1, 0x0, 1, 0, 0x00000000#32, 0x00000000#32, 0x00000000#32, 0x00000000#32, 0x00000000#32⟩,
   ⟨"MEM_TRSTAT", 0x120418, 1, 0x0, 1, 0, 0x00000000#32, 0x00000000#32, 0x00000000#32, 0x00000000#32, 0xFFFC8080#32⟩]

/-- The registers of block SEC. -/
def regsSEC : List RegRow :=
  [⟨"SEC_STAT", 0x130000, 1, 0x0, 1, 0, 0x00000000#32, 0x00000000#32, 0x00000000#32, 0x00000000#32, 0x1FFFFC00#32⟩,
   ⟨"SEC_VRES", 0x130004, 1, 0x0, 1, 0, 0x00000000#32, 0x00000000#32, 0x00000000#32, 0x00000000#32, 0x7F0C0000#32⟩,
   ⟨"SEC_VITEM", 0x130008, 1, 0x0, 1, 0, 0x00000000#32, 0x00000000#32, 0x00000000#32, 0x00000000#32, 0x00000000#32⟩,
   ⟨"SEC_LOADCMD", 0x13000C, 1, 0x0, 1, 0, 0x00000006#32, 0x00000000#32, 0x00000001#32, 0x00000000#32, 0x70FFFFF8#32⟩,
   ⟨"SEC_RB", 0x130010, 1, 0x0, 1, 0, 0x00000000#32, 0x00000000#32, 0x00000000#32, 0x00000000#32, 0xFFFF8080#32⟩,
   ⟨"SEC_BUILD", 0x130014, 1, 0x0, 1, 0, 0x00000000#32, 0x00000000#32, 0x00000000#32, 0x00000000#32, 0x00000000#32⟩,
   ⟨"SEC_DSEQ", 0x130018, 4, 0x4, 1, 0, 0x00000000#32, 0x00000000#32, 0x00000000#32, 0x00000000#32, 0x00000000#32⟩,
   ⟨"SEC_DEVID_LO", 0x130030, 1, 0x0, 1, 0, 0x00000000#32, 0x00000000#32, 0x00000000#32, 0x00000000#32, 0x00000000#32⟩,
   ⟨"SEC_DEVID_HI", 0x130034, 1, 0x0, 1, 0, 0x00000000#32, 0x00000000#32, 0x00000000#32, 0x00000000#32, 0x00000000#32⟩,
   ⟨"SEC_FUSECMD", 0x130040, 1, 0x0, 1, 0, 0x00000300#32, 0x00000000#32, 0x00FF0007#32, 0x00000000#32, 0x7000FCF8#32⟩,
   ⟨"SEC_PEDHASH", 0x130100, 16, 0x4, 1, 0, 0x00000000#32, 0x00000000#32, 0x00000000#32, 0x00000000#32, 0x00000000#32⟩,
   ⟨"SEC_PARTHASH", 0x130140, 4, 0x40, 16, 4, 0x00000000#32, 0x00000000#32, 0x00000000#32, 0x00000000#32, 0x00000000#32⟩]
  ++ [⟨"SEC_ANCHOR", 0x130300, 4, 0x40, 16, 4, 0x00000000#32, 0x00000000#32, 0x00000000#32, 0x00000000#32, 0x00000000#32⟩,
   ⟨"SEC_FUSEDATA", 0x130400, 16, 0x4, 1, 0, 0xFFFFFFFF#32, 0x00000000#32, 0x00000000#32, 0x00000000#32, 0x00000000#32⟩,
   ⟨"SEC_DEVPUB", 0x130800, 128, 0x4, 1, 0, 0x00000000#32, 0x00000000#32, 0x00000000#32, 0x00000000#32, 0x00000000#32⟩,
   ⟨"SEC_DEVPUBHASH", 0x130A00, 16, 0x4, 1, 0, 0x00000000#32, 0x00000000#32, 0x00000000#32, 0x00000000#32, 0x00000000#32⟩]

/-- The rows of the block that an offset lies in (R17). -/
def blockRows (addr : Nat) : List RegRow :=
  match addr / 65536 with
  | 0 => regsSYS
  | 1 => regsPWR
  | 2 => regsAFE
  | 3 => regsCNV
  | 4 => regsDEC
  | 5 => regsAUX
  | 6 => regsSNF
  | 7 => regsMSR
  | 8 => regsPEL
  | 9 => regsTWV
  | 10 => regsENG
  | 11 => regsSLX
  | 12 => regsACQ
  | 13 => regsEVL
  | 14 => regsTIM
  | 15 => regsPBX
  | 16 => regsFIO
  | 17 => regsHQ
  | 18 => regsMEM
  | 19 => regsSEC
  | _ => []

/-- Whether an offset is one of a row's registers. -/
def RegRow.has (r : RegRow) (addr : Nat) : Bool :=
  decide (r.base ≤ addr) &&
    (let d := addr - r.base
     let i := if r.n1 = 1 then 0 else d / r.s1
     let e := d - i * r.s1
     let j := if r.n2 = 1 then 0 else e / r.s2
     decide (i < r.n1) && decide (j < r.n2) && decide (e = j * r.s2))

/-- The row of a BAR0 offset; none for an offset no chapter defines (R18). -/
def regRow (addr : Nat) : Option RegRow := (blockRows addr).find? (fun r => r.has addr)

/-- The indices (window, register) of an offset within its row. -/
def RegRow.index (r : RegRow) (addr : Nat) : Nat × Nat :=
  let d := addr - r.base
  let i := if r.n1 = 1 then 0 else d / r.s1
  (i, if r.n2 = 1 then 0 else (d - i * r.s1) / r.s2)

/-- The key of a port's own copy of a register (R19: HQ; R191: the setting window): port code 0-4. -/
def portKey (port addr : Nat) : Nat := (port + 1) * 2 ^ 24 + addr

/-- The key of a BAR2 register of host port p (R369). -/
def bar2Key (p off : Nat) : Nat := (p + 9) * 2 ^ 24 + off

def HQ_DB_CMD : Nat := 0x0000
def HQ_DB_CPL : Nat := 0x0004
def HQ_DB_EVQ : Nat := 0x0008
def HQ_DB_RCQ : Nat := 0x000C
def HQ_DB_MSQ : Nat := 0x0010

/-- Spare rows provided per memory region (R396). -/
def sparesOf (region : Nat) : Nat := nth 0 [16, 16, 16, 64, 0, 0, 4, 8, 0] region

/-- The value of a register after reset where it is not simply a constant of its row: silicon and fuse values (R99,
R210, R414, R433), the port number (R394), masked MSI-X entries (R369). -/
def regReset (key : Nat) : Word :=
  let addr := key % 2 ^ 24
  let tag := key / 2 ^ 24
  if tag ≥ 9 then
    -- MSI-X vector control words come up masked
    (if addr ≥ 0x2000 ∧ addr < 0x2200 ∧ addr % 16 = 12 then 1#32 else 0#32)
  else if addr = Reg.SYS_VER then Config.sysVer &&& 0xFFFF#32
  else if addr = Reg.HQ_PSTAT then BitVec.ofNat 32 (2 ^ 29 + 2 ^ 24 * ((tag - 1) % 4))
  else match addr / 65536 with
  | 3 =>
    let b := addr / 256 % 256
    let o := addr % 256
    let k := o % 32 / 4
    if o = 8 then Config.subgain b
    else if o = 12 then Config.tree b
    else if o / 32 = 2 then
      BitVec.ofNat 32 (Config.fact (8 * b + k) * 2 ^ 16 + Config.fact (8 * b + k) * 2 ^ 24)
    else if o / 32 = 5 then BitVec.ofNat 32 (Config.lofs (8 * b + k))
    else 0#32
  | 4 => if addr ≥ 0x044000 ∧ addr < 0x044000 + 4 * 964 then Config.acoef ((addr - 0x044000) / 4) else 0#32
  | 18 =>
    if addr ≥ 0x120100 ∧ addr < 0x120220 then
      (if addr % 32 = 0x18 then BitVec.ofNat 32 (sparesOf ((addr - 0x120100) / 32))
       else if addr % 32 = 0x0C then 0x03E80010#32 else 0#32)
    else 0#32
  | 19 =>
    if addr = Reg.SEC_DEVID_LO then Config.devId.setWidth 32
    else if addr = Reg.SEC_DEVID_HI then (Config.devId >>> 32).setWidth 32
    else if addr ≥ 0x130800 ∧ addr < 0x130A00 then
      BitVec.ofNat 32 (fromLE ((List.range 4).map (fun i => Config.devPub (addr - 0x130800 + i))))
    else 0#32
  | _ =>
    if addr = Reg.SYS_ID then 0x82561F7A#32
    else if addr = Reg.SYS_STAT then 0x10#32
    else if addr = Reg.SNF_BAYS ∨ addr = Reg.SNF_DOMASK then 0xFFFFFFFF#32
    else if addr = Reg.TWV_GDLY then 1107#32
    else if addr = Reg.ENG_TSTAT then 0x77#32
    else if addr = Reg.EVL_KWPTR ∨ addr = Reg.EVL_KOLD then 0x10000#32
    else 0#32

end Sys2Proof
end

