-- ==== Sys2Proof/Machine/Sparse.lean ====
section
/-!
DEFINITION. Sys2Proof/Machine/Sparse.lean: finite maps in one canonical form: keys strictly rising, and no entry
equal to what an unlisted key reads as.
-/
namespace Sys2Proof

/-- What key k reads as: its entry, or the default of k. -/
def sget {α : Type} (d : Nat → α) : List (Nat × α) → Nat → α
  | [], k => d k
  | (j, v) :: t, k => if j = k then v else sget d t k

/-- The list without any entry of key k. -/
def sdrop {α : Type} (k : Nat) (l : List (Nat × α)) : List (Nat × α) := l.filter (fun e => e.1 != k)

/-- Insert an entry before the first greater key. -/
def sins {α : Type} (k : Nat) (v : α) : List (Nat × α) → List (Nat × α)
  | [] => [(k, v)]
  | (j, w) :: t => if k < j then (k, v) :: (j, w) :: t else (j, w) :: sins k v t

/-- Write key k: writing the default removes the entry. -/
def sset {α : Type} [DecidableEq α] (d : Nat → α) (l : List (Nat × α)) (k : Nat) (v : α) : List (Nat × α) :=
  if v = d k then sdrop k l else sins k v (sdrop k l)

/-- Canonical form: keys strictly rising and no entry equal to its default. -/
def swf {α : Type} [DecidableEq α] (d : Nat → α) (l : List (Nat × α)) : Bool :=
  (l.map Prod.fst).Pairwise (· < ·) && l.all (fun e => e.2 != d e.1)

end Sys2Proof
end

