-- ==== Sys2Proof/Machine/State.lean ====
section
/-!
DEFINITION. Sys2Proof/Machine/State.lean: the state of the block as plain data. A register of a register table lives in
`regs` under its BAR0 offset (RegMap.lean); what the manual gives the machine beside its registers lives in the structures
below, one per chapter.
-/
namespace Sys2Proof.Machine

/-! ### Requests that wait for their frame -/

/-- A write that takes effect at the start of a later frame (R61, R69, R80 and others): the frame, the value written, and
the port it came through. -/
structure Req where
  due : Nat
  value : Word
  port : Port
deriving DecidableEq, Repr

/-! ### What leaves the device -/

/-- What the device sends: posted writes and reads of host memory (R368), interrupts (R386), flits of either die (R27),
Ethernet frames with their transmit class (R330), bytes of the service port (R392). -/
inductive Out where
  | dma (port : Fin 4) (addr : Nat) (bytes : List Byte) (poisoned : Bool)
  | dmaRead (port : Fin 4) (addr len : Nat)
  | msix (port : Fin 4) (vector : Nat)
  | flit (die : Die) (bytes : List Byte)
  | eth (port : Fin 4) (cls : Nat) (bytes : List Byte)
  | svc (bytes : List Byte)
  | qspi (slot : Nat)
deriving DecidableEq, Repr

/-! ### Start-up and supervisor (chapters 1, 3, 19) -/

/-- Where start-up stands (R75): the supplies or RESET_N hold the device, the clocks are starting, or it runs. -/
inductive Phase where
  | off
  | held
  | clockStart
  | running
deriving DecidableEq, Repr

/-- The always-on supervisor (R16, R456): its copy of the last status flit, the VDD_AO warning, and whether it runs. -/
structure Sup where
  running : Bool := true
  warning : Bool := false
  stFrame : Nat := 0
  /-- HQ_SVLAST, which a device reset clears (R8, R395) -/
  svLast : Nat := 0
  stTb : Nat := 0
  stWrap : Nat := 0
  stMode : Nat := 0
  /-- ns of REFCLK time since that flit arrived, none before the first; the engine's clocks have stood since (R456) -/
  since : Option Nat := none
  stood : Bool := false
deriving DecidableEq, Repr

/-- The levels that start-up waits for (R74, R75, R437): RESET_N released, VDD_ENG and VDD_SOC above their thresholds. -/
structure Pins where
  resetN : Bool := true
  supplies : Bool := true
deriving DecidableEq, Repr

/-! ### The die-to-die link (chapter 1) -/

/-- One die's transmitter and receiver (R29, R33). -/
structure LinkEnd where
  /-- SEQ of the last sequenced flit sent; 16#FFF before the first -/
  lastSeq : Nat := 4095
  /-- sequenced flits not yet acknowledged, oldest first; at most 128 -/
  replay : List (List Byte) := []
  /-- SEQ of the last sequenced flit received in order; 16#FFF before the first -/
  rxLast : Nat := 4095
  /-- a replay has been requested, and flits are discarded until the transmitter resends -/
  waiting : Bool := false
  /-- the transmitter has resent since that request -/
  resent : Bool := false
  /-- the SEQ named by the last replay request this die sent, and how many consecutive requests named it -/
  reqSeq : Nat := 0
  reqSame : Nat := 0
  /-- the same for the requests this die has received -/
  gotSeq : Nat := 0
  gotSame : Nat := 0
  /-- this die's own verdict (R33) -/
  up : Bool := false
deriving DecidableEq, Repr

/-- The link: its two ends, the raw flits in stage A's queue and what their check replaced (R32). -/
structure LinkSt where
  field : LinkEnd := {}
  engine : LinkEnd := {}
  /-- training or retraining runs (R33, R75) -/
  training : Bool := true
  /-- the CCLK loop coasts for want of a valid strobe flit (R31) -/
  coasting : Bool := false
  /-- ENG_FRAME of the last valid strobe flit -/
  strobeFrame : Nat := 0
  /-- raw flits in stage A's queue: 128 * pack + strobe, ENG_FRAME[7:0] of the flit, and the 32 words of the pack -/
  rawQ : List (Nat × Nat × List (BitVec 16)) := []
  /-- ENG_FRAME[7:0] of the strobe last checked, by 128 * pack + strobe, plus one: a flit that comes after its check is
  discarded (R32) -/
  checked : List (Nat × Nat) := []
  /-- ns of the present idle-flit slot that have passed (R28) -/
  slotNs : Nat := 0
  /-- register accesses sent to the field die and not yet answered: port, address (R20) -/
  reads : List (Port × Nat) := []
deriving DecidableEq, Repr

/-! ### Time base (chapter 14) -/

/-- The counters of R314 with the fraction of R315 in units of 2^-32 ns; the slew remainder in the same units; the
realignment offset in half nanoseconds (R318). -/
structure TimeSt where
  tbNs : Nat := 0
  nsec : Nat := 0
  sec : Nat := 0
  wrap : Nat := 0
  frac : Nat := 0
  /-- slew remainder, signed, in 2^-32 ns; sigma is 0 when it is 0 -/
  slewRem : Int := 0
  /-- rate in ppm of the slew that was last started (R319) -/
  slewRate : Nat := 1
  /-- step, slew and seconds value of the last command of TIM_CMD: TIM_STEP, TIM_SLEW, TIM_SETSEC as it was written (R317, R319,
  R320; assumption log 57) -/
  stepArg : Int := 0
  slewArg : Int := 0
  secArg : Nat := 0
  /-- offset of the present frame's start from 62 500 * ENG_FSEC, in half ns -/
  align : Int := 0
  /-- TB_NS, wrap count, NSEC and SEC at the start of the present frame (R300, R456) -/
  frTb : Nat := 0
  frWrap : Nat := 0
  frNsec : Nat := 0
  frSec : Nat := 0
  /-- seconds counted since reset, which a seconds load does not change (R320, R339): now, and at the start of the present frame -/
  runSec : Int := 0
  frRunSec : Int := 0
  /-- lengths in ns of the two frames before the last, and of the last (R318) -/
  p3Len : Nat := 62500
  p2Len : Nat := 62500
  prLen : Nat := 62500
  /-- the same at the start of the three frames before, the last of them in prTb, prNsec, prSec -/
  p3Tb : Nat := 0
  p3Nsec : Nat := 0
  p3Sec : Nat := 0
  p2Tb : Nat := 0
  p2Nsec : Nat := 0
  p2Sec : Nat := 0
  prTb : Nat := 0
  prNsec : Nat := 0
  prSec : Nat := 0
  /-- the second rolled over exactly at the last frame boundary (R320) -/
  rollAtStart : Bool := true
  /-- seconds value armed (R320) -/
  armed : Option Nat := none
  /-- frames since the last phase step, saturating at 33, and what it was for the frame before (R147) -/
  sinceStep : Nat := 33
  stepAge : Nat := 33
  /-- what the time base has run since reset, steps aside, in 2^-32 ns: spans from one instant to another are measured on it -/
  elapsed : Nat := 0
  /-- PPS_OUT pulse under way, and what is left of it in 2^-32 ns (R322) -/
  ppsOut : Bool := false
  ppsLeft : Nat := 0
  /-- `elapsed` at the last PPS_IN edge (R323) -/
  ppsLast : Option Nat := none
  /-- frames since reset, and how often TB_NS has wrapped: counters that do not wrap (R269, R271) -/
  frames : Nat := 0
  wraps : Int := 0
deriving DecidableEq, Repr

/-! ### Event log and kennel (chapter 13) -/

/-- An event as its source posts it (R295, R296, R300): which logs and whether the kennel take it. -/
structure Event where
  typ : Nat
  src : Nat
  payload : List Byte
  tb : Nat
  wrap : Nat
  logs : Nat
  kennel : Bool
deriving DecidableEq, Repr

/-- A record on its way into a store (R294). -/
structure Rec where
  typ : Nat
  src : Nat
  seq : Nat
  rep : Nat
  tb : Nat
  wrap : Nat
  payload : List Byte
deriving DecidableEq, Repr

/-- A count of events not recorded (R306, R308). -/
structure LostRun where
  count : Nat
  first : Nat
  last : Nat
  tb : Nat
  wrap : Nat
deriving DecidableEq, Repr

/-- One store: a partition's event log, or the kennel (R293). -/
structure StoreSt where
  /-- records staged, oldest first; at most 64 (R306) -/
  staged : List Rec := []
  /-- what the full staging queue has discarded -/
  lost : Option LostRun := none
  /-- frozen (R308); after a clear that starts a new freeze, own records still to be written first (R309) -/
  frozen : Bool := false
  ownFirst : Nat := 0
  frameOn : Nat := 0
  frameOff : Nat := 0
  /-- events raised while frozen -/
  held : Option LostRun := none
  /-- byte offset of the written record whose repeat run is open, its record, and repeats still to apply (R305) -/
  run : Option (Nat × Rec) := none
  /-- the record of this log whose repeat run is open, to be posted to the event queue when it closes (R310) -/
  queueRun : Option Rec := none
  /-- a read-window copy runs (R310) -/
  loading : Bool := false
deriving DecidableEq, Repr

/-- The sequencer and the stores (R299, R305). -/
structure EvlSt where
  posted : List Event := []
  /-- the previous event sequenced, its REPEAT and the frame of its last occurrence -/
  prev : Option (Event × Nat) := none
  prevRep : Nat := 0
  prevFrame : Nat := 0
  prevClosed : Bool := false
  log0 : StoreSt := {}
  log1 : StoreSt := {}
  log2 : StoreSt := {}
  log3 : StoreSt := {}
  kennel : StoreSt := {}
  /-- engine records sent to the supervisor and not yet arrived, and the bytes of the record that is arriving (R27) -/
  flight : List Rec := []
  arriving : List Byte := []
  /-- the kennel's retained pointer words, as written on VKEEP (R303) -/
  kfend : Word := 0xFFFF0000#32
  kwptr : Word := 0xBFFF4000#32
  kold : Word := 0xBFFF4000#32
  kfull : Word := 0xFFFF0000#32
deriving DecidableEq, Repr

/-! ### Memories (chapter 17) -/

/-- A corrected word waiting for its write-back (R402). -/
structure WriteBack where
  region : Nat
  addr : Nat
  syn : Nat
  flags : Nat
  data : Word
deriving DecidableEq, Repr

/-- An entry of a merge buffer (R407): a word of a wing's DRAM with the bytes written so far. -/
structure Merge where
  region : Nat
  addr : Nat
  data : Word
  mask : Nat
deriving DecidableEq, Repr

structure MemSt where
  wb : List WriteBack := []
  /-- scrub position of each region, in words -/
  scrub : List Nat := List.replicate 9 0
  /-- words the scrubber corrected in the last and in the present pass: region, address, syndrome -/
  passLast : List (Nat × Nat × Nat) := []
  passNow : List (Nat × Nat × Nat) := []
  /-- steps taken in the present pass, for the pass time -/
  steps : List Nat := List.replicate 9 0
  /-- words declared hard and still in use: region, address (R404, R405) -/
  hard : List (Nat × Nat) := []
  /-- rows being copied to a spare: region, row, spare (R405) -/
  retiring : List (Nat × Nat × Nat) := []
  retired : List (Nat × Nat × Nat) := []
  /-- merge buffers, oldest first -/
  merge : List Merge := []
  /-- corrections since the last overflow (R406) -/
  since : List Nat := List.replicate 9 0
  /-- the time a bucket last leaked, on the elapsed clock of `TimeSt` (R406) -/
  leakAt : List Nat := List.replicate 9 0
  /-- words written raw by the checker test and not rewritten since (R411) -/
  raw : List (Nat × Nat) := []
  /-- SRAM zeroing is complete (R401) -/
  sramDone : Bool := false
deriving DecidableEq, Repr

/-! ### Plan and budget (chapter 2) -/

/-- An O job of the BUDGET section (R418): its entry and its run state (R54). `index` is the pedigree's O-job index. -/
structure OJob where
  index : Nat
  kind : Nat
  target : Nat
  n : Nat
  phase : Nat
  prio : Nat
  cycles : Nat
  energy : Nat
  /-- runs pending: 0 or 1 for a periodic job, any number for an on-demand job -/
  pend : Nat := 0
  /-- runs admitted to the present frame and not yet taken -/
  granted : Nat := 0
deriving DecidableEq, Repr

/-- Values of the heat and energy budget that no register holds whole (R52, R56). -/
structure BudgetSt where
  /-- P_raw values of the last 16 frames in W, newest first; none for a frame without a supply window (R124) -/
  praw : List (Option Rat) := []
  /-- theta, in K -/
  theta : Rat := 0
  /-- outputs switched on within the last 16 frames: output, frames since (R52, P_fwd) -/
  switched : List (Nat × Nat) := []
  /-- consecutive frames meeting the set and the clear condition of OVER and of HOT (R56) -/
  overSet : Nat := 0
  overClr : Nat := 0
  hotSet : Nat := 0
  hotClr : Nat := 0
  hcapNeg : Bool := false
  hthNeg : Bool := false
  /-- an O job was admitted to the present frame -/
  ran : Bool := false
  /-- BUDGET changes that wait for their row: flag (0 OVER, 1 HOT) and new state -/
  flags : List (Nat × Bool) := []
  /-- the O tier's cycles of the present frame (R36) -/
  cycles : Nat := 0
  /-- the frame, counted without wrap, whose O jobs have been considered (R53) -/
  seen : Option Nat := none
deriving DecidableEq, Repr

/-- One pack's shutdown (R70): the boundary g at which EN = 0 took effect. -/
structure PackSt where
  stopAt : Nat := 0
deriving DecidableEq, Repr

/-- Modes, gating and the plan's progress (chapters 2, 3). -/
structure RunSt where
  /-- between staging and the entry to STANDBY: the owners of zones, recorders, publishing blocks and subscriptions, in that order, which
  still apply (R371) -/
  heldOwners : List (Option Nat) := []
  /-- frame at which a triad restart may start the plan: at least 32 frames after the trigger (R67) -/
  restartAt : Option Nat := none
  /-- honoured gating: the hyperperiod boundary at which the plan has stopped (R73) -/
  gateStop : Option Nat := none
  /-- PWR_REF and PWR_TRIAD.EN in effect (R69-R73) -/
  refs : Nat := 0
  triadEn : Bool := false
  /-- the mode LOAD was entered from (R62) -/
  loadFrom : Nat := 1
  /-- a fault transition to SAFE waits for the next boundary: its cause (R63, R224) -/
  safeNext : Option Nat := none
  /-- an entry to DEGRADED waits for the next boundary (R224) -/
  degradedNext : Bool := false
  /-- a heel completes at the next boundary (R227) -/
  healedNext : Bool := false
  /-- the hyperperiod boundary at which the device leaves LOAD for STANDBY (R62) -/
  standbyNext : Option Nat := none
  /-- FAULT_N stays asserted until the triad restart completes (R66) -/
  faultHold : Bool := false
  /-- partitions whose admitted delta swaps, and the hyperperiod boundary (R50, R257) -/
  swapDue : List (Nat × Nat) := []
  /-- G jobs that have completed in the present frame (R43, R45): instance i, 1024 + zone, 2048 + 8 * partition + task, 4096
  the closure job -/
  jobs : List Nat := []
  /-- stage A has formed the outputs of the frame before the present one (R26) -/
  formed : Bool := true
  /-- threshold edges of the words last formed (R113, R114): lane, HH, rising -/
  edges : List (Nat × Bool × Bool) := []
  /-- RESET_N level, BOOT_SRC pin and whether REFCLK loops have locked -/
  bootPin : Bool := false
  packs : List PackSt := List.replicate 8 {}
  /-- requester and cause of the reset, for the RESET record (R297) -/
  resetCause : Nat := 1
  resetReq : Nat := 0
deriving DecidableEq, Repr

/-! ### Triad (chapter 10) -/

structure TriadSt where
  /-- frame of the last failed self-test, if any (R66, R230) -/
  vfail : Option Nat := none
  /-- a heel runs: first frame g, and the member being heeled, 1 A, 2 B, 3 C -/
  heelFrom : Nat := 0
  heelM : Nat := 0
  /-- a sweep slice ran in the present frame; a heeled member (1-3) is swept from the given frame on (R228) -/
  swept : Bool := false
  /-- how far the present frame's work has come (R44): 1 the image is agreed, 2 the voters are tested, 3 the closure job has run, 4 the
  sweep slice has, 5 the queues are served; a self-test has run -/
  turn : Nat := 0
  tested : Bool := false
  sweepNot : Option (Nat × Nat) := none
  /-- the image of the present frame, 8 192 words (R213), unlisted words zero; of its header, only ENG_TSTAT (R459) -/
  image : List (Nat × Word) := []
  /-- the open image buffer -/
  next : List (Nat × Word) := []
  /-- units delivered by their sources and not yet committed, oldest first: first word, words (R214) -/
  units : List (Nat × List Word) := []
  /-- host-written words on their way to the image: frame, image word, value (R213, R263) -/
  hostVals : List (Nat × Nat × Word) := []
  /-- outputs and datasets released at this frame's end are those of SAFE (R224) -/
  safeOut : Bool := false
  /-- ingress agreement found no majority in the present frame, so no image was released (R216) -/
  held : Bool := false
deriving DecidableEq, Repr

/-! ### Scheme logic (chapter 11) -/

structure Timer where
  pt : Nat := 0
  et : Nat := 0
  q : Bool := false
  pin : Bool := false
  /-- frame of the last evaluation; none since initialisation -/
  lf : Option Nat := none
deriving DecidableEq, Repr

structure Counter where
  cv : Int := 0
  pv : Int := 0
  q : Bool := false
  up : Bool := false
  dn : Bool := false
deriving DecidableEq, Repr

structure Edge where
  p : Bool := false
  prime : Bool := false
deriving DecidableEq, Repr

/-- A partition's variables and scheme outputs (R235, R236). -/
structure Vars where
  b : List (Nat × Bool) := []
  f : List (Nat × Word) := []
  i : List (Nat × Word) := []
  t : List (Nat × Timer) := []
  c : List (Nat × Counter) := []
  e : List (Nat × Edge) := []
  o : Word := 0#32
deriving DecidableEq, Repr

/-- A task of a program (R231, R418). -/
structure Task where
  valid : Bool := false
  tierB : Bool := false
  n : Nat := 0
  phase : Nat := 0
  first : Nat := 0
  words : Nat := 0
deriving DecidableEq, Repr

/-- A program bank: an SLX block (R418). -/
structure Prog where
  defined : Bool := false
  tasks : List Task := []
  code : List Word := []
  pool : List Word := []
  init : Vars := {}
  /-- variable-ID map: ID, space, index -/
  vids : List (Nat × Nat × Nat) := []
  /-- SHA-512 of the block (R431) -/
  hash : List Byte := []
deriving DecidableEq, Repr

/-- A force (R251): kind, index, value, and the ID that names the target in the program in force. -/
structure Force where
  kind : Nat
  index : Nat
  value : Word
  vid : Nat
deriving DecidableEq, Repr

/-- Run state of a task (R238, R249, R259). -/
structure TaskSt where
  /-- no run has committed since initialisation or replacement -/
  fresh : Bool := true
  /-- the next activation is skipped -/
  skip : Bool := false
deriving DecidableEq, Repr

structure PartSt where
  prog : Prog := {}
  shadow : Prog := {}
  /-- BUDGET entries of the shadow's B-tier tasks -/
  shadowJobs : List OJob := []
  vars : Vars := {}
  /-- variables formed by the carry-over for the swap, how many were carried and how many initialised (R257) -/
  carried : Option (Vars × Nat × Nat) := none
  forces : List Force := []
  tasks : List TaskSt := List.replicate 8 {}
  /-- PART section: DEFINED, DANCHOR, RIGHTS -/
  defined : Bool := false
  danchor : Nat := 0
  rights : Nat := 0
deriving DecidableEq, Repr

/-- The run in progress (R237, R240): accumulators, bit stack, position, the images, and the cycles counted. -/
structure RunCtx where
  part : Nat := 0
  task : Nat := 0
  bacc : Bool := false
  facc : Word := 0#32
  kacc : Word := 0#32
  /-- newest entry first; at most 4 -/
  stack : List Bool := []
  pc : Nat := 0
  /-- what a read returns: the variables as the run sees and leaves them -/
  vars : Vars := {}
  cycles : Nat := 0
  ended : Bool := false
  /-- element status words as the run reads them are those of the frame (R237): no copy is kept -/
  active : Bool := false
deriving DecidableEq, Repr

structure SlxSt where
  p0 : PartSt := {}
  p1 : PartSt := {}
  p2 : PartSt := {}
  p3 : PartSt := {}
  run : RunCtx := {}
  /-- FORCED_N pin asserted -/
  forcedN : Bool := false
deriving DecidableEq, Repr

/-! ### Pedigree and security (chapter 18) -/

/-- A load or delta in progress. -/
structure LoadSt where
  /-- 0 none; 1 being read; 2 read; 3 verified, admission due; 4 admitted, staging due; 5 staged; 6 refused -/
  stage : Nat := 0
  delta : Bool := false
  /-- source: 0-3 host ports, 4 SVC, 5 QSPI slot 0, 6 QSPI slot 1 -/
  src : Nat := 0
  /-- who asked for it: 0-3 host ports, 4 SVC, 7 start-up; for a host command, its port and tag, for its entries -/
  port : Nat := 0
  cmd : Option (Nat × Nat) := none
  part : Nat := 0
  /-- the QSPI slot is still to be chosen by R423; the slot to try when the first fails -/
  choose : Bool := false
  fallback : Option Nat := none
  /-- the image as read, and whether reading it failed or the slot is empty -/
  image : List Byte := []
  readErr : Bool := false
  /-- result of the admission that runs: code, item, slot, count, load -/
  adm : Nat := 0
  admItem : Nat := 0
  admSlot : Nat := 0
  admCount : Nat := 0
  admLoad : Nat := 0
  /-- frame boundary at which a refused load returns -/
  due : Nat := 0
deriving DecidableEq, Repr

/-- Trust-anchor slots, the counter and the pedigree in force. -/
structure SecSt where
  load : LoadSt := {}
  /-- a whole load has taken effect at the last boundary (R427) -/
  wholeNow : Bool := false
  /-- deltas accepted while another load or delta is read, verified or admitted, in order -/
  waiting : List LoadSt := []
  /-- key hashes, revoke fuses, damaged marks, programmed marks of the four slots -/
  anchors : List (List Byte) := [[], [], [], []]
  revoked : List Bool := [false, false, false, false]
  damaged : List Bool := [false, false, false, false]
  counter : Nat := 0
  /-- the running pedigree: hash, anchor, rollback, build, target of the fuse command -/
  hash : List Byte := []
  anchor : Nat := 0
  rollback : Nat := 0
  build : Nat := 0
  inForce : Bool := false
  /-- a fuse operation runs: op, slot, and the 64 bytes of SEC_FUSEDATA at its check (R429; assumption log 57) -/
  fuse : Option (Nat × Nat × List Byte) := none
  /-- reports waiting to be signed, oldest first: port, tag of its command, address, the 512 bytes -/
  reports : List (Nat × Nat × Nat × List Byte) := []
  /-- the committed image, for the sections staged from it -/
  image : List Byte := []
deriving DecidableEq, Repr

/-! ### Lanes, slices and the filter chain (chapters 4, 5) -/

/-- The reference phasor of a frame (R147): its value, as a fraction of full scale, and whether its span is free of U and O. -/
structure PRef where
  re : Rat
  im : Rat
  clean : Bool
deriving DecidableEq, Repr

/-- The settings under which the stage-A output of the frame just ended is formed (R81, R103, R115): taken at the frame
boundary, before what applies at that boundary. -/
structure LaneForm where
  /-- pack ON, applied type, gain and injection with its LEVEL, trims, delay code, DEC_LANE, thresholds, T of the mode; U of the
  count; restart causes -/
  on : Bool := false
  typ : Nat := 0
  gain : Nat := 0
  inj : Nat := 0
  level : Nat := 0
  ltrim : Word := 0#32
  code : Nat := 0
  dec : Word := 0#32
  hi : Word := 0#32
  hh : Word := 0#32
  t : Bool := false
  u : Bool := false
  restart : Bool := false
deriving DecidableEq, Repr

/-- One lane, local or virtual. Applied gain, type and injection are in AFE_LSTAT, the U count and the integrator's count
in DEC_LSTAT, threshold states in DEC_TSTAT. -/
structure LaneSt where
  /-- LANE section: role, scale (fp32), cable capacitance per metre in 0.1 pF (R418) -/
  role : Nat := 255
  scale : Word := 0#32
  cable : Nat := 0
  /-- gain and type that take hold when the pack enters ON (R80): AFE_LANE word -/
  stored : Option Word := none
  /-- DEC_LANE, DEC_HI and DEC_HH as applied (R103, R115) -/
  dec : Word := 0#32
  hi : Word := 0#32
  hh : Word := 0#32
  /-- CNV_LTRIM and CNV_STRIM.TRIM as applied (R91) -/
  ltrim : Word := 0#32
  strim : Nat := 0
  /-- the injection in force or stored (R92-R94): AFE_INJ word; the write deferred by sniff -/
  inj : Word := 0#32
  injHeld : Option Word := none
  /-- an overrange excursion is open: its last marker was negative (R87) -/
  exc : Option Bool := none
  /-- an overrange marker fell in the present frame, and in the frame before -/
  ovrNow : Bool := false
  ovrOld : Bool := false
  /-- codes of the first strobes of this frame that are not settled (R81) -/
  unset : Nat := 0
  /-- corrected codes of the present frame by strobe, as the slice sent them, and whether they were measured (R96); those of the
  frame before, whose strobe 127 is converted in the present one (R25), and whether they count in a level (R97) -/
  codes : List (BitVec 16) := List.replicate 128 0#16
  meas : Bool := false
  codesOld : List (BitVec 16) := List.replicate 128 0#16
  lvlOld : Bool := false
  /-- the cable item's fits so far (R130): sums of the doubled centred abscissa times the code over both intervals, residual sums
  of squares, frames taken, and whether a code of a fit was a marker -/
  fitR : Int := 0
  fitF : Int := 0
  resR : Rat := 0
  resF : Rat := 0
  fitN : Nat := 0
  fitOvr : Bool := false
  /-- unsettled first codes of the frame before (R196) -/
  unsetOld : Nat := 0
  /-- the 128 raw codes that stage A collects, by strobe, and which were replaced (R32): of the present frame and of the frame
  before; the last one taken -/
  now : List (BitVec 16) := List.replicate 128 0#16
  nowRep : List Bool := List.replicate 128 false
  old : List (BitVec 16) := List.replicate 128 0#16
  oldRep : List Bool := List.replicate 128 false
  last : BitVec 16 := 0#16
  /-- raw codes of earlier frames, newest first, at most four frames; per frame, newest first: replaced, overrange (R102) -/
  raw : List (BitVec 16) := []
  repl : List Bool := []
  ovr : List Bool := []
  /-- with each code of `raw`: bit 0 not settled, bit 2 replaced or under injection, bit 4 disabled, bit 5 none,
  of the frame in which the pack left ON (R195, R196) -/
  cfl : List Nat := []
  form : LaneForm := {}
  /-- a restart cause of the integrator took effect in this frame (R108) -/
  restart : Bool := false
  /-- stage-A output, stage-A-rate word, and delivered stage-B word (R100, R104, R107) -/
  aOut : Word := 0#32
  rate : Word := 0#32
  del : Word := 0#32
  /-- integrator: running, outputs still to come of the 640, state y, last input, sum of its outputs since the restart (R107,
  R108) -/
  intRun : Bool := false
  icnt : Nat := 0
  y : Rat := 0
  xPrev : Int := 0
  ySum : Rat := 0
  /-- the 640 outputs are complete and their mean is still to be subtracted -/
  intPend : Bool := false
  /-- the last inputs of half-band stages 1 to 6, newest first; at most seven each -/
  bst : List (List Word) := List.replicate 6 []
  /-- last output of stage 6 (R266) -/
  b6 : Word := 0#32
  /-- stage-B input words, newest first, each with the gain it was formed at; at most 1 600 (R138, R139) -/
  hist : List (Word × Nat) := []
  /-- c of the cosine filter of the last 101 frames, newest first (R142) -/
  cHist : List Rat := []
  /-- the lane's words of earlier images with their gains, newest first, and the gain of the word in the present image: what
  elements read (R161) -/
  eHist : List (Word × Nat) := []
  eGain : Nat := 0
  /-- full-cycle reference phasors of the last 33 frames, newest first (R147) -/
  pref : List PRef := []
  /-- skew and level measurements in progress (R96, R97) -/
  skAcc : Rat := 0
  skCnt : Nat := 0
  dcAcc : Int := 0
  dcCnt : Nat := 0
deriving DecidableEq, Repr

/-! ### Auxiliary converter and survey (chapter 6) -/

/-- The auxiliary converter: settings as applied, the running scan, the host's urgent request (R119-R124). -/
structure AuxSt where
  cfg : Word := 0#32
  maskLo : Word := 0#32
  maskHi : Word := 0#32
  cmp : Word := 0#32
  /-- TB_NS when the compare was armed, or right after a later phase step, and whether the value was met before that step (R121) -/
  armTb : Nat := 0
  hit : Bool := false
  /-- channels, settings, entry, conversions taken and sum of the running scan; its scan number -/
  entries : List Nat := []
  scfg : Word := 0#32
  idx : Nat := 0
  cnt : Nat := 0
  sum : Nat := 0
  scan : Nat := 0
  /-- host urgent request pending or converting -/
  urg : Option Nat := none
  /-- frame from which PWR_REF.AUX = 1 has been in effect (R124) -/
  refAt : Option Nat := none
  /-- a supply window ran in the present frame, and the channels it converted; consecutive frames with one (R125) -/
  win : Bool := false
  fresh : List Nat := []
  winRun : Nat := 0
deriving DecidableEq, Repr

/-- Process-bus item of one port (R134). -/
structure PdelaySt where
  linked : Bool := false
  /-- requests still to send, and whether a response is awaited -/
  left : Nat := 0
  waiting : Bool := false
  /-- the exchange at hand, in ns of full time: t1 of the request; t2 and t4 once the response has come (R134) -/
  t1 : Int := 0
  resp : Option (Int × Int) := none
  /-- complete exchanges and the sum of 2d -/
  count : Nat := 0
  sum2 : Int := 0
  mac : List Byte := []
  clock : List Byte := []
  /-- frame of the last request; all three requests have been sent and answered or timed out -/
  sent : Nat := 0
  done : Bool := false
deriving DecidableEq, Repr

/-- The survey in progress (R126-R135). The record itself is SNF_REC. -/
structure SniffSt where
  /-- item bits still to run, in the order of R127, the first one running -/
  items : List Nat := []
  req : Nat := 0
  code : Nat := 0
  bays : Word := 0#32
  doMask : Word := 0#32
  /-- frames counted in the running item; supply sums of channels 16-47 and frames counted -/
  frames : Nat := 0
  sums : List Nat := []
  counted : Nat := 0
  waited : Nat := 0
  /-- cable item: bays still to measure, the bay at hand, frames waited for it, first frame of its step, its lanes -/
  cable : List Nat := []
  bay : Option Nat := none
  wait : Nat := 0
  stepAt : Option Nat := none
  lanes : List Nat := []
  /-- the cable item ended early under R65: remaining bays take status 3 -/
  cut : Bool := false
  /-- CABLE and HOST entries measured and not yet written: key and word (R135) -/
  found : List (Nat × Word) := []
  /-- binary inputs seen on during their item (R132) -/
  diSeen : Nat := 0
  /-- load item: outputs commanded on at its start or during it (R131) -/
  onSeen : Word := 0#32
  /-- outputs through which the item's test current flows (R131) -/
  testOn : Word := 0#32
  /-- measurement steps of the running item still to be taken, and what the last one measured -/
  left : Nat := 0
  vals : List Nat := []
  ports : List PdelaySt := List.replicate 4 {}
  /-- samples per stream counted in the first 4 096 frames -/
  svCount : List Nat := List.replicate 16 0
  svPort : List Nat := List.replicate 16 0
  closing : Bool := false
deriving DecidableEq, Repr

/-! ### Measurement (chapter 7) -/

/-- A latched synchrophasor report (R156): its 112 bytes but for the lost flag. -/
structure SyncRep where
  bytes : List Byte
deriving DecidableEq, Repr

/-- What forms the results of the frame just ended (R151): MSR_CFG, RATE, and whether the reference (1) or FNOM (2) changed
at its start. -/
structure BayForm where
  cfg : Word := 0#32
  rate : Nat := 0
  chg : Nat := 0
deriving DecidableEq, Repr

/-- Phasors of a bay as an image held them: frame of the data, TB_NS at its start, 16 phasor words, the flag word and f_trk
(R178, R184, R185). -/
structure PhEnt where
  frame : Nat := 0
  tb : Nat := 0
  words : List Word := []
  flags : Word := 0#32
  fTrk : Word := 0#32
deriving DecidableEq, Repr

/-- One bay. Tracker state, HOLD count and flags are in MSR_FSTAT. -/
structure BaySt where
  /-- BAY section: partition, none for 16#FF -/
  part : Option Nat := none
  /-- CNV_CTRL as applied (R91) -/
  cnvCtrl : Word := 0#32
  /-- frames counted in the windows of the background correction, offset and gain (R89) -/
  offWin : Nat := 0
  gainWin : Nat := 0
  /-- MSR_CFG and MSR_SYNC.RATE as applied (R151), MSR_HMASK as applied (R458) -/
  cfg : Word := 0#32
  rate : Nat := 0
  hmask : Nat := 0
  chg : Nat := 0
  form : BayForm := {}
  /-- f_trk as binary32 (R148); 50 Hz at reset, the f0 of FNOM = 0 (R150) -/
  fTrk : Word := 0x42480000#32
  vRun : Nat := 0
  acqRun : Nat := 0
  guardRun : Nat := 0
  mainRun : Nat := 0
  /-- f_trk history since the entry to LOCKED, newest first, at most 321 -/
  fHist : List Word := []
  reports : List SyncRep := []
  lostSince : Bool := false
  /-- up to which instant, in s of full time, report instants have found their frame (R156) -/
  repUpTo : Option Rat := none
  /-- flags of the powers in the latest results (R146): no register shows them -/
  pwFlags : Nat := 0
  /-- phasors of earlier images, newest first; at most 1 204 -/
  phHist : List PhEnt := []
deriving DecidableEq, Repr


/-! ### Traveling waves (chapter 9) -/

/-- TWV_LCFG and TWV_LCORR of a lane as applied, and as they stood in the last two frames (R208); strobes of the next frame
that still belong to its last detection. -/
structure TwLane where
  cfg : Word := 0#32
  corr : Word := 0#32
  cfg1 : Word := 0#32
  corr1 : Word := 0#32
  cfg2 : Word := 0#32
  corr2 : Word := 0#32
  skip : Nat := 0
  skipAt : Nat := 0
deriving DecidableEq, Repr

/-- TWV_BCFG, LEN, VEL, RTHR, and whether samples carry T. -/
structure TwSet where
  cfg : Word := 0#32
  len : Word := 0#32
  vel : Word := 0#32
  rthr : Word := 0#32
  t : Bool := false
deriving DecidableEq, Repr

/-- A bay event (R198): number, frame of n0, its strobe, lead lane, flags, stamp, per-lane words of the record, peak strobe and
instant t1 in ns from the frame's start, polarity and CORR of the lead lane, settings. -/
structure TwEvent where
  evno : Word := 0#32
  frame : Nat := 0
  n0 : Nat := 0
  lead : Nat := 0
  flags : Nat := 0
  tb : Nat := 0
  sec : Nat := 0
  nsec : Nat := 0
  lanes : List Word := []
  peak : Nat := 0
  t1 : Rat := 0
  neg : Bool := false
  corr : Int := 0
  set : TwSet := {}
deriving DecidableEq, Repr

/-- One bay: settings as applied and as they stood in the last two frames; the frame from which it is armed again; events whose
record is still to be written; the last event; the frame last evaluated. -/
structure TwBay where
  set : TwSet := {}
  set1 : TwSet := {}
  set2 : TwSet := {}
  rearm : Option Nat := none
  events : List TwEvent := []
  last : Option TwEvent := none
  seen : Option Nat := none
deriving DecidableEq, Repr

/-- A capture buffer (R202, R203): its event and bay, d of the eight lanes from strobe n0 - 16 on, the flags of the lead lane's
codes (1 U, 2 O, 4 S), and whether its location is queued. -/
structure TwBuf where
  bay : Nat
  ev : TwEvent
  d : List (List Int)
  fl : List Nat
  queued : Bool := false
deriving DecidableEq, Repr

/-- A location request (R204): its bay and event; the buffer of a single-ended one; slices done; for a double-ended one tA - tB in
ns. -/
structure TwReq where
  bay : Nat
  ev : TwEvent
  buf : Option Nat
  done : Nat := 0
  dt : Int := 0
deriving DecidableEq, Repr

structure TwSt where
  lanes : List TwLane := List.replicate 256 {}
  bays : List TwBay := List.replicate 32 {}
  bufs : List (Option TwBuf) := List.replicate 8 none
  queue : List TwReq := []
deriving DecidableEq, Repr

/-! ### Disturbance acquisition (chapter 12) -/

/-- The rows of one frame in a recorder's ring: write index of the first, how many, the frame (counted without wrap), its SEC,
NSEC and TB_NS (extended) at its start, and the gain of each lane of the set. -/
structure Stamp where
  w : Nat := 0
  n : Nat := 0
  frame : Nat := 0
  sec : Nat := 0
  nsec : Nat := 0
  tb : Int := 0
  gains : List Nat := []
deriving DecidableEq, Repr

/-- A trigger edge (R270 to R273): its instant, in ns with frame n starting at 62 500 n, and as seconds and ns; definition
index, 16 for the host; ENG_FRAME of its recognition; from a mask with STOP. -/
structure Trig where
  pos : Int := 0
  sec : Nat := 0
  nsec : Nat := 0
  idx : Nat := 0
  frame : Nat := 0
  stop : Bool := false
deriving DecidableEq, Repr

/-- A recording of R272, or a segment: first row, rows, position of T0 among them, trigger, stamps of its rows. -/
structure Seg where
  first : Nat := 0
  n : Nat := 0
  t0 : Nat := 0
  trig : Trig := {}
  stamps : List Stamp := []
deriving DecidableEq, Repr

/-- A digital entry (R269): signal, new state, tag extended by its wraps. Its 8 bytes stand in the digital ring (slot: its number
since staging). -/
structure DigEnt where
  sig : Nat := 0
  on : Bool := false
  tag : Int := 0
  slot : Nat := 0
deriving DecidableEq, Repr

/-- A closed recording or run (R281, R286): recorder, segmented, segments, FLAGS, RECNO; its delivery: the first slice has
run, positions and lengths of .cfg, .hdr, change list and .dat, bytes of .dat written, digital entries and initial states,
units of the time stamps; due: the number of the frame at whose start it counts as closed (R281). -/
structure Done where
  who : Nat := 0
  due : Nat := 0
  multi : Bool := false
  segs : List Seg := []
  flags : Nat := 0
  recno : Nat := 0
  begun : Bool := false
  ofs : List Nat := []
  sent : Nat := 0
  digs : List DigEnt := []
  base : List Bool := []
  fine : Bool := false
deriving DecidableEq, Repr

/-- A trend block (R285): number, first row, its stamps, slices done, words formed, FLAGS. -/
structure TrendBlk where
  no : Nat := 0
  first : Nat := 0
  stamps : List Stamp := []
  done : Nat := 0
  words : List Word := []
  flags : Nat := 0
deriving DecidableEq, Repr

/-- A recorder. What the ACQ section gives it beside registers (R418): lanes, signal words, strings, primary and secondary
values. Commands that wait (R276): frame, written word, whether its EN still counts. -/
structure RecSt where
  lanes : List Nat := []
  sigs : List Nat := []
  strs : List (List Byte) := []
  prim : List (Word × Word) := []
  ten : Nat := 0
  cmds : List (Nat × Word × Bool) := []
  /-- rows written so far; write index and frame of the first row since ring writing last began; frame from which rows are no
  longer written; the frame in which rows were last written; stamps of rows in the ring, oldest first -/
  wrN : Nat := 0
  eraW : Nat := 0
  eraF : Nat := 0
  endF : Option Nat := none
  rowF : Option Nat := none
  stamps : List Stamp := []
  /-- instant of the latest entry to ARMED, in ns as in `Trig.pos` -/
  armPos : Rat := 0
  /-- recording in POST: its trigger and the write index of T0; STOP has been asked for; a mask with STOP started it -/
  post : Option (Trig × Nat) := none
  stopReq : Bool := false
  maskEnd : Bool := false
  /-- segments of the run; those whose copy is still to be made; rows used in the store -/
  segs : List Seg := []
  copies : List (Nat × Seg) := []
  storeN : Nat := 0
  /-- a run is held in the store -/
  busy : Bool := false
  /-- recordings complete and not yet closed -/
  closing : List Done := []
  recno : Nat := 0
  stopAt : Option Nat := none
  /-- trend: write index at the entry to TREND; blocks held -/
  trendW : Nat := 0
  blocks : List TrendBlk := []
  /-- edges recognised in the present frame; previous states behind kinds 3 and 4; per mask the run of outside words: count and
  instant of the first -/
  edges : List Trig := []
  trigPrev : List Bool := []
  masks : List (Nat × Int) := []
  /-- digital ring, oldest first; entries written since staging; TB_NS wraps at the latest entry to ARMED or TREND; states before
  its oldest entry; states now; states of element, zone and scheme signals as the present frame's closure job found them; tags of
  lost entries that rows still held reach back to -/
  digs : List DigEnt := []
  digN : Nat := 0
  digWrap : Int := 0
  digBase : List Bool := []
  digNow : List Bool := []
  digShot : List Bool := []
  digLost : List Int := []
deriving DecidableEq, Repr

/-- The recorders and the delivery queue (R284). -/
structure AcqSt where
  recs : List RecSt := List.replicate 16 {}
  queue : List Done := []
deriving DecidableEq, Repr

/-! ### Field inputs and outputs (chapter 15) -/

/-- One binary input: its partition, FIO_DICFG as applied, I_Q and whether it is supervised (R418); the consecutive samples that
differed from the debounced state with TB_NS of the first, and samples still not counted (R350, R352); for a fast input, CCLK
cycles since its last counted edge and whether one was counted since a clear (R351). Its states are in FIO_DISTAT. -/
structure DiSt where
  owner : Option Nat := none
  cfg : Word := 0#32
  iq : Nat := 0
  supervised : Bool := false
  diff : Nat := 0
  firstTb : Word := 0#32
  skip : Nat := 0
  acc : Nat := 0
  counted : Bool := false
deriving DecidableEq, Repr

/-- One output: its partition, FIO_DOCFG as applied, the last applied command, thermal shutdown and current limit, the
fault of V0 (0, 3 or 4), consecutive frames of V1 at or above 12.0 V and below 10.0 V, open load, the last 16 readings of
V1 in mV, the frame it was last applied off while that blanks its checks, the pin reading, its drop in mV and current in
mA. -/
structure DoSt where
  owner : Option Nat := none
  cfg : Word := 0#32
  cmd : Bool := false
  tsd : Bool := false
  lim : Bool := false
  stuck : Nat := 0
  hiN : Nat := 0
  loN : Nat := 0
  openLd : Bool := false
  v1s : List Nat := []
  blank : Option Nat := none
  pin : Bool := false
  drop : Nat := 0
  ma : Nat := 0
deriving DecidableEq, Repr

/-- Field I/O: points; VFIELD of each bank in mV as last seen; the copies of command sets held from V1 to V3, the last
applied set and its FRAME (none before the first, R354); banks whose release waits for the next set (R364). -/
structure FioSt where
  di : List DiSt := List.replicate 64 {}
  dos : List DoSt := List.replicate 32 {}
  mv : List Nat := [24000, 24000, 24000, 24000]
  /-- frames for which each bank's sum of currents has stayed above 2.0 A, and below 1.9 A (R353) -/
  overN : List Nat := [0, 0, 0, 0]
  underN : List Nat := [0, 0, 0, 0]
  copies : List (Option (List Byte)) := [none, none, none]
  matched : Option (List Byte) := none
  lastFrame : Option Nat := none
  releasing : Nat := 0
  /-- the voted command set of the present frame, released at its end (R45); the set of the frame before -/
  voted : Option Word := none
  released : Word := 0#32
deriving DecidableEq, Repr

/-! ### Host ports (chapter 16) -/

/-- A command in flight (R374, R375): `tag` tells it from others of the same CID. -/
structure Cmd where
  tag : Nat
  cid : Nat
  opcode : Nat
  param : List Byte
  frame : Nat
  /-- its interim entry has been posted -/
  started : Bool := false
deriving DecidableEq, Repr

/-- A completion entry to be written (R378). -/
structure Cpl where
  tag : Nat
  cid : Nat
  opcode : Nat
  final : Bool
  status : Nat
  frame : Nat
  result : Nat
deriving DecidableEq, Repr

/-- One host port. -/
structure PortSt where
  cmds : List Cmd := []
  nextTag : Nat := 0
  /-- command doorbell writes: tail index and frame, oldest first -/
  bells : List (Nat × Nat) := []
  /-- the entry at HEAD has been held back by the in-flight limit (R375) -/
  heldBack : Bool := false
  /-- what the host has set in the configuration space (R366, R367) -/
  setup : PciSetup := {}
  /-- completion entries held (R380); entries written and not released -/
  held : List Cpl := []
  out : Nat := 0
  /-- queues 0-3 that received something since their vector was last signalled, and the frame of that signal (R386) -/
  got : Nat := 0
  lastSig : List (Option Nat) := [none, none, none, none]
  /-- event records not posted, and the sequence number of the first (R384) -/
  missed : Nat := 0
  missedSeq : Nat := 0
  /-- queue writes of the present frame's G jobs, in order, which its end releases (R45): event queue or measurement queue, the item,
  its sequence number -/
  later : List (Bool × Bool × List Byte × Nat) := []
deriving DecidableEq, Repr

/-- A high-word shadow (R372): the tagged low-word address and the word. -/
abbrev Shadow := Option (Nat × Word)

structure HqSt where
  ports : List PortSt := List.replicate 4 {}
  /-- high-word shadows of HP0-HP3 and the service port (R372) -/
  shadows : List Shadow := [none, none, none, none, none]
  /-- status bits [3:0] of the service port's last transaction (R392) -/
  svcLast : Nat := 0
deriving DecidableEq, Repr

/-! ### Process bus (chapter 14) -/

/-- A member descriptor of a template (R418): offset of its value in the frame, type (0 BOOLEAN, 1 INT32, 2 FLOAT32, 3 BIT
STRING, 4 quality), bit length, and its source operand or the image word V[j]. -/
structure Member where
  off : Nat
  typ : Nat
  bits : Nat
  src : Nat
deriving DecidableEq, Repr

/-- A publishing control block (R331, R332): its template; the dataset assembled for the frame that ends, the one last
published, the octets of t, and when the next retransmission falls: frames from the change to the last transmission, and
the frame of the next. -/
structure GpBlk where
  frame : List Byte := []
  members : List Member := []
  t1 : Nat := 0
  tmax : Nat := 0
  vid : Nat := 0
  pcp : Nat := 0
  voted : Option (List Word) := none
  last : Option (List Word) := none
  stamp : List Byte := []
  since : Nat := 0
  due : Option Nat := none
deriving DecidableEq, Repr

/-- A subscription (R335, R337): its template and defaults; (stNum, sqNum) of the last accepted message, and the full time in
ns at which it expires. -/
structure GsSub where
  frame : List Byte := []
  members : List Member := []
  defaults : List Word := []
  last : Option (Nat × Nat) := none
  expiry : Option Nat := none
  port : Nat := 0
deriving DecidableEq, Repr

/-- A sample of a stream (R339): its count on the seconds counted since reset, the eight values and qualities, smpSynch, simulation. -/
structure SvSample where
  n : Int
  vals : List Int
  quals : List Nat
  synch : Nat
  sim : Bool
deriving DecidableEq, Repr

/-- A stream (R338 to R342): its template; samples held, newest first; whether one arrived in this frame; consecutive frames
without and with samples; frames since the first sample after a start or gap. -/
structure SvStr where
  frame : List Byte := []
  held : List SvSample := []
  here : Bool := false
  idle : Nat := 0
  run : Nat := 0
  since : Nat := 4
  /-- samples accepted in the present frame, and the port of the last one (R134) -/
  count : Nat := 0
  port : Nat := 0
deriving DecidableEq, Repr

/-- A port: receive FIFO entries of 272 bytes, oldest first (R325), the mailbox frame that waits (R326), D_FIX in ns and v as
fp32 (R418), the Pdelay_Req numbering.
Frames of classes 3 and 4 that wait behind the mailbox frame, each with its class, stand in `queue` (R330). -/
structure PbPort where
  queue : List (Nat × List Byte) := []
  rx : List (List Byte) := []
  tx : Option (List Byte) := none
  dfix : Nat := 0
  vel : Word := 0#32
deriving DecidableEq, Repr

/-- A PRP pair (R329): sequence numbers of trailers and of supervision frames; the discard table, oldest first: source
address, sequence number, time of entry in ns; when the next supervision frame is due, in ns since reset. -/
structure PrpPair where
  seq : Nat := 0
  sup : Nat := 0
  supDue : Nat := 0
  table : List (List Byte × Nat × Nat) := []
deriving DecidableEq, Repr

structure PbxSt where
  ports : List PbPort := List.replicate 4 {}
  pairs : List PrpPair := List.replicate 2 {}
  pubs : List GpBlk := []
  subs : List GsSub := []
  streams : List SvStr := []
deriving DecidableEq, Repr

/-! ### Protection elements (chapter 8) -/

/-- A loop of the incremental-quantity directional element (R179): frames since it armed, the two sums, its decision (1 forward, 2
reverse) and the frames it still holds, whether it waits to re-arm, and the quiet frames. -/
structure LoopSt where
  armed : Option Nat := none
  num : Rat := 0
  den : Rat := 0
  dec : Nat := 0
  left : Nat := 0
  waits : Bool := false
  quiet : Nat := 0
deriving DecidableEq, Repr

/-- The voltage memory of a loop of RDIR (R178): frames since V_pol was last at least VMIN, the memory phasor, and 2 round(W). -/
structure VmemSt where
  since : Option Nat := none
  re : Rat := 0
  im : Rat := 0
  back : Nat := 0
  /-- flags of the phasors that the memory holds (R166) -/
  fl : Nat := 0
deriving DecidableEq, Repr

/-- A fault-location capture (R185): the trigger frame and round(W). -/
structure CapSt where
  frame : Nat := 0
  rw : Nat := 0
deriving DecidableEq, Repr

/-- An instance: settings in force, status word of the frame, timers and integrators of the outputs A, B, C, N, frames since
a start cleared, theta, cold-load state, latch, previous bits, loops, memories, capture, poison run, own blocking. -/
structure ElemSt where
  words : List Word := []
  status : Word := 0#32
  cnt : List Nat := [0, 0, 0, 0]
  g : List Rat := [0, 0, 0, 0]
  off : List Nat := [0, 0, 0, 0]
  theta : Rat := 0
  cold : Nat := 0
  latch : Bool := false
  pulse : Nat := 0
  prevBit : Bool := false
  prevTrip : Bool := false
  loops : List LoopSt := [{}, {}, {}, {}]
  mem : List VmemSt := [{}, {}, {}]
  cap : Option CapSt := none
  pois : Bool := false
  ownBlk : Bool := false
  /-- an accepted commit that waits for its boundary: frame, words, port (R171) -/
  commit : Option (Nat × List Word × Port) := none
deriving DecidableEq, Repr

/-- A zone: settings, status word, C of the last frames by phase, frames of discrepancy of each slot, poison run; of the frame:
a mask of the evaluated bays, the highest i_d, and i_r of the same phase. -/
structure ZoneSt where
  words : List Word := []
  status : Word := 0#32
  ca : List Bool := []
  cb : List Bool := []
  cc : List Bool := []
  disc : List Nat := []
  pois : Bool := false
  bays : Nat := 0
  id : Word := 0#32
  ir : Word := 0#32
  commit : Option (Nat × List Word × Port) := none
deriving DecidableEq, Repr

/-- A setting window (R171): its shadow, loaded or not, and the commits it has submitted and that await their check, oldest
first: frame of the check, instance, words. -/
structure WinSt where
  loaded : Bool := false
  shadow : List Word := []
  subs : List (Nat × Nat × List Word) := []
deriving DecidableEq, Repr

structure PelSt where
  insts : List ElemSt := []
  zones : List ZoneSt := []
  /-- windows of HP0-HP3 and the service port -/
  wins : List WinSt := List.replicate 5 {}
  /-- writes of PEL_ICTRL on their way to the image: frame, instance, value (R213) -/
  ctrl : List (Nat × Nat × Word) := []
deriving DecidableEq, Repr
/-! ### The machine -/

/-- Why a command stops the machine: nothing does. The manual describes no stop; a host error goes unnoticed and the device goes on
(R14, R15; Access.lean), so no command raises a fault. -/
inductive Fault
deriving DecidableEq, Repr

/-- Why a command has no meaning here.
`notModelled`: raised by Dispatch.lean for a row that has not been given its meaning; safe.
`notInProgram`: raised by the rows of Mydun instructions for an operand that R246 codes 2 to 4 refuse at load, so that no
program holds it; safe. -/
inductive Refusal where
  | notModelled (mnemonic : String)
  | notInProgram
deriving DecidableEq, Repr

/-- The state of the block. -/
structure State where
  /-- commands that wait, first in, first out -/
  pending : List Instr := []
  /-- registers, by RegMap key, where they differ from `regReset` -/
  regs : List (Nat × Word) := []
  /-- memory of the nine regions of R396: five bytes a word, four of data and the check byte (Ops.lean) -/
  mem : List Host.Cell := []
  /-- writes that await their frame, by register key, oldest first -/
  reqs : List (Nat × List Req) := []
  /-- how many free values have been taken: the model's own -/
  freeIx : Nat := 0
  /-- what the device has sent, oldest first: the model's own record of its outputs -/
  sent : List Out := []
  /-- data of the last read completion; none for a Completer Abort (R20, R408): the model's own record -/
  rdata : Option Word := some 0#32
  phase : Phase := .running
  pins : Pins := {}
  /-- causes of this frame for HQ_ISTAT, one mask per host port (R387) -/
  causes : List Nat := [0, 0, 0, 0]
  sup : Sup := {}
  link : LinkSt := {}
  time : TimeSt := {}
  evl : EvlSt := {}
  mst : MemSt := {}
  run : RunSt := {}
  budget : BudgetSt := {}
  ojobs : List OJob := []
  triad : TriadSt := {}
  slx : SlxSt := {}
  sec : SecSt := {}
  /-- lanes 0-383; the role of a lane is that of its place in the bay until a pedigree says otherwise (R13) -/
  lanes : List LaneSt := (List.range 384).map (fun l => { role := l % 8 })
  aux : AuxSt := {}
  sniff : SniffSt := {}
  fio : FioSt := {}
  hq : HqSt := {}
  pbx : PbxSt := {}
  pel : PelSt := {}
  tw : TwSt := {}
  acq : AcqSt := {}
  bays : List BaySt := List.replicate 48 {}
deriving DecidableEq, Repr

/-- The machine right after reset: the start of FILL (R8), every register at `regReset`, memory with nothing listed, no
command waiting. -/
def State.reset : State := {}

end Sys2Proof.Machine
end

