-- ==== Sys2Proof/Machine/Ops.lean ====
section
/-!
DEFINITION. Sys2Proof/Machine/Ops.lean: the shared operations: registers, free values, frames and requests, memory with its
check code (R397-R401), events (R295-R300), modes and FAULT_N (R60, R225), outputs.
-/
namespace Sys2Proof.Machine

/-! ### Registers -/

/-- What register `k` holds. -/
def State.rd (s : State) (k : Nat) : Word := sget regReset s.regs k

/-- Register `k` takes `v`. -/
def State.wr (s : State) (k : Nat) (v : Word) : State := { s with regs := sset regReset s.regs k v }

/-- A field of a register (R4). -/
def State.fld (s : State) (k hi lo : Nat) : Nat := field (s.rd k) hi lo

/-- One field of a register takes `v`, the others stay. -/
def State.setFld (s : State) (k hi lo v : Nat) : State := s.wr k (setField (s.rd k) hi lo v)

/-- A bit of a register. -/
def State.flag (s : State) (k n : Nat) : Bool := bit (s.rd k) n

/-- One bit of a register takes `b`. -/
def State.setFlag (s : State) (k n : Nat) (b : Bool) : State := s.wr k (setBit (s.rd k) n b)

/-- Add to a counter field, modulo its width. -/
def State.incFld (s : State) (k hi lo : Nat) : State := s.setFld k hi lo (s.fld k hi lo + 1)

/-- Add n to a counter field, held at the field's greatest value. -/
def State.satFld (s : State) (k hi lo n : Nat) : State :=
  s.setFld k hi lo (satAdd (2 ^ (hi + 1 - lo) - 1) (s.fld k hi lo) n)

/-- Write registers from key `k` on, 4 apart. -/
def State.wrList (s : State) (k : Nat) (ws : List Word) : State :=
  (ws.zipIdx).foldl (fun s e => s.wr (k + 4 * e.2) e.1) s

/-- The bytes of n registers from key `k` on (R5). -/
def State.rdBytes (s : State) (k n : Nat) : List Byte :=
  (List.range n).flatMap (fun i => bytesLE 4 (s.rd (k + 4 * i)).toNat)

/-- Little-endian words of a byte list; a last short group is filled with zeros. -/
def wordsOf (n : Nat) (bs : List Byte) : List Word := (List.range n).map (fun i => BitVec.ofNat 32 (leAt bs (4 * i) 4))

/-- The bytes of a word, least significant first (R5). -/
def wordBytes (w : Word) : List Byte := bytesLE 4 w.toNat

/-- Drop every register between two keys back to its reset value. -/
def State.clearRegs (s : State) (lo hi : Nat) : State :=
  { s with regs := s.regs.filter (fun e => decide (e.1 < lo) || decide (hi ≤ e.1)) }

/-! ### Free values (assumption log 2) -/

/-- A fresh value the manual does not state, and the state that has used it. -/
def State.free (s : State) : Word × State := (Config.freeWord s.freeIx, { s with freeIx := s.freeIx + 1 })

/-- n fresh words. -/
def State.freeList (s : State) (n : Nat) : List Word × State :=
  ((List.range n).map (fun i => Config.freeWord (s.freeIx + i)), { s with freeIx := s.freeIx + n })

/-- A fresh truth value. -/
def State.freeB (s : State) : Bool × State := (Config.freeBool s.freeIx, { s with freeIx := s.freeIx + 1 })

/-- A real value in whole units of a register: exact where it is whole; otherwise one of its two neighbours, which the
manual does not say (assumption log 3). -/
def unitOf (q : Rat) : Int := if q.den = 1 then q.num else q.floor + (if Config.tieUp q.num.natAbs then 1 else 0)

/-- The integer nearest to a real; on a tie the manual names no rule (assumption log 3). -/
def nearest (q : Rat) : Int :=
  let f := q.floor
  let d := q - f
  if d < 1 / 2 then f else if 1 / 2 < d then f + 1 else if Config.tieUp f.natAbs then f + 1 else f

/-- The integer nearest to a real, ties to even (R100, R340). -/
def nearestEven (q : Rat) : Int := roundEven q.num q.den

/-! ### Frames and requests -/

/-- ENG_FRAME (R39). -/
def State.frame (s : State) : Nat := (s.rd Reg.ENG_FRAME).toNat

/-- The slot of the present frame (R40). -/
def State.slot (s : State) : Nat := s.frame % 256

/-- ENG_FRAME as four bytes of a record. -/
def State.frameBytes (s : State) : List Byte := bytesLE 4 s.frame

/-- The requests on a register that wait, oldest first. -/
def State.waiting (s : State) (k : Nat) : List Req := sget (fun _ => []) s.reqs k

/-- The oldest request on a register, if any. -/
def State.req (s : State) (k : Nat) : Option Req := (s.waiting k).head?

/-- Set the request on a register, or take the oldest away. -/
def State.setReq (s : State) (k : Nat) (r : Option Req) : State :=
  { s with reqs := sset (fun _ => []) s.reqs k (match r with
    | some x => [x]
    | none => (s.waiting k).drop 1) }

/-- Nothing waits on a register any more. -/
def State.dropReqs (s : State) (k : Nat) : State := { s with reqs := sset (fun _ => []) s.reqs k [] }

/-- Place a request that takes effect at the start of frame f + 3 beside those that wait: each takes effect at its own
boundary, and of two of one frame the later one counts (assumption log 40). -/
def State.placeEach (s : State) (k : Nat) (v : Word) (p : Port) : State :=
  let g := (s.frame + 3) % 2 ^ 32
  { s with reqs := sset (fun _ => []) s.reqs k ((s.waiting k).filter (fun r => r.due != g) ++ [⟨g, v, p⟩]) }

/-- The same for a command: every one is taken at its boundary, in order. -/
def State.placeAll (s : State) (k : Nat) (v : Word) (p : Port) : State :=
  { s with reqs := sset (fun _ => []) s.reqs k (s.waiting k ++ [⟨(s.frame + 3) % 2 ^ 32, v, p⟩]) }

/-- Place a request that takes effect at the start of frame f + 3; it replaces one that still waits (R61, R80, R91). -/
def State.place (s : State) (k : Nat) (v : Word) (p : Port) : State :=
  s.setReq k (some ⟨(s.frame + 3) % 2 ^ 32, v, p⟩)

/-- The first hyperperiod boundary that begins at least 3 frames after the present one (R115, R151). -/
def State.hyper3 (s : State) : Nat := (s.frame + 3 + 255) / 256 * 256 % 2 ^ 32

/-- Place a request that takes effect at the hyperperiod boundary of `hyper3`. -/
def State.placeHyper (s : State) (k : Nat) (v : Word) (p : Port) : State := s.setReq k (some ⟨s.hyper3, v, p⟩)

/-- The request on a register whose boundary has been reached. -/
def State.due (s : State) (k : Nat) : Option Req :=
  match s.req k with
  | some r => if frameReached s.frame r.due then some r else none
  | none => none

/-- Take every request on a register that is due, oldest first, and act on its value. -/
def State.onDue (s : State) (k : Nat) (f : State → Req → State) : State :=
  let g := s.frame
  let w := s.waiting k
  let t := { s with reqs := sset (fun _ => []) s.reqs k (w.filter (fun r => !frameReached g r.due)) }
  (w.filter (fun r => frameReached g r.due)).foldl f t

/-- The code of a port in registers and records: 0-3 HP0-HP3, 4 SVC. -/
def portCode : Port → Nat
  | .hp p => p.val
  | .svc => 4

/-- The port of a code. -/
def portOf (n : Nat) : Port := if h : n < 4 then .hp ⟨n, h⟩ else .svc

/-! ### Modes (R60, R64) -/

def mFILL : Nat := 0
def mLOAD : Nat := 1
def mSTANDBY : Nat := 2
def mCOMMISSION : Nat := 3
def mSERVICE : Nat := 4
def mTEST : Nat := 5
def mDEGRADED : Nat := 6
def mSAFE : Nat := 7

/-- SYS_MODE.MODE. -/
def State.mode (s : State) : Nat := s.fld Reg.SYS_MODE 2 0

/-- The mode as behaved: in DEGRADED, the mode in PRIOR (R64, R65). -/
def State.behaved (s : State) : Nat := if s.mode = mDEGRADED then s.fld Reg.SYS_MODE 6 4 else s.mode

/-- Whether a mode permits lane injection and cable measurement (R60). -/
def permitsInjection (m : Nat) : Bool := m == mSTANDBY || m == mCOMMISSION

/-- Whether a mode has FAULT_N asserted (R60). -/
def assertsFault (m : Nat) : Bool := m == mFILL || m == mLOAD || m == mDEGRADED || m == mSAFE

/-- Whether the triad runs a plan (PWR_TRIAD.RUN). -/
def State.planRuns (s : State) : Bool := s.flag Reg.PWR_TRIAD 8

/-- Whether a pedigree is in force (SYS_STAT.PED). -/
def State.ped (s : State) : Bool := s.flag Reg.SYS_STAT 6

/-- Whether the engine judges the link up (SYS_STAT.LINK). -/
def State.linkUp (s : State) : Bool := s.flag Reg.SYS_STAT 5

/-- Drive FAULT_N; SYS_STAT.FAULT reads 1 while it is asserted (R225). -/
def State.setFault (s : State) (b : Bool) : State := s.setFlag Reg.SYS_STAT 4 b

/-- The custodian's host port (R23). -/
def State.cust (s : State) : Nat := s.fld Reg.SYS_STAT 9 8

/-- Whether a port holds custodian rights (R19, R23). -/
def State.isCust (s : State) : Port → Bool
  | .hp p => p.val == s.cust
  | .svc => true

/-! ### Outputs -/

/-- The device sends something. -/
def State.emit (s : State) (o : Out) : State := { s with sent := s.sent ++ [o] }

/-- A cause for a host port's vector n occurs in this frame (R387). -/
def State.cause (s : State) (p n : Nat) : State := { s with causes := modAt s.causes p (fun m => natSetBit m n true) }

/-- A cause for vector n of every host port. -/
def State.causeAll (s : State) (n : Nat) : State := { s with causes := s.causes.map (fun m => natSetBit m n true) }

/-! ### Events -/

/-- SOURCE of a record (R295). -/
def srcOf (cls idx : Nat) : Nat := cls * 4096 + idx

/-- Logs: every partition's. -/
def everyLog : Nat := 15

/-- The log of one partition. -/
def logOf (p : Nat) : Nat := 2 ^ p

/-- A source posts an event stamped with an instant of its own (R300). -/
def State.postAt (s : State) (typ src : Nat) (payload : List Byte) (logs : Nat) (kennel : Bool) (tb wrap : Nat) : State :=
  { s with evl := { s.evl with posted := s.evl.posted ++ [⟨typ, src, payload, tb, wrap, logs, kennel⟩] } }

/-- A source posts an event tied to the present frame: its stamp is the frame's start (R300). -/
def State.post (s : State) (typ src : Nat) (payload : List Byte) (logs : Nat) (kennel : Bool) : State :=
  s.postAt typ src payload logs kennel s.time.frTb s.time.frWrap

/-- A source posts an event that happens now. -/
def State.postNow (s : State) (typ src : Nat) (payload : List Byte) (logs : Nat) (kennel : Bool) : State :=
  s.postAt typ src payload logs kennel s.time.tbNs s.time.wrap

/-- The store of a log or of the kennel. -/
def State.store (s : State) : Store → StoreSt
  | .log p => match p.val with
    | 0 => s.evl.log0
    | 1 => s.evl.log1
    | 2 => s.evl.log2
    | _ => s.evl.log3
  | .kennel => s.evl.kennel

def State.setStore (s : State) (st : Store) (x : StoreSt) : State :=
  match st with
  | .log p => match p.val with
    | 0 => { s with evl := { s.evl with log0 := x } }
    | 1 => { s with evl := { s.evl with log1 := x } }
    | 2 => { s with evl := { s.evl with log2 := x } }
    | _ => { s with evl := { s.evl with log3 := x } }
  | .kennel => { s with evl := { s.evl with kennel := x } }

/-- STAT register of a store. -/
def storeStat : Store → Nat
  | .log p => Reg.EVL_LSTAT p.val
  | .kennel => Reg.EVL_KSTAT

def storeCtl : Store → Nat
  | .log p => Reg.EVL_LCTRL p.val
  | .kennel => Reg.EVL_KCTRL

/-- The store changes; STAGED and FROZEN follow (R311, R312). -/
def State.putStore (s : State) (st : Store) (x : StoreSt) : State :=
  let t := s.setStore st x
  (t.setFld (storeStat st) 6 0 (min 64 x.staged.length)).setFlag (storeStat st) 31 (x.frozen && x.ownFirst == 0)

/-- A record the supervisor makes goes to the kennel's staging queue directly: sequence 0, stamp of the last status flit
(R299, R300); a full queue, or a loss that runs, discards it (R306). -/
def State.supPost (s : State) (typ src : Nat) (payload : List Byte) : State :=
  let k := s.evl.kennel
  if k.staged.length < 64 ∧ k.lost.isNone then
    s.putStore .kennel { k with staged := k.staged ++ [⟨typ, src, 0, 0, s.sup.stTb, s.sup.stWrap, payload⟩] }
  else
    let l : LostRun := match k.lost with
      | some r => { r with count := r.count + 1 }
      | none => ⟨1, 0, 0, s.sup.stTb, s.sup.stWrap⟩
    (s.setStore .kennel { k with lost := some l }).incFld Reg.EVL_KLOST 31 0

/-- A record whose source is the supervisor (R295). -/
def State.supRecord (s : State) (typ : Nat) (payload : List Byte) : State := s.supPost typ (srcOf 8 0) payload

/-- The log mask of an instance's owner. -/
def ownerLog (o : Option Nat) : Nat :=
  match o with
  | some p => logOf p
  | none => 0

/-- The ECLK cycle of the present frame (R36): 1.2 cycles a ns since its start. -/
def State.cycleNow (s : State) : Nat := (s.time.nsec + 1000000000 - s.time.frNsec) % 1000000000 * 6 / 5

/-! ### O jobs -/

/-- Work of an on-demand O job exists: one more run of it is pending (R46, R54). -/
def State.queueRun (s : State) (kind : Nat) : State :=
  { s with ojobs := s.ojobs.map (fun j => if j.kind = kind then { j with pend := j.pend + 1 } else j) }

/-- Whether a run of an O job of a kind and target was admitted to this frame and has not been taken (R53); O jobs follow the frame's
housekeeping (R44). -/
def State.canRun (s : State) (kind target : Nat) : Bool :=
  s.triad.turn == 5 && s.ojobs.any (fun j => j.kind == kind && j.target == target && decide (0 < j.granted))

/-- That run is taken. -/
def State.takeRun (s : State) (kind target : Nat) : State :=
  { s with ojobs := s.ojobs.map (fun j =>
    if j.kind = kind ∧ j.target = target then { j with granted := j.granted - 1 } else j) }

/-! ### Memory and its check code -/

/-- Masks M_0 to M_6 (R398). -/
def eccMasks : List Nat :=
  [0x00001FFF, 0x003FE00F, 0x0FC1E0F0, 0x71CE2311, 0xB6724C22, 0xDA949544, 0xED291A88]

/-- Parity of the low 32 bits. -/
def parity32 (n : Nat) : Bool := (List.range 32).foldl (fun a i => a != natBit n i) false

/-- The seven check bits of a word (R398). -/
def checkBits (v : Word) : Nat :=
  (eccMasks.zipIdx).foldl (fun a e => a + (if parity32 (v.toNat &&& e.1) then 2 ^ e.2 else 0)) 0

/-- The column of data bit i (R398). -/
def eccColumn (i : Nat) : Nat := (eccMasks.zipIdx).foldl (fun a e => a + (if natBit e.1 i then 2 ^ e.2 else 0)) 0

/-- What the check of a read finds (R399). -/
inductive Ecc where
  | clean
  | fixed
  | bad
  | poison
deriving DecidableEq, Repr

/-- The syndrome of a stored word. -/
def syndrome (data : Word) (chk : Nat) : Nat := (chk ^^^ checkBits data) % 128

/-- The decode of R399: the outcome and the corrected data. -/
def eccDecode (data : Word) (chk : Nat) : Ecc × Word :=
  let y := syndrome data chk
  if y = 0 then (.clean, data)
  else if y = 127 then (.poison, data)
  else if (List.range 7).any (fun r => y == 2 ^ r) then (.fixed, data)
  else match (List.range 32).find? (fun i => eccColumn i == y) with
    | some i => (.fixed, data ^^^ BitVec.ofNat 32 (2 ^ i))
    | none => (.bad, data)

/-- The place of byte j (4: the check byte) of word w within a region: in a DRAM channel the physical byte of R397, data lines and
check line in groups of 320 bytes; elsewhere the word's 39 bits stand together, five bytes of the model's a word (R398). -/
def cellAt (region w j : Nat) : Nat :=
  if region = 4 ∨ region = 5 then 320 * (w / 64) + (if j < 4 then 4 * (w % 64) + j else 256 + w % 64) else 5 * w + j

/-- The model's address of that byte: regions lie 2^36 apart. -/
def cellAddr (region w j : Nat) : Nat := region * 2 ^ 36 + cellAt region w j

/-- What an unlisted byte reads as: zero, the contents after FILL (R401; assumption log 6). -/
def memDefault (_ : Nat) : Byte := 0#8

/-- Canonical form of memory. -/
abbrev Memory.wf (m : List Host.Cell) : Prop := swf memDefault m = true

/-- One byte of memory. -/
def Memory.get (m : List Host.Cell) (a : Nat) : Byte := sget memDefault m a

/-- Memory with one byte written. -/
def Memory.set (m : List Host.Cell) (a : Nat) (v : Byte) : List Host.Cell := sset memDefault m a v

/-- The stored data bits of a word. -/
def State.rawData (s : State) (region w : Nat) : Word :=
  BitVec.ofNat 32 (fromLE ((List.range 4).map (fun j => Memory.get s.mem (cellAddr region w j))))

/-- The stored check bits of a word. -/
def State.rawCheck (s : State) (region w : Nat) : Nat := (Memory.get s.mem (cellAddr region w 4)).toNat % 128

/-- Memory with a word's data and check byte written. -/
def Memory.putWord (m : List Host.Cell) (region w : Nat) (data : Word) (chk : Nat) : List Host.Cell :=
  let a := cellAddr region w
  let d := data.toNat
  Memory.set (Memory.set (Memory.set (Memory.set (Memory.set m (a 0) (BitVec.ofNat 8 d)) (a 1) (BitVec.ofNat 8 (d / 256)))
    (a 2) (BitVec.ofNat 8 (d / 65536))) (a 3) (BitVec.ofNat 8 (d / 16777216))) (a 4) (BitVec.ofNat 8 (chk % 128))

/-- Store data and check bits raw, without encoding (R411). -/
def State.putRaw (s : State) (region w : Nat) (data : Word) (chk : Nat) : State :=
  { s with mem := Memory.putWord s.mem region w data chk }

/-- A whole-word write: encoded (R397); it cancels a pending write-back of the word (R402), stands over bytes of it that wait in a merge
buffer (R407), and ends the mark of a raw write (R411) and of the scrubber's last finding (R404). -/
def State.wrMem (s : State) (region w : Nat) (v : Word) : State :=
  let t := s.putRaw region w v (checkBits v)
  { t with mst := { t.mst with
      wb := t.mst.wb.filter (fun b => !(b.region == region && b.addr == w))
      merge := t.mst.merge.filter (fun e => !(e.region == region && e.addr == w))
      raw := t.mst.raw.filter (fun e => !(e.1 == region && e.2 == w))
      passLast := t.mst.passLast.filter (fun e => !(e.1 == region && e.2.1 == w))
      passNow := t.mst.passNow.filter (fun e => !(e.1 == region && e.2.1 == w)) } }

/-- A word written poisoned: its check bits inverted (R400). -/
def State.poisonMem (s : State) (region w : Nat) (v : Word) : State :=
  (s.wrMem region w v).putRaw region w v (checkBits v ^^^ 127)

/-- The word a read returns, and whether it is uncorrectable or poisoned (R399, R400). -/
def State.rdMem (s : State) (region w : Nat) : Word × Bool :=
  let e := eccDecode (s.rawData region w) (s.rawCheck region w)
  (e.2, e.1 == .bad || e.1 == .poison)

/-- Write words one after another. -/
def State.wrMemList (s : State) (region w : Nat) (ws : List Word) : State :=
  (ws.zipIdx).foldl (fun s e => s.wrMem region (w + e.2) e.1) s

/-- Words in a region (R396, R397). -/
def State.regionWords (s : State) (region : Nat) : Nat :=
  match region with
  | 0 | 1 | 2 => 2 ^ 19
  | 3 => 3 * 2 ^ 20
  | 4 => 64 * (s.fld Reg.MEM_CFG 7 0 * 2 ^ 30 / 320)
  | 5 => 64 * (s.fld Reg.MEM_CFG 15 8 * 2 ^ 30 / 320)
  | 6 => 2 ^ 16
  | 7 => 96 * 2 ^ 10
  | 8 => 2 ^ 10
  | _ => 0

/-- Words of the protected area: the lowest 1 MiB of region 3 (R396). -/
def inProtected (region w : Nat) : Bool := region == 3 && decide (w < 2 ^ 18)

/-! ### SAFE and DEGRADED (R62, R63, R224) -/

/-- An entry to SAFE is decided; it falls on the next frame boundary, and the outputs released at the end of this frame are
already SAFE's (R224). The first cause of a frame stands. FAULT_N is asserted at once (R225). FILL and LOAD have no way to
SAFE. -/
def State.toSafe (s : State) (cause : Nat) : State :=
  if s.mode = mSAFE ∨ s.mode = mFILL ∨ s.mode = mLOAD then s
  else
    let t := s.setFault true
    { t with run := { t.run with safeNext := some (t.run.safeNext.getD cause) }
             triad := { t.triad with safeOut := true } }

/-- An entry to DEGRADED is decided; SYS_MODE reads 6 from the next boundary (R224). -/
def State.toDegraded (s : State) : State :=
  let t := s.setFault true
  { t with run := { t.run with degradedNext := true } }

/-- SYS_MODE takes a mode, PRIOR the mode before; a MODE record says why (R61, R62, R297); vector 4 (R385). -/
def State.setMode (s : State) (m prior cause : Nat) : State :=
  let t := (s.wr Reg.SYS_MODE (BitVec.ofNat 32 (m + 16 * prior))).wr Reg.SYS_MODE_FRAME (s.rd Reg.ENG_FRAME)
  let sc := if m = mSAFE then t.fld Reg.SYS_SAFE_CAUSE 3 0 else 0
  (t.post 0x08 (srcOf 0 0) (bytesLE 1 m ++ bytesLE 1 prior ++ bytesLE 1 cause ++ bytesLE 1 sc ++ s.frameBytes)
    everyLog true).causeAll 4

/-- A POWER record (R70, R297). -/
def State.powerRecord (s : State) (item st pend : Nat) : State :=
  s.post 0x09 (srcOf 0 0) (bytesLE 1 item ++ bytesLE 1 st ++ bytesLE 1 pend ++ [0#8] ++ s.frameBytes) everyLog false

/-! ### Lanes, bays and partitions -/

def State.lane (s : State) (l : Nat) : LaneSt := nth {} s.lanes l
def State.modLane (s : State) (l : Nat) (f : LaneSt → LaneSt) : State := { s with lanes := modAt s.lanes l f }
def State.bay (s : State) (b : Nat) : BaySt := nth {} s.bays b
def State.modBay (s : State) (b : Nat) (f : BaySt → BaySt) : State := { s with bays := modAt s.bays b f }

/-- The state of a partition's scheme logic. -/
def State.part (s : State) (p : Nat) : PartSt :=
  match p with
  | 0 => s.slx.p0
  | 1 => s.slx.p1
  | 2 => s.slx.p2
  | _ => s.slx.p3

def State.setPart (s : State) (p : Nat) (x : PartSt) : State :=
  match p with
  | 0 => { s with slx := { s.slx with p0 := x } }
  | 1 => { s with slx := { s.slx with p1 := x } }
  | 2 => { s with slx := { s.slx with p2 := x } }
  | _ => { s with slx := { s.slx with p3 := x } }

def State.modPart (s : State) (p : Nat) (f : PartSt → PartSt) : State := s.setPart p (f (s.part p))

/-- The state of a pack: 0 OFF, 1 ON, 2 STOPPING (R70). -/
def State.pack (s : State) (p : Nat) : Nat := s.fld Reg.PWR_PACKSTAT (4 * p + 1) (4 * p)

/-- Whether a lane's pack is ON; virtual lanes have none. -/
def State.packOn (s : State) (lane : Nat) : Bool := s.pack (lane / 32) == 1

/-- The end of an answer that always goes on. -/
abbrev R := Host.Outcome State Fault Refusal

end Sys2Proof.Machine
end

