-- ==== Sys2Proof/Machine/Access.lean ====
section
/-!
DEFINITION. Sys2Proof/Machine/Access.lean: who may read and write a register, and whether an access reaches it (R7, R14,
R19, R20, R23, R393).
-/
namespace Sys2Proof.Machine

/-- Where a register is served: on the engine die; on the field die across the link (R20); by the supervisor for the
service port also while the link is down (R393); or on either side at any time (SYS_RESET, R74). -/
inductive Reach where
  | engine
  | field
  | superv
  | always
deriving DecidableEq, Repr

/-- The scope of a register (R19): global, of an instance that a partition owns or that none owns, of the accessing port
itself (HQ, the setting window), or open to the owner's host, the custodian and the service port (R261, R311). -/
inductive Scope where
  | global
  | owned (o : Option Nat)
  | own
  | shared (o : Option Nat)
deriving DecidableEq, Repr

/-- The host whose rights a port has over instances: its own, or for the service port the custodian's (R19, R23). -/
def State.hostOf (s : State) : Port → Nat
  | .hp p => p.val
  | .svc => s.cust

/-- The right the pedigree gives host h over partition q's instances: 0 none, 1 read-only, 2 full (R19, R418). -/
def State.granted (s : State) (q h : Nat) : Nat :=
  if h = q then 2 else match (s.part q).rights / 4 ^ h % 4 with
    | 1 => 1
    | 2 => 2
    | _ => 0

/-- The right over an instance that no partition owns: read-only for the custodian, invisible to others (R19). -/
def State.unowned (s : State) (p : Port) : Nat := if s.hostOf p = s.cust then 1 else 0

/-- The right over an instance of partition q; a partition that the pedigree leaves empty owns none (R23). -/
def State.ownedBy (s : State) (p : Port) (q : Nat) : Nat :=
  if (s.part q).defined then s.granted q (s.hostOf p) else s.unowned p

/-- The owner number i of R371's assignment that applies: until STANDBY is entered that of the pedigree before, else the present one. -/
def State.heldOwner (s : State) (i : Nat) (now : Option Nat) : Option Nat := nth now s.run.heldOwners i

/-- The partition that a publishing block or subscription belongs to: PART of its configuration word (R346, R371). -/
def State.pbxOwner (s : State) (k i : Nat) : Option Nat := s.heldOwner i (if s.flag k 31 then some (s.fld k 30 29) else none)

/-- The right a port has in a scope: 0 invisible, 1 read-only, 2 read-write (R19, R23). -/
def State.right (s : State) (p : Port) : Scope → Nat
  | .global => if s.isCust p then 2 else 1
  | .own => 2
  | .owned (some q) => s.ownedBy p q
  | .owned none => s.unowned p
  | .shared o => if s.isCust p then 2 else match o with
    | some q => s.ownedBy p q
    | none => 0

/-- Whether an access from a port reaches a register (R20, R393): the engine die must run, and for the field die and
for the service port the link must be up; what the supervisor serves for the service port needs neither: it works while the
engine die is unpowered (R16). Of the two dies' verdicts on the link (R33) both must be up for a field-die access of a host to
complete: R20 does not say which one counts while only one die judges the link down (DESIGN CHOICE, assumption log 58). -/
def State.reaches (s : State) (p : Port) (rc : Reach) : Bool :=
  let run := s.phase == .running
  let link := s.link.field.up && s.linkUp
  match p, rc with
  | .hp _, .engine | .hp _, .always => run
  | .hp _, .field | .hp _, .superv | .svc, .engine | .svc, .field => run && link
  | .svc, .superv | .svc, .always => s.sup.running

/-- Whether a register belongs to the port alone and touches no G-tier work: the port's queues, and the recorders and log of its
own partition. Only there may a host error leave anything at all (R15). -/
def State.confined (s : State) (p : Port) (sc : Scope) (addr : Nat) : Bool :=
  let mine := match sc with
    | .own => true
    | .owned (some q) | .shared (some q) => q == s.hostOf p
    | _ => false
  mine && (decide (2 ^ 24 ≤ addr) || [12, 13, 17].contains (addr / 65536))

/-- A host error in a write (R14, R15): nothing notices it and the machine goes on; its result is unpredictable, and confined. By
free values the write is lost, or, where the register is the port's alone or a device-wide one of the custodian's, its defined bits
act as written, or, where it is the port's alone, it acts as a write of a free word. No other state is touched (assumption log 10). -/
def State.hostError (s : State) (own wide : Bool) (rsv v : Word) (op : Word → State → State) : State :=
  let a := s.freeB
  let b := a.2.freeB
  let w := b.2.free
  if (a.1 && (own || wide)) = false then w.2
  else op ((if own && b.1 then w.1 else v) &&& ~~~rsv) w.2

/-- A write to a register: it has no effect where it does not reach it (R20, R393) or the port may not write it (R19); a
non-zero rsv field is a host error (R7, R14, R15); otherwise the register's own action follows. -/
def gate (s : State) (p : Port) (rc : Reach) (sc : Scope) (rsv : Word) (addr : Nat) (v : Word)
    (op : Word → State → State) : R :=
  if s.reaches p rc = false ∨ s.right p sc < 2 then .next s
  else if v &&& rsv ≠ 0#32 then .next (s.hostError (s.confined p sc addr) (sc == .global) rsv v op)
  else .next (op v s)

/-- A read of a register with an action of its own: Completer Abort where it does not reach it (R20, R393), zero where the
register is invisible (R19). -/
def readGate (s : State) (p : Port) (rc : Reach) (sc : Scope) (op : State → State × Word) : R :=
  if s.reaches p rc = false then .next { s with rdata := none }
  else if s.right p sc = 0 then .next { s with rdata := some 0#32 }
  else .next { (op s).1 with rdata := some (op s).2 }

/-- The plain action of a write: rw bits take the value, w1c bits written 1 clear (R7). -/
def State.plain (s : State) (k : Nat) (rw w1c v : Word) : State :=
  let old := s.rd k
  s.wr k ((old &&& ~~~(rw ||| (w1c &&& v))) ||| (v &&& rw))

end Sys2Proof.Machine
end

