-- ==== Sys2Proof/Machine/MemRead.lean ====
section
/-!
DEFINITION. Sys2Proof/Machine/MemRead.lean: what a read of a memory word that is not clean leaves behind: counted corrections,
the leaky bucket, uncorrectable words, MEMORY records (R399-R413).
-/
namespace Sys2Proof.Machine

/-- A MEMORY record (R412, R413): every log; kinds 1, 3, 5, 6 also the kennel; kinds 1, 2, 3, 6 vector 7. -/
def State.memRecord (s : State) (region kind syn flags addr count : Nat) : State :=
  let t := s.post 0x20 (srcOf 9 region) (bytesLE 1 kind ++ bytesLE 1 syn ++ bytesLE 1 flags ++ [0#8] ++ bytesLE 4 addr
    ++ s.frameBytes ++ bytesLE 4 count) everyLog (kind != 2)
  if kind = 5 then t else t.causeAll 7

/-- Bit 5 of a record's flags for a word. -/
def protFlag (region w : Nat) : Nat := if inProtected region w then 32 else 0

/-- A correction is counted and the write-back of the corrected word placed; a second detection before the write-back is not (R402,
R406). `flags` say who read it (R412). -/
def State.countCorrection (s : State) (region w syn flags : Nat) : State :=
  if s.mst.wb.any (fun b => b.region == region && b.addr == w && b.syn == syn) then s
  else
    let t := (s.incFld (Reg.MEM_RCE region) 31 0).wr (Reg.MEM_RLAST region) (BitVec.ofNat 32 w)
    let n := nth 0 s.mst.since region + 1
    let t := { t with mst := { t.mst with wb := t.mst.wb ++ [(⟨region, w, syn, flags, (s.rdMem region w).1⟩ : WriteBack)]
                                          since := modAt t.mst.since region (fun _ => n) } }
    let l := min 65535 (s.fld (Reg.MEM_RBKT region) 15 0 + 1)
    let limit := s.fld (Reg.MEM_RBKTCFG region) 15 0
    if 0 < limit ∧ limit ≤ l then
      let u := ((t.setFld (Reg.MEM_RBKT region) 15 0 0).setFlag (Reg.MEM_RFLAG region) 0 true).memRecord region 2 0 (flags + protFlag region w) w n
      { u with mst := { u.mst with since := modAt u.mst.since region (fun _ => 0) } }
    else t.setFld (Reg.MEM_RBKT region) 15 0 l

/-- An uncorrectable or poisoned word has been read: its counter, its flag, the last such word (R414). -/
def State.countBad (s : State) (region w : Nat) : State :=
  let t := (s.incFld (Reg.MEM_RUE region) 31 0).setFlag (Reg.MEM_RFLAG region) 2 true
  let t := (t.wr Reg.MEM_LASTUE_REG (BitVec.ofNat 32 region)).wr Reg.MEM_LASTUE_ADDR (BitVec.ofNat 32 w)
  t.wr Reg.MEM_LASTUE_FRM (s.rd Reg.ENG_FRAME)

/-- A consumer has read a word: `flags` say which (R412). A word that is not plausible data in the protected area leads to SAFE
(R408). -/
def State.noteRead (s : State) (region w flags : Nat) : State :=
  let d := s.rawData region w
  let c := s.rawCheck region w
  match (eccDecode d c).1 with
  | .clean => s
  | .fixed => s.countCorrection region w (syndrome d c) flags
  | _ =>
    let t := (s.countBad region w).memRecord region 3 (syndrome d c) (flags + protFlag region w) w 0
    if inProtected region w then t.toSafe 5 else t

/-- A consumer has read words. -/
def State.noteReads (s : State) (region flags : Nat) (ws : List Nat) : State :=
  ws.foldl (fun s w => s.noteRead region w flags) s

/-! ### Writes narrower than a word (R407) -/

/-- The bytes of a mask taken from one word, the others from another. -/
def mergeBytes (old new : Word) (mask : Nat) : Word :=
  BitVec.ofNat 32 (fromLE ((List.range 4).map (fun i =>
    BitVec.ofNat 8 (field (if natBit mask i then new else old) (8 * i + 7) (8 * i)))))

/-- An entry is flushed: the word is read through its check, merged, encoded and written; poisoned where the read is not
plausible. -/
def State.flushMerge (s : State) (e : Merge) : State :=
  let t := s.noteRead e.region e.addr 8
  let r := s.rdMem e.region e.addr
  let v := mergeBytes r.1 e.data e.mask
  let t := { t with mst := { t.mst with merge := t.mst.merge.filter (fun x => !(x.region == e.region && x.addr == e.addr)) } }
  if r.2 then t.poisonMem e.region e.addr v else t.wrMem e.region e.addr v

/-- A write of some bytes of a word: it enters the word's entry or takes a free one, the oldest leaving where there is none; an
entry whose mask is whole is written without a read. -/
def State.wrBytes (s : State) (region w : Nat) (v : Word) (mask : Nat) : State :=
  let mine := fun (x : Merge) => x.region == region && x.addr == w
  let e : Merge := match s.mst.merge.find? mine with
    | some x => { x with data := mergeBytes x.data v mask, mask := x.mask ||| mask }
    | none => ⟨region, w, v, mask⟩
  let s := { s with mst := { s.mst with merge := s.mst.merge.filter (fun x => !mine x) } }
  if e.mask % 16 = 15 then s.wrMem region w e.data
  else
    let of := s.mst.merge.filter (fun x => x.region == region)
    let s := match of with
      | o :: _ => if 16 ≤ of.length then s.flushMerge o else s
      | [] => s
    { s with mst := { s.mst with merge := s.mst.merge ++ [e] } }

/-- The word a consumer gets: the bytes of its merge entry over those of memory, and whether memory's are implausible. -/
def State.readWord (s : State) (region w : Nat) : Word × Bool :=
  let r := s.rdMem region w
  match s.mst.merge.find? (fun x => x.region == region && x.addr == w) with
  | some e => (mergeBytes r.1 e.data e.mask, r.2)
  | none => r

/-! ### The window SRAM (R396, R401, R408)

The words of region 7 that stand behind register arrays. What such a word holds is in the register; `State.mem` holds in its place the
bits in error, which decode as the word itself would, its code being linear (R398; assumption log 66). -/

/-- The words behind a log's read window, the kennel's, a port's transmit and receive mailbox, SNF_REC, ENG_SLOTLOAD, DEC_ACOEF and a
port's setting shadow. -/
def winStore : Store → Nat
  | .log p => 64 * p.val
  | .kennel => 256
def winTx (p : Nat) : Nat := 512 + 64 * p
def winRx (p : Nat) : Nat := 768 + 68 * p
def winRec : Nat := 2048
def winSlot : Nat := 3072
def winCoef : Nat := 4096
def winSet (port : Nat) : Nat := 8192 + 128 * port

/-- n words from w on are written afresh. -/
def State.freshWin (s : State) (w n : Nat) : State :=
  let mine := fun (r x : Nat) => r == 7 && decide (w ≤ x) && decide (x < w + n)
  { s with
    mem := s.mem.filter (fun c => !(decide (cellAddr 7 w 0 ≤ c.1) && decide (c.1 < cellAddr 7 (w + n) 0)))
    mst := { s.mst with
      wb := s.mst.wb.filter (fun b => !mine b.region b.addr)
      passLast := s.mst.passLast.filter (fun e => !mine e.1 e.2.1)
      passNow := s.mst.passNow.filter (fun e => !mine e.1 e.2.1) } }

/-- An engine reads words of the window SRAM that hold `vs`, from w on: it uses zero for one that is not plausible data (R408). -/
def State.takeWin (s : State) (w : Nat) (vs : List Word) : State × List Word :=
  if s.mem.any (fun c => c.1 / 2 ^ 36 == 7) then
    (s.noteReads 7 8 ((List.range vs.length).map (w + ·)), (vs.zipIdx).map (fun e => if (s.rdMem 7 (w + e.2)).2 then 0#32 else e.1))
  else (s, vs)

end Sys2Proof.Machine
end

