-- ==== Sys2Proof/Machine/Queues.lean ====
section
/-!
DEFINITION. Sys2Proof/Machine/Queues.lean: the rings of the host ports (R373-R384): completion entries, items of the record
queues, their producer write-backs.
-/
namespace Sys2Proof.Machine

def State.port (s : State) (p : Nat) : PortSt := nth {} s.hq.ports p
def State.modPort (s : State) (p : Nat) (f : PortSt → PortSt) : State :=
  { s with hq := { s.hq with ports := modAt s.hq.ports p f } }

/-- The register of a port's own HQ instance (R394). -/
def hqKey (p addr : Nat) : Nat := portKey p addr

/-- The 64-bit address in two registers of a port. -/
def State.addr64 (s : State) (p lo hi : Nat) : Nat := (s.rd (hqKey p lo)).toNat + 2 ^ 32 * (s.rd (hqKey p hi)).toNat

/-- Register addresses of a record queue's window (R394): base of the window and the vector. -/
def ringBase : Ring → Nat
  | .cmd => 0x110100
  | .cpl => 0x110120
  | .evq => 0x110140
  | .rcq => 0x110160
  | .msq => 0x110180

/-- Queue number of a ring: its vector (R385). -/
def ringVec : Ring → Nat
  | .cmd => 0
  | .cpl => 0
  | .evq => 1
  | .rcq => 2
  | .msq => 3

/-- Doorbell offset of a ring in BAR2 (R369). -/
def ringBell : Ring → Nat
  | .cmd => HQ_DB_CMD
  | .cpl => HQ_DB_CPL
  | .evq => HQ_DB_EVQ
  | .rcq => HQ_DB_RCQ
  | .msq => HQ_DB_MSQ

/-- Register holding ACTIVE and ERR of a ring. -/
def ringStat : Ring → Nat
  | .cmd => Reg.HQ_CMDSTAT
  | .cpl => Reg.HQ_CPLSTAT
  | .evq => Reg.HQ_EVQ_CTL
  | .rcq => Reg.HQ_RCQ_CTL
  | .msq => Reg.HQ_MSQ_CTL

/-- Whether a port's ring is enabled. -/
def State.ringOn (s : State) (p : Nat) (q : Ring) : Bool := s.flag (hqKey p (ringStat q)) 30

/-- A queue received an item: its vector is due at a frame end (R386). -/
def State.gotItem (s : State) (p : Nat) (q : Ring) : State :=
  s.modPort p (fun x => { x with got := natSetBit x.got (ringVec q) true })

/-- Write one held completion entry into the ring when it is enabled and holds fewer than its size (R379, R380). -/
def State.writeCpl (s : State) (p : Nat) : State :=
  let x := s.port p
  match x.held with
  | [] => s
  | c :: rest =>
    let size := 2 ^ s.fld (hqKey p Reg.HQ_CPLSIZE) 3 0
    if s.ringOn p .cpl = false ∨ size ≤ x.out then s
    else
      let st := hqKey p Reg.HQ_CPLSTAT
      let tail := s.fld st 12 0
      let ph := s.flag st 29
      let head := s.fld (hqKey p Reg.HQ_CMDSTAT) 11 0
      let bytes := bytesLE 2 c.cid ++ bytesLE 1 c.opcode ++ bytesLE 1 (b2n ph + 2 * b2n c.final) ++ bytesLE 2 c.status
        ++ bytesLE 2 head ++ bytesLE 4 c.frame ++ bytesLE 4 c.result
      let addr := s.addr64 p Reg.HQ_CPLBASE_LO Reg.HQ_CPLBASE_HI + 16 * tail
      let tail' := (tail + 1) % size
      let cmds := if c.final then x.cmds.filter (fun k => k.tag != c.tag) else x.cmds
      let t := s.modPort p (fun y => { y with held := rest, out := y.out + 1, cmds := cmds })
      let t := (t.setFld st 12 0 tail').setFlag st 29 (if tail' = 0 then !ph else ph)
      let t := t.setFld st 24 16 rest.length
      let t := t.setFld (hqKey p Reg.HQ_CMDSTAT) 19 12 cmds.length
      (t.emit (.dma ⟨p % 4, Nat.mod_lt _ (by decide)⟩ addr bytes false)).gotItem p .cpl

/-- Write held entries as far as the ring allows. -/
def State.drainCpl : Nat → State → Nat → State
  | 0, s, _ => s
  | n + 1, s, p => State.drainCpl n (s.writeCpl p) p

/-- Post a completion entry: held in order and written as the ring allows (R379, R380). -/
def State.postCpl (s : State) (p : Nat) (c : Cpl) : State :=
  let t := s.modPort p (fun x => { x with held := x.held ++ [c] })
  let t := t.setFld (hqKey p Reg.HQ_CPLSTAT) 24 16 (t.port p).held.length
  t.drainCpl (t.port p).held.length p

/-- Post the entry of a command that is still in flight on its port; a port reset has discarded it otherwise (R389). -/
def State.complete (s : State) (p tag : Nat) (final : Bool) (status result : Nat) : State :=
  match (s.port p).cmds.find? (fun c => c.tag == tag) with
  | some c => s.postCpl p ⟨tag, c.cid, c.opcode, final, status, s.frame, result⟩
  | none => s

/-- Whether an item of n bytes fits under the leash of a record queue (R381); credit released past PROD lets it overwrite (R388). -/
def State.fits (s : State) (p : Nat) (q : Ring) (n : Nat) : Bool :=
  let w := hqKey p (ringBase q)
  let size := 2 ^ s.fld (w + 0x08) 4 0
  let prod := (s.rd (w + 0x18)).toNat
  let cons := (s.rd (bar2Key p (ringBell q))).toNat
  s.ringOn p q && decide (sext 32 ((prod + n + 2 ^ 32 - cons) % 2 ^ 32) ≤ size)

/-- Write bytes at PROD, past the ring's end from its start, and advance PROD (R381). -/
def State.ringWrite (s : State) (p : Nat) (q : Ring) (bytes : List Byte) (pois : Bool) : State :=
  let w := hqKey p (ringBase q)
  let size := 2 ^ s.fld (w + 0x08) 4 0
  let prod := (s.rd (w + 0x18)).toNat
  let base := (s.rd w).toNat + 2 ^ 32 * (s.rd (w + 0x04)).toNat
  let wb := (s.rd (w + 0x0C)).toNat + 2 ^ 32 * (s.rd (w + 0x10)).toNat
  let pos := prod % size
  let n := bytes.length
  let fp : Fin 4 := ⟨p % 4, Nat.mod_lt _ (by decide)⟩
  let t := if pos + n ≤ size then s.emit (.dma fp (base + pos) bytes pois)
    else (s.emit (.dma fp (base + pos) (bytes.take (size - pos)) pois)).emit
      (.dma fp base (bytes.drop (size - pos)) pois)
  let prod' := BitVec.ofNat 32 (prod + n)
  ((t.wr (w + 0x18) prod').emit (.dma fp wb (wordBytes prod') false)).gotItem p q

/-- The lost counter of a record queue advances (R384). -/
def State.ringLost (s : State) (p : Nat) (q : Ring) : State := s.incFld (hqKey p (ringBase q) + 0x1C) 31 0

/-- Offer an item to the measurement queue of a partition's port: written whole, or discarded and counted (R384); a port
whose partition is empty receives none (R382). -/
def State.msqItem (s : State) (p : Nat) (bytes : List Byte) : State :=
  if (s.part p).defined = false then s
  else if s.fits p .msq bytes.length then s.ringWrite p .msq bytes false
  else (s.ringLost p .msq).setFlag (hqKey p Reg.HQ_PERR) 3 true

/-- A HOST record of a port (R390): kinds 1 and 2 go everywhere, kinds 3 and 4 to the partition's log; vector 13. -/
def State.hostRecord (s : State) (p kind arg cid lost first : Nat) : State :=
  let pay := bytesLE 1 kind ++ bytesLE 1 arg ++ bytesLE 2 cid ++ s.frameBytes ++ bytesLE 4 lost ++ bytesLE 4 first
  let wide := decide (kind ≤ 2)
  (s.postNow 0x25 (srcOf 5 p) pay (if wide then everyLog else logOf p) wide).cause p 13

/-- Offer a record to the event queue (R384): when a record next fits after some did not, a HOST record of kind 3 counts
those. -/
def State.evqItem (s : State) (p : Nat) (bytes : List Byte) (pois : Bool) (seq : Nat) : State :=
  if (s.part p).defined = false then s
  else if s.fits p .evq bytes.length then
    let t := s.ringWrite p .evq bytes pois
    let x := t.port p
    if x.missed = 0 then t
    else (t.modPort p (fun y => { y with missed := 0, missedSeq := 0 })).hostRecord p 3 0 0 x.missed x.missedSeq
  else
    ((s.ringLost p .evq).setFlag (hqKey p Reg.HQ_PERR) 2 true).modPort p
      (fun y => { y with missed := y.missed + 1, missedSeq := if y.missed = 0 then seq else y.missedSeq })

/-! ### Queue writes of G jobs (R45) -/

/-- A queue write that the frame's end releases. -/
def State.laterItem (s : State) (p : Nat) (evq pois : Bool) (bytes : List Byte) (seq : Nat) : State :=
  s.modPort p (fun x => { x with later := x.later ++ [(evq, pois, bytes, seq)] })

/-- A frame ends: the queue writes of its G jobs are released. -/
def State.releaseQueues (s : State) : State :=
  (List.range 4).foldl (fun s p =>
    ((s.port p).later.foldl (fun s e => if e.1 then s.evqItem p e.2.2.1 e.2.1 e.2.2.2 else s.msqItem p e.2.2.1) s).modPort p
      (fun x => { x with later := [] })) s

end Sys2Proof.Machine
end

