-- ==== Sys2Proof/Machine/EventLog.lean ====
section
/-!
DEFINITION. Sys2Proof/Machine/EventLog.lean: the sequencer, the event logs and the kennel (chapter 13): rows EVENT_SEQUENCE,
REPEAT_RUN_TIMEOUT, LOG_RECORD_WRITE, KENNEL_RECORD_WRITE, STORE_FREEZE, STORE_UNFREEZE, FREEZE_TIMEOUT, STORE_CLEAR,
READ_WINDOW_LOAD, READ_WINDOW_READY.
-/
namespace Sys2Proof.Machine

/-! ### Records as bytes -/

/-- Payload offsets of the fields named FRAME, FRAME_END or CYCLE of a record type: not compared by coalescing (R305). -/
def frameFields (typ : Nat) : List Nat :=
  match typ with
  | 0x01 => [12, 13, 14, 15]
  | 0x0B | 0x20 => [8, 9, 10, 11]
  | 0x18 => [4, 5, 6, 7, 8, 9, 10, 11]
  | 0x23 => []
  | _ => [4, 5, 6, 7]

/-- The payload with those fields blanked. -/
def blanked (typ : Nat) (pay : List Byte) : List Byte :=
  (pay.zipIdx).map (fun e => if (frameFields typ).contains e.2 then 0#8 else e.1)

/-- Whether two events are alike for coalescing (R305). -/
def sameEvent (a b : Event) : Bool :=
  a.typ == b.typ && a.src == b.src && blanked a.typ a.payload == blanked b.typ b.payload

/-- The 16-byte header (R294) of a record of n bytes. -/
def recHeader (r : Rec) (n : Nat) : List Byte :=
  bytesLE 2 n ++ bytesLE 1 r.typ ++ bytesLE 1 r.wrap ++ bytesLE 2 r.src ++ bytesLE 2 r.seq ++ bytesLE 2 r.rep
    ++ bytesLE 2 (r.seq / 65536) ++ bytesLE 4 r.tb

/-- A record as an event log holds it: header and payload (R294). -/
def recBytes (r : Rec) : List Byte := recHeader r (16 + r.payload.length) ++ r.payload

/-- Whether a record is one of the present frame's G jobs: of an element, a zone, or a task that met poison. -/
def State.recOfJob (s : State) (r : Rec) : Bool :=
  s.planRuns && r.tb == s.time.frTb && r.wrap == s.time.frWrap
    && (r.typ == 0x10 || r.typ == 0x11 || (r.typ == 0x19 && leAt r.payload 0 1 == 7))

/-- The event queue's copy of a record, in sequence order (R310, R382): at once, or behind those that wait for the frame's end. -/
def State.evqCopy (s : State) (p : Nat) (pois : Bool) (r : Rec) : State :=
  if s.recOfJob r || (s.port p).later.any (fun e => e.1) then s.laterItem p true pois (recBytes r) r.seq
  else s.evqItem p (recBytes r) pois r.seq

/-- The kennel trailer of a record: RPT2, then the CRC over everything before the CRC (R298). -/
def kennelBytes (r : Rec) : List Byte :=
  let body := recHeader r (20 + r.payload.length) ++ r.payload ++ bytesLE 2 r.rep
  body ++ bytesLE 2 (crc16 body).toNat

/-- The record that bytes of a kennel-write flit spell (R27, R294). -/
def recOfBytes (bs : List Byte) : Rec :=
  ⟨leAt bs 2 1, leAt bs 4 2, leAt bs 6 2 + 65536 * leAt bs 10 2, leAt bs 8 2, leAt bs 12 4, leAt bs 3 1,
   slice bs 16 (leAt bs 0 2 - 16)⟩

/-! ### Stores -/

/-- Whether a partition has an event log (R293). -/
def State.hasLog (s : State) (p : Nat) : Bool := s.flag (Reg.EVL_LCFG p) 31

/-- Whether a store is there: the kennel always; the window of a partition without a log reads zero and does nothing (R311). -/
def State.storeThere (s : State) : Store → Bool
  | .log p => s.hasLog p.val
  | .kennel => true

/-- Whether words of a store can be written now: the supervisor starts no word of the kennel while it stands or once VDD_AO is below
its warning level (R303). -/
def State.storeWrites (s : State) : Store → Bool
  | .log _ => true
  | .kennel => s.sup.running && !s.sup.warning

/-- A LOST or FREEZE count with one more event. -/
def countRec (l : Option LostRun) (r : Rec) : LostRun :=
  match l with
  | some x => { x with count := x.count + 1, last := r.seq }
  | none => ⟨1, r.seq, r.seq, r.tb, r.wrap⟩

/-- A record arrives at a store (R306, R308): counted while the store is frozen (supervisor records are staged), discarded
and counted while a loss runs or the queue is full, staged otherwise. -/
def State.stage (s : State) (st : Store) (r : Rec) : State :=
  let x := s.store st
  if x.frozen = true ∧ r.src / 4096 ≠ 8 then s.putStore st { x with held := some (countRec x.held r) }
  else if x.lost.isSome ∨ 64 ≤ x.staged.length then
    let t := s.putStore st { x with lost := some (countRec x.lost r) }
    match st with
    | .log p => t.incFld (Reg.EVL_LLOST p.val) 31 0
    | .kennel => t.incFld Reg.EVL_KLOST 31 0
  else s.putStore st { x with staged := x.staged ++ [r] }

/-- A store's own record, stamped now, sequence 0 (R299). -/
def State.ownRec (s : State) (st : Store) (typ : Nat) (pay : List Byte) : Rec :=
  let i := match st with
    | .log p => p.val
    | .kennel => 4
  ⟨typ, srcOf 12 i, 0, 0, s.time.tbNs, s.time.wrap, pay⟩

/-- The LOST record of a loss (R297, R306). -/
def State.lostRec (s : State) (st : Store) (l : LostRun) : Rec :=
  s.ownRec st 0x02 (bytesLE 4 l.count ++ bytesLE 4 l.first ++ bytesLE 4 l.tb ++ bytesLE 1 l.wrap ++ bytesLE 3 0)

/-- When the queue falls to 32 entries, the LOST record follows those staged and staging resumes (R306). -/
def State.endLoss (s : State) (st : Store) : State :=
  let x := s.store st
  match x.lost with
  | some l => if x.staged.length ≤ 32 then s.putStore st { x with staged := x.staged ++ [s.lostRec st l], lost := none } else s
  | none => s

/-! ### Memory of a store -/

/-- Region, first word, size of A1 and whole size in bytes of a store (R293, R311). -/
def State.storeArea (s : State) : Store → Nat × Nat × Nat × Nat
  | .kennel => (6, 0, 65536, 262144)
  | .log p =>
    let size := s.fld (Reg.EVL_LCFG p.val) 10 0 * 65536
    (4 + b2n (s.flag (Reg.EVL_LCFG p.val) 30), (s.rd (Reg.EVL_LBASE p.val)).toNat * 16384, size / 8, size)

/-- The three pointers of a store: FEND, WPTR, OLD, and FULL. -/
def State.storePtrs (s : State) : Store → Nat × Nat × Nat × Bool
  | .log p => ((s.rd (Reg.EVL_LFEND p.val)).toNat, (s.rd (Reg.EVL_LWPTR p.val)).toNat, (s.rd (Reg.EVL_LOLD p.val)).toNat,
      s.flag (Reg.EVL_LSTAT p.val) 29)
  | .kennel => (4 * field s.evl.kfend 15 0, 4 * field s.evl.kwptr 15 0, 4 * field s.evl.kold 15 0,
      field s.evl.kfull 15 0 != 0)

/-- A pointer word: the word index and its complement (R303). -/
def ptrWord (idx : Nat) : Word := BitVec.ofNat 32 (idx % 65536 + 65536 * (65535 - idx % 65536))

/-- Set a store's pointers; the kennel's retained words and its registers alike (R303, R312). -/
def State.setPtrs (s : State) (st : Store) (fend wptr old : Nat) (full : Bool) : State :=
  match st with
  | .log p =>
    (((s.wr (Reg.EVL_LFEND p.val) (BitVec.ofNat 32 fend)).wr (Reg.EVL_LWPTR p.val) (BitVec.ofNat 32 wptr)).wr
      (Reg.EVL_LOLD p.val) (BitVec.ofNat 32 old)).setFlag (Reg.EVL_LSTAT p.val) 29 full
  | .kennel =>
    let t := (((s.wr Reg.EVL_KFEND (BitVec.ofNat 32 fend)).wr Reg.EVL_KWPTR (BitVec.ofNat 32 wptr)).wr
      Reg.EVL_KOLD (BitVec.ofNat 32 old)).setFlag Reg.EVL_KSTAT 29 full
    { t with evl := { t.evl with kfend := ptrWord (fend / 4), kwptr := ptrWord (wptr / 4), kold := ptrWord (old / 4)
                                 kfull := ptrWord (b2n full) } }

/-- The word at a byte offset of a store. -/
def State.storeWord (s : State) (st : Store) (off : Nat) : Word × Bool :=
  let a := s.storeArea st
  s.readWord a.1 (a.2.1 + off / 4)

/-- Write bytes at an offset of a store: words after the first, then the first (R302). -/
def State.storeWrite (s : State) (st : Store) (off : Nat) (bs : List Byte) : State :=
  let a := s.storeArea st
  let w := a.2.1 + off / 4
  let ws := wordsOf (bs.length / 4) bs
  match ws with
  | [] => s
  | v :: rest => (s.wrMemList a.1 (w + 1) rest).wrMem a.1 w v

/-- Write a record at an offset and set the pointers: a log's pointers once its words stand (R302), the kennel's, which reserve the
record, after its first word (R303). -/
def State.recWrite (s : State) (st : Store) (off : Nat) (bs : List Byte) (ptrs : State → State) : State :=
  match st with
  | .log _ => ptrs (s.storeWrite st off bs)
  | .kennel =>
    let t := ptrs (s.storeWrite st off (bs.take 4))
    let body := bs.length - 4
    (t.storeWrite st (off + 4) (slice bs 4 (body - 4))).storeWrite st (off + body) (bs.drop body)

/-- Walk A2 from `cur` to the newest record's end, and give the place of the record after the last that begins in lo .. hi, a
continue mark followed to A1 (R302: "advance OLD past every record that begins in ..."). A record to be passed whose first word is not plausible data has no length to go
by: every record after it is passed (R400; assumption log 25). -/
def State.advanceOld (s : State) (st : Store) (a1 wptr lo hi : Nat) : Nat → Nat → Nat → Nat
  | 0, _, best => best
  | n + 1, cur, best =>
    if cur = wptr then best
    else
      let v := s.storeWord st cur
      let len := v.1.toNat % 65536
      if v.2 then (if lo ≤ cur ∧ cur ≤ hi then wptr else best)
      else if len = 0 then best
      else if len = 65535 then s.advanceOld st a1 wptr lo hi n a1 (if best = cur then a1 else best)
      else if lo ≤ cur ∧ cur ≤ hi then s.advanceOld st a1 wptr lo hi n (cur + len) (cur + len)
      else s.advanceOld st a1 wptr lo hi n (cur + len) best

/-- Place a record of a store: where it stands, and the pointers after it (R302, R303). `mark` is 4 where an end mark
follows the record, 0 in the kennel, whose choice of place is the log's. -/
def State.placeRec (s : State) (st : Store) (bs : List Byte) : State × Nat :=
  let a := s.storeArea st
  let a1 := a.2.2.1
  let size := a.2.2.2
  let p := s.storePtrs st
  let fend := p.1
  let wptr := p.2.1
  let old := p.2.2.1
  let full := p.2.2.2
  let n := bs.length
  let isLog := match st with
    | .log _ => true
    | .kennel => false
  if full = false ∧ fend + n + 4 ≤ a1 then
    let t := if isLog then s.wrMem a.1 (a.2.1 + (fend + n) / 4) 0#32 else s
    (t.recWrite st fend bs (fun u => u.setPtrs st (fend + n) wptr old false), fend)
  else
    let wrap := decide (size < wptr + n + 4)
    let q := if wrap then a1 else wptr
    let old' := s.advanceOld st a1 wptr q (q + n + 3) (size / 16 + 2) old old
    let t := if wrap then s.wrMem a.1 (a.2.1 + wptr / 4) 0xFFFF#32 else s
    let t := if isLog then t.wrMem a.1 (a.2.1 + (q + n) / 4) 0#32 else t
    (t.recWrite st q bs (fun u => u.setPtrs st fend (q + n) (if old' = wptr then q else old') true), q)

/-- The counter of records written (R311, R312). -/
def storeRecs : Store → Nat
  | .log p => Reg.EVL_LRECS p.val
  | .kennel => Reg.EVL_KRECS

/-- Whether the repeat run of the event with sequence number `seq` is still open (R305). -/
def State.runOpen (s : State) (seq : Nat) : Bool :=
  match s.evl.prev with
  | some (_, q) => q == seq && seq != 0 && !s.evl.prevClosed
  | none => false

/-- Write the oldest staged record of a store; a FIELD or PROCBUS record that reaches a log is a cause of its port's vector 8 or
9 (R385), and a log's record is offered to the event queue once its repeat run has closed
(R310). Nothing is written while it is frozen, but its own first records after a
clear (R308, R309). A record of sequence 0 neither closes a run nor takes its place (R305). -/
def State.writeStaged (s : State) (st : Store) : State :=
  let x := s.store st
  match x.staged with
  | [] => s
  | r :: rest =>
    if x.frozen = true ∧ x.ownFirst = 0 then s
    else
      let bs := match st with
        | .log _ => recBytes r
        | .kennel => kennelBytes r
      let pl := s.placeRec st bs
      let y := { x with staged := rest, ownFirst := x.ownFirst - 1, run := if r.seq = 0 then x.run else some (pl.2, r) }
      let t := ((pl.1.putStore st y).incFld (storeRecs st) 31 0).endLoss st
      match st with
      | .kennel => t
      | .log p =>
        let t := if r.typ = 0x21 then t.cause p.val 8 else if r.typ = 0x22 then t.cause p.val 9 else t
        if s.runOpen r.seq then t.setStore st { t.store st with queueRun := some r }
        else t.evqCopy p.val false r

/-- A further occurrence of the event with sequence number `seq` reaches a store that holds its record: raised in the
staging queue, or rewritten in place: in a log the two bytes of REPEAT, a write narrower than a word (R407); in the kennel the header
word at bytes 11:8 and then the trailer, at the next
occurrence for which they can be written; not applied while the store is frozen (R303, R305, R307). -/
def State.repeatIn (s : State) (st : Store) (seq : Nat) : State :=
  let x := s.store st
  if x.frozen then s
  else if x.staged.any (fun r => r.seq == seq) then
    s.putStore st { x with staged := x.staged.map (fun r => if r.seq == seq then { r with rep := r.rep + 1 } else r) }
  else match x.run with
    | some (off, r) =>
      if r.seq = seq ∧ seq ≠ 0 then
        let r' := { r with rep := r.rep + 1 }
        let t := s.putStore st { x with run := some (off, r') }
        if s.storeWrites st = false then t
        else match st with
        | .log _ =>
          let a := t.storeArea st
          t.wrBytes a.1 (a.2.1 + (off + 8) / 4) (nth 0#32 (wordsOf 1 (slice (recBytes r') 8 4)) 0) 3
        | .kennel =>
          let k := kennelBytes r'
          (t.storeWrite st (off + 8) (slice k 8 4)).storeWrite st (off + k.length - 4) (slice k (k.length - 4) 4)
      else s
    | none => s

/-- Every store but those excluded. -/
def allLogs : List Store := [.log 0, .log 1, .log 2, .log 3]

/-- The words of region and store that hold the record a log wrote last, if it is this one. -/
def State.runWords (s : State) (st : Store) (r : Rec) : List Nat :=
  match (s.store st).run with
  | some (off, x) =>
    if x.seq = r.seq then (List.range ((recBytes r).length / 4)).map (fun i => (s.storeArea st).2.1 + off / 4 + i) else []
  | none => []

/-- The copy of a record that a log wrote last is read from the log: a word that is not plausible data posts it as poison (R408,
R409). -/
def State.copyOut (s : State) (st : Store) (p : Nat) (r : Rec) : State :=
  let reg := (s.storeArea st).1
  let ws := s.runWords st r
  (s.noteReads reg 8 ws).evqCopy p (ws.any (fun w => (s.readWord reg w).2)) r

/-- Close the open run of a log's event-queue copy: the record is posted (R310). -/
def State.closeQueueRun (s : State) (st : Store) : State :=
  match st with
  | .kennel => s
  | .log p =>
    match (s.store st).queueRun with
    | some r => (s.putStore st { s.store st with queueRun := none }).copyOut st p.val r
    | none => s

/-- Close the repeat run everywhere (R305). -/
def State.closeRun (s : State) : State :=
  let t := allLogs.foldl (fun s st => s.closeQueueRun st) s
  { t with evl := { t.evl with prevClosed := true } }

/-! ### The sequencer -/

/-- The next global sequence number: from 1, wrapping to 1 (R299). -/
def nextSeq (g : Nat) : Nat := if g + 1 < 2 ^ 32 then g + 1 else 1

/-- Cut bytes into groups of n. -/
def chunks (n : Nat) : Nat → List Byte → List (List Byte)
  | 0, _ => []
  | k + 1, bs => if bs.isEmpty then [] else bs.take n :: chunks n k (bs.drop n)

/-- Whether the previous event still takes repeats of e (R305). -/
def State.coalesces (s : State) (e : Event) : Bool :=
  match s.evl.prev with
  | some (p, _) => sameEvent p e && !s.evl.prevClosed && decide (s.evl.prevRep < 65535)
      && decide ((s.frame + 2 ^ 32 - s.evl.prevFrame) % 2 ^ 32 ≤ 256)
  | none => false

/-- A repeat reaches the stores: every log, the kennel's copy wherever it stands (R305, R307). -/
def State.repeatAll (s : State) (seq : Nat) : State :=
  let t := allLogs.foldl (fun s st =>
    let u := s.repeatIn st seq
    let x := u.store st
    if x.frozen then u
    else match x.queueRun with
      | some r => u.setStore st { x with queueRun := if r.seq = seq then some { r with rep := r.rep + 1 } else some r }
      | none => u) s
  let t := t.repeatIn .kennel seq
  { t with evl := { t.evl with flight := t.evl.flight.map (fun r => if r.seq == seq then { r with rep := r.rep + 1 } else r) } }

/-- Sequence one event (R299, R305): coalesced into the previous one, or numbered and handed to its stores. `send` puts the
record on the link for the kennel. -/
def State.sequence (s : State) (send : State → Rec → State) (e : Event) : State :=
  if s.coalesces e then
    match s.evl.prev with
    | some (_, seq) =>
      let t := { s with evl := { s.evl with prevRep := s.evl.prevRep + 1, prevFrame := s.frame } }
      let t := (t.incFld Reg.EVL_GCOAL 31 0).repeatAll seq
      if t.evl.prevRep < 65535 then t else t.closeRun
    | none => s
  else
    let t := s.closeRun
    let seq := nextSeq (t.rd Reg.EVL_GSEQ).toNat
    let t := t.wr Reg.EVL_GSEQ (BitVec.ofNat 32 seq)
    let t := { t with evl := { t.evl with prev := some (e, seq), prevRep := 0, prevFrame := s.frame, prevClosed := false } }
    let r : Rec := ⟨e.typ, e.src, seq, 0, e.tb, e.wrap, e.payload⟩
    let t := allLogs.foldl (fun s st => match st with
      | .log p => if natBit e.logs p.val && s.hasLog p.val then s.stage st r else s
      | .kennel => s) t
    if e.kennel && t.linkUp then send t r else t

/-! ### Freeze, clear and the read windows -/

/-- The FREEZE record of a freeze that ended at this frame (R297, R308). -/
def State.freezeRec (s : State) (st : Store) (x : StoreSt) (how : Nat) : Rec :=
  let l : LostRun := x.held.getD ⟨0, 0, 0, 0, 0⟩
  s.ownRec st 0x03 (bytesLE 4 l.count ++ bytesLE 4 l.first ++ bytesLE 4 l.last ++ bytesLE 4 x.frameOn ++ s.frameBytes
    ++ bytesLE 1 how ++ bytesLE 3 0)

/-- Begin a freeze at this frame (R308). -/
def State.freeze (s : State) (st : Store) : State :=
  let x := s.store st
  if x.frozen then s else s.putStore st { x with frozen := true, frameOn := s.frame, held := none, ownFirst := 0 }

/-- End a freeze: staged records are written first, then the FREEZE record (R308). -/
def State.thaw (s : State) (st : Store) (how : Nat) : State :=
  let x := s.store st
  if x.frozen then
    s.putStore st { x with frozen := false, held := none, ownFirst := 0, staged := x.staged ++ [s.freezeRec st x how] }
  else s

/-- Clear a store (R309): pointers and FULL, end marks in a log, then CLEAR and any FREEZE record. -/
def State.clearStore (s : State) (st : Store) (req : Nat) : State :=
  let x := s.store st
  let a := s.storeArea st
  let clr := s.ownRec st 0x04 (bytesLE 1 req ++ [0#8] ++ bytesLE 2 x.staged.length ++ s.frameBytes)
  let own := clr :: (if x.frozen then [s.freezeRec st x 2] else [])
  let t := match st with
    | .log _ => (s.wrMem a.1 a.2.1 0#32).wrMem a.1 (a.2.1 + a.2.2.1 / 4) 0#32
    | .kennel => s
  let t := t.setPtrs st 0 a.2.2.1 a.2.2.1 false
  (t.putStore st { x with staged := own, frozen := false, held := none, ownFirst := 0, run := none }).endLoss st

/-- The oldest request on a store's control register is done: PENDING clears with the last. -/
def State.doneCtl (s : State) (st : Store) : State :=
  let t := s.setReq (storeCtl st) none
  t.setFlag (storeCtl st) 31 (t.req (storeCtl st)).isSome

/-- The action of a write of EVL_LCTRL or EVL_KCTRL: each write takes effect at its own boundary (R308, R309). -/
def wrStoreCtl (st : Store) (p : Port) (v : Word) (s : State) : State :=
  let k := storeCtl st
  if s.storeThere st then ((s.setFlag k 0 (bit v 0)).setFlag k 31 true).placeAll k v p else s

/-- Reach of a store's registers (R311, R312). -/
def storeReach : Store → Reach
  | .log _ => .engine
  | .kennel => .superv

/-- Scope of a store's registers: the window belongs to the partition, the kennel is global (R311, R312). -/
def storeScope : Store → Scope
  | .log p => .owned (some p.val)
  | .kennel => .global

/-- RPTR, RSTAT and window registers of a store. -/
def storeWin : Store → Nat × Nat × Nat
  | .log p => (Reg.EVL_LRPTR p.val, Reg.EVL_LRSTAT p.val, Reg.EVL_LRWIN p.val 0)
  | .kennel => (Reg.EVL_KRPTR, Reg.EVL_KRSTAT, Reg.EVL_KRWIN 0)

/-- The action of a write of EVL_LRPTR or EVL_KRPTR: READY clears, the window reads zero, the copy starts (R310). A window
of a partition without a log stays as it is (R311). -/
def wrReadPtr (st : Store) (v : Word) (s : State) : State :=
  let w := storeWin st
  if s.storeThere st then
    let t := (s.wr w.1 v).setFlag w.2.1 31 false
    ((t.wrList w.2.2 (List.replicate 64 0#32)).freshWin (winStore st) 64).putStore st { t.store st with loading := true }
  else s

/-- The 64 words a read window copies, bytes past the store's end zero (R310). -/
def State.windowWords (s : State) (st : Store) : List (Word × Bool) :=
  let size := (s.storeArea st).2.2.2
  let off := (s.rd (storeWin st).1).toNat / 4 * 4
  (List.range 64).map (fun i => if off + 4 * i < size then s.storeWord st (off + 4 * i) else (0#32, false))

/-! ### Meanings of the rows -/

/-- READ_WINDOW_LOAD (R310). -/
def execReadWindowLoad (p : Port) (st : Store) (v : Word) (s : State) : R :=
  gate s p (storeReach st) (storeScope st) 0#32 (storeWin st).1 v (wrReadPtr st)

/-- READ_WINDOW_READY: the copy is complete and READY sets; a poisoned word keeps its mark (R310, R408). -/
def execReadWindowReady (st : Store) (s : State) : R :=
  if (s.store st).loading then
    let ws := s.windowWords st
    let a := s.storeArea st
    let off := (s.rd (storeWin st).1).toNat / 4
    let s := s.noteReads a.1 8 ((List.range 64).filterMap (fun i =>
      if 4 * (off + i) < a.2.2.2 then some (a.2.1 + off + i) else none))
    let t := s.wrList (storeWin st).2.2 (ws.map (fun e => if e.2 then 0#32 else e.1))
    let t := (t.setFlag (storeWin st).2.1 31 true).freshWin (winStore st) 64
    let t := (ws.zipIdx).foldl (fun t e => if e.1.2 then t.poisonMem 7 (winStore st + e.2) 0#32 else t) t
    .next (t.setStore st { t.store st with loading := false })
  else .next s

/-- LOG_RECORD_WRITE: the oldest staged record is written to the log (R302). -/
def execLogRecordWrite (p : Fin 4) (s : State) : R :=
  if s.storeThere (.log p) then .next (s.writeStaged (.log p)) else .next s

/-- KENNEL_RECORD_WRITE: the supervisor writes the oldest staged record; it starts no word once VDD_AO is below its warning
level (R303). -/
def execKennelRecordWrite (s : State) : R :=
  if s.storeWrites .kennel then .next (s.writeStaged .kennel) else .next s

/-- STORE_FREEZE: a write of FREEZE = 1 without CLEAR takes effect (R308). -/
def execStoreFreeze (st : Store) (s : State) : R :=
  match s.due (storeCtl st) with
  | some r => if bit r.value 0 && !bit r.value 1 then .next ((s.doneCtl st).freeze st) else .next s
  | none => .next s

/-- STORE_UNFREEZE: a write of FREEZE = 0 without CLEAR takes effect (R308). -/
def execStoreUnfreeze (st : Store) (s : State) : R :=
  match s.due (storeCtl st) with
  | some r => if !bit r.value 0 && !bit r.value 1 then .next ((s.doneCtl st).thaw st 0) else .next s
  | none => .next s

/-- Frames after which a freeze ends by itself (R308). -/
def freezeLimit : Store → Nat
  | .log _ => 160000
  | .kennel => 16000

/-- FREEZE_TIMEOUT: a freeze that has lasted its limit ends, and TIMEOUT sets (R308). -/
def execFreezeTimeout (st : Store) (s : State) : R :=
  let x := s.store st
  if x.frozen = true ∧ freezeLimit st ≤ (s.frame + 2 ^ 32 - x.frameOn) % 2 ^ 32 then
    .next ((s.thaw st 1).setFlag (storeStat st) 30 true)
  else .next s

/-- STORE_CLEAR: a write of CLEAR = 1 takes effect; its FREEZE value applies at the same boundary, a new freeze once the
store's own records are written (R309). A clear of the kennel writes its pointer words, so it waits while none can be written (R303). -/
def execStoreClear (st : Store) (s : State) : R :=
  match s.due (storeCtl st) with
  | some r =>
    if bit r.value 1 && s.storeWrites st then
      let t := (s.doneCtl st).clearStore st (portCode r.port)
      let x := t.store st
      .next (if bit r.value 0 then t.putStore st { x with
        frozen := true, frameOn := t.frame, held := none, ownFirst := x.staged.length } else t)
    else .next s
  | none => .next s

/-- REPEAT_RUN_TIMEOUT: 256 frames have passed since that of the last occurrence; the run closes and its record is posted
(R305, R310). -/
def execRepeatRunTimeout (s : State) : R :=
  if s.evl.prev.isSome ∧ s.evl.prevClosed = false ∧ 256 < (s.frame + 2 ^ 32 - s.evl.prevFrame) % 2 ^ 32 then .next s.closeRun
  else .next s

end Sys2Proof.Machine
end

