-- ==== Sys2Proof/Machine/Link.lean ====
section
/-!
DEFINITION. Sys2Proof/Machine/Link.lean: the die-to-die link (R27-R34, R456): flits, replay, faults; rows
RAW_FLIT_RECEIVE, FRAME_STROBE_RECEIVE, STATUS_FLIT_RECEIVE, KENNEL_WRITE_FLIT, IDLE_FLIT_RECEIVE, REPLAY_REQUEST,
STAGE_A_FLIT_CHECK, LINK_WATCHDOG_EXPIRY, EVENT_SEQUENCE.
-/
namespace Sys2Proof.Machine

/-! ### Flits -/

def State.linkEnd (s : State) : Die → LinkEnd
  | .field => s.link.field
  | .engine => s.link.engine

def State.setEnd (s : State) (d : Die) (x : LinkEnd) : State :=
  match d with
  | .field => { s with link := { s.link with field := x } }
  | .engine => { s with link := { s.link with engine := x } }

/-- A flit of 80 bytes (R27): TYPE, SRC, SEQ, ACK, STROBE, payload, and its CRC (R28). -/
def flitBytes (typ src seq ack strobe : Nat) (payload : List Byte) : List Byte :=
  let body := bytesLE 1 typ ++ bytesLE 1 src ++ bytesLE 2 (seq % 4096) ++ bytesLE 2 (ack % 4096) ++ bytesLE 2 strobe
    ++ bytesLE 4 0 ++ (payload ++ List.replicate 64 0#8).take 64
  body ++ bytesLE 4 (crc32 body).toNat

def flitType (bs : List Byte) : Nat := leAt bs 0 1
def flitSrc (bs : List Byte) : Nat := leAt bs 1 1
def flitSeq (bs : List Byte) : Nat := leAt bs 2 2 % 4096
def flitAck (bs : List Byte) : Nat := leAt bs 4 2 % 4096
def flitStrobe (bs : List Byte) : Nat := leAt bs 6 2
def flitPayload (bs : List Byte) : List Byte := slice bs 12 64

/-- Whether a flit's CRC is right (R28). -/
def flitOk (bs : List Byte) : Bool := bs.length == 80 && leAt bs 76 4 == (crc32 (bs.take 76)).toNat

/-- Idle and frame-strobe flits consume no sequence number (R29). -/
def flitUnsequenced (bs : List Byte) : Bool := flitType bs == 0 || flitType bs == 2

/-- A die sends a sequenced flit and keeps it until it is acknowledged (R29); nothing while it judges the link down. A full
replay buffer drops its oldest flit (assumption log 23). -/
def State.sendFlit (s : State) (d : Die) (typ src strobe : Nat) (payload : List Byte) : State :=
  let x := s.linkEnd d
  if x.up = false then s
  else
    let seq := (x.lastSeq + 1) % 4096
    let f := flitBytes typ src seq x.rxLast strobe payload
    let keep := if x.replay.length < 128 then x.replay else x.replay.drop 1
    (s.setEnd d { x with lastSeq := seq, replay := keep ++ [f] }).emit (.flit d f)

/-- A die sends an idle or frame-strobe flit: it carries the last SEQ sent and is not kept (R29). -/
def State.sendFree (s : State) (d : Die) (typ : Nat) (payload : List Byte) : State :=
  let x := s.linkEnd d
  if x.up = false then s else s.emit (.flit d (flitBytes typ 0 x.lastSeq x.rxLast 0 payload))

/-- 4 ns of link time: a flit takes 25 ns, and a die with nothing else to send sends an idle flit (R28; assumption log 8). The
time since the last status flit counts on (R456). -/
def State.linkEdge (s : State) : State :=
  let n := s.link.slotNs + 4
  let t := { s with sup := { s.sup with since := s.sup.since.map (fun n => n + 4) }
                    link := { s.link with slotNs := n % 25 } }
  if n < 25 then t else (t.sendFree .engine 0 []).sendFree .field 0 []

/-! ### Link faults -/

/-- A LINK record's payload (R297). -/
def linkPayload (st die frame : Nat) : List Byte := bytesLE 1 st ++ bytesLE 1 die ++ bytesLE 2 0 ++ bytesLE 4 frame

/-- A die judges the link down (R33): the engine die raises an event and enters SAFE, cause 6; the field die's supervisor
writes its record; FAULT_N is asserted at once (R225); raw flits in transit are discarded; retraining starts. -/
def State.linkDown (s : State) (d : Die) : State :=
  let x := s.linkEnd d
  if x.up = false then s
  else
    let t := s.setEnd d { x with up := false, waiting := false, resent := false, reqSame := 0, gotSame := 0 }
    let t := { t with link := { t.link with training := true } }
    let t := t.setFault true
    match d with
    | .engine =>
      let t := (t.setFlag Reg.SYS_STAT 5 false).satFld Reg.SYS_LINKCNT 31 16 1
      (t.post 0x06 (srcOf 0 0) (linkPayload 0 0 t.frame) everyLog true).toSafe 6
    | .field => { t with link := { t.link with coasting := true } }.supRecord 0x06 (linkPayload 0 1 t.sup.stFrame)

/-- Consecutive replay requests that named the same SEQ. -/
def sameCount (seq old n : Nat) : Nat := if seq = old then n + 1 else 1

/-- A receiver finds a CRC error or a gap: it discards and requests replay from the first missing SEQ, and goes on
discarding flits until the transmitter resends; the eighth consecutive request for the same SEQ takes the link down (R29, R33). -/
def State.requestReplay (s : State) (d : Die) : State :=
  let x := s.linkEnd d
  let seq := (x.rxLast + 1) % 4096
  let n := if x.reqSame = 0 then 1 else sameCount seq x.reqSeq x.reqSame
  let t := (s.setEnd d { x with waiting := true, resent := false, reqSeq := seq, reqSame := n }).satFld Reg.SYS_LINKCNT 15 0 1
  if 8 ≤ n then t.linkDown d else t

/-- Flits of the replay buffer that an ACK does not cover (R29). -/
def unacked (ack : Nat) (l : List (List Byte)) : List (List Byte) :=
  l.filter (fun f => decide (2048 ≤ (ack + 4096 - flitSeq f) % 4096))

/-- Whether a sequenced flit has been received before: its SEQ is not ahead of the last one received in order. -/
def flitOld (last seq : Nat) : Bool := decide (2048 ≤ (seq + 4096 - (last + 1)) % 4096)

/-- A die receives a flit (R29): the state after it, and whether the flit is delivered. From a damaged flit or a gap on it discards
every flit until the transmitter resends; a flit received before is dropped (assumption log 58). -/
def State.receive (s : State) (d : Die) (bs : List Byte) : State × Bool :=
  let x := s.linkEnd d
  if x.up = false then (s, false)
  else if flitOk bs = false then (s.requestReplay d, false)
  else
    let y := { x with replay := unacked (flitAck bs) x.replay }
    if x.waiting = true ∧ x.resent = false then (s, false)
    else if flitUnsequenced bs then (s.setEnd d y, true)
    else if flitSeq bs = (x.rxLast + 1) % 4096 then
      (s.setEnd d { y with rxLast := flitSeq bs, waiting := false, resent := false }, true)
    else if flitOld x.rxLast (flitSeq bs) then (s.setEnd d y, false)
    else ((s.setEnd d y).requestReplay d, false)

/-- Both dies find the link up after training: sequence numbers and replay buffers start afresh (assumption log 24), the
field die holds no FRAME_last (R354). -/
def State.linkTrained (s : State) : State :=
  let t := { s with link := { s.link with field := { up := true }, engine := { up := true }, training := false
                                          rawQ := [] }
                    evl := { s.evl with flight := [], arriving := [] }
                    fio := { s.fio with lastFrame := none, copies := [none, none, none], matched := none } }
  t.setFlag Reg.SYS_STAT 5 true

/-! ### Meanings of the rows -/

/-- The sixteen-bit codes of a raw flit's payload. -/
def rawCodes (bs : List Byte) : List (BitVec 16) :=
  (List.range 32).map (fun i => BitVec.ofNat 16 (leAt (flitPayload bs) (2 * i) 2))

/-- RAW_FLIT_RECEIVE: the flit is checked and placed in stage A's queue; one that comes after its check is discarded
(R29, R32). -/
def execRawFlitReceive (bytes : List Byte) (s : State) : R :=
  let r := s.receive .engine bytes
  if r.2 = true ∧ flitType bytes = 1 then
    let key := 128 * flitSrc bytes + flitStrobe bytes % 128
    let fr := flitStrobe bytes / 256
    if sget (fun _ => 0) r.1.link.checked key = fr + 1 then .next r.1
    else .next { r.1 with link := { r.1.link with rawQ := r.1.link.rawQ ++ [(key, fr, rawCodes bytes)] } }
  else .next r.1

/-- FRAME_STROBE_RECEIVE: a valid flit aligns the CCLK loop; after a CRC error the loop coasts (R31). -/
def execFrameStrobeReceive (bytes : List Byte) (s : State) : R :=
  let r := s.receive .field bytes
  if r.2 = true ∧ flitType bytes = 2 then
    .next { r.1 with link := { r.1.link with coasting := false, strobeFrame := leAt bytes 12 4 } }
  else if r.2 then .next r.1
  else .next { r.1 with link := { r.1.link with coasting := true } }

/-- STATUS_FLIT_RECEIVE: the supervisor keeps the content of the last status flit received in order, and counts the time from
its arrival (R456). -/
def execStatusFlitReceive (bytes : List Byte) (s : State) : R :=
  let r := s.receive .field bytes
  if r.2 = true ∧ flitType bytes = 6 then
    .next { r.1 with sup := { r.1.sup with stFrame := leAt bytes 12 4, svLast := leAt bytes 12 4, stTb := leAt bytes 16 4, stWrap := leAt bytes 20 1,
                                           stMode := leAt bytes 21 1, since := some 0
                                           stood := false } }
  else .next r.1

/-- An engine record goes to the supervisor in kennel-write flits of 64 bytes (R27; assumption log 25). -/
def State.sendRecord (s : State) (r : Rec) : State :=
  let bs := recBytes r
  let t := (chunks 64 (bs.length / 64 + 1) bs).foldl (fun s c => s.sendFlit .engine 7 0 0 c) s
  { t with evl := { t.evl with flight := t.evl.flight ++ [r] } }

/-- KENNEL_WRITE_FLIT: the supervisor collects a record and stages it for the kennel (R27, R306). -/
def execKennelWriteFlit (bytes : List Byte) (s : State) : R :=
  let r := s.receive .field bytes
  if r.2 = true ∧ flitType bytes = 7 ∧ s.sup.running = true then
    let got := r.1.evl.arriving ++ flitPayload bytes
    if got.length < leAt got 0 2 then .next { r.1 with evl := { r.1.evl with arriving := got } }
    else
      let rec1 := recOfBytes got
      let rc := { rec1 with rep := match r.1.evl.flight with
        | x :: _ => x.rep
        | [] => rec1.rep }
      let t := { r.1 with evl := { r.1.evl with arriving := [], flight := r.1.evl.flight.drop 1 } }
      .next (t.stage .kennel rc)
  else .next r.1

/-- IDLE_FLIT_RECEIVE: its CRC is checked and its ACK taken (R29). -/
def execIdleFlitReceive (die : Die) (bytes : List Byte) (s : State) : R := .next (s.receive die bytes).1

/-- The other die. -/
def otherDie : Die → Die
  | .field => .engine
  | .engine => .field

/-- What a die sends from now on is what its receiver awaits (R29). -/
def State.resendTo (s : State) (d : Die) : State :=
  let x := s.linkEnd d
  if x.waiting then s.setEnd d { x with resent := true } else s

/-- REPLAY_REQUEST: the transmitter resends from the named SEQ in the original order; the eighth consecutive request for one
SEQ takes the link down (R29, R33). -/
def execReplayRequest (die : Die) (seq : Fin 4096) (s : State) : R :=
  let x := s.linkEnd die
  if x.up = false then .next s
  else
    let n := if x.gotSame = 0 then 1 else sameCount seq.val x.gotSeq x.gotSame
    let keep := unacked ((seq.val + 4095) % 4096) x.replay
    let t := s.setEnd die { x with replay := keep, gotSeq := seq.val, gotSame := n }
    let t := keep.foldl (fun s f => s.emit (.flit die f)) (t.resendTo (otherDie die))
    .next (if 8 ≤ n then t.linkDown die else t)

/-- STAGE_A_FLIT_CHECK: 8.0 us after a strobe its raw flit is taken from the queue, or its 32 values are replaced by each
lane's previous raw value (R32). The check of strobes 112 to 127 falls in the next frame. -/
def execStageAFlitCheck (pack : Fin 8) (strobe : Fin 128) (s : State) : R :=
  if s.pack pack.val = 0 then .next s
  else
    let key := 128 * pack.val + strobe.val
    let fr := (if strobe.val < 112 then s.frame else s.frame + 255) % 256
    let hit := s.link.rawQ.find? (fun e => e.1 == key && e.2.1 == fr)
    let lk := { s.link with rawQ := s.link.rawQ.filter (fun e => e.1 != key)
                            checked := sset (fun _ => 0) s.link.checked key (fr + 1) }
    let put := fun (x : LaneSt) (c : BitVec 16) (rep : Bool) =>
      if strobe.val < 112 then { x with now := modAt x.now strobe.val (fun _ => c), nowRep := modAt x.nowRep strobe.val (fun _ => rep) }
      else { x with old := modAt x.old strobe.val (fun _ => c), oldRep := modAt x.oldRep strobe.val (fun _ => rep) }
    let lanes := (s.lanes.zipIdx).map (fun e =>
      if e.2 / 32 = pack.val then
        match hit with
        | some h =>
          let c := nth 0#16 h.2.2 (e.2 % 32)
          put { e.1 with last := c } c false
        | none => put e.1 e.1.last true
      else e.1)
    .next { s with link := lk, lanes := lanes }

/-- LINK_WATCHDOG_EXPIRY: no flit has been received correctly for 4.0 us (R33). -/
def execLinkWatchdogExpiry (die : Die) (s : State) : R := .next (s.linkDown die)

/-- EVENT_SEQUENCE: the oldest posted event is numbered or coalesced and handed to its stores (R299, R305). -/
def execEventSequence (s : State) : R :=
  match s.evl.posted with
  | [] => .next s
  | e :: rest => .next ({ s with evl := { s.evl with posted := rest } }.sequence State.sendRecord e)

end Sys2Proof.Machine
end

