-- ==== Sys2Proof/Machine/Time.lean ====
section
/-!
DEFINITION. Sys2Proof/Machine/Time.lean: the time base (R314-R323): how it advances, its steps, slews and seconds loads, its
epochs, PPS; rows TIM_FREQ_WRITE to PPS_IN_LOSS and PPS_OUT_PULSE_END.
-/
namespace Sys2Proof.Machine

/-- One ns in units of the accumulator's fraction (R315). -/
def nsUnit : Nat := 2 ^ 32

/-- TIM_FREQ as it acts: clamped to +-500 ppm (R315). -/
def State.freq (s : State) : Int := clampInt (-2147483) 2147483 (s.rd Reg.TIM_FREQ).toInt

/-- TIM_SLEWR as it acts, 1 to 500 ppm (R344). -/
def State.slewPpm (s : State) : Nat := max 1 (min 500 (s.fld Reg.TIM_SLEWR 8 0))

/-- What one TCLK edge adds for a slew, in units of 2^-32 ns: 4 ns x ppm x 10^-6; the manual gives its rounding to the
32 fractional bits nowhere (R315, R319; assumption log 3). -/
def State.slewStep (s : State) : Nat := (unitOf (mkRat (4 * nsUnit * s.time.slewRate) 1000000)).toNat

/-- What one TCLK edge adds without a slew (R315). -/
def State.edgeUnits (s : State) : Nat := (4 * (nsUnit : Int) + 4 * s.freq).toNat

/-- The realignment offset that remains at the next frame boundary (R318). -/
def State.alignNext (s : State) : Int :=
  let a := s.time.align
  if a = 0 then 0 else if 0 < a then (if a ≤ 125 then 0 else a - 125) else (if -125 ≤ a then 0 else a + 125)

/-- Units from now to the next frame boundary: 62 500 x (ENG_FSEC + 1) plus the realignment offset that remains for it
(R38, R318). -/
def State.toBoundary (s : State) : Nat :=
  let target := (125000 * (s.fld Reg.ENG_FSEC 13 0 + 1) : Int) + s.alignNext
  let here := (2 * s.time.nsec : Int)
  let d := (target - here) % 2000000000
  let u := d * 2147483648 - s.time.frac
  if u < 0 then 0 else u.toNat

/-- The frame that holds the present instant: the next one, once its boundary has been reached (R38, R321). -/
def State.reachedFrame (s : State) : Nat := if s.toBoundary = 0 then (s.frame + 1) % 2 ^ 32 else s.frame

/-- An event's WRAP record: the base of the new epoch (R301, R321): seconds and ns of full time minus TB_NS; `f` is the frame that
holds the event. -/
def State.wrapRecord (s : State) (f : Nat) : State :=
  let full := (s.time.sec * 1000000000 + s.time.nsec : Int) - s.time.tbNs
  let base := (full % (2 ^ 48 * 1000000000 : Nat)).toNat
  let sec := base / 1000000000
  s.postAt 0x01 (srcOf 11 0) (bytesLE 6 sec ++ bytesLE 2 0 ++ bytesLE 4 (base % 1000000000) ++ bytesLE 4 f) everyLog true
    0 s.time.wrap

/-- The wrap count advances and every store gets a WRAP record (R301, R321). -/
def State.newEpoch (s : State) (f : Nat) : State :=
  let w := (s.time.wrap + 1) % 256
  ({ s with time := { s.time with wrap := w } }.setFld Reg.EVL_GWRAP 7 0 w).wrapRecord f

/-- A TIME record (R343): every log, kinds 1 and 2 also the kennel; vector 10. -/
def State.timeRecord (s : State) (kind value : Nat) : State :=
  (s.postNow 0x23 (srcOf 11 0) (bytesLE 1 kind ++ bytesLE 1 s.time.wrap ++ bytesLE 2 0 ++ bytesLE 4 value) everyLog
    (decide (kind ≤ 2))).causeAll 10

/-- SEC takes the armed value in place of SEC + 1 (R320). -/
def State.loadSeconds (s : State) (v f : Nat) : State :=
  let t := { s with time := { s.time with sec := v % 2 ^ 48, armed := none } }
  (((t.setFlag Reg.TIM_STAT 3 false).incFld Reg.TIM_STEPCNT 15 0).newEpoch f).timeRecord 2 (v % 2 ^ 32)

/-- The second rolls over: SEC advances, or takes the armed value (R314, R320). -/
def State.rollSecond (s : State) : State :=
  let s := { s with time := { s.time with runSec := s.time.runSec + 1 } }
  match s.time.armed with
  | some v => s.loadSeconds v s.reachedFrame
  | none => { s with time := { s.time with sec := (s.time.sec + 1) % 2 ^ 48 } }

/-- Units from now until NSEC passes 999 999 999. -/
def State.toRollover (s : State) : Nat := (1000000000 - s.time.nsec) * nsUnit - s.time.frac

/-- Units from now until TB_NS wraps. -/
def State.toWrap (s : State) : Nat := (2 ^ 32 - s.time.tbNs) * nsUnit - s.time.frac

/-- Units from now until NSEC passes the pulse point 10^9 - ADV, mod 10^9: more than 0, at most one second (R322). -/
def State.toPulse (s : State) : Nat :=
  let second := 1000000000 * nsUnit
  let here := s.time.nsec * nsUnit + s.time.frac
  let point := (1000000000 - s.fld Reg.TIM_PPSADV 16 0) * nsUnit
  second - (here + second - point % second) % second

/-- PPS_OUT over d units: a pulse that is under way ends WIDTH ms after its leading edge; where the pulse point is passed while PPS_OUT
is enabled a pulse begins (R322). -/
def State.ppsSpan (s : State) (d : Nat) : State :=
  let p := s.toPulse
  let start := s.flag Reg.TIM_PPSOUT 31 && decide (p ≤ d)
  let have0 := if start then s.fld Reg.TIM_PPSOUT 15 0 * 1000000 * nsUnit else s.time.ppsLeft
  let left := have0 - (if start then d - p else d)
  { s with time := { s.time with
    elapsed := s.time.elapsed + d, ppsLeft := left, ppsOut := (start || s.time.ppsOut) && decide (0 < left) } }

/-- The PPS_OUT pad: POL selects the active level (R322). -/
def State.ppsPad (s : State) : Bool := s.time.ppsOut != s.flag Reg.TIM_PPSOUT 30

/-- TB_NS and NSEC advance together by d units of 2^-32 ns, less than one second; a TB_NS wrap and a rollover of the second
take effect as they are passed (R314, R321), and PPS_OUT follows. -/
def State.addSpan (s : State) (d : Nat) : State :=
  let s := s.ppsSpan d
  let x := s.time.frac + d
  let ns := x / nsUnit
  let tb := s.time.tbNs + ns
  let sn := s.time.nsec + ns
  let t := { s with time := { s.time with
    frac := x % nsUnit, tbNs := tb % 2 ^ 32, nsec := sn % 1000000000 } }
  let t := if 1000000000 ≤ sn then t.rollSecond else t
  if 2 ^ 32 ≤ tb then ({ t with time := { t.time with wraps := t.time.wraps + 1 } }).newEpoch t.reachedFrame else t

/-- Time up to the next wrap or rollover inside a span of d units, and what is left of the span. -/
def State.cutSpan (s : State) (d : Nat) : State × Nat :=
  let e := min s.toRollover s.toWrap
  if e < d then (s.addSpan e, d - e) else (s, d)

/-- TB_NS and NSEC advance by d units, less than one second: a wrap and a rollover inside the span take effect each at its own
instant. -/
def State.addUnits (s : State) (d : Nat) : State :=
  let a := s.cutSpan d
  let b := a.1.cutSpan a.2
  b.1.addSpan b.2

/-- The slew is complete: sigma returns to 0 and a TIME record is written (R319). -/
def State.endSlew (s : State) : State :=
  (({ s with time := { s.time with slewRem := 0 } }.setFlag Reg.TIM_STAT 2 false).wr Reg.TIM_SLEWREM 0#32).timeRecord 3 0

/-- TIM_SLEWREM reads the remainder in ns (R319). -/
def State.showSlew (s : State) : State :=
  s.wr Reg.TIM_SLEWREM (BitVec.ofInt 32 (s.time.slewRem / (nsUnit : Int)))

/-- One TCLK edge (R315, R319). -/
def State.edge (s : State) : State :=
  let r := s.time.slewRem
  let g := min s.slewStep r.natAbs
  let d := if r < 0 then s.edgeUnits - g else s.edgeUnits + g
  let r' := if r < 0 then r + g else r - g
  let t := s.addUnits d
  if r = 0 then t else { t with time := { t.time with slewRem := r' } }.showSlew

/-- TB_NS extended over its wraps; a recent 32-bit stamp so extended (R269). -/
def State.tbWide (s : State) : Int := s.time.wraps * (2 ^ 32 : Nat) + s.time.tbNs
def State.widen (s : State) (tb : Nat) : Int := s.tbWide - sext 32 (toTwos 32 ((s.time.tbNs : Int) - tb))

/-- A TCLK edge inside the present frame: an edge that would reach the next frame boundary waits for FRAME_BOUNDARY
(assumption log 8). The link's time goes on with it (R28). -/
def State.tick (s : State) : State :=
  if s.phase = .running ∧ s.edgeUnits + s.slewStep < s.toBoundary then s.edge.linkEdge else s

/-- What of d units of time base a running slew gave: each TCLK edge adds the edge's own units and the slew's step (R315, R319). -/
def State.slewPart (s : State) (d : Nat) : Nat :=
  let e := if s.time.slewRem < 0 then s.edgeUnits - s.slewStep else s.edgeUnits + s.slewStep
  min (d * s.slewStep / max 1 e) s.time.slewRem.natAbs

/-- Advance by d units at once: the slew gains its part of that span (R315, R319). -/
def State.advance (s : State) (d : Nat) : State :=
  let r := s.time.slewRem
  let g := s.slewPart d
  let r' := if r < 0 then r + g else r - g
  let t := s.addUnits d
  let t := { t with sup := { t.sup with since := t.sup.since.map (fun n => n + d / nsUnit) } }
  if r = 0 then t else { t with time := { t.time with slewRem := r' } }.showSlew

/-! ### Writes -/

/-- The action of a write of TIM_FREQ (R315). -/
def wrTimFreq (v : Word) (s : State) : State :=
  let t := s.wr Reg.TIM_FREQ v
  t.setFlag Reg.TIM_STAT 0 (t.freq != v.toInt)

/-- The amounts of a command of TIM_CMD are those that stand in TIM_STEP, TIM_SLEW and TIM_SETSEC as it is written
(assumption log 57). -/
def State.takeArgs (s : State) : State :=
  { s with time := { s.time with
    stepArg := (s.rd Reg.TIM_STEP).toInt, slewArg := (s.rd Reg.TIM_SLEW).toInt
    secArg := (s.rd Reg.TIM_SETSECLO).toNat + 2 ^ 32 * s.fld Reg.TIM_SETSECHI 15 0 } }

/-- The action of a write of TIM_CMD: a command that sets at least one bit replaces one that waits; a write of none places
none (R320). -/
def wrTimCmd (p : Port) (v : Word) (s : State) : State :=
  if field v 2 0 = 0 then s else (s.takeArgs.setFlag Reg.TIM_CMD 31 true).place Reg.TIM_CMD (v &&& 7#32) p

/-- TIM_FREQ_WRITE (R315). -/
def execTimFreqWrite (p : Port) (v : Word) (s : State) : R :=
  gate s p .engine .global 0#32 Reg.TIM_FREQ v wrTimFreq

/-- rsv bits of TIM_CMD. -/
def timCmdRsv : Word := 0x7FFFFFF8#32

/-- PHASE_STEP: a write of TIM_CMD that sets STEP (R317). -/
def execPhaseStep (p : Port) (v : Word) (s : State) : R :=
  gate s p .engine .global timCmdRsv Reg.TIM_CMD (v ||| 1#32) (wrTimCmd p)

/-- SLEW: a write of TIM_CMD that sets SLEW (R319). -/
def execSlew (p : Port) (v : Word) (s : State) : R :=
  gate s p .engine .global timCmdRsv Reg.TIM_CMD (v ||| 2#32) (wrTimCmd p)

/-- SECONDS_LOAD: a write of TIM_CMD that sets SECLOAD (R320). -/
def execSecondsLoad (p : Port) (v : Word) (s : State) : R :=
  gate s p .engine .global timCmdRsv Reg.TIM_CMD (v ||| 4#32) (wrTimCmd p)

/-- One of the three parts of a TIM_CMD command has taken effect: the request keeps the others; PENDING clears with the
last (R320). -/
def State.doneTim (s : State) (r : Req) (n : Nat) : State :=
  let v := setBit r.value n false
  if field v 2 0 = 0 then (s.setReq Reg.TIM_CMD none).setFlag Reg.TIM_CMD 31 false
  else s.setReq Reg.TIM_CMD (some { r with value := v })

/-- Frame alignment after a step (R318): m and r with NSEC = 62 500 m + r, r in (-31 250, 31 250]. -/
def State.realign (s : State) : State :=
  let m := (s.time.nsec + 31249) / 62500
  let r := (s.time.nsec : Int) - 62500 * (m : Int)
  let n := ceilDiv (2 * r.natAbs) 125
  let t := { s with time := { s.time with align := 2 * r } }
  ((t.setFld Reg.ENG_FSEC 13 0 (m % 16000)).setFlag Reg.TIM_STAT 1 (r != 0)).setFld Reg.TIM_STAT 31 16 n

/-- Whether TB_NS has equalled the armed value of AUX_CMP since arming: before the last phase step, or since it (R121). -/
def State.auxReached (s : State) : Bool :=
  let since := fun (x : Nat) => (x + 2 ^ 32 - s.aux.armTb % 2 ^ 32) % 2 ^ 32
  s.aux.hit || decide (since s.aux.cmp.toNat ≤ since s.time.tbNs)

/-- The step S is applied at the start of the present frame: TB_NS and NSEC change by S, SEC carries or borrows, a new
epoch begins, realignment is formed anew (R317, R318, R321); an armed compare has met the values passed so far, and none of those
skipped (R121). -/
def State.phaseStep (s : State) (amount : Int) : State :=
  let full := (s.time.sec * 1000000000 + s.time.nsec : Int) + amount
  let f := (full % (2 ^ 48 * 1000000000 : Nat)).toNat
  let tb := (((s.time.tbNs : Int) + amount) % (2 ^ 32 : Nat)).toNat
  let t := { s with time := { s.time with
    wraps := s.time.wraps + ((s.time.tbNs : Int) + amount) / (2 ^ 32 : Nat)
    tbNs := tb, nsec := f % 1000000000, sec := f / 1000000000
    runSec := s.time.runSec + ((s.time.nsec : Int) + amount) / 1000000000, sinceStep := 0 }
                    aux := { s.aux with hit := s.flag Reg.AUX_STAT 3 && s.auxReached, armTb := tb } }
  let t := t.newEpoch s.frame
  let t := { t with time := { t.time with
    frTb := t.time.tbNs, frWrap := t.time.wrap, frNsec := t.time.nsec, frSec := t.time.sec
    frRunSec := t.time.runSec } }
  let t := t.realign.incFld Reg.TIM_STEPCNT 31 16
  t.timeRecord 1 (toTwos 32 amount)

/-! ### Meanings of the rows -/

/-- PHASE_STEP_APPLY (R317, R318). -/
def execPhaseStepApply (s : State) : R :=
  match s.due Reg.TIM_CMD with
  | some r => if bit r.value 0 then .next ((s.doneTim r 0).phaseStep s.time.stepArg) else .next s
  | none => .next s

/-- SLEW_START (R319): the amount replaces any remainder, and the rate is that of TIM_SLEWR then; 0 completes at once. STEP of the same command comes first
(R320). -/
def execSlewStart (s : State) : R :=
  match s.due Reg.TIM_CMD with
  | some r =>
    if bit r.value 1 && !bit r.value 0 then
      let t := s.doneTim r 1
      let a := s.time.slewArg
      let t := { t with time := { t.time with slewRem := a * (nsUnit : Int), slewRate := s.slewPpm } }
      .next (if a = 0 then t.endSlew else (t.setFlag Reg.TIM_STAT 2 true).showSlew)
    else .next s
  | none => .next s

/-- SLEW_COMPLETE: the amount has been gained or lost (R319). -/
def execSlewComplete (s : State) : R :=
  if s.flag Reg.TIM_STAT 2 = true ∧ s.time.slewRem = 0 then .next s.endSlew else .next s

/-- SECONDS_LOAD_ARM (R320): armed at the boundary; a rollover that falls exactly on it takes the value at once. -/
def execSecondsLoadArm (s : State) : R :=
  match s.due Reg.TIM_CMD with
  | some r =>
    if bit r.value 2 && !bit r.value 1 && !bit r.value 0 then
      let v := s.time.secArg
      let t := (s.doneTim r 2).setFlag Reg.TIM_STAT 3 true
      .next (if s.time.rollAtStart = true ∧ r.due = s.frame then t.loadSeconds v s.frame
        else { t with time := { t.time with armed := some v } })
    else .next s
  | none => .next s

/-- REALIGN_COMPLETE: a boundary has fallen at a multiple of 62 500 ns (R318). -/
def execRealignComplete (s : State) : R :=
  if s.flag Reg.TIM_STAT 1 = true ∧ s.time.align = 0 then
    .next ((s.setFlag Reg.TIM_STAT 1 false).setFld Reg.TIM_STAT 31 16 0)
  else .next s

/-- SECOND_ROLLOVER: time advances to the rollover when it comes no later than the next frame boundary (R314). -/
def execSecondRollover (s : State) : R :=
  if s.phase = .running ∧ s.toRollover ≤ s.toBoundary then .next (s.advance s.toRollover) else .next s

/-- TB_NS_WRAP: time advances to the wrap when it comes no later than the next frame boundary (R321). -/
def execTbNsWrap (s : State) : R :=
  if s.phase = .running ∧ s.toWrap ≤ s.toBoundary then .next (s.advance s.toWrap) else .next s

/-- PPS_OUT_PULSE: time advances to the pulse point, when PPS_OUT is enabled and the point comes no later than the next frame
boundary; passing it begins the pulse (R322). -/
def execPpsOutPulse (s : State) : R :=
  if s.phase = .running ∧ s.flag Reg.TIM_PPSOUT 31 = true ∧ s.toPulse ≤ s.toBoundary then .next (s.advance s.toPulse) else .next s

/-- PPS_OUT_PULSE_END: time advances to the end of the pulse, when it comes no later than the next frame boundary (R322). -/
def execPpsOutPulseEnd (s : State) : R :=
  if s.phase = .running ∧ s.time.ppsOut = true ∧ s.time.ppsLeft ≤ s.toBoundary then .next (s.advance s.time.ppsLeft) else .next s

/-- PPS_IN_EDGE: a selected edge captures the counters (R323); the first edge after a loss clears LOST. -/
def execPpsInEdge (falling : Bool) (s : State) : R :=
  if s.phase = .running ∧ s.flag Reg.TIM_PPSIN_CFG 0 = true ∧ s.flag Reg.TIM_PPSIN_CFG 1 = falling then
    let st := Reg.TIM_PPSIN_STAT
    let t := s.wr Reg.TIM_PPSIN_NS (BitVec.ofNat 32 s.time.tbNs)
    let t := t.wr Reg.TIM_PPSIN_NSEC (BitVec.ofNat 32 s.time.nsec)
    let t := t.wr Reg.TIM_PPSIN_SECLO (BitVec.ofNat 32 s.time.sec)
    let t := t.wr Reg.TIM_PPSIN_SECHI (BitVec.ofNat 32 (s.time.sec / 2 ^ 32 + 65536 * s.time.wrap))
    let t := if s.flag st 31 then t.setFlag st 30 true else t
    let t := ((t.setFlag st 31 true).incFld st 15 0).causeAll 14
    let t := { t with time := { t.time with ppsLast := some s.time.elapsed } }
    .next (if s.flag st 29 then (t.setFlag st 29 false).timeRecord 5 0 else t)
  else .next s

/-- PPS_IN_LOSS: no edge for 1.1 s after the last one (R323). -/
def execPpsInLoss (s : State) : R :=
  let late := match s.time.ppsLast with
    | some e => decide (e + 1100000000 * nsUnit ≤ s.time.elapsed)
    | none => false
  if s.phase = .running ∧ s.flag Reg.TIM_PPSIN_CFG 0 = true ∧ s.flag Reg.TIM_PPSIN_STAT 29 = false ∧ late = true then
    .next ((s.setFlag Reg.TIM_PPSIN_STAT 29 true).timeRecord 4 0)
  else .next s

end Sys2Proof.Machine
end

