-- ==== Sys2Proof/Machine/AuxConv.lean ====
section
/-!
DEFINITION. Sys2Proof/Machine/AuxConv.lean: the auxiliary converter (R117-R125, R136): rows AUX_GO, AUX_FRAME_TRIGGER,
AUX_CMP_ARM, AUX_COMPARE_FIRE, AUX_CONVERSION_DONE, AUX_CONFIG_APPLY, AUX_URGENT_REQUEST, SUPPLY_WINDOW.
-/
namespace Sys2Proof.Machine

/-- AUX_CFG.START as it acts: 3 acts as 0 (R121). -/
def State.auxStart (s : State) : Nat := if field s.aux.cfg 1 0 = 3 then 0 else field s.aux.cfg 1 0

/-- The enabled channels in rising order (R119). -/
def auxChannels (lo hi : Word) : List Nat :=
  (List.range 48).filter (fun c => if c < 32 then bit lo c else bit hi (c - 32))

/-- A scan trigger (R119-R121): ignored and counted while a scan runs; otherwise the scan counter advances and the first 32
enabled channels are taken with the settings as applied; a scan of no channel completes at once. -/
def State.auxTrigger (s : State) : State :=
  let k := Reg.AUX_STAT
  if s.flag k 0 then s.satFld k 31 24 1
  else
    let cs := auxChannels s.aux.maskLo s.aux.maskHi
    let t := s.incFld k 15 8
    if cs.isEmpty then t
    else { t.setFlag k 0 true with aux := { t.aux with entries := cs.take 32, scfg := t.aux.cfg, idx := 0, cnt := 0
                                                       sum := 0, scan := t.fld k 15 8 } }

/-- The action of a write of AUX_GO (R121). -/
def wrAuxGo (v : Word) (s : State) : State := if bit v 0 && s.auxStart == 0 then s.auxTrigger else s

/-- AUX_GO: a write of GO = 1 (R121). -/
def execAuxGo (p : Port) (v : Word) (s : State) : R :=
  gate s p .field .global 0xFFFFFFFE#32 Reg.AUX_GO (v ||| 1#32) wrAuxGo

/-- AUX_FRAME_TRIGGER: DELAY us after strobe 0 of a frame with f mod 2^PER = 0 (R121). -/
def execAuxFrameTrigger (s : State) : R :=
  let per := min 8 (field s.aux.cfg 11 8)
  if s.auxStart = 1 ∧ s.frame % 2 ^ per = 0 ∧ s.phase = .running then .next s.auxTrigger else .next s

/-- The action of a write of AUX_CMP: it arms the compare at the start of frame f + 3 (R121). -/
def wrAuxCmp (p : Port) (v : Word) (s : State) : State := (s.wr Reg.AUX_CMP v).placeEach Reg.AUX_CMP v p

/-- The action of a write of AUX_CFG, AUX_MASK_LO or AUX_MASK_HI (R122). -/
def wrAuxSet (k : Nat) (p : Port) (v : Word) (s : State) : State := (s.wr k v).placeEach k v p

/-- AUX_CMP_ARM: a write of AUX_CMP (R121). -/
def execAuxCmpArm (p : Port) (v : Word) (s : State) : R := gate s p .field .global 0#32 Reg.AUX_CMP v (wrAuxCmp p)

/-- Arming takes effect at its boundary. -/
def State.auxArm (s : State) : State :=
  s.onDue Reg.AUX_CMP (fun s r =>
    ({ s with aux := { s.aux with cmp := r.value, armTb := s.time.frTb, hit := false } }).setFlag Reg.AUX_STAT 3 true)

/-- AUX_COMPARE_FIRE: TB_NS has equalled the armed value; the compare disarms, and with START = 2 a scan starts after the
delay (R121). -/
def execAuxCompareFire (s : State) : R :=
  let t := s.auxArm
  if t.flag Reg.AUX_STAT 3 && t.auxReached then
    let u := t.setFlag Reg.AUX_STAT 3 false
    .next (if u.auxStart = 2 then u.auxTrigger else u)
  else .next t

/-- AUX_CONVERSION_DONE: a host urgent conversion comes first; otherwise the running scan moves on (R120, R123). -/
def execAuxConversionDone (code : Fin 65536) (s : State) : R :=
  let k := Reg.AUX_STAT
  match s.aux.urg with
  | some c =>
    let t := { s with aux := { s.aux with urg := none } }
    .next ((t.setFlag Reg.AUX_URG 31 false).wr Reg.AUX_URGRES (BitVec.ofNat 32 (2 ^ 31 + c * 65536 + code.val)))
  | none =>
    if s.flag k 0 = false then .next s
    else
      let a := s.aux
      let sum := a.sum + code.val
      let n := a.cnt + 1
      if n < 2 ^ min 8 (field a.scfg 27 24) then .next { s with aux := { a with sum := sum, cnt := n } }
      else
        let v := sum / 2 ^ min 8 (field a.scfg 31 28)
        let t := s.wr (Reg.AUX_RES a.idx) (BitVec.ofNat 32 (a.scan * 2 ^ 24 + v % 2 ^ 24))
        let i := a.idx + 1
        let t := { t with aux := { a with sum := 0, cnt := 0, idx := i } }
        .next (if a.entries.length ≤ i then t.setFlag k 0 false else t)

/-- AUX_CONFIG_APPLY: at the start of frame f + 3 the settings apply from the next scan start, and AUX_STAT.TRUNC follows the masks;
arming takes effect (R119, R121, R122). -/
def execAuxConfigApply (s : State) : R :=
  let t := s.onDue Reg.AUX_CFG (fun s r => { s with aux := { s.aux with cfg := r.value } })
  let t := t.onDue Reg.AUX_MASK_LO (fun s r => { s with aux := { s.aux with maskLo := r.value } })
  let t := t.onDue Reg.AUX_MASK_HI (fun s r => { s with aux := { s.aux with maskHi := r.value } })
  .next (t.auxArm.setFlag Reg.AUX_STAT 1 (decide (32 < (auxChannels t.aux.maskLo t.aux.maskHi).length)))

/-- An urgent conversion aborts the conversion in progress (R123). -/
def State.auxAbort (s : State) (busy : Bool) : State := if busy then s.incFld Reg.AUX_STAT 23 16 else s

/-- The action of a write of AUX_URG; one made while an earlier request is pending or converting is discarded (R123). -/
def wrAuxUrg (v : Word) (s : State) : State :=
  let t := (s.setFlag Reg.AUX_URGRES 31 false).setFld Reg.AUX_URG 5 0 (field v 5 0)
  if s.aux.urg.isSome then s.setFlag Reg.AUX_STAT 2 true
  else if 48 ≤ field v 5 0 then t
  else
    let u := t.auxAbort (t.flag Reg.AUX_STAT 0)
    ({ u with aux := { u.aux with urg := some (field v 5 0) } }).setFlag Reg.AUX_URG 31 true

/-- AUX_URGENT_REQUEST: a write of AUX_URG (R123). -/
def execAuxUrgentRequest (p : Port) (v : Word) (s : State) : R :=
  gate s p .field .global 0x7FFFFFC0#32 Reg.AUX_URG v wrAuxUrg

/-- Channels of the supply window: 18, or all of 16-47 while a survey's supply item runs (R123). -/
def State.supplyItem (s : State) : Bool := s.flag Reg.SNF_CMD 30 && s.sniff.items.head? == some 0

def State.windowChannels (s : State) : List Nat :=
  if s.supplyItem then (List.range 32).map (· + 16)
  else [16, 17, 18, 19, 20, 21, 22, 24, 25, 26, 27, 28, 29, 30, 32, 33, 34, 35]

/-- Whether the supply window runs: link up, and PWR_REF.AUX = 1 in effect for at least 32 frames (R124). -/
def State.windowRuns (s : State) : Bool :=
  s.linkUp && s.phase == .running && !s.aux.win && match s.aux.refAt with
    | some f => decide (32 ≤ (s.frame + 2 ^ 32 - f) % 2 ^ 32)
    | none => false

/-- SUPPLY_WINDOW: the window's codes reach SNF_INT; it aborts what converts; a supply item adds them up (R123, R124,
R128). -/
def execSupplyWindow (codes : List (Fin 65536)) (s : State) : R :=
  let cs := s.windowChannels
  if s.windowRuns = false ∨ codes.length ≠ cs.length then .next s
  else
    let t := s.auxAbort (s.flag Reg.AUX_STAT 0 || s.aux.urg.isSome)
    let t := (cs.zip codes).foldl (fun s e => s.setFld (Reg.SNF_INT (e.1 - 16)) 15 0 e.2.val) t
    let t : State := { t with aux := { t.aux with win := true, fresh := cs } }
    if s.supplyItem = true ∧ t.sniff.frames < 256 then
      let sums := (List.range 32).map (fun i => nth 0 t.sniff.sums i + (codes[i]?.getD 0).val)
      .next { t with sniff := { t.sniff with sums := sums, counted := t.sniff.counted + 1 } }
    else .next t

end Sys2Proof.Machine
end

