-- ==== Sys2Proof/Machine/Flags.lean ====
section
/-!
DEFINITION. Sys2Proof/Machine/Flags.lean: the sample word and its flags (R102, R105, R112), the unsettled counts (R101,
R110, R111), rounding and clamping of chain values (R100, R104).
-/
namespace Sys2Proof.Machine

/-- A sample word (R112). -/
structure Sample where
  src : Nat := 0
  t : Bool := false
  s : Bool := false
  o : Bool := false
  u : Bool := false
  val : Int := 0
deriving DecidableEq, Repr

/-- The 32 bits of a sample word. -/
def Sample.word (x : Sample) : Word :=
  BitVec.ofNat 32 (x.src % 16 * 2 ^ 28 + b2n x.t * 2 ^ 27 + b2n x.s * 2 ^ 26 + b2n x.o * 2 ^ 25 + b2n x.u * 2 ^ 24
    + toTwos 24 x.val)

/-- The sample word of 32 bits. -/
def sampleOf (w : Word) : Sample :=
  ⟨field w 31 28, bit w 27, bit w 26, bit w 25, bit w 24, sext 24 w.toNat⟩

def wordU (w : Word) : Bool := bit w 24
def wordO (w : Word) : Bool := bit w 25
def wordS (w : Word) : Bool := bit w 26
def wordT (w : Word) : Bool := bit w 27
def wordVal (w : Word) : Int := sext 24 w.toNat

/-- The greatest magnitude of VAL (R100, R112). -/
def valMax : Int := 8388607

/-- A value clamped to the range of VAL, and whether the clamp acted. -/
def clampVal (x : Int) : Int × Bool := (clampInt (-valMax) valMax x, decide (x < -valMax) || decide (valMax < x))

/-- The word of a lane whose pack is not ON (R71); T is that of the mode (R65, R102). -/
def wordOffT (t : Bool) : Word := (Sample.mk 0 t true false true 0).word

/-- That word with T = 0. -/
def wordOff : Word := wordOffT false

/-- The word of a disabled lane (R82); T is that of the mode (R102). -/
def wordDisabled (t : Bool) : Word := (Sample.mk 0 t true false false 0).word

/-- PRESET as it acts: 3 acts as 1 (R116). -/
def presetOf (dec : Word) : Nat := if field dec 1 0 = 3 then 1 else field dec 1 0

/-- N_A, the unsettled outputs of a preset (R101). -/
def unsettled (preset : Nat) : Nat := nth 3 [2, 3, 5] preset

/-- Taps of a preset (R101). -/
def taps (preset : Nat) : Nat := nth 257 [97, 257, 513] preset

/-- DEC_ACOEF index of c_0 of a preset; the minimum-phase option applies to FAST only (R101, R116). -/
def coefBase (preset : Nat) (minph : Bool) : Nat :=
  match preset with
  | 0 => if minph then 97 else 0
  | 1 => 194
  | _ => 451

/-- BK as it acts: 7 acts as 6 (R116). -/
def bkOf (dec : Word) : Nat := min (field dec 10 8) 6

/-- FREF as it acts, 40 to 70 Hz (R116). -/
def frefOf (dec : Word) : Nat := max 40 (min 70 (field dec 23 16))

/-- One half-band output from its last seven inputs, newest first (R104, R105). Inputs from before frame 0 are words of a
pack that is OFF (assumption log 20). -/
def halfBand (ws : List Word) : Word :=
  let w := (ws ++ List.replicate 7 wordOff).take 7
  let v := fun i => wordVal (nth 0#32 w i)
  let x := roundEven (-(v 6) + 9 * v 4 + 16 * v 3 + 9 * v 2 - v 0) 32
  let n := sampleOf (nth 0#32 w 0)
  (Sample.mk n.src n.t (w.any wordS) (w.any wordO) (w.any wordU) (clampVal x).1).word

end Sys2Proof.Machine
end

