-- ==== Sys2Proof/Machine/Lanes.lean ====
section
/-!
DEFINITION. Sys2Proof/Machine/Lanes.lean: lanes and converter slices (chapter 4): corrections, overrange, gain, type, trims,
injection, skew and level; rows RAW_FLIT_SEND, AFE_LANE_WRITE to DC_LEVEL_RESULT, and LINK_RETRAIN_COMPLETE.
-/
namespace Sys2Proof.Machine

/-- The partition that a lane or bay belongs to (R13). -/
def State.bayOwner (s : State) (b : Nat) : Option Nat := (s.bay b).part
def State.laneOwner (s : State) (l : Nat) : Option Nat := s.bayOwner (l / 8)

/-- Applied type and gain setting of a lane; virtual lanes have none. -/
def State.typ (s : State) (l : Nat) : Nat := s.fld (Reg.AFE_LSTAT l) 5 4
def State.gainSet (s : State) (l : Nat) : Nat := s.fld (Reg.AFE_LSTAT l) 1 0

/-- The gain of a lane's stage: its setting, and x1 while sniff holds the lane (R129); AFE_LSTAT.GAIN goes on to read the setting,
which the end of the step restores (DEDUCED, assumption log 61). -/
def State.gain (s : State) (l : Nat) : Nat := if s.flag (Reg.AFE_LSTAT l) 12 then 0 else s.gainSet l

/-- Whether the mode as behaved is TEST, whose samples carry T (R60, R64, R65). -/
def State.testMode (s : State) : Bool := s.behaved == mTEST

/-- The injection applied to a lane: that of AFE_LSTAT.INJ (R92-R94). -/
def State.injection (s : State) (l : Nat) : Nat := s.fld (Reg.AFE_LSTAT l) 11 10

/-- The injection in force: the stored one on a powered lane (R82, R94); 3 while sniff applies it. -/
def State.effInj (s : State) (l : Nat) : Nat :=
  if s.flag (Reg.AFE_LSTAT l) 12 then 3
  else if s.packOn l && s.typ l != 0 then (let m := field (s.lane l).inj 1 0
                                           if m = 3 then 0 else m)
  else 0

/-- The U count of a lane is raised to n (R111). -/
def State.mark (s : State) (l n : Nat) : State :=
  s.setFld (Reg.DEC_LSTAT l) 7 4 (max n (s.fld (Reg.DEC_LSTAT l) 7 4))

/-- N_A of a lane's preset. -/
def State.nA (s : State) (l : Nat) : Nat := unsettled (presetOf (s.lane l).dec)

/-- A restart cause for the integrator of a Rogowski lane (R108). -/
def State.restartInt (s : State) (l : Nat) : State :=
  if s.typ l = 2 then (s.modLane l (fun x => { x with restart := true })).setFld (Reg.DEC_LSTAT l) 27 16 640 else s

/-- A complete skew or level result is void and the accumulation restarts (R96, R97). -/
def State.voidSkew (s : State) (l : Nat) : State :=
  (s.setFlag (Reg.CNV_SKEW (l / 8) (l % 8)) 31 false).modLane l (fun x => { x with skAcc := 0, skCnt := 0 })
def State.voidLevel (s : State) (l : Nat) : State :=
  (s.setFlag (Reg.CNV_DCMEAS (l / 8) (l % 8)) 31 false).modLane l (fun x => { x with dcAcc := 0, dcCnt := 0, lvlOld := false })

/-- AFE_LSTAT.INJ follows the injection in force: marks at its start and end, restart at its end (R93, R110), measurements
void where it stops (R96, R97). -/
def State.showInj (s : State) (l : Nat) (levelChanged : Bool) : State :=
  let old := s.injection l
  let new := s.effInj l
  let t := s.setFld (Reg.AFE_LSTAT l) 11 10 new
  let live := s.packOn l && s.typ l != 0
  let t := if live && new != old then t.mark l (s.nA l) else t
  let t := if live && new == 0 && old != 0 then t.restartInt l else t
  let t := if old = 2 ∧ new ≠ 2 then t.voidSkew l else t
  if old = 1 ∧ (new ≠ 1 ∨ levelChanged = true) then t.voidLevel l else t

/-- PWR of AFE_LSTAT: pack ON and TYPE not 0. -/
def State.showPwr (s : State) (l : Nat) : State := s.setFlag (Reg.AFE_LSTAT l) 9 (s.packOn l && s.typ l != 0)

/-- A gain and type take hold in the analogue path of a lane whose pack is ON (R81, R82, R110). -/
def State.takeHold (s : State) (l : Nat) (v : Word) : State :=
  let g0 := s.gainSet l
  let t0 := s.typ l
  let g1 := field v 1 0
  let t1 := field v 5 4
  let t := (s.setFld (Reg.AFE_LSTAT l) 1 0 g1).setFld (Reg.AFE_LSTAT l) 5 4 t1
  let t := t.showPwr l
  let up := decide (t0 = 0) && decide (t1 ≠ 0)
  let gch := decide (t0 ≠ 0) && decide (t1 ≠ 0) && decide (g0 ≠ g1)
  let t := if up then (t.mark l (s.nA l)).modLane l (fun x => { x with unset := 48 }) else t
  let t := if gch then (t.mark l (s.nA l)).modLane l (fun x => { x with unset := max x.unset 9 }) else t
  let t := if up || gch || decide (t0 ≠ t1) then t.restartInt l else t
  t.showInj l false

/-- Whether the mode at a boundary permits lane changes and injection (R60, R80, R93). -/
def State.permits (s : State) : Bool := permitsInjection s.behaved

/-- Both windows of a bay's background correction start afresh (R89, R90). -/
def State.freshWindows (s : State) (b : Nat) : State := s.modBay b (fun x => { x with offWin := 0, gainWin := 0 })

/-- A pack enters ON (R70, R71, R80, R94): stored settings take hold, every enabled lane starts from rest, a stored injection
applies if the mode still permits it. -/
def State.packEnters (s : State) (p : Nat) : State :=
  let s := (List.range 4).foldl (fun s i => s.freshWindows (4 * p + i)) s
  (List.range 32).foldl (fun s i =>
    let l := 32 * p + i
    let x := s.lane l
    let t := match x.stored with
      | some v => (s.modLane l (fun x => { x with stored := none })).takeHold l v
      | none => s.showPwr l
    let t := if t.permits then t else t.modLane l (fun x => { x with inj := 0#32 })
    let t := t.showInj l false
    let t := if t.typ l = 0 then t else (t.mark l (t.nA l)).restartInt l
    t.modLane l (fun x => { x with exc := none })) s

/-- A pack leaves ON (R70, R90, R96, R97). -/
def State.packLeaves (s : State) (p : Nat) : State :=
  let t := (List.range 32).foldl (fun s i =>
    let l := 32 * p + i
    (((s.showPwr l).showInj l false).voidSkew l).voidLevel l) s
  (List.range 4).foldl (fun s i => s.setFld (Reg.CNV_STAT (4 * p + i)) 3 1 0) t

/-- What forms a lane's words of the frame at hand (R81, R84, R91, R103, R111). -/
def State.liveForm (s : State) (l : Nat) : LaneForm :=
  let x := s.lane l
  let on := s.packOn l
  { on := on, typ := s.typ l, gain := s.gain l, inj := s.injection l, level := field x.inj 6 4, ltrim := x.ltrim
    code := s.fld (Reg.CNV_STRIM (l / 8) (l % 8)) 30 24, dec := x.dec, hi := x.hi, hh := x.hh, t := s.testMode
    u := on && decide (0 < s.fld (Reg.DEC_LSTAT l) 7 4), restart := x.restart }

/-! ### Conversion -/

/-- The level that injection 1 applies, as a fraction of full scale (R92). -/
def levelOf : Nat → Rat
  | 1 => 1 / 2
  | 2 => -1 / 2
  | 3 => 9 / 10
  | 4 => -9 / 10
  | _ => 0

/-- The wing ramp, as a fraction of full scale, u strobe periods after the start of a frame in which the wing's generator runs: that is
every frame in which a lane of the wing has injection 2 applied (R95). -/
def rampAt (u : Rat) : Rat :=
  if u ≤ 33 / 2 then -1 / 2 else if u < 41 / 2 then -1 / 2 + (u - 33 / 2) / 4 else 1 / 2

/-- When a lane holds strobe n, in strobe periods from the start of the frame (R25, R84). -/
def holdAt (l code n : Nat) : Rat :=
  (n : Rat) + mkRat (Config.holdPs l + ((code : Int) - (Config.fact l : Int)) * 250) 1 / mkRat 1953125 4

/-- The signal at a lane's gain stage at strobe n, in raw LSB at its gain (R92): the pins, the level, or the wing ramp. -/
def laneSignal (f : LaneForm) (l n : Nat) (pins : Int) : Rat :=
  if f.inj = 1 then levelOf f.level * 32768
  else if f.inj = 2 then rampAt (holdAt l f.code n) * 32768
  else mkRat pins 256

/-- CNV_SUBGAIN of a lane's sub-converter in ppm: even lanes EVEN, odd lanes ODD (R85, R99). -/
def State.subGain (s : State) (l : Nat) : Int :=
  let w := s.rd (Reg.CNV_SUBGAIN (l / 8))
  if l % 2 = 0 then sext 16 (field w 15 0) else sext 16 (field w 31 16)

/-- The corrected value of a result of v raw LSB (R88). -/
def State.corrected (s : State) (f : LaneForm) (l : Nat) (v : Rat) : Rat :=
  let a := v * mkRat (1000000 + s.subGain l) 1000000
  let b := a - mkRat (sext 16 (field (s.rd (Reg.CNV_LOFS (l / 8) (l % 8))) 15 0)) 16
  let c := b * mkRat (Config.prodGain l) (2 ^ 24) * mkRat (1000000 + sext 16 (field f.ltrim 15 0)) 1000000
  c + mkRat (sext 16 (field f.ltrim 31 16)) 16

/-- Overrange markers (R86). -/
def isMarker (c : BitVec 16) : Bool := c == 0x7FFF#16 || c == 0x8000#16

def markerOf (neg : Bool) : BitVec 16 := if neg then 0x8000#16 else 0x7FFF#16

/-- The code that a lane delivers for strobe n, and the excursion after it (R82, R86-R88, R92). A common-mode overrange has the
sign of the voltage at the pins, any other that of the uncorrected result (R87). -/
def State.convert (s : State) (f : LaneForm) (l n : Nat) (c : Conv) : BitVec 16 × Option Bool :=
  if f.typ = 0 then (0#16, none)
  else
    let v := laneSignal f l n c.pins + mkRat c.err 256
    let y := nearest (s.corrected f l v)
    let neg := if c.cm then decide (c.pins < 0) else decide (v < 0)
    if c.ovr || c.cm || decide (y < -32767) || decide (32766 < y) then (markerOf neg, some neg)
    else match (s.lane l).exc with
      | some n => if c.back < (if f.gain = 3 then 2000 else 1000) then (markerOf n, some n) else (BitVec.ofInt 16 y, none)
      | none => (BitVec.ofInt 16 y, none)

/-- The settings under which strobe n is converted: strobe 127 of a frame is converted, and its flit leaves, 122 ns into the next
frame (R25). -/
def State.sendForm (s : State) (l n : Nat) : LaneForm := if n = 127 then (s.lane l).form else s.liveForm l

/-- Whether a pack's flit for strobe n is sent (R25, R70): the pack was ON in the frame of that strobe. -/
def State.sends (s : State) (p n : Nat) : Bool :=
  s.phase == .running && (if n = 127 then (s.lane (32 * p)).form.on else s.pack p == 1)

/-- A lane keeps the code of a strobe (R96, R97) and AFE_LSTAT.OVR (R98). The code of strobe 127 completes the frame before: OVRNOW and
AFE_OVRCNT, and its part in the level (R97, R98). -/
def State.keepCode (s : State) (l n : Nat) (r : BitVec 16 × Option Bool) : State :=
  let m := isMarker r.1
  let t := if m then s.setFlag (Reg.AFE_LSTAT l) 14 true else s
  if n ≠ 127 then
    t.modLane l (fun x => { x with codes := modAt x.codes n (fun _ => r.1), exc := r.2, ovrNow := x.ovrNow || m })
  else
    let x := s.lane l
    let cs := modAt x.codesOld n (fun _ => r.1)
    let o := x.ovrOld || m
    let t := t.setFlag (Reg.AFE_LSTAT l) 13 o
    let t := if o then t.incFld (Reg.AFE_OVRCNT l) 31 0 else t
    let lvl := x.lvlOld && !cs.any isMarker
    t.modLane l (fun x => { x with
      codesOld := cs, exc := r.2, lvlOld := false
      dcAcc := if lvl then x.dcAcc + cs.foldl (fun a c => a + c.toInt) 0 else x.dcAcc
      dcCnt := if lvl then x.dcCnt + 1 else x.dcCnt })

/-- RAW_FLIT_SEND: 40 CCLK cycles after a strobe the 32 codes of an ON pack leave in one flit that names the strobe's frame (R25,
R27); the field die keeps what its slices measure, and discards the flit while the link is down (R33). -/
def execRawFlitSend (pack : Fin 8) (strobe : Fin 128) (conv : List Conv) (s : State) : R :=
  let p := pack.val
  let n := strobe.val
  if s.sends p n = false then .next s
  else
    let r := (List.range 32).map (fun i => s.convert (s.sendForm (32 * p + i) n) (32 * p + i) n (nth { pins := 0 } conv i))
    let t := (r.zipIdx).foldl (fun s e => s.keepCode (32 * p + e.2) n e.1) s
    let f := if n = 127 then s.frame + 255 else s.frame
    .next (t.sendFlit .field 1 p (n + 256 * (f % 256)) (r.flatMap (fun e => bytesLE 2 e.1.toNat)))

/-- Least-squares sums over the 28 strobes from a on (R130): the doubled centred abscissa times the code, and the residual sum of
squares. -/
def fitSums (codes : List (BitVec 16)) (a : Nat) : Int × Rat :=
  let y := (List.range 28).map (fun i => (nth 0#16 codes (a + i)).toInt)
  let sxy : Int := (y.zipIdx).foldl (fun z e => z + (2 * (e.2 : Int) - 27) * e.1) 0
  let sy : Int := y.foldl (fun z v => z + v) 0
  let syy : Int := y.foldl (fun z v => z + v * v) 0
  -- the doubled abscissa's sum of squares is 4 * 1827
  (sxy, (syy : Rat) - mkRat (sy * sy) 28 - mkRat (sxy * sxy) 7308)

/-- A frame of a lane under the test current joins the cable item's two fits (R130). -/
def LaneSt.fitFrame (x : LaneSt) : LaneSt :=
  let a := fitSums x.codes 36
  let b := fitSums x.codes 68
  let used := (x.codes.drop 36).take 28 ++ (x.codes.drop 68).take 28
  { x with fitR := x.fitR + a.1, fitF := x.fitF + b.1, resR := x.resR + a.2, resF := x.resF + b.2, fitN := x.fitN + 1
           fitOvr := x.fitOvr || used.any isMarker }

/-- What a frame end does on the field die: the frame's codes move up until strobe 127's has come; a lane whose pack is not ON has had
no marker (R97, R98). -/
def State.laneFrameEnd (s : State) (l : Nat) : State :=
  let t := if s.packOn l then s else s.setFlag (Reg.AFE_LSTAT l) 13 false
  t.modLane l (fun x =>
    let y := if s.flag (Reg.AFE_LSTAT l) 12 then x.fitFrame else x
    { y with
      codesOld := x.codes, ovrOld := x.ovrNow, lvlOld := decide (s.injection l = 1) && s.packOn l
      ovrNow := false, unset := 0, unsetOld := x.unset, meas := false
      old := x.now, oldRep := x.nowRep, nowRep := List.replicate 128 false })

/-! ### Gain and type -/

/-- The action of a write of AFE_LANE (R80). -/
def wrAfeLane (l : Nat) (p : Port) (v : Word) (s : State) : State :=
  (((s.setFld (Reg.AFE_LANE l) 5 4 (field v 5 4)).setFld (Reg.AFE_LANE l) 1 0 (field v 1 0)).setFlag
    (Reg.AFE_LANE l) 31 true).place (Reg.AFE_LANE l) v p

/-- AFE_LANE_WRITE (R80). -/
def execAfeLaneWrite (p : Port) (lane : Fin 256) (v : Word) (s : State) : R :=
  gate s p .field (.owned (s.laneOwner lane.val)) 0x7FFFFFCC#32 (Reg.AFE_LANE lane.val) v (wrAfeLane lane.val p)

/-- LANE_SETTINGS_APPLY (R80, R81). -/
def execLaneSettingsApply (lane : Fin 256) (s : State) : R :=
  let l := lane.val
  match s.due (Reg.AFE_LANE l) with
  | some r =>
    let t := (s.setReq (Reg.AFE_LANE l) none).setFlag (Reg.AFE_LANE l) 31 false
    if s.permits = false then .next (t.setFlag (Reg.AFE_LSTAT l) 15 true)
    else if s.packOn l then .next (t.takeHold l r.value)
    else .next (t.modLane l (fun x => { x with stored := some r.value }))
  | none => .next s

/-! ### Injection -/

/-- Sniff holds the lane: a write waits for the end of the step (R94). -/
def State.holdInj (s : State) (l : Nat) (v : Word) : State :=
  (s.setFlag (Reg.AFE_INJ l) 30 true).modLane l (fun x => { x with injHeld := some v })

/-- The action of a write of AFE_INJ (R93, R94). One that sniff holds comes after every write made before it (R21). -/
def wrAfeInj (l : Nat) (p : Port) (v : Word) (s : State) : State :=
  let t := (((s.setFld (Reg.AFE_INJ l) 6 4 (field v 6 4)).setFld (Reg.AFE_INJ l) 1 0 (field v 1 0)).setFlag
    (Reg.AFE_INJ l) 31 true)
  if s.flag (Reg.AFE_LSTAT l) 12 then (t.dropReqs (Reg.AFE_INJ l)).holdInj l v else t.placeEach (Reg.AFE_INJ l) v p

/-- AFE_INJ_WRITE (R92, R93). -/
def execAfeInjWrite (p : Port) (lane : Fin 256) (v : Word) (s : State) : R :=
  gate s p .field (.owned (s.laneOwner lane.val)) 0x3FFFFF8C#32 (Reg.AFE_INJ lane.val) v (wrAfeInj lane.val p)

/-- An injection write takes hold under the mode condition (R93). -/
def State.putInj (s : State) (l : Nat) (v : Word) : State :=
  let m := field v 1 0
  let w := if m = 3 ∨ s.permits = false then 0#32 else v
  let old := (s.lane l).inj
  (s.modLane l (fun x => { x with inj := w })).showInj l (field old 6 4 != field w 6 4)

/-- AFE_INJ.PENDING: a write awaits its boundary, or sniff's end. -/
def State.showPend (s : State) (l : Nat) : State :=
  s.setFlag (Reg.AFE_INJ l) 31 ((s.req (Reg.AFE_INJ l)).isSome || (s.lane l).injHeld.isSome)

/-- INJECTION_APPLY (R93, R94): a write that was on its way when sniff took the lane waits with those it holds. -/
def execInjectionApply (lane : Fin 256) (s : State) : R :=
  let l := lane.val
  .next ((s.onDue (Reg.AFE_INJ l) (fun s r =>
    if s.flag (Reg.AFE_LSTAT l) 12 then s.holdInj l r.value else s.putInj l r.value)).showPend l)

/-- The gain stage of an enabled lane switches where its setting is not x1 (R81, R129). -/
def State.sniffSwitch (s : State) (l : Nat) : State :=
  if s.gainSet l = 0 ∨ s.typ l = 0 then s else s.modLane l (fun x => { x with unset := max x.unset 9 })

/-- Sniff takes a lane (R129, R94). -/
def State.sniffTakes (s : State) (l : Nat) : State :=
  let t := (s.setFlag (Reg.AFE_LSTAT l) 12 true).modLane l (fun x => { x with
    fitR := 0, fitF := 0, resR := 0, resF := 0, fitN := 0, fitOvr := false })
  (t.showInj l false).sniffSwitch l

/-- Sniff leaves a lane: a write it held takes effect (R94, R129). -/
def State.sniffLeaves (s : State) (l : Nat) : State :=
  if s.flag (Reg.AFE_LSTAT l) 12 = false then s
  else
    let t := ((s.setFlag (Reg.AFE_LSTAT l) 12 false).showInj l false).sniffSwitch l
    match (s.lane l).injHeld with
    | some v => (((t.setFlag (Reg.AFE_INJ l) 30 false).modLane l (fun x => { x with injHeld := none })).putInj l v).showPend l
    | none => t

/-- Injection in progress stops when the mode as behaved no longer permits it, and what is stored for a pack that is not ON is dropped
(R65, R93, R94). Without the link nothing reaches the field die, which keeps the injection it has until the link is up again (R94;
assumption log 61). -/
def State.stopInjection (s : State) : State :=
  if s.permits || !(s.linkUp && s.link.field.up) then s
  else (List.range 256).foldl (fun s l =>
    let t := s.sniffLeaves l
    if field (t.lane l).inj 1 0 = 0 then t else (t.modLane l (fun x => { x with inj := 0#32 })).showInj l false) s

/-! ### Trims and background correction -/

/-- The action of a write of CNV_STRIM (TRIM) or CNV_LTRIM (R91). -/
def wrCnvTrim (b k : Nat) (skew : Bool) (p : Port) (v : Word) (s : State) : State :=
  if skew then (s.setFld (Reg.CNV_STRIM b k) 7 0 (field v 7 0)).place (Reg.CNV_STRIM b k) v p
  else (s.wr (Reg.CNV_LTRIM b k) v).place (Reg.CNV_LTRIM b k) v p

/-- CNV_TRIM_WRITE (R91). -/
def execCnvTrimWrite (p : Port) (bay : Fin 32) (k : Fin 8) (skew : Bool) (v : Word) (s : State) : R :=
  gate s p .field (.owned (s.bayOwner bay.val)) (if skew then 0x0080FF00#32 else 0#32)
    (if skew then Reg.CNV_STRIM bay.val k.val else Reg.CNV_LTRIM bay.val k.val) v (wrCnvTrim bay.val k.val skew p)

/-- TRIM as applied: CODE and CLAMP (R84); a change restarts the skew measurement (R91). -/
def State.putTrim (s : State) (b k : Nat) (v : Word) : State :=
  let r := Reg.CNV_STRIM b k
  let x : Int := (s.fld r 22 16 : Int) + sext 8 (field v 7 0)
  let code := (clampInt 0 127 x).toNat
  let t := (s.setFld r 30 24 code).setFlag r 31 (decide (x < 0) || decide (127 < x))
  let l := 8 * b + k
  let u := t.modLane l (fun x => { x with strim := field v 7 0 })
  if field v 7 0 = (s.lane l).strim then u else u.voidSkew l

/-- LTRIM as applied; a change restarts the level measurement (R91). -/
def State.putLtrim (s : State) (l : Nat) (v : Word) : State :=
  let t := s.modLane l (fun x => { x with ltrim := v })
  if (s.lane l).ltrim = v then t else t.voidLevel l

/-- The production coefficients of a bay are reloaded, and both windows start afresh (R89, R90; assumption log 49). -/
def State.restoreCoef (s : State) (b : Nat) : State :=
  let t := s.wr (Reg.CNV_SUBGAIN b) (regReset (Reg.CNV_SUBGAIN b))
  let t := (List.range 8).foldl (fun s k => s.wr (Reg.CNV_LOFS b k) (regReset (Reg.CNV_LOFS b k))) t
  (t.setFld (Reg.CNV_STAT b) 2 1 0).freshWindows b

/-- CNV_CTRL as applied: AVG, FREEZE, RESTORE (R89, R91, R96, R97). -/
def State.putCtrl (s : State) (b : Nat) (v : Word) : State :=
  let old := (s.bay b).cnvCtrl
  let t := s.modBay b (fun x => { x with cnvCtrl := v &&& 0xF1#32 })
  let t := if s.flag (Reg.CNV_STAT b) 0 && !bit v 0 then t.freshWindows b else t
  let t := t.setFlag (Reg.CNV_STAT b) 0 (bit v 0)
  let t := if bit v 1 then t.restoreCoef b else t
  if field old 7 4 = field v 7 4 then t
  else (List.range 8).foldl (fun s k => (s.voidSkew (8 * b + k)).voidLevel (8 * b + k)) t

/-- AVG as it acts: 2^AVG frames, 9-15 act as 8. -/
def State.avg (s : State) (b : Nat) : Nat := 2 ^ min 8 (field (s.bay b).cnvCtrl 7 4)

/-- TRIM_APPLY: trims and CNV_CTRL of a bay whose boundary has come (R91). -/
def execTrimApply (bay : Fin 32) (s : State) : R :=
  let b := bay.val
  let t := (List.range 8).foldl (fun s k =>
    (s.onDue (Reg.CNV_STRIM b k) (fun s r => s.putTrim b k r.value)).onDue (Reg.CNV_LTRIM b k)
      (fun s r => s.putLtrim (8 * b + k) r.value)) s
  .next (t.onDue (Reg.CNV_CTRL b) (fun s r => s.putCtrl b r.value))

/-- The action of a write of CNV_CTRL (R91): FREEZE and AVG read back; RESTORE acts at its boundary. -/
def wrCnvCtrl (b : Nat) (p : Port) (v : Word) (s : State) : State :=
  (s.wr (Reg.CNV_CTRL b) (v &&& 0xF1#32)).place (Reg.CNV_CTRL b) v p

/-- CNV_RESTORE: a write of CNV_CTRL with RESTORE = 1; it acts at its effect boundary (R89, R91). -/
def execCnvRestore (p : Port) (bay : Fin 32) (v : Word) (s : State) : R :=
  gate s p .field (.owned (s.bayOwner bay.val)) 0xFFFFFF0C#32 (Reg.CNV_CTRL bay.val) (v ||| 2#32)
    (wrCnvCtrl bay.val p)

/-- CNV_CTRL_WRITE (R91). -/
def execCnvCtrlWrite (p : Port) (bay : Fin 32) (v : Word) (s : State) : R :=
  gate s p .field (.owned (s.bayOwner bay.val)) 0xFFFFFF0C#32 (Reg.CNV_CTRL bay.val) v (wrCnvCtrl bay.val p)

/-- Whether the background correction of a bay runs: pack ON and not frozen (R89). -/
def State.corrects (s : State) (b : Nat) : Bool := s.pack (b / 4) == 1 && !s.flag (Reg.CNV_STAT b) 0

/-- As a frame ends: its strobes count in both windows of a bay whose correction runs (R89). -/
def State.countWindows (s : State) (b : Nat) : State :=
  if s.corrects b then s.modBay b (fun x => { x with offWin := x.offWin + 1, gainWin := x.gainWin + 1 }) else s

/-- Whether a window of 512 frames, or of 2 048, is complete. -/
def State.offsetEnds (s : State) (b : Nat) : Bool := s.corrects b && decide (512 ≤ (s.bay b).offWin)
def State.gainEnds (s : State) (b : Nat) : Bool := s.corrects b && decide (2048 ≤ (s.bay b).gainWin)

/-- OFFSET_WINDOW_END: 2^16 strobes have passed; the estimates of the eight lanes are updated (R89, R90). -/
def execOffsetWindowEnd (bay : Fin 32) (est : List (BitVec 16)) (s : State) : R :=
  let b := bay.val
  if s.offsetEnds b then
    let t := s.modBay b (fun x => { x with offWin := x.offWin - 512 })
    let t := (List.range 8).foldl (fun s k => s.wr (Reg.CNV_LOFS b k) ((nth 0#16 est k).setWidth 32)) t
    .next (t.setFlag (Reg.CNV_STAT b) 1 true)
  else .next s

/-- GAIN_WINDOW_END: 2^18 strobes have passed; the sub-converter gains are updated (R89, R90). -/
def execGainWindowEnd (bay : Fin 32) (even odd : BitVec 16) (s : State) : R :=
  let b := bay.val
  if s.gainEnds b then
    let s := s.modBay b (fun x => { x with gainWin := x.gainWin - 2048 })
    .next ((s.wr (Reg.CNV_SUBGAIN b) (BitVec.ofNat 32 (even.toNat + 65536 * odd.toNat))).setFlag (Reg.CNV_STAT b) 2 true)
  else .next s

/-- DLL_LOCK: both tree loops are locked; their codes are analogue, and the manual states only their range (R99). While FREEZE is
applied they keep their codes (R89, R90). -/
def execDllLock (bay : Fin 32) (s : State) : R :=
  let b := bay.val
  if s.pack (b / 4) = 1 then
    let f := s.free
    let codes := Config.treeCode (field f.1 15 0) + 256 * Config.treeCode (field f.1 31 16)
    let t := if s.flag (Reg.CNV_STAT b) 0 then s else f.2.wr (Reg.CNV_TREE b) (BitVec.ofNat 32 codes)
    .next (t.setFlag (Reg.CNV_STAT b) 3 true)
  else .next s

/-! ### Skew and level -/

/-- The crossing of R96 among the codes of a frame: strobe n and its successor. -/
def crossing (codes : List (BitVec 16)) : Option (Nat × Int × Int) :=
  (([17, 18, 19].map (fun n => (n, nth 0#16 codes n, nth 0#16 codes (n + 1)))).find? (fun e =>
    decide (e.2.1.toInt < 0) && decide (0 ≤ e.2.2.toInt) && !isMarker e.2.1 && !isMarker e.2.2)).map
    (fun e => (e.1, e.2.1.toInt, e.2.2.toInt))

/-- SKEW_MEASURE: the procedure of R96, once per frame, for an enabled lane with injection 2. -/
def execSkewMeasure (lane : Fin 256) (s : State) : R :=
  let l := lane.val
  let x := s.lane l
  if s.injection l ≠ 2 ∨ x.meas = true ∨ s.typ l = 0 then .next s
  else
    let t := s.modLane l (fun x => { x with meas := true })
    match crossing x.codes with
    | none => .next t
    | some (n, a, b) =>
      let tc : Rat := n + mkRat (-a) (b - a).toNat
      let acc := x.skAcc + (mkRat 37 2 - tc)
      let cnt := x.skCnt + 1
      if cnt = s.avg (l / 8) then
        let k := Reg.CNV_SKEW (l / 8) (l % 8)
        let v := nearest (acc / (cnt : Rat) * mkRat 15625 2)
        .next ((t.wr k (BitVec.ofNat 32 (toTwos 16 v + 2 ^ 31))).modLane l (fun x => { x with skAcc := 0, skCnt := 0 }))
      else .next (t.modLane l (fun x => { x with skAcc := acc, skCnt := cnt }))

/-- DC_LEVEL_RESULT: 2^AVG frames have been counted (R97). -/
def execDcLevelResult (lane : Fin 256) (s : State) : R :=
  let l := lane.val
  let x := s.lane l
  let n := s.avg (l / 8)
  if s.injection l = 1 ∧ s.typ l ≠ 0 ∧ n ≤ x.dcCnt then
    let v := nearest (mkRat (x.dcAcc * 2) x.dcCnt)
    .next ((s.wr (Reg.CNV_DCMEAS (l / 8) (l % 8)) (BitVec.ofNat 32 (toTwos 24 v + 2 ^ 31))).modLane l
      (fun x => { x with dcAcc := 0, dcCnt := 0 }))
  else .next s

/-- LINK_RETRAIN_COMPLETE (R34): both dies find the link up; the engine writes LINK to every store (R307); an injection that the mode
no longer permits stops now (assumption log 61). -/
def execLinkRetrainComplete (s : State) : R :=
  if s.link.training = true ∧ s.phase = .running ∧ s.mode ≠ mFILL then
    let t := s.linkTrained
    .next (t.post 0x06 (srcOf 0 0) (linkPayload 1 0 t.frame) everyLog true).stopInjection
  else .next s

end Sys2Proof.Machine
end

