-- ==== Sys2Proof/Machine/Float32.lean ====
section
/-!
DEFINITION. Sys2Proof/Machine/Float32.lean: IEEE 754 binary32 as R242 uses it: round to nearest, ties to even; a
subnormal operand or result is a zero of the same sign.
-/
namespace Sys2Proof

/-- A binary32 value with subnormals already taken as zero (R242). -/
inductive Fp where
  | nan
  | inf (neg : Bool)
  | zero (neg : Bool)
  /-- (-1)^neg * mant * 2^(ex), 2^23 ≤ mant < 2^24 -/
  | fin (neg : Bool) (mant : Nat) (ex : Int)
deriving DecidableEq, Repr

/-- A quiet NaN, the result of operation `op` on a and b; its sign and payload are open (assumption log 2). -/
def fpNaN (op : Nat) (a b : Word) : Word := (Config.nanBits op a b &&& 0x803FFFFF#32) ||| 0x7FC00000#32
def fpInf (neg : Bool) : Word := if neg then 0xFF800000#32 else 0x7F800000#32
def fpZero (neg : Bool) : Word := if neg then 0x80000000#32 else 0#32
def fpOne : Word := 0x3F800000#32

/-- The value a bit pattern denotes, subnormals taken as zero of the same sign (R242). -/
def fpDec (w : Word) : Fp :=
  let neg := bit w 31
  let e := field w 30 23
  let m := field w 22 0
  if e = 255 then (if m = 0 then .inf neg else .nan)
  else if e = 0 then .zero neg
  else .fin neg (2 ^ 23 + m) ((e : Int) - 150)

def isNaN (w : Word) : Bool := fpDec w == .nan

/-- Round num/den (den > 0, num > 0) of the given sign to binary32, ties to even; a subnormal result is zero and an
overflow is an infinity (R242). -/
def fpRound (neg : Bool) (num den : Nat) : Word :=
  -- e0 is within one of floor(log2 (num/den))
  let e0 : Int := (Nat.log2 num : Int) - (Nat.log2 den : Int)
  let below : Bool := if e0 ≥ 0 then num < den * 2 ^ e0.toNat else num * 2 ^ (-e0).toNat < den
  -- the exponent of the last place is never below that of the subnormals
  let e : Int := max (-126) (if below then e0 - 1 else e0)
  let sh : Int := 23 - e
  let n := if sh ≥ 0 then num * 2 ^ sh.toNat else num
  let d := if sh ≥ 0 then den else den * 2 ^ (-sh).toNat
  let q := (roundEven n d).toNat
  let q' := if q = 2 ^ 24 then 2 ^ 23 else q
  let e' : Int := if q = 2 ^ 24 then e + 1 else e
  if e' > 127 then fpInf neg
  else if q' < 2 ^ 23 then fpZero neg
  else BitVec.ofNat 32 (neg.toNat * 2 ^ 31 + (e' + 127).toNat * 2 ^ 23 + (q' - 2 ^ 23))

/-- An exact rational num/den (den > 0) rounded to binary32. -/
def fpOfRatio (num : Int) (den : Nat) : Word :=
  if num = 0 then fpZero false else fpRound (num < 0) num.natAbs den

/-- A finite value as a signed integer times 2^-149. -/
def Fp.scaled : Fp → Int
  | .fin neg m e => (if neg then -1 else 1) * (m : Int) * (2 ^ (e + 149).toNat : Nat)
  | _ => 0

def fpAdd (a b : Word) : Word :=
  match fpDec a, fpDec b with
  | .nan, _ => fpNaN 0 a b
  | _, .nan => fpNaN 0 a b
  | .inf s, .inf t => if s = t then fpInf s else fpNaN 0 a b
  | .inf s, _ => fpInf s
  | _, .inf t => fpInf t
  | .zero s, .zero t => fpZero (s && t)
  | x, y =>
    let z := x.scaled + y.scaled
    if z = 0 then fpZero false else fpOfRatio z (2 ^ 149)

def fpNeg (a : Word) : Word := setBit a 31 (!bit a 31)
def fpAbs (a : Word) : Word := setBit a 31 false
def fpSub (a b : Word) : Word := fpAdd a (fpNeg b)

/-- The sign of a finite or infinite value. -/
def Fp.neg : Fp → Bool
  | .nan => false
  | .inf s => s
  | .zero s => s
  | .fin s _ _ => s

def fpMul (a b : Word) : Word :=
  let x := fpDec a
  let y := fpDec b
  let s := x.neg != y.neg
  match x, y with
  | .nan, _ => fpNaN 1 a b
  | _, .nan => fpNaN 1 a b
  | .inf _, .zero _ => fpNaN 1 a b
  | .zero _, .inf _ => fpNaN 1 a b
  | .inf _, _ => fpInf s
  | _, .inf _ => fpInf s
  | .zero _, _ => fpZero s
  | _, .zero _ => fpZero s
  | .fin _ m e, .fin _ n f =>
    let k := e + f
    if k ≥ 0 then fpRound s (m * n * 2 ^ k.toNat) 1 else fpRound s (m * n) (2 ^ (-k).toNat)

/-- Division: x/0 is an infinity, 0/0 is NaN (R242). -/
def fpDiv (a b : Word) : Word :=
  let x := fpDec a
  let y := fpDec b
  let s := x.neg != y.neg
  match x, y with
  | .nan, _ => fpNaN 2 a b
  | _, .nan => fpNaN 2 a b
  | .inf _, .inf _ => fpNaN 2 a b
  | .zero _, .zero _ => fpNaN 2 a b
  | .inf _, _ => fpInf s
  | _, .inf _ => fpZero s
  | .zero _, _ => fpZero s
  | _, .zero _ => fpInf s
  | .fin _ m e, .fin _ n f =>
    let k := e - f
    if k ≥ 0 then fpRound s (m * 2 ^ k.toNat) n else fpRound s m (n * 2 ^ (-k).toNat)

/-- Integer square root by bisection on bits, `fuel` bits high. -/
def isqrtAux : Nat → Nat → Nat → Nat
  | 0, _, r => r
  | k + 1, n, r => if (r + 2 ^ k) * (r + 2 ^ k) ≤ n then isqrtAux k n (r + 2 ^ k) else isqrtAux k n r

/-- floor (sqrt n). -/
def isqrt (n : Nat) : Nat := isqrtAux (Nat.log2 n / 2 + 1) n 0

/-- Square root, rounded to nearest; a negative operand gives NaN (R242), a zero itself. -/
def fpSqrt (a : Word) : Word :=
  match fpDec a with
  | .nan => fpNaN 3 a a
  | .zero s => fpZero s
  | .inf s => if s then fpNaN 3 a a else fpInf false
  | .fin s m e =>
    if s then fpNaN 3 a a
    else
      -- m * 2^e = M * 2^(2h) with M scaled to about 2^74, then a sticky bit
      let ev : Int := if e % 2 = 0 then e else e - 1
      let m' := if e % 2 = 0 then m else 2 * m
      let big := m' * 2 ^ 50
      let r := isqrt big
      let sticky := if r * r = big then 0 else 1
      let h : Int := ev / 2 - 25
      let n := 2 * r + sticky
      let k := h - 1
      if k ≥ 0 then fpRound false (n * 2 ^ k.toNat) 1 else fpRound false n (2 ^ (-k).toNat)

/-- Comparison key of a number that is not NaN. -/
def Fp.key : Fp → Int
  | .inf s => if s then -(2 ^ 300 : Nat) else (2 ^ 300 : Nat)
  | x => x.scaled

/-- Every comparison with a NaN gives 0 (R242). -/
def fpLt (a b : Word) : Bool := !isNaN a && !isNaN b && decide ((fpDec a).key < (fpDec b).key)
def fpLe (a b : Word) : Bool := !isNaN a && !isNaN b && decide ((fpDec a).key ≤ (fpDec b).key)

/-- MINF and MAXF return the operand that is not NaN, and NaN only when both are (R242); of +0 and -0, either. -/
def fpPick (op : Nat) (takeB : Bool) (a b : Word) : Word :=
  if isNaN a then (if isNaN b then fpNaN (4 + op) a b else b)
  else if isNaN b then a
  else if a ≠ b ∧ (fpDec a).key = (fpDec b).key then (if Config.zeroPick op a b then b else a)
  else if takeB then b else a
def fpMin (a b : Word) : Word := fpPick 0 (fpLt b a) a b
def fpMax (a b : Word) : Word := fpPick 1 (fpLt a b) a b

/-- A subnormal pattern taken as zero of the same sign (R242). -/
def fpFlush (a : Word) : Word := match fpDec a with
  | .zero s => fpZero s
  | _ => a

/-- int32 to binary32, rounded to nearest (ITOF). -/
def fpOfInt (x : Int) : Word := fpOfRatio x 1

/-- binary32 to int32: nearest, ties to even, saturating; NaN gives 0 (FTOI). -/
def fpToInt (a : Word) : Int :=
  match fpDec a with
  | .nan => 0
  | .zero _ => 0
  | .inf s => if s then -(2 ^ 31 : Nat) else (2 ^ 31 : Nat) - 1
  | x => clampInt (-(2 ^ 31 : Nat)) ((2 ^ 31 : Nat) - 1) (roundEven x.scaled (2 ^ 149))

/-- The exact rational that a finite pattern denotes (0 for the others). -/
def fpRat (a : Word) : Rat := mkRat (fpDec a).scaled (2 ^ 149)

end Sys2Proof
end

