-- ==== Sys2Proof/Machine/Reals.lean ====
section
/-!
DEFINITION. Sys2Proof/Machine/Reals.lean: the real functions that the chapters use and a machine can only approach: each is its
value to more than 40 bits plus a deviation of the device's own, which is free within a bound (R107, R138, R152, R175, R182;
assumption log 4).
-/
namespace Sys2Proof.Machine

/-- A deviation held to a bound. -/
def within (e d : Rat) : Rat := max (-e) (min e d)

/-- x with the device's relative deviation of at most e in function `fn`. -/
def relDev (fn : Nat) (e x a b : Rat) : Rat := x + x * within e (Config.deviation fn a b)

/-- The bound on a function's deviation: half a place of binary32. -/
def ulpHalf : Rat := mkRat 1 (2 ^ 24)

/-- Pi, with at least 40 bits (R107). -/
def piR : Rat := mkRat 314159265358979323846 (10 ^ 20) + within (mkRat 1 (2 ^ 40)) (Config.deviation 0 0 0)

/-- Square root; of zero it is zero. -/
def sqrtR (x : Rat) : Rat :=
  if x ≤ 0 then 0
  else relDev 1 ulpHalf (mkRat (Nat.sqrt (x.num.toNat * x.den * 4 ^ 48)) (x.den * 2 ^ 48)) x 0

/-- Powers of z from n on, two exponents apart, each divided by what `den` gives for it and with the sign of `sgn`. -/
def seriesSum (z : Rat) (den : Nat → Nat) (alt : Bool) (first terms : Nat) : Rat :=
  (List.range terms).foldl (fun a i =>
    let e := first + 2 * i
    a + (if alt && i % 2 == 1 then -1 else 1) * z ^ e / (den e : Rat)) 0

def factorial : Nat → Nat
  | 0 => 1
  | n + 1 => (n + 1) * factorial n

/-- An angle brought into the half-open range of one turn around zero. -/
def oneTurn (t : Rat) : Rat := t - 2 * piR * (((t - piR) / (2 * piR)).ceil : Int)

/-- Cosine and sine. -/
def cosR (t : Rat) : Rat := max (-1) (min 1 (seriesSum (oneTurn t) factorial true 0 14 + within ulpHalf (Config.deviation 2 t 0)))
def sinR (t : Rat) : Rat := max (-1) (min 1 (seriesSum (oneTurn t) factorial true 1 14 + within ulpHalf (Config.deviation 3 t 0)))

/-- Arctangent of a number of magnitude at most 1: the angle halved twice, then the series. -/
def atanUnit (z : Rat) : Rat :=
  let root := fun (x : Rat) => mkRat (Nat.sqrt (x.num.toNat * x.den * 4 ^ 48)) (x.den * 2 ^ 48)
  let h := fun (z : Rat) => z / (1 + root (1 + z * z))
  4 * seriesSum (h (h z)) id true 1 12

/-- The angle of (x, y) in (-pi, pi], y first; of zero it is not stated, and free. -/
def atan2R (y x : Rat) : Rat :=
  let ay := if y < 0 then -y else y
  let ax := if x < 0 then -x else x
  let q := if ax = 0 ∧ ay = 0 then Config.deviation 4 0 0
    else if ay ≤ ax then atanUnit (ay / ax) else piR / 2 - atanUnit (ax / ay)
  let t := if x < 0 then piR - q else q
  oneTurn ((if y < 0 then -t else t) + within ulpHalf (Config.deviation 5 y x))

/-- The natural logarithm of two, to 66 bits. -/
def ln2 : Rat := mkRat 69314718055994530942 (10 ^ 20)

/-- Natural logarithm of x > 0: x is brought near 1 by a power of two. -/
def logR (x : Rat) : Rat :=
  let k : Int := (Nat.log2 x.num.toNat : Int) - (Nat.log2 x.den : Int)
  let m := if 0 ≤ k then x / ((2 ^ k.toNat : Nat) : Rat) else x * ((2 ^ (-k).toNat : Nat) : Rat)
  (k : Rat) * ln2 + 2 * seriesSum ((m - 1) / (m + 1)) id false 1 20 + within ulpHalf (Config.deviation 6 x 0)

/-- The exponential without its deviation. -/
def expPlain (x : Rat) : Rat :=
  let k := (x / ln2).floor
  let f := x - k * ln2
  let s := (List.range 16).foldl (fun a i => a + f ^ i / (factorial i : Rat)) 0
  if 0 ≤ k then s * ((2 ^ k.toNat : Nat) : Rat) else s / ((2 ^ (-k).toNat : Nat) : Rat)

def expR (x : Rat) : Rat := relDev 7 (4 * ulpHalf) (expPlain x) x 0

/-- x to the power y, for x > 0; the first and second powers are exact. -/
def powR (x y : Rat) : Rat :=
  if y = 1 then x else if y = 2 then x * x else relDev 8 (4 * ulpHalf) (expPlain (y * logR x)) x y

/-- How the integrator's state is carried: at least 40 bits, of which 24 stand before the point (R107). -/
def carry40 (x : Rat) : Rat := x + within (mkRat 1 (2 ^ 16)) (Config.deviation 9 x 0)

/-- How a resampled value is carried: at least 40 bits, of which 33 stand before the point (R340). -/
def carrySv (x : Rat) : Rat := x + within (mkRat 1 (2 ^ 7)) (Config.deviation 11 x 0)

/-- How theta is carried: at least 48 bits, of which at most 8 stand before the point (R182). -/
def carry48 (x : Rat) : Rat := x + within (mkRat 1 (2 ^ 40)) (Config.deviation 10 x 0)

/-- A positive real num / den in binary32: itself where it is one, else one of its neighbours; below the normal numbers zero or the
least of them, beyond the greatest that or an infinity. -/
def f32Pos (neg : Bool) (num den : Nat) (up : Bool) : Word :=
  let e0 : Int := (Nat.log2 num : Int) - (Nat.log2 den : Int)
  let below : Bool := if e0 ≥ 0 then num < den * 2 ^ e0.toNat else num * 2 ^ (-e0).toNat < den
  let e : Int := max (-126) (if below then e0 - 1 else e0)
  let sh : Int := 23 - e
  let n := if sh ≥ 0 then num * 2 ^ sh.toNat else num
  let d := if sh ≥ 0 then den else den * 2 ^ (-sh).toNat
  let q := n / d
  let q := if n % d ≠ 0 ∧ up = true then q + 1 else q
  if q < 2 ^ 23 then (if n % d ≠ 0 ∧ up = true then BitVec.ofNat 32 (neg.toNat * 2 ^ 31 + 2 ^ 23) else fpZero neg)
  else if q = 2 ^ 24 then (if e = 127 then fpInf neg else BitVec.ofNat 32 (neg.toNat * 2 ^ 31 + (e + 128).toNat * 2 ^ 23))
  else if 127 < e then fpInf neg
  else BitVec.ofNat 32 (neg.toNat * 2 ^ 31 + (e + 127).toNat * 2 ^ 23 + (q - 2 ^ 23))

/-- The binary32 value the device gives for a real result (R138). -/
def f32 (x : Rat) : Word :=
  if x = 0 then fpZero false else f32Pos (decide (x < 0)) x.num.natAbs x.den (Config.roundUp x)

end Sys2Proof.Machine
end

