-- ==== Sys2Proof/Machine/Triad.lean ====
section
/-!
DEFINITION. Sys2Proof/Machine/Triad.lean: the frame input image (R213-R215), voters' reports and verdicts (R217-R225,
R229), self-test, sweep and heel: rows COMMIT_UNIT, INGRESS_AGREEMENT, VOTER_SELF_TEST, LATENT_DIVERGENCE_SWEEP,
HEEL_REQUEST, HEEL_CHECK, HEEL_COPY_DONE, HEEL_PROBATION_END.
-/
namespace Sys2Proof.Machine

/-! ### The image -/

/-- Word i of the image's header (R459): what the boundary that began the frame gave; none of it changes within a frame but
ENG_TSTAT, which is kept in the image. -/
def State.headWord (s : State) (i : Nat) : Word :=
  match i with
  | 0 => s.rd Reg.ENG_FRAME
  | 1 => BitVec.ofNat 32 (s.fld Reg.ENG_FSEC 13 0)
  | 2 => BitVec.ofNat 32 s.time.frTb
  | 3 => BitVec.ofNat 32 s.time.frNsec
  | 4 => BitVec.ofNat 32 s.time.frSec
  | 5 => BitVec.ofNat 32 (s.time.frSec / 2 ^ 32 % 2 ^ 16 + 2 ^ 16 * (s.time.frWrap % 256))
  | 6 => s.rd Reg.SYS_MODE
  | 7 => sget (fun _ => 0#32) s.triad.image 7
  | _ => 0#32

/-- The header takes ENG_TSTAT as it stands at the boundary (R459). -/
def State.latchTstat (s : State) : State :=
  { s with triad := { s.triad with image := sset (fun _ => 0#32) s.triad.image 7 (s.rd Reg.ENG_TSTAT) } }

/-- Word i of the image as its units left it (R213, R214). -/
def State.rawImg (s : State) (i : Nat) : Word := if i < 16 then s.headWord i else sget (fun _ => 0#32) s.triad.image i

/-- The value of a force of a kind on an index, in any partition (R251). -/
def State.forced (s : State) (kind idx : Nat) : Option Word :=
  ((List.range 4).flatMap (fun p => (s.part p).forces)).findSome? (fun f =>
    if f.kind = kind ∧ f.index = idx then some f.value else none)

/-- A stage-A-rate word under a force of kind 5: VAL with U = 0, O = 0, S = 1, SRC = 2, T as delivered (R251). -/
def forcedWord (w v : Word) : Word := BitVec.ofNat 32 (2 * 2 ^ 28 + b2n (bit w 27) * 2 ^ 27 + 2 ^ 26 + field v 23 0)

/-- Debounced states of inputs 32k to 32k + 31 under forces of kind 3 (R251, R362). -/
def State.forcedDi (s : State) (k : Nat) (w : Word) : Word :=
  (List.range 32).foldl (fun w j => match s.forced 3 (32 * k + j) with
    | some v => setBit w j (bit v 0)
    | none => w) w

/-- Word i of the image that the jobs of this frame read (R213), forces included (R251). -/
def State.img (s : State) (i : Nat) : Word :=
  let w := s.rawImg i
  if 16 ≤ i ∧ i < 400 then
    (match s.forced 5 (i - 16) with
     | some v => forcedWord w v
     | none => w)
  else if i = 0xDD8 ∨ i = 0xDD9 then s.forcedDi (i - 0xDD8) w
  else w

/-- A source delivers one commit unit: words of the image from word i on (R214). -/
def State.deliver (s : State) (i : Nat) (ws : List Word) : State :=
  { s with triad := { s.triad with units := s.triad.units ++ [(i, ws)] } }

/-- An image buffer with words written from word i on. -/
def imgPut (im : List (Nat × Word)) (i : Nat) (ws : List Word) : List (Nat × Word) :=
  (ws.zipIdx).foldl (fun m e => sset (fun _ => 0#32) m (i + e.2) e.1) im

/-- The bytes of block i of the image. -/
def State.imgBlock (s : State) (i : Nat) : List Byte := (List.range 16).flatMap (fun j => wordBytes (s.img (16 * i + j)))

/-- The signature of an image copy (R215). -/
def State.imgSig (s : State) : BitVec 64 :=
  (List.range 512).foldl (fun a i => a ^^^ crc64 (bytesLE 2 i ++ s.imgBlock i)) 0#64

/-- COMMIT_UNIT: the oldest delivered unit becomes visible in the open buffer at one commit edge (R214). -/
def execCommitUnit (s : State) : R :=
  match s.triad.units with
  | [] => .next s
  | u :: rest => .next { s with triad := { s.triad with next := imgPut s.triad.next u.1 u.2, units := rest } }

/-! ### Working state -/

/-- Whether member m (0 A, 1 B, 2 C) is active (R216). -/
def State.active (s : State) (m : Nat) : Bool := s.flag Reg.ENG_TSTAT m

/-- Whether voter y (0-2) is not excluded. -/
def State.voterOn (s : State) (y : Nat) : Bool := s.flag Reg.ENG_TSTAT (4 + y)

/-- The active members. -/
def State.members (s : State) : List Nat := (List.range 3).filter s.active

/-- One member is excluded (R223). -/
def State.isM2 (s : State) : Bool := s.fld Reg.ENG_TSTAT 2 0 != 7

/-- One voter is excluded (R223). -/
def State.isV2 (s : State) : Bool := s.fld Reg.ENG_TSTAT 6 4 != 7

/-- ENG_POLICY = STRICT. -/
def State.strict (s : State) : Bool := s.flag Reg.ENG_POLICY 0

/-- A triad record (R229): every log and the kennel; vector 5. -/
def State.triadRecord (s : State) (kind member voter outcome cycle detail mode cause : Nat) : State :=
  (s.post 0x18 (srcOf 0 0) (bytesLE 1 kind ++ bytesLE 1 member ++ bytesLE 1 voter ++ bytesLE 1 outcome ++ s.frameBytes
    ++ bytesLE 4 cycle ++ bytesLE 2 detail ++ bytesLE 1 mode ++ bytesLE 1 cause) everyLog true).causeAll 5

/-! ### Verdicts -/

/-- A verdict (R223): a member disagrees (D), diverges latently (L), voters fail, no majority by transaction or ingress
(N), or by the sweep. -/
inductive Verdict where
  | member (x : Nat)
  | latent (x : Nat)
  | voter (y : Nat)
  | voters (y z : Nat)
  | noMaj
  | latentNoMaj
deriving DecidableEq, Repr

/-- What follows from a verdict: nothing, an exclusion, or SAFE with its cause (R223). A SAFE already decided for the coming
boundary counts as SAFE (assumption log 21). -/
inductive Consequence where
  | counted
  | excludeMember (x : Nat)
  | excludeVoter (y : Nat)
  | safe (cause : Nat)
deriving DecidableEq, Repr

/-- The table of R223. -/
def State.consequence (s : State) (v : Verdict) : Consequence :=
  if s.mode = mSAFE ∨ s.run.safeNext.isSome then .counted
  else if s.isM2 then
    match v with
    | .latent _ | .latentNoMaj => .safe 4
    | .member _ | .noMaj | .voter _ | .voters _ _ => .safe 1
  else if s.isV2 then
    match v with
    | .member _ | .noMaj => .safe (if s.strict then 2 else 1)
    | .latent _ | .latentNoMaj => .safe 4
    | .voter _ | .voters _ _ => .safe 3
  else
    match v with
    | .member x => if s.strict then .safe 2 else .excludeMember x
    | .latent x => if s.strict then .safe 4 else .excludeMember x
    | .voter y => .excludeVoter y
    | .noMaj => .safe (if s.strict then 2 else 1)
    | .latentNoMaj => .safe 4
    | .voters _ _ => .safe 3

/-- MEMBER and VOTER of the record of a verdict (R229). -/
def Verdict.named : Verdict → Nat × Nat
  | .member x | .latent x => (x + 1, 0)
  | .voter y => (0, y + 1)
  | .voters y z => (0, y + 1 + 16 * (z + 1))
  | .noMaj | .latentNoMaj => (0, 0)

/-- A verdict takes effect: exclusion or SAFE, FAULT_N, counters, ENG_FAULT and the record (R223-R225, R229, R230). -/
def State.verdict (s : State) (v : Verdict) (kind cycle detail : Nat) : State :=
  let c := s.consequence v
  let n := v.named
  let lat := match v with
    | .latent _ | .latentNoMaj => true
    | _ => false
  let t := if lat then s.satFld Reg.ENG_XCNT 15 8 1 else s
  -- a transaction without a majority is dropped in SAFE; the image (detail 5) is no transaction of R217
  let drop := match v, c with
    | .noMaj, .counted => detail != 5
    | _, _ => false
  let t := if drop then t.satFld Reg.ENG_XCNT 7 0 1 else t
  let t := match c with
    | .counted => t
    | .excludeMember x => ((t.setFlag Reg.ENG_TSTAT x false).satFld Reg.ENG_XCNT 31 24 1).toDegraded
    | .excludeVoter y => ((t.setFlag Reg.ENG_TSTAT (4 + y) false).satFld Reg.ENG_XCNT 23 16 1).toDegraded
    | .safe k => t.toSafe k
  let out := match c with
    | .counted => 0
    | .excludeMember _ | .excludeVoter _ => 1
    | .safe _ => 2
  let mode := match c with
    | .counted => s.mode
    | .excludeMember _ | .excludeVoter _ => mDEGRADED
    | .safe _ => mSAFE
  let cause := match c with
    | .safe k => k
    | _ => 0
  let t := t.wr Reg.ENG_FAULT (BitVec.ofNat 32
    (kind * 2 ^ 28 + out * 2 ^ 24 + n.2 % 16 * 2 ^ 20 + n.1 * 2 ^ 18 + detail % 65536))
  let t := (t.wr Reg.ENG_FAULT_FRAME (s.rd Reg.ENG_FRAME)).wr Reg.ENG_FAULT_CYC (BitVec.ofNat 32 (cycle % 131072))
  t.triadRecord kind n.1 n.2 out cycle detail mode cause

/-- The reports of the active voters on a transaction: the voter and the member it names (R219). -/
def State.reports (s : State) (v : Voting) : List (Nat × Nat) :=
  ([v.n1, v.n2, v.n3].zipIdx).filterMap (fun e =>
    match e.1 with
    | some x => if s.voterOn e.2 && s.active x.val then some (e.2, x.val) else none
    | none => none)

/-- The judgement of the three voters' reports (R219), and whether the transaction is committed: only where two voters deliver alike
(R218, R223, R224). In M2 a difference is a no-majority verdict. -/
def State.vote (s : State) (v : Voting) (cls : Nat) : State × Bool :=
  let rs := s.reports v
  let t1 : State × Bool :=
    if v.noMaj then (s.verdict .noMaj 7 v.cycle cls, false)
    else if s.isM2 = true ∧ 2 ≤ rs.length then (s.verdict .noMaj 7 v.cycle cls, false)
    else match rs with
      | [] => (s, true)
      | [(y, _)] => (s.verdict (.voter y) 6 v.cycle cls, true)
      | (y, a) :: (z, b) :: rest =>
        match rest with
        | [] => if a = b then (s.verdict (.member a) 1 v.cycle cls, true)
          else (s.verdict (.voters y z) 6 v.cycle cls, true)
        | (w, c) :: _ =>
          if a = b ∧ b = c then (s.verdict (.member a) 1 v.cycle cls, true)
          else if a = b then (s.verdict (.voter w) 6 v.cycle cls, true)
          else if a = c then (s.verdict (.voter z) 6 v.cycle cls, true)
          else if b = c then (s.verdict (.voter y) 6 v.cycle cls, true)
          else (s.verdict (.voters y z) 6 v.cycle cls, true)
  match v.diff with
  | some y =>
    if t1.1.voterOn y.val then
      ((t1.1.satFld Reg.ENG_DRVSTAT 15 0 1).verdict (.voter y.val) 6 v.cycle cls, t1.2 && !v.apart && !s.isV2)
    else (t1.1, t1.2 && !v.apart)
  | none => (t1.1, t1.2 && !v.apart)

/-! ### Ingress agreement -/

/-- The value at least two of a list's entries share, and the index of the one that differs, for three entries. -/
def oddOne (l : List (Nat × BitVec 64)) : Option (Nat × BitVec 64) :=
  match l with
  | [(i, a), (j, b), (k, c)] => if a = b ∧ b ≠ c then some (k, a) else if a = c ∧ b ≠ c then some (j, a)
    else if b = c ∧ a ≠ c then some (i, b) else none
  | _ => none

/-- Whether all entries are equal. -/
def allSame (l : List (Nat × BitVec 64)) : Bool :=
  match l with
  | [] => true
  | (_, a) :: rest => rest.all (fun e => e.2 == a)

/-- The agreed image is released: its signature is shown (R216). -/
def State.release (s : State) (g : BitVec 64) : State :=
  (s.wr Reg.ENG_ISIG_LO (g.setWidth 32)).wr Reg.ENG_ISIG_HI ((g >>> 32).setWidth 32)

/-- No image is released in the present frame (R216). -/
def State.withhold (s : State) : State := { s with triad := { s.triad with held := true } }

/-- The agreement of a frame on its image (R44, R216). `first` and `second` are the corruptions of the members' copies before and after the recopy:
a member's signature is that of the closed image, XORed with its entry (assumption log 5). -/
def State.ingress (s : State) (first second : List (BitVec 64)) (cycle : Nat) : R :=
  let s := { s with triad := { s.triad with turn := if s.triad.tested then 2 else 1 } }
  let g := s.imgSig
  let sig := fun (l : List (BitVec 64)) m => (m, g ^^^ nth 0#64 l m)
  let a := s.members.map (sig first)
  if allSame a then .next (s.release (nth (0, g) a 0).2)
  else
    let x := (oddOne a).map Prod.fst
    let b := match x with
      | some m => a.map (fun e => if e.1 = m then sig second m else e)
      | none => s.members.map (sig second)
    if allSame b then
      let m := match x with
        | some m => m + 1
        | none => 0
      .next (((s.satFld Reg.ENG_IAGR 31 16 1).triadRecord 2 m 0 0 cycle 5 s.mode 0).release (nth (0, g) b 0).2)
    else match oddOne b with
      | some (m, v) => .next (((s.satFld Reg.ENG_IAGR 15 0 1).verdict (.member m) 3 cycle 5).release v)
      | none => .next ((s.satFld Reg.ENG_IAGR 15 0 1).verdict .noMaj 7 cycle 5).withhold

/-! ### Self-test and sweep -/

/-- VOTER_SELF_TEST (R44, R221), once a frame, after the image is agreed where a plan runs: `wrong` says, for each of the three checkers, which voters it found a wrong result of. -/
def execVoterSelfTest (wrong : List (List Bool)) (cycle : Fin 131072) (s : State) : R :=
  if s.triad.tested = true ∨ (if s.planRuns then s.triad.turn ≠ 1 else s.mode ≠ mSAFE) then .next s
  else
    let s := { s with triad := { s.triad with tested := true, turn := if s.planRuns then 2 else s.triad.turn } }
    let failed := (List.range 3).filter (fun y => 2 ≤ (wrong.filter (fun c => nth false c y)).length)
    let mask := failed.foldl (fun a y => a + 2 ^ y) 0
    let t := s.setFld Reg.ENG_VTEST 2 0 mask
    if failed.isEmpty then .next t
    else
      let t := t.setFld Reg.ENG_VTEST 18 16 (t.fld Reg.ENG_VTEST 18 16 ||| mask)
      let t := t.setFlag Reg.ENG_VTEST 31 true
      let t := { t with triad := { t.triad with vfail := some t.frame } }
      match failed.filter t.voterOn with
      | [] => .next t
      | [y] => .next (t.verdict (.voter y) 5 cycle.val 6)
      | y :: z :: _ => .next (t.verdict (.voters y z) 5 cycle.val 6)

/-- Whether a member is swept: a heeled member first in the hyperperiod after its re-admission (R228). -/
def State.sweeps (s : State) (m : Nat) : Bool :=
  match s.triad.sweepNot with
  | some (x, f) => !(x == m + 1) || frameReached s.frame f
  | none => true

/-- The words of a member's local SRAM, region m, that the slice of the present slot covers (R222, R396). -/
def State.sliceWords (s : State) : List Nat := (List.range 2048).map (fun i => 2048 * s.slot + i)

/-- A member's hash of the slice, read through the check (R222). -/
def State.sliceHash (s : State) (m : Nat) : BitVec 64 :=
  (List.range 128).foldl (fun a i =>
    a ^^^ crc64 (bytesLE 2 i ++ (List.range 16).flatMap (fun j => wordBytes (s.rdMem m (2048 * s.slot + 16 * i + j)).1))) 0#64

/-- Whether the slice of a member holds an uncorrectable word. -/
def State.sliceBad (s : State) (m : Nat) : Bool := s.sliceWords.any (fun w => (s.rdMem m w).2)

/-- The verdict on the hashes of the swept members, if any: those whose slice is uncorrectable diverge; of the others, the odd one of
three (R222). -/
def latentVerdict (a : List (Nat × BitVec 64)) (bad : List Nat) : Option Verdict :=
  let good := a.filter (fun e => !bad.contains e.1)
  match bad with
  | [] => if allSame a then none else some (match oddOne a with
    | some (m, _) => .latent m
    | none => .latentNoMaj)
  | [x] => if a.length = 3 ∧ allSame good = true then some (.latent x) else some .latentNoMaj
  | _ => some .latentNoMaj

/-- LATENT_DIVERGENCE_SWEEP, once a frame, after every G job (R44, R222): `first` holds, per member, how what it hashes differs
from its local SRAM as the model holds it (assumption log 5). -/
def execLatentDivergenceSweep (first : List (BitVec 64)) (cycle : Fin 131072) (s : State) : R :=
  if s.planRuns = false ∨ (s.triad.turn ≠ 3 ∧ (s.triad.turn ≠ 2 ∨ s.triad.held = false)) then .next s
  else
    let ms := s.members.filter s.sweeps
    let a := ms.map (fun m => (m, s.sliceHash m ^^^ nth 0#64 first m))
    let bad := ms.filter s.sliceBad
    let s := ms.foldl (fun s m => s.noteReads m 8 s.sliceWords) s
    let t := (s.setFld Reg.ENG_SWEEP 7 0 s.slot).setFlag Reg.ENG_SWEEP 8 true
    let t := if s.slot = 255 then t.incFld Reg.ENG_SWEEP 31 16 else t
    let t := { t with triad := { t.triad with swept := true, turn := 4 } }
    .next (match latentVerdict a bad with
      | some v => t.verdict v 4 cycle.val s.slot
      | none => t)

/-! ### Heel -/

/-- rsv bits of ENG_HEEL. -/
def heelRsv : Word := 0x3000FFCE#32

/-- The action of a write of ENG_HEEL: MEMBER is stored; GO = 1 places a request (R226). -/
def wrHeel (p : Port) (v : Word) (s : State) : State :=
  let t := s.setFld Reg.ENG_HEEL 5 4 (field v 5 4)
  if bit v 0 then (t.setFlag Reg.ENG_HEEL 31 true).placeAll Reg.ENG_HEEL v p else t

/-- HEEL_REQUEST: a write of ENG_HEEL with GO = 1 (R226). -/
def execHeelRequest (p : Port) (v : Word) (s : State) : R :=
  gate s p .engine .global heelRsv Reg.ENG_HEEL (v ||| 1#32) (wrHeel p)

/-- The code of a heel request (R226; the order of the checks is of assumption log 22). -/
def State.heelCode (s : State) (m : Nat) : Nat :=
  if s.mode ≠ mDEGRADED then 1
  else if m = 0 then 2
  else if s.isV2 then 3
  else if s.active (m - 1) then 2
  else if s.flag Reg.ENG_HEEL 30 then 4
  else 0

/-- HEEL_CHECK (R226): the request is checked at the start of frame f + 3. -/
def execHeelCheck (s : State) : R :=
  match s.due Reg.ENG_HEEL with
  | some r =>
    let m := field r.value 5 4
    let c := s.heelCode m
    let t := s.setReq Reg.ENG_HEEL none
    let t := t.setFlag Reg.ENG_HEEL 31 (t.req Reg.ENG_HEEL).isSome
    let t := t.setFld Reg.ENG_HEEL 27 24 c
    if c = 0 then
      let t := (t.setFlag Reg.ENG_HEEL 30 true).setFld Reg.ENG_HEEL 23 16 0
      let t := t.setFlag Reg.ENG_TSTAT 8 true
      let t := { t with triad := { t.triad with heelFrom := r.due, heelM := m } }
      .next (t.triadRecord 8 m 0 3 0 0 t.mode 0).latchTstat
    else .next t
  | none => .next s

/-- A heel ends in probation or is abandoned: code 5 or 6, its record (R226, R227, R229). -/
def State.heelEnds (s : State) (code outcome cycle : Nat) : State :=
  let t := (s.setFlag Reg.ENG_HEEL 30 false).setFld Reg.ENG_HEEL 27 24 code
  let t := (t.setFlag Reg.ENG_TSTAT 8 false).setFlag Reg.ENG_TSTAT 9 false
  let t := { t with run := { t.run with healedNext := false } }
  t.triadRecord 8 s.triad.heelM 0 outcome cycle 0 t.mode 0

/-- The listed words of a region from `lo` on, `n` of them. -/
def State.listedWords (s : State) (region lo n : Nat) : List Nat :=
  (s.mem.filterMap (fun c =>
    let w := (c.1 - region * 2 ^ 36) / 5
    if region * 2 ^ 36 ≤ c.1 ∧ lo ≤ w ∧ w < lo + n then some w else none)).eraseDups

/-- The copy engine copies n words of one member's local SRAM into another's, word for word with valid check bits; what cannot be read
travels poisoned (R227, R400). -/
def State.copySram (s : State) (src dst lo n : Nat) : State :=
  let ws := s.listedWords src lo n
  let old := s.listedWords dst lo n
  let t := old.foldl (fun t w => t.wrMem dst w 0#32) s
  ws.foldl (fun t w =>
    let r := s.rdMem src w
    if r.2 then t.poisonMem dst w r.1 else t.wrMem dst w r.1) t

/-- 32 KiB of a heel's copy, those of the frame that has ended (R227 step 1). -/
def State.heelStep (s : State) : State :=
  let k := (s.frame + 2 ^ 32 - s.triad.heelFrom - 1) % 2 ^ 32
  match s.members with
  | m :: _ => if s.flag Reg.ENG_TSTAT 8 = true ∧ k < 64 then s.copySram m (s.triad.heelM - 1) (8192 * k) 8192 else s
  | [] => s

/-- HEEL_COPY_DONE (R227 step 2): 64 frames have been copied; registers and image follow and probation begins. -/
def execHeelCopyDone (s : State) : R :=
  if s.flag Reg.ENG_TSTAT 8 = true ∧ 64 ≤ (s.frame + 2 ^ 32 - s.triad.heelFrom) % 2 ^ 32 then
    .next (((s.setFld Reg.ENG_HEEL 23 16 64).setFlag Reg.ENG_TSTAT 8 false).setFlag Reg.ENG_TSTAT 9 true).latchTstat
  else .next s

/-- HEEL_PROBATION_END (R227 steps 3, 4): a difference ends the heel with code 5; otherwise the member is re-admitted at the
start of the next frame (FRAME_BOUNDARY). -/
def execHeelProbationEnd (matched : Bool) (cycle : Fin 131072) (s : State) : R :=
  if s.flag Reg.ENG_TSTAT 9 = false then .next s
  else if matched then .next { s with run := { s.run with healedNext := true } }
  else .next (s.heelEnds 5 5 cycle.val)

/-- The heel completes at a boundary: the member is active again, the triad FULL, the heel record (R227 step 4). -/
def State.readmit (s : State) : State :=
  let m := s.triad.heelM
  let t := (s.setFlag Reg.ENG_TSTAT (m - 1) true).setFlag Reg.ENG_TSTAT 9 false
  let t := t.setFlag Reg.ENG_HEEL 30 false
  let t := { t with run := { t.run with healedNext := false }
                    triad := { t.triad with sweepNot := some (m, (s.frame / 256 + 1) * 256 % 2 ^ 32) } }
  t.triadRecord 8 m 0 4 0 0 (t.fld Reg.SYS_MODE 6 4) 0

/-- What a triad restart clears in ENG: exclusions and every counter (R67, R230). -/
def State.clearTriad (s : State) : State :=
  let t := (s.setFld Reg.ENG_TSTAT 2 0 7).setFld Reg.ENG_TSTAT 6 4 7
  let t := ((t.wr Reg.ENG_IAGR 0#32).wr Reg.ENG_XCNT 0#32).wr Reg.ENG_DRVSTAT 0#32
  let t := t.setFld Reg.ENG_SWEEP 31 16 0
  { t with triad := { t.triad with sweepNot := none } }

end Sys2Proof.Machine
end

