-- ==== Sys2Proof/Machine/Filter.lean ====
section
/-!
DEFINITION. Sys2Proof/Machine/Filter.lean: stage A, the Rogowski integrator, stage B and the thresholds (chapter 5): rows
INTEGRATOR_SETTLED, DEC_LANE_WRITE, DEC_LANE_APPLY, THRESHOLD_WRITE, THRESHOLD_APPLY.
-/
namespace Sys2Proof.Machine

/-- At a frame boundary: what forms the output of the frame that ends (R81, R103, R111). The count of outputs to mark runs down in
every frame, also of a lane that is disabled or whose pack is not ON; R111 does not say (DESIGN CHOICE, assumption log 59). -/
def State.formLane (s : State) (l : Nat) : State :=
  let k := Reg.DEC_LSTAT l
  let f := s.liveForm l
  (s.setFld k 7 4 (s.fld k 7 4 - 1)).modLane l (fun x => { x with form := f, restart := false })

/-! ### Stage A -/

/-- The sum of R100 over the newest-first codes. -/
def stageASum (base n : Nat) (xs : List (BitVec 16)) : Int :=
  (List.range n).foldl (fun a i => a + (Config.acoef (base + i)).toInt * (nth 0#16 xs i).toInt) 0

/-- Flags of a frame's codes, by strobe: bit 0 not settled, bit 2 replaced or under injection, bit 4 disabled (R196). -/
def codeFlags (f : LaneForm) (unset : Nat) (rep : List Bool) : List Nat :=
  let inj := 4 * b2n (f.inj != 0) + 16 * b2n (f.typ == 0)
  (List.range 128).map (fun n => b2n (decide (n < unset)) + ((4 * b2n (nth false rep n)) ||| inj))

/-- The flag of a strobe of which there is no code, because the pack is not ON (R195). -/
def noCode : Nat := 32

/-- The stage-A output of a local lane and the lane after it (R71, R82, R100, R102). The codes of the last frame in which the pack was
ON stay for the traveling-wave path, one frame behind (R195); those after it enter d as 0 (assumption log 38). -/
def stageA (x : LaneSt) : LaneSt :=
  let f := x.form
  if f.on = false then
    let gone := x.cfl.isEmpty || nth 0 x.cfl 0 == noCode
    { x with aOut := wordOffT f.t, repl := [], ovr := []
             raw := if gone then [] else (List.replicate 128 0#16 ++ x.raw).take 512
             cfl := if gone then [] else (List.replicate 128 noCode ++ x.cfl).take 512 }
  else
    let xs := x.old.reverse ++ x.raw
    let repl := x.oldRep.any id :: x.repl
    let ovr := x.old.any isMarker :: x.ovr
    let p := presetOf f.dec
    let n := unsettled p
    let c := clampVal (roundEven (stageASum (coefBase p (bit f.dec 4)) (taps p) xs) (2 ^ 22))
    let w := if f.typ = 0 then wordDisabled f.t
      else (Sample.mk (if f.inj = 1 ∨ f.inj = 2 then 3 else 0) f.t ((repl.take n).any id || f.inj != 0)
        ((ovr.take n).any id || c.2) f.u c.1).word
    { x with aOut := w, raw := xs.take 512, repl := repl.take 5, ovr := ovr.take 5
             cfl := ((codeFlags f x.unsetOld x.oldRep).reverse ++ x.cfl).take 512 }

/-! ### Integrator -/

/-- The integrator's coefficients a and K (R107). -/
def intA : Rat := 1 - 2 * piR * mkRat 1 160000
def intK (fref : Nat) : Rat := 2 * piR * (fref : Rat) * mkRat 1 16000

/-- After the 640th output the mean is subtracted from the state (R108). -/
def settleInt (x : LaneSt) : LaneSt :=
  if x.intPend then { x with y := x.y - x.ySum / 640, intPend := false } else x

/-- A local lane after the integrator: its stage-A-rate word and its count (R107-R109). Where the clamp acts on the word the state
keeps the value that was clamped; R107 does not say what y[f - 1] is then (DESIGN CHOICE, assumption log 59). -/
def integrate (x0 : LaneSt) : LaneSt :=
  let f := x0.form
  if f.on = false ∨ f.typ ≠ 2 ∨ f.inj ≠ 0 then { x0 with rate := x0.aOut, intRun := false, intPend := false, icnt := 0 }
  else
    let x := settleInt x0
    let a := sampleOf x.aOut
    if a.u || a.o then
      { x with rate := (Sample.mk a.src a.t a.s a.o true 0).word, intRun := false, y := 0, xPrev := 0, ySum := 0
               intPend := false, icnt := 640 }
    else
      let start := f.restart || !x.intRun
      let y0 := if start then 0 else x.y
      let xp := if start then 0 else x.xPrev
      let n := if start then 640 else x.icnt
      let y := carry40 (intA * y0 + intK (frefOf f.dec) * ((a.val + xp : Int) : Rat) / 2)
      let c := clampVal (nearestEven y)
      { x with rate := (Sample.mk a.src a.t a.s c.2 (decide (0 < n)) c.1).word, intRun := true, y := y, xPrev := a.val
               ySum := (if start then 0 else x.ySum) + (if 0 < n then y else 0)
               intPend := n == 1, icnt := n - 1 }

/-! ### Stage B -/

/-- Push a word into a stage's inputs. -/
def pushIn (st : List (List Word)) (j : Nat) (w : Word) : List (List Word) := modAt st j (fun l => (w :: l).take 7)

/-- The cascade of frame f: inputs of stages j, j + 1, ... after word w has entered stage j (0 for stage 1), and the outputs
produced, stage 1 first (R104). -/
def cascade (f : Nat) : Nat → Nat → List (List Word) → Word → List (List Word) × List (Nat × Word)
  | 0, _, st, _ => (st, [])
  | fuel + 1, j, st, w =>
    let st := pushIn st j w
    if f % 2 ^ (j + 1) = 2 ^ (j + 1) - 1 then
      let y := halfBand (nth [] st j)
      let r := cascade f fuel (j + 1) st y
      (r.1, (j + 1, y) :: r.2)
    else (st, [])

/-- Stage B of one lane (R104). After a change of BK the old stream stops and its last word holds until the new stream's first
(assumption log 59). -/
def stageB (f : Nat) (x : LaneSt) : LaneSt :=
  let r := cascade f 6 0 x.bst x.rate
  let k := bkOf x.form.dec
  let d := if k = 0 then some x.rate else (r.2.find? (fun e => e.1 == k)).map Prod.snd
  { x with bst := r.1, del := d.getD x.del, b6 := ((r.2.find? (fun e => e.1 == 6)).map Prod.snd).getD x.b6 }

/-! ### Thresholds -/

/-- The next state of a threshold, from its setting and the word (R113). -/
def threshold (set : Word) (w : Word) (st : Bool) : Bool :=
  let level := field set 23 0
  let hys := field set 31 24
  if level = 0 then false
  else if wordU w then st
  else if st then wordO w || decide ((level : Int) - 4096 * hys ≤ (wordVal w).natAbs)
  else wordO w || decide (level ≤ (wordVal w).natAbs)

/-- Both thresholds of a lane: states, edges, counts (R113). -/
def State.evalThresholds (s : State) (l : Nat) : State :=
  let x := s.lane l
  let k := Reg.DEC_TSTAT l
  if l < 256 ∧ x.form.on = false then s.setFld k 1 0 0
  else
    let one := fun (s : State) (i : Nat) (set : Word) =>
      let old := s.flag k i
      let new := threshold set x.rate old
      let t := s.setFlag k i new
      let t := if new && !old then (t.setFlag k (3 + i) true).incFld k (23 + 8 * i) (16 + 8 * i) else t
      if new = old ∨ field set 23 0 = 0 then t
      else { t with run := { t.run with edges := t.run.edges ++ [(l, i == 1, new)] } }
    one (one s 0 x.form.hi) 1 x.form.hh

/-! ### One frame -/

/-- Stage A, integrator, stage B and thresholds of one lane for frame f. ICNT reads 640 while a restart cause of the present frame
still waits for its own output (R108). -/
def State.filterLane (s : State) (f l : Nat) : State :=
  let x := s.lane l
  let k := Reg.DEC_LSTAT l
  if l < 256 then
    let y := stageB f (integrate (stageA x))
    let rog := x.form.on && x.form.typ == 2
    let t := ((s.setFld k 27 16 (if x.restart then 640 else y.icnt)).setFlag k 3 (rog && x.form.inj != 0)).setFlag k 2 (rog && x.form.inj == 0)
    ((t.modLane l (fun _ => y))).evalThresholds l
  else (s.modLane l (stageB f)).evalThresholds l

/-- Words of the HI and HH section of the image (R459). -/
def State.hiHhWords (s : State) : List Word :=
  (List.range 24).map (fun w => BitVec.ofNat 32 ((List.range 16).foldl (fun a i =>
    a + s.fld (Reg.DEC_TSTAT (16 * w + i)) 1 0 * 4 ^ i) 0))

/-- Stages A and B and the thresholds of every lane for frame f, and their commit units (R26, R213). -/
def State.filterFrame (s : State) (f : Nat) : State :=
  let t := { s with run := { s.run with edges := [] } }
  let t := (List.range 384).foldl (fun s l => s.filterLane f l) t
  ((t.deliver 16 (t.lanes.map (·.rate))).deliver 400 (t.lanes.map (·.del))).deliver 3520 t.hiHhWords

/-- INTEGRATOR_SETTLED: the 640 outputs are complete; the mean is subtracted (R108). -/
def execIntegratorSettled (lane : Fin 256) (s : State) : R := .next (s.modLane lane.val settleInt)

/-! ### Settings -/

/-- rsv bits of DEC_LANE: in virtual lanes PRESET, MINPH and FREF too (R116). -/
def decLaneRsv (l : Nat) : Word := if l < 256 then 0x7F00F8EC#32 else 0x7FFFF8FF#32

/-- The action of a write of DEC_LANE (R103). -/
def wrDecLane (l : Nat) (p : Port) (v : Word) (s : State) : State :=
  let k := Reg.DEC_LANE l
  ((s.wr k ((s.rd k &&& 0x80000000#32) ||| (v &&& 0x00FF0713#32))).setFlag k 31 true).place k v p

/-- DEC_LANE_WRITE (R103). -/
def execDecLaneWrite (p : Port) (lane : Fin 384) (v : Word) (s : State) : R :=
  gate s p .engine (.owned (s.laneOwner lane.val)) (decLaneRsv lane.val) (Reg.DEC_LANE lane.val) v
    (wrDecLane lane.val p)

/-- DEC_LANE as applied, with the marks of R110. PRESET 1 and 3 are one preset and no change between them marks; MINPH is ignored with
BALANCED and QUIET, and its change marks there too: R110 says neither (DESIGN CHOICE, assumption log 59). -/
def State.putDec (s : State) (l : Nat) (v : Word) : State :=
  let old := (s.lane l).dec
  let w := v &&& 0x00FF0713#32
  let t := s.modLane l (fun x => { x with dec := w })
  if 256 ≤ l then t
  else
    let pre := presetOf old != presetOf w || bit old 4 != bit w 4
    let t := if pre then (t.mark l (max (unsettled (presetOf old)) (unsettled (presetOf w)))) else t
    if pre || frefOf old != frefOf w then t.restartInt l else t

/-- DEC_LANE_APPLY (R103). -/
def execDecLaneApply (lane : Fin 384) (s : State) : R :=
  let l := lane.val
  match s.due (Reg.DEC_LANE l) with
  | some r =>
    let t := (s.setReq (Reg.DEC_LANE l) none).setFlag (Reg.DEC_LANE l) 31 false
    if s.permits then .next (t.putDec l r.value) else .next (t.setFlag (Reg.DEC_LSTAT l) 31 true)
  | none => .next s

/-- The register of a threshold. -/
def thrReg (l : Nat) (hh : Bool) : Nat := if hh then Reg.DEC_HH l else Reg.DEC_HI l

/-- The action of a write of DEC_HI or DEC_HH (R115). -/
def wrThreshold (l : Nat) (hh : Bool) (p : Port) (v : Word) (s : State) : State :=
  ((s.wr (thrReg l hh) v).setFlag (Reg.DEC_TSTAT l) 5 true).placeHyper (thrReg l hh) v p

/-- THRESHOLD_WRITE (R115). -/
def execThresholdWrite (p : Port) (lane : Fin 384) (hh : Bool) (v : Word) (s : State) : R :=
  gate s p .engine (.owned (s.laneOwner lane.val)) 0#32 (thrReg lane.val hh) v (wrThreshold lane.val hh p)

/-- THRESHOLD_APPLY: at the hyperperiod boundary the new LEVEL and HYS apply (R115). -/
def execThresholdApply (lane : Fin 384) (s : State) : R :=
  let l := lane.val
  let t := s.onDue (Reg.DEC_HI l) (fun s r => s.modLane l (fun x => { x with hi := r.value }))
  let t := t.onDue (Reg.DEC_HH l) (fun s r => s.modLane l (fun x => { x with hh := r.value }))
  if (t.req (Reg.DEC_HI l)).isNone ∧ (t.req (Reg.DEC_HH l)).isNone then .next (t.setFlag (Reg.DEC_TSTAT l) 5 false)
  else .next t

end Sys2Proof.Machine
end

