-- ==== Sys2Proof/Machine/Measure.lean ====
section
/-!
DEFINITION. Sys2Proof/Machine/Measure.lean: phasors, RMS, sequence components, powers, frequency tracking, harmonics and
synchrophasors (chapter 7): rows MSR_CFG_WRITE, MSR_CFG_APPLY, MSR_FRAME_READ, SYNCHROPHASOR_REPORT.
Values are exact rationals up to the device's own evaluation of circular functions and its rounding to binary32, which the
manual bounds and does not state (R152; assumption log 4).
-/
namespace Sys2Proof.Machine

/-- A complex value. -/
abbrev Cx := Rat × Rat

def cxAdd (a b : Cx) : Cx := (a.1 + b.1, a.2 + b.2)
def cxMul (a b : Cx) : Cx := (a.1 * b.1 - a.2 * b.2, a.1 * b.2 + a.2 * b.1)
def cxScale (k : Rat) (a : Cx) : Cx := (k * a.1, k * a.2)
def cxConj (a : Cx) : Cx := (a.1, -a.2)
def cxAbs (a : Cx) : Rat := sqrtR (a.1 * a.1 + a.2 * a.2)
def cxArg (a : Cx) : Rat := atan2R a.2 a.1
/-- e to the power j times an angle. -/
def cxExp (t : Rat) : Cx := (cosR t, sinR t)
def cxDiv (a b : Cx) : Cx := cxScale (1 / (b.1 * b.1 + b.2 * b.2)) (cxMul a (cxConj b))

/-- Two pi. -/
def twoPi : Rat := 2 * piR
/-- T_s = 62.5 us in seconds (R140). -/
def tS : Rat := mkRat 1 16000

/-- The full scale of a gain in volts (R77). -/
def fullScale (gain : Nat) : Rat := nth 5 [5, mkRat 5 4, mkRat 5 16, mkRat 5 64] gain

/-- The stream scaling of a virtual lane: 2^SHIFT_I mA, or 2^SHIFT_V x 10 mV, per VAL LSB (R338). -/
def State.streamScale (s : State) (l : Nat) : Rat :=
  let c := s.rd (Reg.PBX_SVCFG ((l - 256) / 8))
  if l % 8 < 4 then mkRat (2 ^ field c 19 16) 1000 else mkRat (2 ^ field c 23 20) 100

/-- A stage-B input word in primary units (R138). -/
def State.primary (s : State) (l : Nat) (w : Word × Nat) : Rat :=
  let v := mkRat (wordVal w.1) (2 ^ 23)
  let sc := fpRat (s.lane l).scale
  if l < 256 then v * fullScale w.2 * sc else (wordVal w.1 : Rat) * s.streamScale l * sc

/-- A word as a fraction of the lane's full scale at its newest gain (R147). -/
def fraction (l gain : Nat) (w : Word × Nat) : Rat :=
  let v := mkRat (wordVal w.1) (2 ^ 23)
  if l < 256 then v * fullScale w.2 / fullScale gain else v

/-- The group delay of a preset in seconds (R101). -/
def groupDelay (dec : Word) : Rat :=
  match presetOf dec with
  | 0 => if bit dec 4 then mkRat 20 2048000 else mkRat 48 2048000
  | 1 => mkRat 1 16000
  | _ => mkRat 2 16000

/-- The sample instant of a lane's word for the frame before the present one, in seconds from the top of the second of that
frame's start (R140). -/
def State.tau (s : State) (l : Nat) : Rat :=
  let st := mkRat s.time.prNsec 1000000000
  if l < 256 then st + mkRat 127 2048000 - groupDelay (s.lane l).form.dec
  else st - (s.fld Reg.PBX_DSV 15 0 : Rat) * tS

/-- f0 of a MSR_CFG word. -/
def nominal (cfg : Word) : Rat := if bit cfg 4 then 60 else 50

/-- The window of R141 for a length W in samples: the weights of samples f, f - 1, ... -/
def windowWeights (w : Rat) : List Rat :=
  let n := w.floor.toNat
  List.replicate n 1 ++ [w - n]

/-- The reference instant t_c of a window (R141). -/
def refInstant (tau w : Rat) : Rat := tau - (w - 1) / 2 * tS

/-- The weighted sum of R141 and R154: x[f-i] turned by -2 pi f (tau_(f-i) - t_c). -/
def windowSum (xs : List Rat) (w tau tc f : Rat) : Cx :=
  ((windowWeights w).zipIdx).foldl (fun a e =>
    cxAdd a (cxScale (e.1 * nth 0 xs e.2) (cxConj (cxExp (twoPi * f * (tau - (e.2 : Rat) * tS - tc)))))) (0, 0)

/-- The phasor of R141 over a window of W samples. -/
def phasor (xs : List Rat) (w tau f0 f : Rat) : Cx :=
  let tc := refInstant tau w
  cxMul (cxScale (sqrtR 2 / w) (cxConj (cxExp (twoPi * f0 * tc)))) (windowSum xs w tau tc f)

/-- c of the cosine filter (R142). -/
def cosineC (xs : List Rat) (w tau f : Rat) : Rat := 2 / w * (windowSum xs w tau (refInstant tau w) f).1

/-- The cosine-filter phasor (R142). -/
def cosinePhasor (cs : List Rat) (w tau f0 f : Rat) : Cx :=
  let q := (nearest (w / 4)).toNat
  let d := twoPi * f * (q : Rat) * tS
  let c0 := nth 0 cs 0
  let cq := nth 0 cs q
  cxScale (1 / sqrtR 2)
    (cxMul (c0, (cq - c0 * cosR d) / sinR d) (cxConj (cxExp (twoPi * f0 * refInstant tau w))))

/-- True RMS over a window (R144). -/
def trueRms (xs : List Rat) (w : Rat) : Rat :=
  sqrtR (((windowWeights w).zipIdx).foldl (fun a e => a + e.1 * nth 0 xs e.2 * nth 0 xs e.2) 0 / w)

/-- U, O and S over a span of words, as bits 0-2. -/
def spanUos (ws : List Word) : Nat := b2n (ws.any wordU) + 2 * b2n (ws.any wordO) + 4 * b2n (ws.any wordS)

/-- U, O, S over a span of words and T of the newest, as bits 0-3 (R143, MSR_QUAL). -/
def spanFlags (ws : List Word) : Nat :=
  spanUos ws + 8 * b2n (match ws with
    | w :: _ => wordT w
    | [] => false)

/-! ### One lane -/

/-- What measurement forms of a lane in a frame. -/
structure LaneMeas where
  x : Cx := (0, 0)
  rms : Rat := 0
  flags : Nat := 0
  tc : Rat := 0
deriving DecidableEq, Repr

/-- Samples of the method's span beyond the window (R142). With W whole the word of weight 0 that ends the window belongs to the span
(R143; assumption log 50). -/
def spanLen (dft : Nat) (w : Rat) : Nat :=
  match dft with
  | 1 => w.floor.toNat + 1 + (nearest (w / 4)).toNat
  | 2 => (w / 2).floor.toNat + 1
  | _ => w.floor.toNat + 1

/-- DFT as it acts: 3 acts as 0. -/
def dftOf (cfg : Word) : Nat := if field cfg 2 1 = 3 then 0 else field cfg 2 1

/-- The word of the frame just formed joins the history (R139), and the reference phasor and c of the frame are formed
(R142, R147). -/
def State.measureLane (s : State) (b l : Nat) : State :=
  let bay := s.bay b
  let cfg := bay.form.cfg
  let f := fpRat bay.fTrk
  let w := 16000 / f
  s.modLane l (fun x =>
    let hist := ((x.rate, x.form.gain) :: x.hist).take 1600
    let tau := s.tau l
    let xs := (hist.take 402).map (s.primary l)
    let fr := (hist.take 402).map (fraction l x.form.gain)
    let p := phasor fr w tau (nominal cfg) f
    let span := (hist.take (w.floor.toNat + 1)).map Prod.fst
    let clean := !span.any wordU && !span.any wordO
    { x with hist := hist, cHist := (cosineC xs w tau f :: x.cHist).take 101
             pref := (⟨p.1, p.2, clean⟩ :: x.pref).take 33 })

/-- The results of a lane (R141-R144). -/
def State.laneMeas (s : State) (b l : Nat) : LaneMeas :=
  let bay := s.bay b
  let x := s.lane l
  let cfg := bay.form.cfg
  let f := fpRat bay.fTrk
  let w := 16000 / f
  let dft := dftOf cfg
  let tau := s.tau l
  let xs := (x.hist.take 402).map (s.primary l)
  let f0 := nominal cfg
  let p := match dft with
    | 1 => cosinePhasor x.cHist w tau f0 f
    | 2 => phasor xs (w / 2) tau f0 f
    | _ => phasor xs w tau f0 f
  { x := p, rms := trueRms xs w, flags := spanFlags ((x.hist.take (spanLen dft w)).map Prod.fst)
    tc := refInstant tau (if dft = 2 then w / 2 else w) }

/-! ### Sequence components and powers -/

/-- The lane of a bay that holds a role (R145, R166), unless its TYPE is 0. -/
def State.roleLane (s : State) (b role : Nat) : Option Nat :=
  (List.range 8).find? (fun k =>
    (s.lane (8 * b + k)).role == role && (decide (32 ≤ b) || s.typ (8 * b + k) != 0))

/-- The same with the TYPE of the frame whose data is formed (R145). -/
def State.roleForm (s : State) (b role : Nat) : Option Nat :=
  (List.range 8).find? (fun k =>
    (s.lane (8 * b + k)).role == role && (decide (32 ≤ b) || (s.lane (8 * b + k)).form.typ != 0))

/-- The lane of a bay that holds a role, whatever its TYPE (R145, R146). -/
def State.roleAny (s : State) (b role : Nat) : Option Nat := (List.range 8).find? (fun k => (s.lane (8 * b + k)).role == role)

/-- a = e^(j 2 pi / 3). -/
def cxA : Cx := cxExp (twoPi / 3)

/-- Zero, positive and negative sequence of three phasors (R145). -/
def sequences (acb : Bool) (a b c : Cx) : Cx × Cx × Cx :=
  let third := cxScale (mkRat 1 3)
  let a1 := cxA
  let a2 := cxMul cxA cxA
  let p := third (cxAdd a (cxAdd (cxMul a1 b) (cxMul a2 c)))
  let n := third (cxAdd a (cxAdd (cxMul a2 b) (cxMul a1 c)))
  (third (cxAdd a (cxAdd b c)), if acb then n else p, if acb then p else n)

/-- A set of three roles: its sequences, or absent (R145). -/
def State.seqSet (s : State) (b : Nat) (ms : List LaneMeas) (r : Nat) : Option (Cx × Cx × Cx) :=
  match s.roleForm b r, s.roleForm b (r + 1), s.roleForm b (r + 2) with
  | some i, some j, some k =>
    let m := fun n => nth {} ms n
    some (sequences (bit (s.bay b).form.cfg 5) (m i).x (m j).x (m k).x)
  | _, _, _ => none

/-- The flags of a set: the OR of those of its phasors (R145). -/
def State.seqFlags (s : State) (b : Nat) (ms : List LaneMeas) (r : Nat) : Nat :=
  (([0, 1, 2].filterMap (fun n => s.roleAny b (r + n))).map (fun k => (nth {} ms k).flags)).foldl (· ||| ·) 0

/-- A phase's power V I*, 0 where a role is unassigned (R146). -/
def State.phasePower (s : State) (b : Nat) (ms : List LaneMeas) (ph : Nat) : Option Cx :=
  match s.roleAny b (4 + ph), s.roleAny b ph with
  | some v, some i => some (cxMul (nth {} ms v).x (cxConj (nth {} ms i).x))
  | _, _ => none

/-- The flags of the powers: the OR of those of all the phasors used (R146). -/
def State.powerFlags (s : State) (b : Nat) (ms : List LaneMeas) : Nat :=
  [0, 1, 2].foldl (fun a ph => match s.roleAny b (4 + ph), s.roleAny b ph with
    | some v, some i => a ||| (nth {} ms v).flags ||| (nth {} ms i).flags
    | _, _ => a) 0

/-- Magnitude and angle as two words. -/
def polar (x : Cx) : List Word := [f32 (cxAbs x), f32 (cxArg x)]

/-! ### Frequency tracking (R147-R149) -/

/-- Whether V holds on a lane, with FMIN of the settings (R147). -/
def validOn (cfg : Word) (ps : List PRef) : Bool :=
  let strong := fun (p : PRef) => decide (mkRat (field cfg 31 16) 65536 ≤ cxAbs (p.re, p.im))
  match ps[0]?, ps[32]? with
  | some a, some b => a.clean && b.clean && strong a && strong b
  | _, _ => false

/-- f_raw of a lane's reference phasors (R147). -/
def rawFreq (f0 : Rat) (ps : List PRef) : Rat :=
  match ps[0]?, ps[32]? with
  | some a, some b => f0 + cxArg (cxMul (a.re, a.im) (b.re, -b.im)) / (twoPi * mkRat 1 500)
  | _, _ => f0

/-- Clamps of R148. -/
def clampRat (lo hi x : Rat) : Rat := if x < lo then lo else if hi < x then hi else x

/-- The tracker's step of a frame (R148, R149): the bay, MSR_FSTAT state, SRC, HOLD, and ROCOF. -/
structure TrackOut where
  bay : BaySt
  st : Nat
  src : Bool
  hold : Nat
  rocof : Option Rat
deriving DecidableEq, Repr

def inBand (f : Rat) : Bool := decide (40 ≤ f) && decide (f ≤ 70)

/-- The reference lane in use (R149): whether it is FALT, and the run of frames in which V held on FLANE. -/
def pickRef (alten : Bool) (src vm va : Bool) (run : Nat) : Bool × Nat :=
  let run := if vm then run + 1 else 0
  if src then (alten && decide (run < 32), run)
  else (alten && !vm && va, run)

/-- The rows of R148. `x.fTrk` and ROCOF keep their values unless the action says otherwise. -/
def trackStep (x : BaySt) (st : Nat) (src : Bool) (hold : Nat) (v g : Bool) (f0 fraw : Rat) : TrackOut :=
  let f := fpRat x.fTrk
  let set := fun (y : BaySt) (q : Rat) => { y with fTrk := f32 (clampRat 40 70 q) }
  let vr := if v then min 32 (x.vRun + 1) else 0
  let x := { x with vRun := vr }
  let band := inBand fraw
  let out := fun (y : BaySt) (st : Nat) (h : Nat) (r : Option Rat) => (⟨y, st, src, h, r⟩ : TrackOut)
  match st with
  | 0 =>
    if vr = 32 ∧ band = true then out (set { x with acqRun := 0, guardRun := 0 } fraw) 1 0 none
    else out { x with fTrk := f32 f0 } 0 0 (some 0)
  | 1 =>
    if v = false then out { x with acqRun := 0, guardRun := 0 } 3 1 (some 0)
    else if g then
      if x.guardRun + 1 < 32 then out { x with guardRun := x.guardRun + 1, acqRun := 0 } 1 0 none
      else out (set { x with guardRun := 0, acqRun := 0 } fraw) 1 0 none
    else
      let near := decide (fraw - f < mkRat 1 50) && decide (f - fraw < mkRat 1 50)
      let n := if near then x.acqRun + 1 else 0
      let y := set { x with guardRun := 0, acqRun := n } (f + (fraw - f) / 2)
      if 64 ≤ n then out { y with fHist := [y.fTrk], acqRun := 0 } 2 0 (some 0)
      else out y 1 0 none
  | 2 =>
    if v = false then out { x with acqRun := 0, guardRun := 0, fHist := [] } 3 1 (some 0)
    else if g then
      if x.guardRun + 1 < 32 then
        out { x with guardRun := x.guardRun + 1, fHist := (x.fTrk :: x.fHist).take 321 } 2 0 none
      else out (set { x with guardRun := 0, acqRun := 0, fHist := [] } fraw) 1 0 none
    else
      let y := set { x with guardRun := 0 } (f + (fraw - f) / 8)
      let h := (y.fTrk :: x.fHist).take 321
      let r := match h[320]? with
        | some o => clampRat (-20) 20 ((fpRat y.fTrk - fpRat o) / mkRat 1 50)
        | none => 0
      out { y with fHist := h } 2 0 (some r)
  | _ =>
    if v then
      out (if band then set { x with acqRun := 0, guardRun := 0 } fraw else { x with acqRun := 0, guardRun := b2n g }) 1 0 none
    else if hold + 1 < 16000 then out x 3 (hold + 1) none
    else out (set x f0) 0 0 none

/-! ### One bay, one frame -/

/-- Register offsets of a bay's result window that a shadow holds (R158). -/
def shadowOffsets : List Nat := (List.range 77).map (fun i => 0x0C + 4 * i)

/-- MSR_QUAL2 and the words of the two sequence sets, the powers and totals (R145, R146). -/
def State.bayPowers (s : State) (b : Nat) (ms : List LaneMeas) : Word × List Word :=
  let iset := s.seqSet b ms 0
  let vset := s.seqSet b ms 4
  let polars := fun (x : Option (Cx × Cx × Cx)) => match x with
    | some y => polar y.1 ++ polar y.2.1 ++ polar y.2.2
    | none => List.replicate 6 0#32
  let pp := [0, 1, 2].map (s.phasePower b ms)
  let ps := pp.map (fun x => x.getD (0, 0))
  let tot := ps.foldl cxAdd (0, 0)
  let ap := cxAbs tot
  let pf := if ap = 0 then 0 else tot.1 / ap
  let q2 := s.seqFlags b ms 0 + 16 * s.seqFlags b ms 4 + 256 * b2n iset.isNone + 512 * b2n vset.isNone + 1024 * b2n (pp.any Option.isNone)
  (BitVec.ofNat 32 q2, polars iset ++ polars vset ++ ps.map (fun x => f32 x.1) ++ ps.map (fun x => f32 x.2)
    ++ [f32 tot.1, f32 tot.2, f32 ap, f32 pf])

/-- Reports per second of a RATE (R156). -/
def reportRate (cfg : Word) (rate : Nat) : Nat :=
  if bit cfg 4 then nth 0 [0, 10, 12, 15, 20, 30, 60, 120] rate else nth 0 [0, 10, 25, 50, 100, 0, 0, 0] rate

/-- The report instants k / rate that a frame with reference instant t_c takes (R156): those after `upTo` and up to half way to the
next frame's instant, to which the earlier frame is the nearer one, or on a tie as near. -/
def reportInstants (rate : Nat) (upTo lim : Rat) : List Int :=
  let k0 := (upTo * (rate : Rat)).floor + 1
  let n := (lim * (rate : Rat)).floor + 1 - k0
  (List.range (min 4 n.toNat)).map (fun (i : Nat) => k0 + (i : Int))

/-- How far a bay's report instants have found their frame: after a gap or a step of the time base, half a frame before t_c. -/
def BaySt.coveredTo (x : BaySt) (tc : Rat) : Rat :=
  match x.repUpTo with
  | some u => if tc - u < mkRat 1 100 ∧ u - tc < mkRat 1 100 then u else tc - tS / 2
  | none => tc - tS / 2

/-- A complex value as eight bytes. -/
def cxBytes (x : Cx) : List Byte := wordBytes (f32 x.1) ++ wordBytes (f32 x.2)

/-- The reference lane's position in a bay: FLANE, or FALT while it is in use (R149). -/
def refLane (cfg : Word) (src : Bool) : Nat := if src then field cfg 14 12 else field cfg 10 8

/-- One report is latched (R156) for the instant tk, in s of full time: its 112 bytes but for STAT bit 7 (R157). -/
def State.latchOne (s : State) (b f : Nat) (ms : List LaneMeas) (fUsed tk : Rat) : State :=
  let bay := s.bay b
  let cfg := bay.form.cfg
  let sec := tk.floor
  let ns := unitOf ((tk - sec) * 1000000000)
  let turn := fun (m : LaneMeas) (x : Cx) => cxMul x (cxExp (twoPi * (fUsed - nominal cfg) * (tk - s.time.prSec - m.tc)))
  let ref := nth {} ms (refLane cfg (s.flag (Reg.MSR_FSTAT b) 2))
  let pos := fun (r : Nat) => match s.seqSet b ms r with
    | some y => turn ref y.2.1
    | none => (0, 0)
  let fl := ms.foldl (fun a m => a ||| m.flags) 0
  let stat := fl + 16 * s.fld (Reg.MSR_FSTAT b) 1 0 + 64 * b2n (s.flag (Reg.MSR_FSTAT b) 2)
  let bytes := bytesLE 2 112 ++ bytesLE 1 0x42 ++ bytesLE 1 1 ++ bytesLE 2 b ++ bytesLE 1 stat ++ bytesLE 1 0
    ++ bytesLE 6 (sec % (2 ^ 48 : Nat)).toNat ++ bytesLE 2 0 ++ bytesLE 4 ns.toNat ++ bytesLE 4 f
    ++ wordBytes (s.rd (Reg.MSR_FREQ b)) ++ wordBytes (s.rd (Reg.MSR_ROCOF b)) ++ ms.flatMap (fun m => cxBytes (turn m m.x))
    ++ cxBytes (pos 4) ++ cxBytes (pos 0)
  let full := decide (8 ≤ bay.reports.length)
  let reps := (if full then bay.reports.drop 1 else bay.reports) ++ [⟨bytes⟩]
  let t := s.modBay b (fun x => { x with reports := reps, lostSince := x.lostSince || full })
  let t := if full then t.satFld (Reg.MSR_SYNC b) 31 16 1 else t
  t.setFld (Reg.MSR_SYNC b) 15 12 reps.length

/-- The reports of a frame are latched (R156): each report instant once, from the frame whose t_c is nearest. The next frame's t_c
follows from the f_trk just found (R141, R148). -/
def State.latchReports (s : State) (b f : Nat) (ms : List LaneMeas) (fUsed : Rat) : State :=
  let bay := s.bay b
  let cfg := bay.form.cfg
  let rate := reportRate cfg bay.form.rate
  if rate = 0 then s.modBay b (fun x => { x with repUpTo := none })
  else
    let k := refLane cfg (s.flag (Reg.MSR_FSTAT b) 2)
    let half : Rat := if dftOf cfg = 2 then 2 else 1
    let tc := (s.time.prSec : Rat) + (nth {} ms k).tc
    let next := (s.time.prSec : Rat) + refInstant (s.tau (8 * b + k) + tS) (16000 / fpRat bay.fTrk / half)
    let lim := if tc < next then (tc + next) / 2 else tc
    let upTo := bay.coveredTo tc
    let t := (reportInstants rate upTo lim).foldl (fun s k => s.latchOne b f ms fUsed ((k : Rat) / (rate : Rat))) s
    t.modBay b (fun x => { x with repUpTo := some (max upTo lim) })

/-- A change of reference lane (1) or nominal frequency (2) that took effect at the frame's start (R151), or a staged nominal frequency
that found the tracker in NOMINAL (3, R150, R458). -/
def State.bayChange (s : State) (b : Nat) : State :=
  let chg := (s.bay b).form.chg
  let t := if chg = 1 ∨ chg = 2 then
      (s.setFld (Reg.MSR_FSTAT b) 1 0 1).modBay b (fun x => { x with acqRun := 0, guardRun := 0, fHist := [] })
    else s
  if 2 ≤ chg then t.modBay b (fun x => { x with fTrk := f32 (nominal x.form.cfg) }) else t

/-- The tracker of a bay takes frame f (R147-R149). GUARD says whether G held in the last frame in ACQUIRE or LOCKED (R158). -/
def State.track (s : State) (b : Nat) : State :=
  let bay := s.bay b
  let cfg := bay.form.cfg
  let k := Reg.MSR_FSTAT b
  let pm := (s.lane (8 * b + field cfg 10 8)).pref
  let pa := (s.lane (8 * b + field cfg 14 12)).pref
  let pick := pickRef (bit cfg 15) (s.flag k 2) (validOn cfg pm) (validOn cfg pa) bay.mainRun
  let ps := if pick.1 then pa else pm
  let fraw := rawFreq (nominal cfg) ps
  let f := fpRat bay.fTrk
  let g := decide (2 < fraw - f) || decide (2 < f - fraw) || decide (s.time.stepAge ≤ 31)
  let o := trackStep { bay with mainRun := min 32 pick.2 } (s.fld k 1 0) pick.1 (s.fld k 23 8) (validOn cfg ps) g
    (nominal cfg) fraw
  let t := s.modBay b (fun _ => o.bay)
  let was := s.fld k 1 0
  let t := if was = 1 ∨ was = 2 then t.setFlag k 3 g else t
  let t := ((t.setFld k 1 0 o.st).setFlag k 2 o.src).setFld k 23 8 (min 0xFFFF o.hold)
  let t := t.wr (Reg.MSR_FREQ b) o.bay.fTrk
  match o.rocof with
  | some r => t.wr (Reg.MSR_ROCOF b) (f32 r)
  | none => t

/-- The image words of a bay: bay results (R459) and its lanes' phasors, RMS values and flags (R213). -/
def State.deliverBay (s : State) (b : Nat) (lanes : List Word) (rms : List Word) (flags : Nat) (res : List Word) : State :=
  let t := s.deliver (784 + 16 * b) lanes
  let t := t.deliver (1552 + 8 * b) rms
  let t := t.deliver (1936 + b) [BitVec.ofNat 32 flags]
  t.deliver (1984 + 32 * b) res

/-- A bay with EN = 0: it forms no results, reads 0 in every result register and keeps f_trk = f0 (R150). -/
def State.bayOff (s : State) (b : Nat) : State :=
  let base := Reg.MSR_CFG b
  let t := shadowOffsets.foldl (fun s o => s.wr (base + o) 0#32) s
  let t := t.setFld (Reg.MSR_FSTAT b) 30 0 0
  let t := t.modBay b (fun x => { x with fTrk := f32 (nominal x.form.cfg), vRun := 0, acqRun := 0, guardRun := 0, mainRun := 0
                                         fHist := [] })
  t.deliverBay b (List.replicate 16 0#32) (List.replicate 8 0#32) 0 (List.replicate 32 0#32)

/-- Measurement of one bay for frame f (R139-R151, R156). -/
def State.measureBay (s : State) (f b : Nat) : State :=
  let s := s.bayChange b
  let cfg := (s.bay b).form.cfg
  let s := (List.range 8).foldl (fun s k => s.measureLane b (8 * b + k)) s
  if bit cfg 0 = false then s.bayOff b
  else
    let fUsed := fpRat (s.bay b).fTrk
    let ms := (List.range 8).map (fun k => s.laneMeas b (8 * b + k))
    let pw := s.bayPowers b ms
    let t := s.track b
    let base := Reg.MSR_CFG b
    let ph := ms.flatMap (fun m => polar m.x)
    let rms := ms.map (fun m => f32 m.rms)
    let flags := (ms.zipIdx).foldl (fun a e => a + e.1.flags * 16 ^ e.2) 0
    let t := t.wr (base + 0x0C) (BitVec.ofNat 32 flags)
    let t := t.wr (base + 0x10) pw.1
    let t := t.wrList (base + 0x40) ph
    let t := t.wrList (base + 0x80) rms
    let t := t.wrList (base + 0xA0) (pw.2.take 12)
    let t := t.wrList (base + 0xE0) (pw.2.drop 12)
    let t := t.wr (Reg.MSR_FRAME b) (BitVec.ofNat 32 f)
    let st := t.rd (Reg.MSR_FSTAT b) &&& 0xF#32
    let t := t.deliverBay b ph rms flags
      ([t.rd (Reg.MSR_FREQ b), t.rd (Reg.MSR_ROCOF b), st] ++ pw.2.take 12 ++ pw.2.drop 12 ++ [pw.1]
        ++ List.replicate 6 0#32)
    let t := t.modBay b (fun x => { x with pwFlags := s.powerFlags b ms })
    t.latchReports b f ms fUsed

/-- Measurement of every bay for frame f. -/
def State.measureFrame (s : State) (f : Nat) : State := (List.range 48).foldl (fun s b => s.measureBay f b) s

/-- At a frame boundary: what forms the results of the frame that ends. -/
def State.formBay (s : State) (b : Nat) : State :=
  s.modBay b (fun x => { x with form := ⟨x.cfg, x.rate, x.chg⟩, chg := 0 })

/-! ### Settings -/

/-- The action of a write of MSR_CFG (R151). -/
def wrMsrCfg (b : Nat) (p : Port) (v : Word) (s : State) : State :=
  ((s.wr (Reg.MSR_CFG b) v).setFlag (Reg.MSR_FSTAT b) 31 true).placeHyper (Reg.MSR_CFG b) v p

/-- MSR_CFG_WRITE (R151). -/
def execMsrCfgWrite (p : Port) (bay : Fin 48) (v : Word) (s : State) : R :=
  gate s p .engine (.owned (s.bayOwner bay.val)) 0x000008C8#32 (Reg.MSR_CFG bay.val) v (wrMsrCfg bay.val p)

/-- MSR_CFG as applied; what its change does to the tracker (R151). -/
def State.putMsrCfg (s : State) (b : Nat) (v : Word) : State :=
  let old := (s.bay b).cfg
  let chg := if bit old 4 != bit v 4 then 2
    else if field old 10 8 != field v 10 8 || field old 14 12 != field v 14 12 then 1 else 0
  s.modBay b (fun x => { x with cfg := v, chg := max x.chg chg })

/-- MSR_CFG_APPLY: at the hyperperiod boundary MSR_CFG and RATE apply (R151, R158). -/
def execMsrCfgApply (bay : Fin 48) (s : State) : R :=
  let b := bay.val
  let t := s.onDue (Reg.MSR_CFG b) (fun s r => (s.putMsrCfg b r.value).setFlag (Reg.MSR_FSTAT b) 31 false)
  .next (t.onDue (Reg.MSR_SYNC b) (fun s r => s.modBay b (fun x => { x with rate := field r.value 3 0 })))

/-- MSR_FRAME_READ: the bay's latest results go to the reading port's shadow (R158). -/
def execMsrFrameRead (p : Port) (bay : Fin 48) (s : State) : R :=
  let b := bay.val
  readGate s p .engine (.owned (s.bayOwner b)) (fun s =>
    let base := Reg.MSR_CFG b
    let t := shadowOffsets.foldl (fun s o => s.wr (portKey (portCode p) (base + o)) (s.rd (base + o))) s
    (t, s.rd (Reg.MSR_FRAME b)))

/-! ### Harmonics and reports -/

/-- The response by which a harmonic of a lane at frequency f is divided (R154): that of the preset's coefficients, with its group
delay removed (R100, R101). -/
def presetResponse (l : Nat) (dec : Word) (f : Rat) : Cx :=
  if l < 256 then
    let p := presetOf dec
    let base := coefBase p (bit dec 4)
    (List.range (taps p)).foldl (fun a i =>
      let c := mkRat (Config.acoef (base + i)).toInt (2 ^ 30)
      cxAdd a (cxScale c (cxConj (cxExp (twoPi * f * (mkRat i 2048000 - groupDelay dec)))))) (0, 0)
  else (1, 0)

/-- The harmonics 1 to 50 of a lane over four tracked cycles (R154), and the reference instant. -/
def State.harmonics (s : State) (b l : Nat) : List Cx × Rat :=
  let f := fpRat (s.bay b).fTrk
  let w4 := 4 * (16000 / f)
  let tau := s.tau l
  let tc := refInstant tau w4
  let xs := (s.lane l).hist.map (s.primary l)
  ((List.range 50).map (fun (i : Nat) =>
    let h : Rat := ((i + 1 : Nat) : Rat)
    cxDiv (cxScale (sqrtR 2 / w4) (windowSum xs w4 tau tc (h * f)))
      (presetResponse l (s.lane l).form.dec (h * f))), tc)

/-- An angle in units of 2 pi / 65 536, wrapped (R155). -/
def angle16 (a : Rat) : Nat := toTwos 16 (unitOf (a * 65536 / twoPi))

/-- One lane's harmonic record, and THD (R154, R155). A ratio to a fundamental of 0 is a value the manual does not state. -/
def State.harmonicRecord (s : State) (b k : Nat) : State × Word × List Byte :=
  let l := 8 * b + k
  let f := fpRat (s.bay b).fTrk
  let r := s.harmonics b l
  let h1 := nth (0, 0) r.1 0
  let m1 := cxAbs h1
  let inb := fun (h : Nat) => decide ((h : Rat) * f ≤ 3500)
  let sum := (List.range 49).foldl (fun a i =>
    if inb (i + 2) then (let x := nth (0, 0) r.1 (i + 1)
                         a + x.1 * x.1 + x.2 * x.2) else a) 0
  let thd := if m1 = 0 then 0#32 else f32 (100 * sqrtR sum / m1)
  let n := (4 * (16000 / f)).floor.toNat + 1
  let ws := ((s.lane l).hist.take n).map Prod.fst
  let fl := spanUos ws + 8 * b2n (ws.any wordT) + 16 * b2n (s.fld (Reg.MSR_FSTAT b) 1 0 != 2)
  let q := s.freeList 49
  let hs := (List.range 49).flatMap (fun i =>
    let h := i + 2
    let x := nth (0, 0) r.1 (i + 1)
    if inb h then
      let ratio := if m1 = 0 then field (nth 0#32 q.1 i) 15 0 else min 0xFFFE (unitOf (cxAbs x / m1 * 10000)).toNat
      bytesLE 2 ratio ++ bytesLE 2 (angle16 (cxArg x - (h : Rat) * cxArg h1))
    else bytesLE 2 0xFFFF ++ bytesLE 2 0)
  let fr := (s.frame + 2 ^ 32 - 1) % 2 ^ 32
  let tcNs := unitOf ((r.2 - mkRat s.time.prNsec 1000000000) * 1000000000) + s.time.prTb
  (if m1 = 0 then q.2 else s, thd,
   bytesLE 2 228 ++ bytesLE 1 0x41 ++ bytesLE 1 1 ++ bytesLE 2 b ++ bytesLE 1 k ++ bytesLE 1 fl ++ bytesLE 4 fr
    ++ bytesLE 4 (toTwos 32 tcNs) ++ wordBytes (s.bay b).fTrk ++ wordBytes (f32 m1) ++ wordBytes (f32 (cxArg h1))
    ++ wordBytes thd ++ hs)

/-- A latched report with STAT bit 7 where reports were lost since the last record (R157). -/
def lostMark (bytes : List Byte) (lost : Bool) : List Byte :=
  if lost then modAt bytes 6 (fun b => b ||| 0x80#8) else bytes

/-- SYNCHROPHASOR_REPORT: an admitted run writes every latched report and frees its slot (R156, R157). -/
def execSynchrophasorReport (bay : Fin 48) (s : State) : R :=
  let b := bay.val
  if s.canRun 2 b = false then .next s
  else
    let t := s.takeRun 2 b
    let x := s.bay b
    let t := ((x.reports.zipIdx).foldl (fun s e =>
      match s.bayOwner b with
      | some p => s.msqItem p (lostMark e.1.bytes (x.lostSince && e.2 == 0))
      | none => s) t)
    let t := t.modBay b (fun y => { y with reports := [], lostSince := if x.reports.isEmpty then y.lostSince else false })
    .next (t.setFld (Reg.MSR_SYNC b) 15 12 0)

end Sys2Proof.Machine
end

