-- ==== Sys2Proof/Machine/FieldOut.lean ====
section
/-!
DEFINITION. Sys2Proof/Machine/FieldOut.lean: banks and field outputs (R347, R348, R353-R361, R364): rows OUTPUT_COMMAND,
BANK_STATE_CHANGE, DRIVER_UNDERVOLTAGE, OUTPUT_THERMAL_SHUTDOWN, OUTPUT_CURRENT_LIMIT, OUTPUT_FAULT_CHANGE,
OUTPUT_BLANKING_END, BANK_OVERCURRENT, BANK_DROP, BANK_RELEASE.
-/
namespace Sys2Proof.Machine

def State.dout (s : State) (n : Nat) : DoSt := nth {} s.fio.dos n
def State.modDout (s : State) (n : Nat) (f : DoSt → DoSt) : State :=
  { s with fio := { s.fio with dos := modAt s.fio.dos n f } }

/-- A FIELD record of the engine die (R361). -/
def State.fieldRecord (s : State) (kind code idx logs : Nat) (kennel : Bool) : State :=
  s.postNow 0x21 (srcOf 6 idx) (bytesLE 1 kind ++ bytesLE 1 code ++ bytesLE 2 0 ++ s.frameBytes) logs kennel

/-- Bank state: 0 GOOD, 1 LOW, 2 LOST (R347). -/
def State.bankState (s : State) (m : Nat) : Nat := s.fld (Reg.FIO_BSTAT m) 1 0
def State.bankUv (s : State) (m : Nat) : Bool := s.flag (Reg.FIO_BSTAT m) 4
def State.bankDropped (s : State) (m : Nat) : Bool := s.flag Reg.FIO_BDROP m

/-- The state of DO[n] at its pin (R356). -/
def State.doOn (s : State) (n : Nat) : Bool :=
  let x := s.dout n
  !s.bankDropped (n / 8) && !s.bankUv (n / 8) && !x.tsd && x.cmd

/-- Whether a survey's load item runs on an output (R131, R358). -/
def State.loadTests (s : State) (n : Nat) : Bool :=
  s.flag Reg.SNF_CMD 30 && s.sniff.items.head? == some 2 && bit s.sniff.doMask n

/-- "Not ensured": commanded on in a bank that is LOW or LOST (R348). -/
def State.doNe (s : State) (n : Nat) : Bool := (s.dout n).cmd && s.bankState (n / 8) != 0

/-- The fault code of an output (R357); code 6 stands while the bank is LOST or the checks are blanked (R348, R358). -/
def State.doCode (s : State) (n : Nat) : Nat :=
  let x := s.dout n
  if x.cmd then
    (if s.bankUv (n / 8) then 7 else if x.tsd then 2 else if x.lim then 1 else 0)
  else if s.bankState (n / 8) = 2 ∨ x.blank.isSome then 6
  else if x.stuck ≠ 0 then x.stuck
  else if bit x.cfg 0 && x.openLd then 5
  else 0

/-- FIO_DOSTAT, FIO_APPLIED and FIO_DORES follow the output; a change of code sets its flag and writes a FIELD record
(R357, R359, R361). -/
def State.showDo (s : State) (n : Nat) : State :=
  let x := s.dout n
  let k := Reg.FIO_DOSTAT n
  let code := s.doCode n
  let old := s.fld k 27 24
  let t := s.wr k (BitVec.ofNat 32 (b2n x.cmd * 2 ^ 31 + b2n x.pin * 2 ^ 30 + b2n (s.doNe n) * 2 ^ 29
    + b2n (s.bankDropped (n / 8)) * 2 ^ 28 + code * 2 ^ 24 + min x.ma 65535))
  let t := t.setFlag Reg.FIO_APPLIED n (s.doOn n)
  let r := match x.v1s with
    | [] => 0
    | v :: _ => if 12000 ≤ v then 0xFFFF else min 0xFFFF (unitOf (mkRat ((x.v1s.foldl (· + ·) 0 : Nat) : Int) (2 * x.v1s.length))).toNat
  let t := t.wr (Reg.FIO_DORES n) (BitVec.ofNat 32 (if x.cmd = true ∨ bit x.cfg 0 = false ∨ x.blank.isSome ∨ s.bankState (n / 8) = 2
    then 0 else r))
  if code = old then t
  else
    let t := if 1 ≤ code then t.setFlag (Reg.FIO_DOFLAG n) (code - 1) true else t
    t.fieldRecord (if code = 0 ∨ code = 6 then 2 else 1) code (64 + n) (ownerLog x.owner) true

/-- The outputs of bank m follow. -/
def State.showBank (s : State) (m : Nat) : State :=
  let t := s.setFlag (Reg.FIO_BSTAT m) 2 (s.bankDropped m)
  (List.range 8).foldl (fun s i => s.showDo (8 * m + i)) t

/-- One output takes its command of an applied set: applied off, its checks are blanked (R358); a switch-on is counted;
an output of a running load item that is switched on loses its test current and is noted (R131). -/
def State.applyDo (s : State) (n : Nat) (on : Bool) : State :=
  let x := s.dout n
  let t := s.modDout n (fun x => { x with cmd := on, blank := if on then none else if x.cmd then some s.frame else x.blank,
                                          v1s := if on then [] else x.v1s, hiN := if on then 0 else x.hiN,
                                          loN := if on then 0 else x.loN, stuck := if on then 0 else x.stuck,
                                          openLd := if on then false else x.openLd })
  let t := if on && !x.cmd then t.incFld (Reg.FIO_DOCNT n) 15 0 else t
  if on && s.loadTests n then { t with sniff := { t.sniff with onSeen := setBit t.sniff.onSeen n true, testOn := setBit t.sniff.testOn n false } } else t

/-- An output command set is applied: releases that wait take effect with it (R354, R364). -/
def State.applySet (s : State) (cmds : Word) (frame : Nat) : State :=
  let t := s.setFld Reg.FIO_BDROP 3 0 (s.fld Reg.FIO_BDROP 3 0 - (s.fld Reg.FIO_BDROP 3 0 &&& s.fio.releasing))
  let t := { t with fio := { t.fio with releasing := 0, lastFrame := some frame } }
  let t := t.wr Reg.FIO_CMDFRM (BitVec.ofNat 32 frame)
  let t := (List.range 32).foldl (fun s n => s.applyDo n (bit cmds n)) t
  (List.range 4).foldl (fun s m => s.showBank m) t

/-- Whether a set is later than the last applied one (R354). -/
def State.laterSet (s : State) (frame : Nat) : Bool :=
  match s.fio.lastFrame with
  | some l => let d := (frame + 2 ^ 32 - l) % 2 ^ 32
              decide (1 ≤ d) && decide (d < 2 ^ 31)
  | none => true

/-- A copy differed from two matching copies at a driver, or came late: the voter fails (R219, R230). -/
def State.driverFault (s : State) (y : Nat) (late : Bool) : State :=
  let t := if late then s.satFld Reg.ENG_DRVSTAT 31 16 1 else s.satFld Reg.ENG_DRVSTAT 15 0 1
  if t.voterOn y then t.verdict (.voter y) 6 t.cycleNow 3 else t

/-- The output driver takes voter y's copy (R30, R219, R354): two matching copies of a later set apply it; a third copy that
differs, or comes more than 20 us after, be it of a set before the last, fails its voter. -/
def State.driverCopy (s : State) (y : Nat) (q : List Byte) (lateNs : Nat) : State :=
  let fr := leAt q 4 4
  if s.voterOn y = false then s
  else if s.fio.matched = some q then (if 20000 < lateNs ∧ s.linkUp = true then s.driverFault y true else s)
  else if s.laterSet fr = false then
    if s.fio.lastFrame = some fr then s.driverFault y false
    else if 20000 < lateNs ∧ s.linkUp = true then s.driverFault y true
    else s
  else
    let cs := modAt s.fio.copies y (fun _ => some q)
    let twin := (List.range 3).find? (fun z => z != y && nth none cs z == some q)
    match twin with
    | none => { s with fio := { s.fio with copies := cs } }
    | some z =>
      let w := 3 - y - z
      let bad := match nth none cs w with
        | some r => decide (leAt r 4 4 = fr)
        | none => false
      let t := { s with fio := { s.fio with copies := [none, none, none], matched := some q } }
      let t := t.applySet (BitVec.ofNat 32 (leAt q 0 4)) fr
      if bad then t.driverFault w false else t

/-- OUTPUT_COMMAND: a voter's flit arrives; `lateNs` is the time since the second matching copy (R30, R219, R354). -/
def execOutputCommand (bytes : List Byte) (lateNs : Nat) (s : State) : R :=
  let r := s.receive .field bytes
  if r.2 = true ∧ flitType bytes = 3 ∧ 1 ≤ flitSrc bytes ∧ flitSrc bytes ≤ 3 then
    .next (r.1.driverCopy (flitSrc bytes - 1) (flitPayload bytes) lateNs)
  else .next r.1

/-- The bank state that follows from VFIELD in mV held for 50 us, one transition at a time (R347). -/
def nextBank (st mv : Nat) : Nat :=
  match st with
  | 0 => if mv < 19200 then 1 else 0
  | 1 => if 19600 < mv then 0 else if mv < 15000 then 2 else 1
  | _ => if 15400 < mv then 1 else 2

/-- BANK_STATE_CHANGE: VFIELD has been beyond a threshold for 50 us (R347, R348). -/
def execBankStateChange (bank : Fin 4) (millivolts : Nat) (s : State) : R :=
  let m := bank.val
  let k := Reg.FIO_BSTAT m
  let st := s.bankState m
  let st' := nextBank st millivolts
  let t := { s with fio := { s.fio with mv := modAt s.fio.mv m (fun _ => millivolts) } }
  if st' = st then .next t
  else
    let t := (t.setFld k 1 0 st').satFld k 31 16 1
    let t := if st' = 0 then t else t.setFlag (Reg.FIO_BFLAG m) (st' - 1) true
    let t := (List.range 16).foldl (fun s i => s.setFlag (Reg.FIO_DISTAT (16 * m + i)) 2 (st' == 2)) t
    .next ((t.showBank m).fieldRecord 3 st' (96 + m) everyLog true)

/-- At the start of FILL each bank is judged afresh from VFIELD as the comparators see it (R347): as from GOOD, without a record
(assumption log 63). What a reset keeps dropped stays shown. -/
def State.judgeBanks (s : State) : State :=
  (List.range 4).foldl (fun s m =>
    let mv := nth 0 s.fio.mv m
    let st := nextBank (nextBank 0 mv) mv
    let k := Reg.FIO_BSTAT m
    let t := (s.setFld k 1 0 st).setFlag k 4 (decide (mv < 8000))
    let t := if st = 0 then t else t.setFlag (Reg.FIO_BFLAG m) (st - 1) true
    let t := if mv < 8000 then t.setFlag (Reg.FIO_BFLAG m) 3 true else t
    let t := (List.range 16).foldl (fun s i => s.setFlag (Reg.FIO_DISTAT (16 * m + i)) 2 (st == 2)) t
    t.showBank m) s

/-- DRIVER_UNDERVOLTAGE: below 8.0 V the outputs go electrically off; above 8.5 V they switch on again (R348). -/
def execDriverUndervoltage (bank : Fin 4) (millivolts : Nat) (s : State) : R :=
  let m := bank.val
  let t := { s with fio := { s.fio with mv := modAt s.fio.mv m (fun _ => millivolts) } }
  if millivolts < 8000 then
    .next (((t.setFlag (Reg.FIO_BSTAT m) 4 true).setFlag (Reg.FIO_BFLAG m) 3 true).showBank m)
  else if 8500 < millivolts then .next ((t.setFlag (Reg.FIO_BSTAT m) 4 false).showBank m)
  else .next t

/-- OUTPUT_THERMAL_SHUTDOWN: a channel that is on shuts down above 175 degrees and restarts below 160 (R353, R357). -/
def execOutputThermalShutdown (n : Fin 32) (celsius : Nat) (s : State) : R :=
  let x := s.dout n.val
  if 175 < celsius ∧ s.doOn n.val = true then
    .next (((s.modDout n.val (fun x => { x with tsd := true })).satFld (Reg.FIO_DOCNT n.val) 31 16 1).showDo n.val)
  else if celsius < 160 ∧ x.tsd = true then
    .next ((s.modDout n.val (fun x => { x with tsd := false })).showDo n.val)
  else .next s

/-- OUTPUT_CURRENT_LIMIT: active for 50 us, or inactive for 1 ms (R357). -/
def execOutputCurrentLimit (n : Fin 32) (active : Bool) (microseconds : Nat) (s : State) : R :=
  if active = true ∧ 50 ≤ microseconds then .next ((s.modDout n.val (fun x => { x with lim := true })).showDo n.val)
  else if active = false ∧ 1000 ≤ microseconds then
    .next ((s.modDout n.val (fun x => { x with lim := false })).showDo n.val)
  else .next s

/-- The off-state readings of one frame: V0 when it is taken, V1 with OLEN = 1 (R357, R358). Under a survey's load item (`load`) no V0 is
taken and the codes are held, while V1 goes on. -/
def offChecks (x : DoSt) (others load : Bool) (frame v0 v1 : Nat) : DoSt :=
  let olen := bit x.cfg 0
  let x := if load = false ∧ (olen = false ∨ frame % 16 = 0) then
      { x with stuck := if 12000 ≤ v0 then (if others then 4 else 3) else if v0 < 10000 then 0
                        else if x.stuck = 0 then 0 else (if others then 4 else 3) }
    else x
  if olen then
    let hi := if 12000 ≤ v1 then min 16 (x.hiN + 1) else 0
    let lo := if v1 < 10000 then min 4 (x.loN + 1) else 0
    { x with hiN := hi, loN := lo, openLd := if load then x.openLd else if 16 ≤ hi then true else if 4 ≤ lo then false else x.openLd
             v1s := (v1 :: x.v1s).take 16 }
  else { x with hiN := 0, loN := 0, openLd := load && x.openLd, v1s := [] }

/-- OUTPUT_FAULT_CHANGE: one frame's readings of an output, with its current and drop (R357-R360); off-state checks rest
while the output is on, blanked or in a LOST bank. -/
def execOutputFaultChange (n : Fin 32) (v0 v1 milliamps dropMv : Nat) (s : State) : R :=
  let x := s.dout n.val
  let m := n.val / 8
  let others := (List.range 32).any (fun i => i != n.val && s.doOn i)
  let off := !x.cmd && x.blank.isNone && s.bankState m != 2
  let y := if off then offChecks x others (s.loadTests n.val) s.frame v0 v1 else x
  let pin := if s.doOn n.val then decide (12000 + dropMv ≤ nth 0 s.fio.mv m)
    else if bit x.cfg 0 then decide (12000 ≤ v1) else decide (12000 ≤ v0)
  .next ((s.modDout n.val (fun _ => { y with pin := pin, ma := milliamps, drop := dropMv })).showDo n.val)

/-- OUTPUT_BLANKING_END: 32 frames after an output was applied off (R358). -/
def execOutputBlankingEnd (n : Fin 32) (s : State) : R :=
  match (s.dout n.val).blank with
  | some f =>
    if 32 ≤ (s.frame + 2 ^ 32 - f) % 2 ^ 32 then .next ((s.modDout n.val (fun x => { x with blank := none })).showDo n.val)
    else .next s
  | none => .next s

/-- Sum of a bank's sensed currents in mA (R353). -/
def State.bankCurrent (s : State) (m : Nat) : Nat := (List.range 8).foldl (fun a i => a + (s.dout (8 * m + i)).ma) 0

/-- A frame ends: the frames for which each bank's sum has stayed above 2.0 A or below 1.9 A (R353). -/
def State.bankSums (s : State) : State :=
  let sums := (List.range 4).map s.bankCurrent
  let next := fun (l : List Nat) (p : Nat → Bool) => (l.zip sums).map (fun e => if p e.2 then min 16000 (e.1 + 1) else 0)
  { s with fio := { s.fio with
    overN := next s.fio.overN (fun a => decide (2000 < a)), underN := next s.fio.underN (fun a => decide (a < 1900)) } }

/-- BANK_OVERCURRENT: the sum of a bank's currents has been above 2.0 A, or below 1.9 A, for 16 000 frames, and OVER becomes `above`
in the frame that the row names (R353, R361). -/
def execBankOvercurrent (bank : Fin 4) (above : Bool) (frame : BitVec 32) (s : State) : R :=
  let m := bank.val
  let k := Reg.FIO_BSTAT m
  if s.frame ≠ frame.toNat then .next s
  else if above = true ∧ s.flag k 3 = false ∧ 16000 ≤ nth 0 s.fio.overN m then
    .next (((s.setFlag k 3 true).setFlag (Reg.FIO_BFLAG m) 2 true).fieldRecord 6 0 (96 + m) everyLog true)
  else if above = false ∧ s.flag k 3 = true ∧ 16000 ≤ nth 0 s.fio.underN m then
    .next ((s.setFlag k 3 false).fieldRecord 7 0 (96 + m) everyLog true)
  else .next s

/-- The records of a drop or release: the supervisor's for the kennel, the engine die's per bank for every log (R364). -/
def State.dropRecords (s : State) (kind mask : Nat) : State :=
  if mask = 0 then s
  else
    let t := s.supRecord 0x21 (bytesLE 1 kind ++ bytesLE 1 mask ++ bytesLE 2 0 ++ bytesLE 4 s.sup.stFrame)
    if t.linkUp then (List.range 4).foldl (fun s m => if natBit mask m then s.fieldRecord kind 0 (96 + m) everyLog false else s) t
    else t

/-- rsv bits of FIO_BDROP. -/
def bdropRsv : Word := 0x00FFFF00#32

/-- The action of a write of FIO_BDROP: only from the service port and with KEY = 16#A7; a bank in both masks is dropped
(R364; assumption log 27). -/
def wrBdrop (p : Port) (v : Word) (s : State) : State :=
  if p ≠ .svc ∨ field v 31 24 ≠ 0xA7 then s
  else
    let drop := field v 3 0
    let rel := field v 7 4 - (field v 7 4 &&& drop)
    let t := s.setFld Reg.FIO_BDROP 3 0 (s.fld Reg.FIO_BDROP 3 0 ||| drop)
    let waiting := (s.fio.releasing ||| rel) - ((s.fio.releasing ||| rel) &&& drop)
    let t := { t with fio := { t.fio with releasing := if s.link.field.up then waiting else s.fio.releasing - (s.fio.releasing &&& drop) } }
    let t := if s.link.field.up then t
      else t.setFld Reg.FIO_BDROP 3 0 (t.fld Reg.FIO_BDROP 3 0 - (t.fld Reg.FIO_BDROP 3 0 &&& rel))
    let t := (List.range 4).foldl (fun s m => s.showBank m) t
    (t.dropRecords 4 drop).dropRecords 5 (field v 7 4)

/-- BANK_DROP: a write of FIO_BDROP with a DROP mask (R364). -/
def execBankDrop (p : Port) (v : Word) (s : State) : R :=
  gate s p .superv .global bdropRsv Reg.FIO_BDROP v (wrBdrop p)

/-- BANK_RELEASE: a write of FIO_BDROP with a RELEASE mask (R364). -/
def execBankRelease (p : Port) (v : Word) (s : State) : R :=
  gate s p .superv .global bdropRsv Reg.FIO_BDROP v (wrBdrop p)

end Sys2Proof.Machine
end

