-- ==== Sys2Proof/Machine/Order.lean ====
section
/-!
DEFINITION. Sys2Proof/Machine/Order.lean: the jobs of a frame and their order (R41, R44, R45, R160, R232): which G jobs a frame holds,
when each takes its turn, and what a job whose transactions find no majority leaves behind.
-/
namespace Sys2Proof.Machine

/-! ### What the plan holds -/

/-- Class, options and bay of an element (PEL_ICFG, R191), and whether the pedigree defines it. -/
def State.icls (s : State) (i : Nat) : Nat := s.fld (Reg.PEL_ICFG i) 28 24
def State.iopt (s : State) (i : Nat) : Nat := s.fld (Reg.PEL_ICFG i) 23 16
def State.ibay (s : State) (i : Nat) : Nat := s.fld (Reg.PEL_ICFG i) 5 0
def State.idef (s : State) (i : Nat) : Bool := s.flag (Reg.PEL_ICFG i) 31

def State.zdef (s : State) (z : Nat) : Bool := s.flag (Reg.PEL_ZCFG z) 31
/-- KIND 1: a check zone. -/
def State.zcheck (s : State) (z : Nat) : Bool := s.flag (Reg.PEL_ZCFG z) 30

/-- A task's definition in the program in force. -/
def State.taskOf (s : State) (p t : Nat) : Task := nth {} (s.part p).prog.tasks t

/-- Whether a G-tier task runs in the present frame (R41, R232). -/
def State.taskNow (s : State) (p t : Nat) : Bool :=
  let x := s.taskOf p t
  x.valid && !x.tierB && s.frame % 2 ^ x.n == x.phase

/-! ### Order -/

/-- The group of an element class (R160). -/
def classGroup (cls : Nat) : Nat :=
  match cls with
  | 16 => 1
  | 4 | 5 => 2
  | 17 => 5
  | 12 => 6
  | 14 => 7
  | _ => 3

/-- The place of a G job in plan order: elements and zones by group and index, check zones before the others, scheme tasks by
partition and number, the frame-closure job last (R44, R160, R232). Jobs are numbered as in RunSt.jobs. -/
def State.jobRank (s : State) (j : Nat) : Nat :=
  if j < 1024 then 1024 * classGroup (s.icls j) + j
  else if j < 1032 then 1024 * 4 + (if s.zcheck (j - 1024) then 0 else 8) + (j - 1024)
  else if j < 4096 then 1024 * 8 + j
  else 1024 * 16

/-- The G jobs of the present frame (R43, R160, R232). -/
def State.frameJobs (s : State) : List Nat :=
  (List.range s.pel.insts.length).filter s.idef
    ++ ((List.range 8).filter s.zdef).map (fun z => 1024 + z)
    ++ ((List.range 32).filter (fun k => s.taskNow (k / 8) (k % 8))).map (fun k => 2048 + k) ++ [4096]

/-- Whether every G job of the frame has completed (R45). -/
def State.jobsDone (s : State) : Bool := s.frameJobs.all (fun j => s.run.jobs.contains j)

/-- A partition's program swap whose boundary has come is still to be made (R257). -/
def State.swapOpen (s : State) (p : Nat) : Bool := s.run.swapDue.any (fun e => e.1 == p && frameReached s.frame e.2)

/-- Whether partition p swaps its program at the next boundary: its B-tier tasks are not run in this frame and not counted as
deferred (R257 step 1). -/
def State.swapsNext (s : State) (p : Nat) : Bool := s.run.swapDue.any (fun e => e.1 == p && e.2 == (s.frame + 1) % 2 ^ 32)

/-- Such a swap of any partition: no job runs before it (R50, R257). -/
def State.swapNow (s : State) : Bool := (List.range 4).any s.swapOpen

/-- Whether G jobs run in the present frame: the triad runs a plan, its image has been agreed and released, the voters have been tested,
and the plan stands (R44, R50, R216). -/
def State.jobsRun (s : State) : Bool := s.planRuns && s.triad.turn == 2 && !s.triad.held && !s.swapNow

/-- Whether it is a job's turn: it has not run in this frame, and every job before it has (R44). -/
def State.jobTurn (s : State) (j : Nat) : Bool :=
  s.jobsRun && !s.run.jobs.contains j
    && s.frameJobs.all (fun k => decide (s.jobRank j ≤ s.jobRank k) || s.run.jobs.contains k)

/-- Whether the frame stands at a job, whether or not its first part has run: every job before it has run and none after it (R44). -/
def State.jobPlace (s : State) (j : Nat) : Bool :=
  s.jobsRun && s.frameJobs.all (fun k =>
    if s.jobRank k < s.jobRank j then s.run.jobs.contains k else k == j || !s.run.jobs.contains k)

/-- A job is marked as run. -/
def State.ranJob (s : State) (j : Nat) : State := { s with run := { s.run with jobs := j :: s.run.jobs } }

/-! ### Transactions -/

/-- A job whose transactions found no majority: what it would have written outside the members' local SRAM is dropped, their own state
goes on (R211, R218, R223). -/
def State.localOnly (s t : State) : State := { s with pel := t.pel, slx := t.slx, freeIx := t.freeIx }

/-- A word inside its region that is not plausible data (R399, R400). -/
def State.badWord (s : State) (region w : Nat) : Bool := decide (w < s.regionWords region) && (s.rdMem region w).2

/-- The poison that a job's run meets in member m: in the member's own state, else in the inputs that all three read (R168, R408). -/
def State.jobPoison (s : State) (x : JobReads) (m : Nat) : Poison :=
  if x.own.any (s.badWord m) then .own else if x.shared.any (s.badWord 3) then .input else .clean

/-- The active members read a job's words: errors are counted, corrected or recorded as those of the triad (R408, R412). -/
def State.noteJob (s : State) (x : JobReads) : State :=
  (s.members.foldl (fun t m => t.noteReads m 4 (x.own.filter (fun w => decide (w < s.regionWords m)))) s).noteReads 3 4
    (x.shared.filter (fun w => decide (w < s.regionWords 3)))

/-- What the active members' copies come to, and what the voters report on a job that reads them: one odd member shows as a member that
disagrees (R220); without two alike there is no majority. -/
def State.agreed {α : Type} [DecidableEq α] (s : State) (x : Nat → α) (v : Voting) : α × Voting :=
  let ms := s.members
  match ms.find? (fun m => decide (ms.length < 2 * (ms.filter (fun k => decide (x k = x m))).length)) with
  | none => (x (nth 0 ms 0), { v with noMaj := true })
  | some m => match ms.filter (fun k => decide (x k ≠ x m)) with
    | [] => (x m, v)
    | k :: _ => let o : Option (Fin 3) := some (Fin.ofNat 3 k)
                (x m, { v with n1 := o, n2 := o, n3 := o })

/-- A job runs in the three members and its transactions, of class `cls`, pass the voters (R217, R218). -/
def State.voted (s : State) (v : Voting) (cls : Nat) (job : State → State) : State :=
  let w := s.vote v cls
  if w.2 then job w.1 else w.1.localOnly (job w.1)

end Sys2Proof.Machine
end

