-- ==== Sys2Proof/Machine/Scheme.lean ====
section
/-!
DEFINITION. Sys2Proof/Machine/Scheme.lean: Mydun scheme logic (R231-R250): operands, the instructions END to JF, task runs; rows
END to JF and SCHEME_TASK_RUN.
-/
namespace Sys2Proof.Machine

/-! ### Variables -/

def Vars.bit (v : Vars) (i : Nat) : Bool := sget (fun _ => false) v.b i
def Vars.setBit (v : Vars) (i : Nat) (x : Bool) : Vars := { v with b := sset (fun _ => false) v.b i x }
def Vars.fp (v : Vars) (i : Nat) : Word := sget (fun _ => 0#32) v.f i
def Vars.setFp (v : Vars) (i : Nat) (x : Word) : Vars := { v with f := sset (fun _ => 0#32) v.f i x }
def Vars.int (v : Vars) (i : Nat) : Word := sget (fun _ => 0#32) v.i i
def Vars.setInt (v : Vars) (i : Nat) (x : Word) : Vars := { v with i := sset (fun _ => 0#32) v.i i x }
def Vars.timer (v : Vars) (i : Nat) : Timer := sget (fun _ => {}) v.t i
def Vars.setTimer (v : Vars) (i : Nat) (x : Timer) : Vars := { v with t := sset (fun _ => {}) v.t i x }
def Vars.counter (v : Vars) (i : Nat) : Counter := sget (fun _ => {}) v.c i
def Vars.setCounter (v : Vars) (i : Nat) (x : Counter) : Vars := { v with c := sset (fun _ => {}) v.c i x }
def Vars.edge (v : Vars) (i : Nat) : Edge := sget (fun _ => {}) v.e i
def Vars.setEdge (v : Vars) (i : Nat) (x : Edge) : Vars := { v with e := sset (fun _ => {}) v.e i x }

/-- Whether a partition forces a target of a kind (R251). -/
def State.isForced (s : State) (p kind idx : Nat) : Bool := (s.part p).forces.any (fun f => f.kind == kind && f.index == idx)

/-! ### What a run reads -/

/-- Whether partition p may read what belongs to partition o (R236, R19). -/
def State.readable (s : State) (p : Nat) (o : Option Nat) : Bool :=
  match o with
  | none => true
  | some q => decide (1 ≤ s.granted q p)

/-- A mask of n bits a pattern of owners leaves readable. -/
def maskOf (n : Nat) (f : Nat → Bool) : Word :=
  BitVec.ofNat 32 ((List.range n).foldl (fun a i => if f i then a + 2 ^ i else a) 0)

/-- The bits of image word w that partition p may read (R236): words of bays, I/O points and host-written sections of other
partitions without a right read zero. -/
def State.imgMask (s : State) (p w : Nat) : Word :=
  let all := fun (o : Option Nat) => if s.readable p o then 0xFFFFFFFF#32 else 0#32
  let di := fun n => s.readable p (nth {} s.fio.di n).owner
  let dq := fun n => s.readable p (s.dout n).owner
  if w < 16 then 0xFFFFFFFF#32
  else if w < 400 then all (s.laneOwner (w - 16))
  else if w < 784 then all (s.laneOwner (w - 400))
  else if w < 1552 then all (s.laneOwner ((w - 784) / 2))
  else if w < 1936 then all (s.laneOwner (w - 1552))
  else if w < 1984 then all (s.bayOwner (w - 1936))
  else if w < 3520 then all (s.bayOwner ((w - 1984) / 32))
  else if w < 3544 then maskOf 32 (fun i => s.readable p (s.laneOwner (16 * (w - 3520) + i / 2)))
  else if w < 3548 then maskOf 32 (fun i => di (32 * ((w - 3544) % 2) + i))
  else if w < 3564 then (if di (56 + (w - 3548) % 8) then 0xFFFFFFFF#32 else 0#32)
  else if w = 3564 then maskOf 32 (fun i => di (56 + i % 8))
  else if w < 3576 then 0xFFFFFFFF#32
  else if w < 3580 then maskOf 32 dq
  else if w < 3584 then maskOf 32 (fun i => dq (8 * (w - 3580) + i / 4))
  else if w = 3584 then 0xFFFFFFFF#32
  else if w < 3601 then maskOf 32 (fun i => dq (2 * (w - 3585) + i / 16))
  else if w < 7704 then 0xFFFFFFFF#32
  else if w < 7960 then all (some ((w - 7704) / 64))
  else 0xFFFFFFFF#32

/-- Word w of the image as partition p reads it. -/
def State.imgFor (s : State) (p w : Nat) : Word := s.img w &&& s.imgMask p w

/-- The partition of an instance (its bay's) or of zone 1024 + z. -/
def State.instOwner (s : State) (i : Nat) : Option Nat :=
  if i < 1024 then s.bayOwner (s.fld (Reg.PEL_ICFG i) 5 0)
  else some (s.fld (Reg.PEL_ZCFG (i - 1024)) 29 28)

/-- The status word of an instance, or of a zone from 1024 on (R162). -/
def State.status (s : State) (i : Nat) : Word :=
  if i < 1024 then (nth {} s.pel.insts i).status else (nth {} s.pel.zones (i - 1024)).status

/-- That word as partition p reads it in space S (R236). -/
def State.statusFor (s : State) (p i : Nat) : Word := if s.readable p (s.instOwner i) then s.status i else 0#32

/-- The system bits of space Z (R238); the mode is that of the image header. -/
def State.sysBit (s : State) (p t i : Nat) : Bool :=
  let m := s.img 6
  let mode := field m 2 0
  let like := if mode = mDEGRADED then field m 6 4 else mode
  match i with
  | 0 => (nth {} (s.part p).tasks t).fresh
  | 1 => true
  | 2 => false
  | 3 => like == mTEST
  | 4 => like == mCOMMISSION
  | 5 => mode == mDEGRADED
  | 6 => !(s.part p).forces.isEmpty
  | _ => mode == mSAFE

/-- A bit operand (R236, R240). -/
def State.bitOp (s : State) (r : RunCtx) (o : Opnd) : Bool :=
  match o.space with
  | 0 => r.vars.bit o.index
  | 3 => (r.vars.timer o.index).q
  | 4 => (r.vars.counter o.index).q
  | 7 => bit (s.statusFor r.part (o.index / 32)) (o.index % 32)
  | 8 => bit (s.imgFor r.part (o.index / 32)) (o.index % 32)
  | 9 => bit r.vars.o o.index
  | _ => s.sysBit r.part r.task o.index

/-- A word operand: fp-read of F, K, Y; int-read of I, K, Y, S (R240, R242). -/
def State.wordOp (s : State) (r : RunCtx) (o : Opnd) : Word :=
  match o.space with
  | 1 => r.vars.fp o.index
  | 2 => r.vars.int o.index
  | 6 => nth 0#32 (s.part r.part).prog.pool o.index
  | 8 => s.imgFor r.part o.index
  | _ => s.statusFor r.part (o.index / 32)

/-- Write a bit operand; a forced target keeps its value (R251). -/
def State.putBit (s : State) (r : RunCtx) (o : Opnd) (x : Bool) : RunCtx :=
  if o.space = 9 then { r with vars := { r.vars with o := Sys2Proof.setBit r.vars.o o.index x } }
  else if s.isForced r.part 0 o.index then r
  else { r with vars := r.vars.setBit o.index x }

/-! ### Which operands an instruction may have (R240, R246 codes 2 to 4) -/

def bitRead : List Nat := [0, 3, 4, 7, 8, 9, 10]
def bitWrite : List Nat := [0, 9]
def fpRead : List Nat := [1, 6, 8]
def intRead : List Nat := [2, 6, 8, 7]

/-- Whether the index lies in its space (R235, R236). -/
def inSpace (isBit : Bool) (o : Opnd) : Bool :=
  match o.space with
  | 0 => decide (o.index < 8192)
  | 1 => decide (o.index < 2048)
  | 2 => decide (o.index < 512)
  | 3 => decide (o.index < 1024)
  | 4 => decide (o.index < 512)
  | 5 => decide (o.index < 1024)
  | 6 => decide (o.index < 4096)
  | 7 => decide (o.index < 1032 * 32) && (isBit || o.index % 32 == 0)
  | 8 => decide (o.index < (if isBit then 8192 * 32 else 8192))
  | 9 => decide (o.index < 32)
  | 10 => decide (o.index < 8)
  | _ => false

/-- An operand an instruction may have. -/
def opndOk (spaces : List Nat) (isBit : Bool) (o : Opnd) : Bool := spaces.contains o.space && inSpace isBit o

/-- Cycles of a bit read: 3 from S, Y, T, C, otherwise 2 (R241). -/
def bitCycles (o : Opnd) : Nat := if o.space = 7 ∨ o.space = 8 ∨ o.space = 3 ∨ o.space = 4 then 3 else 2

/-! ### Records and registers of a task -/

/-- A scheme record (R260): the partition's log; kinds 2 to 6 also the kennel. -/
def State.schemeRecord (s : State) (p kind task fkind a b c : Nat) : State :=
  s.post 0x19 (srcOf 3 p) (bytesLE 1 kind ++ bytesLE 1 p ++ bytesLE 1 task ++ bytesLE 1 fkind ++ s.frameBytes
    ++ bytesLE 4 a ++ bytesLE 4 b ++ bytesLE 4 c) (logOf p) (decide (2 ≤ kind) && decide (kind ≤ 6))

def State.modTask (s : State) (p t : Nat) (f : TaskSt → TaskSt) : State :=
  s.modPart p (fun x => { x with tasks := modAt x.tasks t f })

/-- SLX_TSTAT.FIRST and SKIP follow the task (R262). -/
def State.showTask (s : State) (p t : Nat) : State :=
  let x := nth {} (s.part p).tasks t
  let k := Reg.SLX_TSTAT p t
  (s.setFlag k 7 x.fresh).setFlag k 6 x.skip

/-- The O job of a B-tier task (R418 KIND 7). -/
def State.taskJob (s : State) (p t : Nat) : Option OJob := s.ojobs.find? (fun j => j.kind == 7 && j.target == 8 * p + t)

/-- A B-tier task's cycle budget (R231). -/
def State.taskBudget (s : State) (p t : Nat) : Nat :=
  match s.taskJob p t with
  | some j => j.cycles
  | none => 0

/-! ### The run -/

/-- The start of a run (R237, R240, R249). -/
def State.beginRun (s : State) (p t : Nat) : RunCtx :=
  { part := p, task := t, vars := (s.part p).vars, cycles := 60, active := true }

/-- The run in progress; with none, the first instruction begins a run of the context's task (assumption log 33). -/
def State.ctx (s : State) : RunCtx := if s.slx.run.active then s.slx.run else s.beginRun s.slx.run.part s.slx.run.task

def State.setRun (s : State) (r : RunCtx) : State := { s with slx := { s.slx with run := r } }

/-- A run ends without END: it commits nothing (R237); SLX_TSTAT.LAST shows its cycles with the exit (R262). -/
def State.dropRun (s : State) (r : RunCtx) : State :=
  (s.setRun { r with active := false }).setFld (Reg.SLX_TSTAT r.part r.task) 31 16 (r.cycles + 40)

/-- A B-tier run overruns before an instruction (R249). -/
def State.overrun (s : State) (r : RunCtx) : State :=
  let p := r.part
  let t := r.task
  let u := (s.dropRun r).modTask p t (fun x => { x with skip := true })
  let u := ((u.setFlag (Reg.SLX_TSTAT p t) 4 true).satFld (Reg.SLX_TCNT p t) 31 16 1).showTask p t
  u.schemeRecord p 1 t 0 r.cycles r.pc (s.taskBudget p t)

/-- A run stops on poison (R250). -/
def State.poisonRun (s : State) (r : RunCtx) : State :=
  ((s.dropRun r).setFlag (Reg.SLX_TSTAT r.part r.task) 5 true).schemeRecord r.part 7 r.task 0 r.pc 0 0

/-- Whether the next instruction of a B-tier run exceeds the budget (R249). -/
def State.overruns (s : State) (r : RunCtx) (cyc : Nat) : Bool :=
  (nth {} (s.part r.part).prog.tasks r.task).tierB && decide (s.taskBudget r.part r.task < r.cycles + cyc + 40)

/-- One instruction of a run: its cycles are checked and counted, its effect applied, the position moves on (R239, R249). -/
def State.instr (s : State) (cyc : Nat) (f : RunCtx → RunCtx) : State :=
  let r := s.ctx
  if s.overruns r cyc then s.overrun r
  else
    s.setRun (f { r with cycles := r.cycles + cyc, pc := r.pc + 1 })

/-- An instruction with an operand, as a command: an operand that R246 refuses at load never reaches a program. -/
def mRow (spaces : List Nat) (isBit : Bool) (o : Opnd) (cyc : Nat) (f : State → RunCtx → RunCtx) (s : State) : R :=
  if opndOk spaces isBit o then .next (s.instr cyc (f s)) else .refused .notInProgram

/-- A bit write also needs the output to be the partition's (R246 code 4). -/
def mWrite (o : Opnd) (f : State → RunCtx → RunCtx) (s : State) : R :=
  if opndOk bitWrite true o && (o.space != 9 || (s.dout o.index).owner == some s.ctx.part) then .next (s.instr 3 (f s))
  else .refused .notInProgram

/-! ### Effects of the instructions (R241-R245) -/

def mLd (o : Opnd) (s : State) (r : RunCtx) : RunCtx := { r with bacc := s.bitOp r o }
def mLdn (o : Opnd) (s : State) (r : RunCtx) : RunCtx := { r with bacc := !s.bitOp r o }
def mAnd (o : Opnd) (s : State) (r : RunCtx) : RunCtx := { r with bacc := r.bacc && s.bitOp r o }
def mAndn (o : Opnd) (s : State) (r : RunCtx) : RunCtx := { r with bacc := r.bacc && !s.bitOp r o }
def mOr (o : Opnd) (s : State) (r : RunCtx) : RunCtx := { r with bacc := r.bacc || s.bitOp r o }
def mOrn (o : Opnd) (s : State) (r : RunCtx) : RunCtx := { r with bacc := r.bacc || !s.bitOp r o }
def mXor (o : Opnd) (s : State) (r : RunCtx) : RunCtx := { r with bacc := r.bacc != s.bitOp r o }
def mNot (r : RunCtx) : RunCtx := { r with bacc := !r.bacc }
def mSt (o : Opnd) (s : State) (r : RunCtx) : RunCtx := s.putBit r o r.bacc
def mStn (o : Opnd) (s : State) (r : RunCtx) : RunCtx := s.putBit r o (!r.bacc)
def mSet (o : Opnd) (s : State) (r : RunCtx) : RunCtx := if r.bacc then s.putBit r o true else r
def mRst (o : Opnd) (s : State) (r : RunCtx) : RunCtx := if r.bacc then s.putBit r o false else r
/-- PUSH onto a full stack discards the oldest entry (R240). -/
def mPush (r : RunCtx) : RunCtx := { r with stack := (r.bacc :: r.stack).take 4 }
/-- A pop from an empty stack gives 0 (R240). -/
def RunCtx.top (r : RunCtx) : Bool := nth false r.stack 0
def mAndp (r : RunCtx) : RunCtx := { r with bacc := r.bacc && r.top, stack := r.stack.drop 1 }
def mOrp (r : RunCtx) : RunCtx := { r with bacc := r.bacc || r.top, stack := r.stack.drop 1 }

/-- An edge instance's evaluation (R245): prime takes P := BACC and reports 0. -/
def mEdge (rise : Bool) (o : Opnd) (r : RunCtx) : RunCtx :=
  let e := r.vars.edge o.index
  let b := if e.prime then false else if rise then r.bacc && !e.p else e.p && !r.bacc
  { r with bacc := b, vars := r.vars.setEdge o.index { p := r.bacc, prime := false } }

/-- Elapsed frames of a timer at frame f (R243). -/
def elapsed (x : Timer) (f : Nat) : Nat :=
  match x.lf with
  | some g => (f + 2 ^ 32 - g) % 2 ^ 32
  | none => 0

/-- ET saturates at 2^31 - 1 (R243). -/
def addEt (et e : Nat) : Nat := min (2 ^ 31 - 1) (et + e)

/-- A timer's evaluation by a rule (R243): then PIN, LF and BACC. -/
def mTimer (rule : Bool → Nat → Timer → Timer) (o : Opnd) (s : State) (r : RunCtx) : RunCtx :=
  let x := r.vars.timer o.index
  let y := rule r.bacc (elapsed x s.frame) x
  { r with bacc := y.q, vars := r.vars.setTimer o.index { y with pin := r.bacc, lf := some s.frame } }

def ruleTon (i : Bool) (e : Nat) (x : Timer) : Timer :=
  let et := if i = false then 0 else if x.pin then addEt x.et e else 0
  { x with et := et, q := i && decide (x.pt ≤ et) }

def ruleTof (i : Bool) (e : Nat) (x : Timer) : Timer :=
  if i then { x with et := 0, q := true }
  else
    let et := if x.pin then 0 else addEt x.et e
    { x with et := et, q := x.q && decide (et < x.pt) }

def ruleTp (i : Bool) (e : Nat) (x : Timer) : Timer :=
  let y := if x.q then (let et := addEt x.et e; { x with et := et, q := decide (et < x.pt) }) else x
  if i && !x.pin && !y.q then { y with q := true, et := 0 } else y

def mTrst (o : Opnd) (r : RunCtx) : RunCtx :=
  if r.bacc then { r with vars := r.vars.setTimer o.index { r.vars.timer o.index with et := 0, q := false, pin := false } } else r

def mCtu (o : Opnd) (r : RunCtx) : RunCtx :=
  let x := r.vars.counter o.index
  let cv := if r.bacc && !x.up then min (x.cv + 1) (2 ^ 31 - 1) else x.cv
  let q := decide (x.pv ≤ cv)
  { r with bacc := q, vars := r.vars.setCounter o.index { x with cv := cv, up := r.bacc, q := q } }

def mCtd (o : Opnd) (r : RunCtx) : RunCtx :=
  let x := r.vars.counter o.index
  let cv := if r.bacc && !x.dn then max (x.cv - 1) (-2 ^ 31) else x.cv
  let q := decide (cv ≤ 0)
  { r with bacc := q, vars := r.vars.setCounter o.index { x with cv := cv, dn := r.bacc, q := q } }

def mCrs (o : Opnd) (r : RunCtx) : RunCtx :=
  if r.bacc then { r with vars := r.vars.setCounter o.index { r.vars.counter o.index with cv := 0 } } else r

/-- PT := KACC, negative values taken as 0 (R241). -/
def mSpt (o : Opnd) (r : RunCtx) : RunCtx :=
  { r with vars := r.vars.setTimer o.index { r.vars.timer o.index with pt := r.kacc.toInt.toNat } }
def mSpv (o : Opnd) (r : RunCtx) : RunCtx :=
  { r with vars := r.vars.setCounter o.index { r.vars.counter o.index with pv := r.kacc.toInt } }
def mLet (o : Opnd) (r : RunCtx) : RunCtx := { r with kacc := BitVec.ofNat 32 (r.vars.timer o.index).et }
def mLcv (o : Opnd) (r : RunCtx) : RunCtx := { r with kacc := BitVec.ofInt 32 (r.vars.counter o.index).cv }

/-- FACC becomes g FACC op; a subnormal operand or result is a zero (R242). -/
def mFp (g : Word → Word → Word) (o : Opnd) (s : State) (r : RunCtx) : RunCtx := { r with facc := g r.facc (s.wordOp r o) }
def mFcmp (g : Word → Word → Bool) (o : Opnd) (s : State) (r : RunCtx) : RunCtx := { r with bacc := g r.facc (s.wordOp r o) }
/-- An fp-read takes a subnormal operand as zero (R242). -/
def mLdf (o : Opnd) (s : State) (r : RunCtx) : RunCtx := { r with facc := fpFlush (s.wordOp r o) }
def mStf (o : Opnd) (s : State) (r : RunCtx) : RunCtx :=
  if s.isForced r.part 1 o.index then r else { r with vars := r.vars.setFp o.index r.facc }
def mSelf (o : Opnd) (s : State) (r : RunCtx) : RunCtx := if r.bacc then { r with facc := fpFlush (s.wordOp r o) } else r
def mInt (g : Word → Word → Word) (o : Opnd) (s : State) (r : RunCtx) : RunCtx := { r with kacc := g r.kacc (s.wordOp r o) }
def mIcmp (g : Word → Word → Bool) (o : Opnd) (s : State) (r : RunCtx) : RunCtx := { r with bacc := g r.kacc (s.wordOp r o) }
def mStk (o : Opnd) (s : State) (r : RunCtx) : RunCtx :=
  if s.isForced r.part 2 o.index then r else { r with vars := r.vars.setInt o.index r.kacc }

/-- A branch: to pc + 1 + OFF; `instr` has added the 1 (R239). -/
def mJump (take : Bool) (off : BitVec 26) (r : RunCtx) : RunCtx :=
  if take then { r with pc := ((r.pc : Int) + off.toInt).toNat } else r

/-- END: the output image is committed and the run ends (R237); Z bit 0 falls (R238). -/
def State.endRun (s : State) : State :=
  let r := s.ctx
  if s.overruns r 1 then s.overrun r
  else
    let t := s.setRun { r with active := false, ended := true, cycles := r.cycles + 1 }
    let t := (t.modPart r.part (fun x => { x with vars := r.vars })).modTask r.part r.task (fun x => { x with fresh := false })
    (t.setFld (Reg.SLX_TSTAT r.part r.task) 31 16 (r.cycles + 41)).showTask r.part r.task

/-! ### Rows END to JF -/

def execMEnd (s : State) : R := .next s.endRun
def execLd (o : Opnd) (s : State) : R := mRow bitRead true o (bitCycles o) (mLd o) s
def execLdn (o : Opnd) (s : State) : R := mRow bitRead true o (bitCycles o) (mLdn o) s
def execAnd (o : Opnd) (s : State) : R := mRow bitRead true o (bitCycles o) (mAnd o) s
def execAndn (o : Opnd) (s : State) : R := mRow bitRead true o (bitCycles o) (mAndn o) s
def execOr (o : Opnd) (s : State) : R := mRow bitRead true o (bitCycles o) (mOr o) s
def execOrn (o : Opnd) (s : State) : R := mRow bitRead true o (bitCycles o) (mOrn o) s
def execXor (o : Opnd) (s : State) : R := mRow bitRead true o (bitCycles o) (mXor o) s
def execNot (s : State) : R := .next (s.instr 1 mNot)
def execSt (o : Opnd) (s : State) : R := mWrite o (mSt o) s
def execStn (o : Opnd) (s : State) : R := mWrite o (mStn o) s
def execSet (o : Opnd) (s : State) : R := mWrite o (mSet o) s
def execRst (o : Opnd) (s : State) : R := mWrite o (mRst o) s
def execPush (s : State) : R := .next (s.instr 1 mPush)
def execAndp (s : State) : R := .next (s.instr 1 mAndp)
def execOrp (s : State) : R := .next (s.instr 1 mOrp)
def execRise (o : Opnd) (s : State) : R := mRow [5] false o 4 (fun _ => mEdge true o) s
def execFall (o : Opnd) (s : State) : R := mRow [5] false o 4 (fun _ => mEdge false o) s
def execTon (o : Opnd) (s : State) : R := mRow [3] false o 8 (mTimer ruleTon o) s
def execTof (o : Opnd) (s : State) : R := mRow [3] false o 8 (mTimer ruleTof o) s
def execTp (o : Opnd) (s : State) : R := mRow [3] false o 8 (mTimer ruleTp o) s
def execTrst (o : Opnd) (s : State) : R := mRow [3] false o 4 (fun _ => mTrst o) s
def execCtu (o : Opnd) (s : State) : R := mRow [4] false o 6 (fun _ => mCtu o) s
def execCtd (o : Opnd) (s : State) : R := mRow [4] false o 6 (fun _ => mCtd o) s
def execCrs (o : Opnd) (s : State) : R := mRow [4] false o 4 (fun _ => mCrs o) s
def execSpt (o : Opnd) (s : State) : R := mRow [3] false o 3 (fun _ => mSpt o) s
def execSpv (o : Opnd) (s : State) : R := mRow [4] false o 3 (fun _ => mSpv o) s
def execLetT (o : Opnd) (s : State) : R := mRow [3] false o 3 (fun _ => mLet o) s
def execLcv (o : Opnd) (s : State) : R := mRow [4] false o 3 (fun _ => mLcv o) s
def execLdf (o : Opnd) (s : State) : R := mRow fpRead false o 3 (mLdf o) s
def execStf (o : Opnd) (s : State) : R := mRow [1] false o 3 (mStf o) s
def execAddf (o : Opnd) (s : State) : R := mRow fpRead false o 4 (mFp fpAdd o) s
def execSubf (o : Opnd) (s : State) : R := mRow fpRead false o 4 (mFp fpSub o) s
def execMulf (o : Opnd) (s : State) : R := mRow fpRead false o 4 (mFp fpMul o) s
def execDivf (o : Opnd) (s : State) : R := mRow fpRead false o 12 (mFp fpDiv o) s
def mMin (a b : Word) : Word := fpFlush (fpMin a b)
def mMax (a b : Word) : Word := fpFlush (fpMax a b)
def execMinf (o : Opnd) (s : State) : R := mRow fpRead false o 3 (mFp mMin o) s
def execMaxf (o : Opnd) (s : State) : R := mRow fpRead false o 3 (mFp mMax o) s
def mAbsf (r : RunCtx) : RunCtx := { r with facc := fpAbs (fpFlush r.facc) }
def mNegf (r : RunCtx) : RunCtx := { r with facc := fpNeg (fpFlush r.facc) }
def mSqrtf (r : RunCtx) : RunCtx := { r with facc := fpSqrt r.facc }
def execAbsf (s : State) : R := .next (s.instr 1 mAbsf)
def execNegf (s : State) : R := .next (s.instr 1 mNegf)
def execSqrtf (s : State) : R := .next (s.instr 14 mSqrtf)
def execGtf (o : Opnd) (s : State) : R := mRow fpRead false o 3 (mFcmp (fun a b => fpLt b a) o) s
def execGef (o : Opnd) (s : State) : R := mRow fpRead false o 3 (mFcmp (fun a b => fpLe b a) o) s
def execLtf (o : Opnd) (s : State) : R := mRow fpRead false o 3 (mFcmp fpLt o) s
def execLef (o : Opnd) (s : State) : R := mRow fpRead false o 3 (mFcmp fpLe o) s
def execSelf (o : Opnd) (s : State) : R := mRow fpRead false o 3 (mSelf o) s
def execLdk (o : Opnd) (s : State) : R := mRow intRead false o 3 (mInt (fun _ b => b) o) s
def execStk (o : Opnd) (s : State) : R := mRow [2] false o 3 (mStk o) s
def execAddk (o : Opnd) (s : State) : R := mRow intRead false o 2 (mInt (· + ·) o) s
def execSubk (o : Opnd) (s : State) : R := mRow intRead false o 2 (mInt (· - ·) o) s
def execMulk (o : Opnd) (s : State) : R := mRow intRead false o 4 (mInt (· * ·) o) s
def execAndk (o : Opnd) (s : State) : R := mRow intRead false o 2 (mInt (· &&& ·) o) s
def execOrk (o : Opnd) (s : State) : R := mRow intRead false o 2 (mInt (· ||| ·) o) s
def execXork (o : Opnd) (s : State) : R := mRow intRead false o 2 (mInt (· ^^^ ·) o) s
def execGtk (o : Opnd) (s : State) : R := mRow intRead false o 2 (mIcmp (fun a b => BitVec.slt b a) o) s
def execEqk (o : Opnd) (s : State) : R := mRow intRead false o 2 (mIcmp (· == ·) o) s
def execLtk (o : Opnd) (s : State) : R := mRow intRead false o 2 (mIcmp BitVec.slt o) s
def mItof (r : RunCtx) : RunCtx := { r with facc := fpOfInt r.kacc.toInt }
def mFtoi (r : RunCtx) : RunCtx := { r with kacc := BitVec.ofInt 32 (fpToInt r.facc) }
def execItof (s : State) : R := .next (s.instr 3 mItof)
def execFtoi (s : State) : R := .next (s.instr 3 mFtoi)
def execJmp (off : BitVec 26) (s : State) : R := .next (s.instr 2 (mJump true off))
def execJt (off : BitVec 26) (s : State) : R := .next (s.instr 2 (fun r => mJump r.bacc off r))
def execJf (off : BitVec 26) (s : State) : R := .next (s.instr 2 (fun r => mJump (!r.bacc) off r))

/-! ### Task runs -/

/-- The row of an instruction word (R239, R241). Unused codes and operands that R246 refuses never stand in a program. -/
def runWord (w : Word) (s : State) : R :=
  let o : Opnd := ⟨field w 25 22, field w 21 0⟩
  let off : BitVec 26 := w.setWidth 26
  match field w 31 26 with
  | 0x00 => execMEnd s
  | 0x01 => execLd o s
  | 0x02 => execLdn o s
  | 0x03 => execAnd o s
  | 0x04 => execAndn o s
  | 0x05 => execOr o s
  | 0x06 => execOrn o s
  | 0x07 => execXor o s
  | 0x08 => execNot s
  | 0x09 => execSt o s
  | 0x0A => execStn o s
  | 0x0B => execSet o s
  | 0x0C => execRst o s
  | 0x0D => execPush s
  | 0x0E => execAndp s
  | 0x0F => execOrp s
  | 0x10 => execRise o s
  | 0x11 => execFall o s
  | 0x12 => execTon o s
  | 0x13 => execTof o s
  | 0x14 => execTp o s
  | 0x15 => execTrst o s
  | 0x16 => execCtu o s
  | 0x17 => execCtd o s
  | 0x18 => execCrs o s
  | 0x19 => execSpt o s
  | 0x1A => execSpv o s
  | 0x1B => execLetT o s
  | 0x1C => execLcv o s
  | 0x20 => execLdf o s
  | 0x21 => execStf o s
  | 0x22 => execAddf o s
  | 0x23 => execSubf o s
  | 0x24 => execMulf o s
  | 0x25 => execDivf o s
  | 0x26 => execMinf o s
  | 0x27 => execMaxf o s
  | 0x28 => execAbsf s
  | 0x29 => execNegf s
  | 0x2A => execSqrtf s
  | 0x2B => execGtf o s
  | 0x2C => execGef o s
  | 0x2D => execLtf o s
  | 0x2E => execLef o s
  | 0x2F => execSelf o s
  | 0x30 => execLdk o s
  | 0x31 => execStk o s
  | 0x32 => execAddk o s
  | 0x33 => execSubk o s
  | 0x34 => execMulk o s
  | 0x35 => execAndk o s
  | 0x36 => execOrk o s
  | 0x37 => execXork o s
  | 0x38 => execGtk o s
  | 0x39 => execEqk o s
  | 0x3A => execLtk o s
  | 0x3B => execItof s
  | 0x3C => execFtoi s
  | 0x3D => execJmp off s
  | 0x3E => execJt off s
  | 0x3F => execJf off s
  | _ => .refused .notInProgram

/-- Run a task's code from the run's position until the run ends; positions `pois` read a poisoned word (R250). What R246 keeps out of a
program ends the run without a commit. -/
def runCode (code : List Word) (pois : List Nat) : Nat → State → State
  | 0, s => if s.slx.run.active then s.dropRun s.slx.run else s
  | n + 1, s =>
    let r := s.slx.run
    if r.active = false then s
    else if pois.contains r.pc then s.poisonRun r
    else match code[r.pc]? with
      | none => s.dropRun r
      | some w => match runWord w s with
        | .next t => runCode code pois n t
        | _ => s.dropRun r

/-- A task's code in the program in force. -/
def State.taskCode (s : State) (p t : Nat) : List Word :=
  let x := s.taskOf p t
  ((s.part p).prog.code.drop x.first).take x.words

/-- SCHEME_TASK_RUN (R232-R237, R249, R250): a G-tier task at its turn in the frames of its period and phase, a B-tier task when a run
of its O job was admitted and no swap of its program follows the frame (R257); `reads` names the words
that instructions of it read, by position; the three members' stores pass the voters (R217). -/
def execSchemeTaskRun (part : Fin 4) (task : Fin 8) (reads : List (Nat × JobReads)) (v : Voting) (s : State) : R :=
  let p := part.val
  let t := task.val
  let x := s.taskOf p t
  let due := if x.tierB then x.valid && s.canRun 7 (8 * p + t) && !s.swapsNext p else s.taskNow p t && s.jobTurn (2048 + 8 * p + t)
  if due = false then .next s
  else
    let u := if x.tierB then s.takeRun 7 (8 * p + t) else s.ranJob (2048 + 8 * p + t)
    let a := s.agreed (fun m => (reads.filter (fun e => decide (s.jobPoison e.2 m ≠ .clean))).map Prod.fst) v
    let u := reads.foldl (fun u e => u.noteJob e.2) u
    .next (u.voted a.2 1 (fun w =>
      let code := w.taskCode p t
      let fuel := if x.tierB then s.taskBudget p t else code.length
      runCode code a.1 fuel (w.setRun (w.beginRun p t))))

end Sys2Proof.Machine
end

