-- ==== Sys2Proof/Machine/Elements.lean ====
section
/-!
DEFINITION. Sys2Proof/Machine/Elements.lean: protection elements (R159-R185, R189, R190, R455): rows ELEMENT_INSTANCE_RUN
and RFLO_CAPTURE_COMPLETE.
-/
namespace Sys2Proof.Machine

/-! ### Instances, settings and delays -/

def State.elem (s : State) (i : Nat) : ElemSt := nth {} s.pel.insts i
def State.modElem (s : State) (i : Nat) (f : ElemSt → ElemSt) : State :=
  { s with pel := { s.pel with insts := modAt s.pel.insts i f } }

/-- Setting word k of an instance: as a pattern, as a number, as an unsigned integer (R171). -/
def State.setW (s : State) (i k : Nat) : Word := nth 0#32 (s.elem i).words k
def State.setR (s : State) (i k : Nat) : Rat := fpRat (s.setW i k)
def State.setN (s : State) (i k : Nat) : Nat := (s.setW i k).toNat

/-- N(T): the frames of a delay setting (R165). -/
def framesOf (w : Word) : Nat := (fpRat w * 16000 * (1 - mkRat 1 4194304)).ceil.toNat

/-- Bit n of a partition's bit space, false for the index 16#FFFF (R161). -/
def State.schemeBit (s : State) (p : Option Nat) (n : Nat) : Bool :=
  match p with
  | some p => n != 0xFFFF && (s.part p).vars.bit (n % 8192)
  | none => false

/-- The scheme bit that setting word k of an instance names. -/
def State.ibit (s : State) (i k : Nat) : Bool := s.schemeBit (s.instOwner i) (s.setN i k % 65536)

/-! ### Inputs (R161, R166) -/

/-- An input as R166 inspects it: U, O, S, T in bits 0 to 3, and whether it is absent. -/
structure Inp where
  fl : Nat := 0
  absent : Bool := false
deriving DecidableEq, Repr

/-- The flags of a stage-A-rate word in that order. -/
def wordFl (w : Word) : Nat := b2n (wordU w) + 2 * b2n (wordO w) + 4 * b2n (wordS w) + 8 * b2n (wordT w)

/-- A quantity and whether an input of it carries O. -/
structure Qty where
  v : Rat := 0
  o : Bool := false
deriving DecidableEq, Repr

/-- The words of a lane as elements see them, newest first, each with the gain it was formed at (R161). -/
def State.laneWin (s : State) (l n : Nat) : List (Word × Nat) :=
  ((s.img (16 + l), (s.lane l).eGain) :: (s.lane l).eHist).take n

/-- W of a bay: 16 000 / f_trk, with EN = 0 the internal f0 (R141, R150). -/
def State.cycleLen (s : State) (b : Nat) : Rat :=
  let w := s.img (1984 + 32 * b)
  16000 / (if w = 0#32 then nominal (s.bay b).cfg else fpRat w)

/-- Whether the bay forms results (R150). -/
def State.bayEn (s : State) (b : Nat) : Bool := s.img (1984 + 32 * b) != 0#32

/-- Inputs and values of the newest n words of the lane that holds a role; values in primary units, newest first. -/
def State.roleWin (s : State) (b role n : Nat) : List Inp × List Qty :=
  match s.roleLane b role with
  | none => ([⟨0, true⟩], [])
  | some k =>
    let ws := s.laneWin (8 * b + k) n
    (ws.map (fun e => ⟨wordFl e.1, false⟩), ws.map (fun e => ⟨s.primary (8 * b + k) e, wordO e.1⟩))

/-- The sum of several roles' words, position by position. -/
def sumWins (n : Nat) (l : List (List Qty)) : List Qty :=
  (List.range n).map (fun j => l.foldl (fun a q => let x := nth {} q j; ⟨a.v + x.v, a.o || x.o⟩) {})

/-- Inputs and values of a sum of roles. -/
def State.winOf (s : State) (b : Nat) (roles : List Nat) (n : Nat) : List Inp × List Qty :=
  let ws := roles.map (fun r => s.roleWin b r n)
  (ws.flatMap Prod.fst, sumWins n (ws.map Prod.snd))

/-- The phasors of a bay in the present image. -/
def State.livePh (s : State) (b : Nat) : PhEnt :=
  { frame := (s.frame + 2 ^ 32 - 2) % 2 ^ 32, tb := s.time.p2Tb
    words := (List.range 16).map (fun j => s.img (784 + 16 * b + j))
    flags := s.img (1936 + b), fTrk := s.img (1984 + 32 * b) }

/-- The phasors of the image n frames ago. -/
def State.phAt (s : State) (b n : Nat) : PhEnt := if n = 0 then s.livePh b else nth {} (s.bay b).phHist (n - 1)

/-- A phasor: value, magnitude, angle and flags. -/
structure Ph where
  x : Cx := (0, 0)
  mag : Rat := 0
  ang : Rat := 0
  fl : Nat := 0
deriving DecidableEq, Repr

def phOf (m a : Word) (fl : Nat) : Ph := ⟨cxScale (fpRat m) (cxExp (fpRat a)), fpRat m, fpRat a, fl⟩

/-- Lane k of a stored set of phasors. -/
def PhEnt.at (e : PhEnt) (k : Nat) : Ph :=
  phOf (nth 0#32 e.words (2 * k)) (nth 0#32 e.words (2 * k + 1)) (field e.flags (4 * k + 3) (4 * k))

/-- The phasor of a role n frames ago; absent for want of the lane or of results (R166). -/
def State.rolePhAt (s : State) (b role n : Nat) : Inp × Ph :=
  let e := s.phAt b n
  match s.roleLane b role with
  | some k => if e.fTrk = 0#32 then (⟨0, true⟩, {}) else (let p := e.at k; (⟨p.fl, false⟩, p))
  | none => (⟨0, true⟩, {})

def State.rolePh (s : State) (b role : Nat) : Inp × Ph := s.rolePhAt b role 0

/-- |sum of phasors| with signs: one role's own magnitude, or the magnitude of the sum. -/
def State.sumPh (s : State) (b : Nat) (roles : List (Nat × Int)) : List Inp × Qty :=
  let ps := roles.map (fun r => (s.rolePh b r.1, r.2))
  let o := ps.any (fun e => natBit e.1.1.fl 1)
  let v := match ps with
    | [e] => e.1.2.mag
    | _ => cxAbs (ps.foldl (fun a e => cxAdd a (cxScale (e.2 : Rat) e.1.2.x)) (0, 0))
  (ps.map (fun e => e.1.1), ⟨v, o⟩)

/-- True RMS of a role, with the flags of its words over the full cycle (R144): W is that of the frame before (R141). -/
def State.roleRms (s : State) (b role : Nat) : List Inp × Qty :=
  match s.roleLane b role with
  | some k =>
    if s.bayEn b then
      let f := (s.phAt b 1).fTrk
      let w := 16000 / (if f = 0#32 then nominal (s.bay b).cfg else fpRat f)
      let fl := spanFlags ((s.laneWin (8 * b + k) (w.floor.toNat + 1)).map Prod.fst)
      ([⟨fl, false⟩], ⟨fpRat (s.img (1552 + 8 * b + k)), natBit fl 1⟩)
    else ([⟨0, true⟩], {})
  | none => ([⟨0, true⟩], {})

/-- Sequence component c (0, 1, 2) of the current set (k = 0) or the voltage set (k = 1) of a bay (R145, MSR_QUAL2). -/
def State.seqPh (s : State) (b k c : Nat) : Inp × Ph :=
  let base := 1984 + 32 * b
  let q2 := s.img (base + 25)
  let fl := field q2 (4 * k + 3) (4 * k)
  if s.bayEn b = false ∨ bit q2 (8 + k) = true then (⟨0, true⟩, {})
  else (⟨fl, false⟩, phOf (s.img (base + 3 + 6 * k + 2 * c)) (s.img (base + 4 + 6 * k + 2 * c)) fl)

/-- A sequence magnitude as a quantity. -/
def State.seqQ (s : State) (b k c : Nat) : List Inp × Qty :=
  let p := s.seqPh b k c
  ([p.1], ⟨p.2.mag, natBit p.1.fl 1⟩)

/-! ### Status words, starts and timers -/

/-- The bits n of a list as a number. -/
def bitsAt (l : List (Nat × Bool)) : Nat := l.foldl (fun a e => if e.2 then natSetBit a e.1 true else a) 0

/-- STR and OP with their phase bits (R162): (output 0-3, value). -/
def strOp (str op : List (Nat × Bool)) : Nat :=
  bitsAt ([(0, str.any Prod.snd), (5, op.any Prod.snd)] ++ str.map (fun e => (1 + e.1, e.2))
    ++ op.map (fun e => (6 + e.1, e.2)))

/-- The over-type start (R164, R166). -/
def startOver (prev : Bool) (q : Qty) (pu hys : Rat) : Bool :=
  q.o || decide (pu ≤ q.v) || (prev && decide ((1 - hys) * pu ≤ q.v))

/-- The under-type start (R164, R166). -/
def startUnder (prev : Bool) (q : Qty) (pu hys : Rat) : Bool :=
  !q.o && (decide (q.v ≤ pu) || (prev && decide (q.v ≤ (1 + hys) * pu)))

/-- A timer's count (R165). -/
def timerCount (c : Bool) (n : Nat) : Nat := if c then n + 1 else 0

/-- What an evaluation leaves: the instance, its status bits, PEL_IVAL and PEL_IACC (R191). -/
structure Eval where
  e : ElemSt
  st : Nat
  val : Option Word := none
  acc : Option Nat := none
deriving DecidableEq, Repr

/-- What a class reads, and its normal evaluation. -/
structure Reading where
  ins : List Inp
  eval : ElemSt → Eval

/-- The absolute value. -/
def absRat (x : Rat) : Rat := if x < 0 then -x else x
/-- The highest of some values. -/
def maxRat (l : List Rat) : Rat := l.foldl (fun a x => if a < x then x else a) 0
def minRat (l : List Rat) : Rat :=
  match l with
  | [] => 0
  | a :: rest => rest.foldl (fun a x => if x < a then x else a) a
def maxNat (l : List Nat) : Nat := l.foldl max 0

/-- STR_x as it stood in frame f - 1. -/
def ElemSt.str (e : ElemSt) (x : Nat) : Bool := bit e.status (1 + x)

/-- OP follows the starts through one timer each (R165). -/
def timed (e : ElemSt) (starts : List (Nat × Bool)) (n : Nat) (val : Rat) : Eval :=
  let cs := starts.map (fun x => (x.1, timerCount x.2 (nth 0 e.cnt x.1)))
  let cnt := (List.range 4).map (fun x => match cs.find? (fun y => y.1 == x) with
    | some y => y.2
    | none => 0)
  let ops := starts.map (fun x => (x.1, x.2 && decide (n ≤ nth 0 cnt x.1)))
  ⟨{ e with cnt := cnt }, strOp starts ops, some (f32 val), some (maxNat cnt)⟩

/-- Timers, integrators and latches of an evaluation reset (R166, R168): theta and the voltage memory stay. -/
def ElemSt.clear (e : ElemSt) : ElemSt :=
  { e with cnt := [0, 0, 0, 0], g := [0, 0, 0, 0], off := [0, 0, 0, 0], loops := [{}, {}, {}, {}], pulse := 0
           prevTrip := false, ownBlk := false }

/-- A class's own blocking: BLK = 1, STR = OP = 0, timers and G reset (R180, R181, R455). -/
def ownBlock (e : ElemSt) (val : Option Word) : Eval := ⟨{ e.clear with ownBlk := true }, 2 ^ 23, val, some 0⟩

/-! ### Overcurrent (R173-R177, R455) -/

/-- The outputs and roles of OPT[1:0] (R173). -/
def ocSel (opt : Nat) : List (Nat × List Nat) :=
  match opt % 4 with
  | 1 => [(3, [3])]
  | 2 => [(3, [0, 1, 2])]
  | _ => [(0, [0]), (1, [1]), (2, [2])]

/-- The pickup multiplier of an overcurrent instance: FACT of a cold-load instance of its bay that links it, while that one's
PERM = 1 (R190). -/
def State.coldFactor (s : State) (i : Nat) : Rat :=
  match (List.range s.pel.insts.length).find? (fun j =>
    s.icls j == 16 && s.ibay j == s.ibay i && bit (s.status j) 21 &&
      (List.range 8).any (fun n => s.setN j (5 + n) == i)) with
  | some j => s.setR j 4
  | none => 1

/-- PIOC (R173). -/
def readPioc (s : State) (i : Nat) : Reading :=
  let b := s.ibay i
  let opt := s.iopt i
  let sel := ocSel opt
  let pu := s.setR i 1 * s.coldFactor i
  let hys := s.setR i 4
  let n := framesOf (s.setW i 3)
  if natBit opt 2 then
    let qs := sel.map (fun x => (x.1, s.sumPh b (x.2.map (fun r => (r, 1)))))
    { ins := qs.flatMap (fun x => x.2.1)
      eval := fun e => timed e (qs.map (fun x => (x.1, startOver (e.str x.1) x.2.2 pu hys))) n
        (maxRat (qs.map (fun x => x.2.2.v))) }
  else
    let half := (s.cycleLen b / 2).ceil.toNat
    let ncnt := s.setN i 2
    let ws := sel.map (fun x => (x.1, s.winOf b x.2 (max ncnt half)))
    let above := fun (lim : Rat) (q : Qty) => q.o || decide (2 * lim * lim ≤ q.v * q.v)
    { ins := ws.flatMap (fun x => x.2.1)
      eval := fun e => timed e (ws.map (fun x =>
          (x.1, (x.2.2.take ncnt).all (above pu)
            || (e.str x.1 && (x.2.2.take half).any (above ((1 - hys) * pu)))))) n
        (maxRat (ws.map (fun x => absRat (nth {} x.2.2 0).v))) }

/-- Constants k and alpha, or A, B, p and the reset constant, of a curve (R175). -/
def iecCurve : Nat → Rat × Rat
  | 1 => (mkRat 14 100, mkRat 2 100)
  | 2 => (mkRat 135 10, 1)
  | 3 => (80, 2)
  | _ => (120, 1)

def ieeeCurve : Nat → Rat × Rat × Rat × Rat
  | 5 => (mkRat 515 10000, mkRat 114 1000, mkRat 2 100, mkRat 485 100)
  | 6 => (mkRat 1961 100, mkRat 491 1000, 2, mkRat 216 10)
  | _ => (mkRat 282 10, mkRat 1217 10000, 2, mkRat 291 10)

/-- The used points of the user curve (R176). -/
def State.userPoints (s : State) (i : Nat) : List (Rat × Rat) :=
  ((List.range 32).map (fun k => (s.setR i (16 + 2 * k), s.setR i (17 + 2 * k)))).takeWhile (fun p => p.1 != 0)

/-- The user curve's time (R176): none below M_0. -/
def userTime (m : Rat) : List (Rat × Rat) → Option Rat
  | [] => none
  | [p] => if m < p.1 then none else some p.2
  | p :: q :: rest =>
    if m < p.1 then none
    else if m ≤ q.1 then
      some (expR (logR p.2 + (logR m - logR p.1) * (logR q.2 - logR p.2)
        / (logR q.1 - logR p.1)))
    else userTime m (q :: rest)

/-- t(M) in seconds, M and t in binary32 (R174, R175); none where nothing accumulates. Curve 0 takes N(TDEF) frames
(assumption log 36). -/
def State.curveTime (s : State) (i : Nat) (m : Rat) : Option Rat :=
  let tms := s.setR i 3
  let c := s.setN i 2
  match c with
  | 0 => some ((framesOf (s.setW i 4) : Rat) * tS)
  | 8 => (userTime m (s.userPoints i)).map (fun t => fpRat (f32 t))
  | _ =>
    if m ≤ 1 then none
    else if c ≤ 4 then
      let k := iecCurve c
      some (fpRat (f32 (tms * k.1 / (powR m k.2 - 1))))
    else
      let k := ieeeCurve c
      some (fpRat (f32 (tms * (k.1 / (powR m k.2.2.1 - 1) + k.2.1))))

/-- G advanced by one frame at a time t; t = 0 reaches 1 at once. -/
def addG (g : Rat) : Option Rat → Rat
  | none => g
  | some t => if t ≤ 0 then (if g < 1 then 1 else g) else g + tS / t

/-- PEL_IACC of an integrator: highest G times 2^24 (R191), held at the register's greatest value. -/
def accOf (gs : List Rat) : Nat := min (2 ^ 32 - 1) (nearest (maxRat gs * 16777216)).toNat

/-- One output of PTOC: count of start frames, G, frames since the start cleared (R174). -/
def State.ptocOut (s : State) (i : Nat) (q : Qty) (is : Rat) (str : Bool) (cnt : Nat) (g : Rat) (off : Nat) :
    Nat × Rat × Nat :=
  let m := if q.o then 40 else fpRat (f32 (q.v / is))
  let c := s.setN i 2
  let mode := if s.setN i 6 = 2 ∧ ¬ (5 ≤ c ∧ c ≤ 7) then 1 else s.setN i 6
  if str then (cnt + 1, addG g (s.curveTime i (if 40 < m then 40 else m)), 0)
  else match mode with
    | 0 => (0, 0, 0)
    | 1 => (0, if framesOf (s.setW i 7) < off + 1 then 0 else g, off + 1)
    | _ =>
      let tr := fpRat (f32 (s.setR i 3 * (ieeeCurve c).2.2.2 / (1 - m * m)))
      let g' := if m = 1 ∨ tr = 0 then g else g - tS / tr
      (0, if g' < 0 then 0 else g', 0)

/-- PTOC and its negative-sequence form over given quantities (R174, R177). -/
def State.ptocEval (s : State) (i : Nat) (qs : List (Nat × Qty)) (e : ElemSt) : Eval :=
  let is := s.setR i 1 * s.coldFactor i
  let hys := s.setR i 8
  let tmin := framesOf (s.setW i 5)
  let dir := s.setN i 10
  let sup := fun (x : Nat) =>
    let d := s.setN i 9
    let w := if d = 0xFFFF then 0#32 else s.status d
    if dir = 0 then true else if dir = 1 then bit w (11 + x) else bit w (16 + x)
  let starts := qs.map (fun x => (x.1, startOver (e.str x.1) x.2 is hys && sup x.1))
  let outs := (List.range 4).map (fun x => match qs.find? (fun y => y.1 == x), starts.find? (fun y => y.1 == x) with
    | some q, some st => s.ptocOut i q.2 is st.2 (nth 0 e.cnt x) (nth 0 e.g x) (nth 0 e.off x)
    | _, _ => (0, 0, 0))
  let g := outs.map (fun o => o.2.1)
  let ops := starts.map (fun x => (x.1, x.2 && decide ((1 : Rat) ≤ nth 0 g x.1) && decide (tmin ≤ (nth (0, 0, 0) outs x.1).1)))
  ⟨{ e with cnt := outs.map (fun o => o.1), g := g, off := outs.map (fun o => o.2.2) }, strOp starts ops,
    some (f32 (maxRat (qs.map (fun x => x.2.v)))), some (accOf g)⟩

/-- PTOC (R174). -/
def readPtoc (s : State) (i : Nat) : Reading :=
  let b := s.ibay i
  let opt := s.iopt i
  let qs := (ocSel opt).map (fun x => (x.1, match x.2 with
    | [r] => if natBit opt 2 then s.roleRms b r else s.sumPh b [(r, 1)]
    | rs => s.sumPh b (rs.map (fun r => (r, 1)))))
  { ins := qs.flatMap (fun x => x.2.1), eval := s.ptocEval i (qs.map (fun x => (x.1, x.2.2))) }

/-- PTOC negative-sequence (R177). -/
def readPtocNeg (s : State) (i : Nat) : Reading :=
  let q := s.seqQ (s.ibay i) 0 2
  { ins := q.1, eval := s.ptocEval i [(3, q.2)] }

/-- Broken conductor (R455). -/
def readBroken (s : State) (i : Nat) : Reading :=
  let b := s.ibay i
  let i1 := s.seqPh b 0 1
  let i2 := s.seqPh b 0 2
  { ins := [i1.1, i2.1]
    eval := fun e =>
      if i1.2.mag < s.setR i 3 ∨ i1.2.mag = 0 then ownBlock e (some 0#32)
      else
        let q : Qty := ⟨i2.2.mag / i1.2.mag, natBit i1.1.fl 1⟩
        timed { e with ownBlk := false } [(3, startOver (e.str 3) q (s.setR i 1) (s.setR i 4))] (framesOf (s.setW i 2)) q.v }

/-! ### Directional (R178, R179) -/

/-- An angle wrapped into (-pi, pi]. -/
def wrapPi (t : Rat) : Rat := t - twoPi * (((t - piR) / twoPi).ceil : Int)

/-- V_pol of a loop from a stored set of phasors: j (VB - VC) and so on, -j for ACB (R178). -/
def State.polOf (s : State) (b x : Nat) (e : PhEnt) : Cx :=
  let v := fun (r : Nat) => match s.roleLane b r with
    | some k => (e.at k).x
    | none => (0, 0)
  let d := cxAdd (v (4 + (x + 1) % 3)) (cxScale (-1) (v (4 + (x + 2) % 3)))
  cxMul (0, if bit (s.bay b).cfg 5 then -1 else 1) d

/-- One loop with its polarising phasor: theta, forward, reverse (R178). -/
def dirLoop (s : State) (i : Nat) (iop : Cx) (vpol : Option Cx) : Rat × Bool × Bool :=
  match vpol with
  | none => (0, false, false)
  | some v =>
    let t := wrapPi (cxArg iop - cxArg v + s.setR i 1)
    let on := decide (s.setR i 3 ≤ cxAbs iop)
    let lim := s.setR i 2
    (t, on && decide (absRat t ≤ lim), on && decide (piR - lim ≤ absRat t))

/-- Status bits of FWD and REV (R162). -/
def fwdRev (l : List (Nat × Bool × Bool)) : Nat :=
  bitsAt ([(10, l.any (fun e => e.2.1)), (15, l.any (fun e => e.2.2))] ++ l.map (fun e => (11 + e.1, e.2.1))
    ++ l.map (fun e => (16 + e.1, e.2.2)))

/-- The flags of the two phasors of V_pol n frames ago; absent ones count as U and S (R166). -/
def State.polFlags (s : State) (b x n : Nat) : Nat :=
  [4 + (x + 1) % 3, 4 + (x + 2) % 3].foldl (fun a r =>
    let p := (s.rolePhAt b r n).1
    a ||| (if p.absent then 5 else p.fl)) 0

/-- Whether a loop's V_pol of this frame is valid (R178). -/
def State.polValid (s : State) (i b x : Nat) : Bool := decide (s.setR i 4 ≤ cxAbs (s.polOf b x (s.phAt b 0)))

/-- The frames since f_m while the loop's memory counts: V_pol is below VMIN and f_m lies no more than MEMT back (R178). -/
def State.memAge (s : State) (i b x : Nat) (m : VmemSt) : Option Nat :=
  match m.since with
  | some fm =>
    let k : Nat := (s.frame + 2 ^ 32 - fm) % 2 ^ 32
    if s.polValid i b x = false ∧ 0 < s.setR i 5 ∧ (k : Rat) * tS ≤ s.setR i 5 then some k else none
  | none => none

/-- The voltage memory of a loop after this frame: f_m is the last frame in which V_pol was at least VMIN, blocked or not (R178). -/
def State.remember (s : State) (i b x : Nat) (m : VmemSt) : VmemSt :=
  let rw2 := 2 * (nearest (s.cycleLen b)).toNat
  if s.polValid i b x then
    let old := s.polOf b x (s.phAt b rw2)
    ⟨some s.frame, old.1, old.2, rw2, s.polFlags b x rw2⟩
  else m

/-- The polarising phasor that counts (R178). -/
def State.polarise (s : State) (i b x : Nat) (m : VmemSt) : Option Cx :=
  if s.polValid i b x then some (s.polOf b x (s.phAt b 0))
  else (s.memAge i b x m).map (fun k =>
    let ft := fpRat (s.img (1984 + 32 * b))
    cxMul (m.re, m.im) (cxExp (twoPi * (ft - nominal (s.bay b).cfg) * ((k + m.back : Nat) : Rat) * tS)))

/-- The memories of a phase-mode RDIR after a frame whose voltages carry no U; those of any other element stay. -/
def State.rememberAll (s : State) (i : Nat) (e : ElemSt) : ElemSt :=
  let b := s.ibay i
  if s.icls i = 4 ∧ s.iopt i % 4 = 0 then
    { e with mem := [0, 1, 2].map (fun x =>
      let m := nth {} e.mem x
      if natBit (s.polFlags b x 0) 0 then m else s.remember i b x m) }
  else e

/-- RDIR (R178). -/
def readRdir (s : State) (i : Nat) : Reading :=
  let b := s.ibay i
  let mode := s.iopt i % 4
  let trk : Inp := ⟨0, !s.bayEn b⟩
  if mode = 0 then
    let is := [0, 1, 2].map (s.rolePh b)
    let vs := [4, 5, 6].map (s.rolePh b)
    let held := [0, 1, 2].filterMap (fun x =>
      let m := nth {} (s.elem i).mem x
      (s.memAge i b x m).map (fun _ => (⟨m.fl, false⟩ : Inp)))
    { ins := trk :: (is.map Prod.fst ++ vs.map Prod.fst ++ held)
      eval := fun e =>
        let ls := [0, 1, 2].map (fun x => (x, dirLoop s i (nth ({}, {}) is x).2.x (s.polarise i b x (nth {} e.mem x))))
        ⟨e, fwdRev (ls.map (fun l => (l.1, l.2.2.1, l.2.2.2))),
          some (f32 (nth (0, 0, false, false) ls 0).2.1), some 0⟩ }
  else
    let c := if mode = 2 then 2 else 0
    let io := s.seqPh b 0 c
    let vo := s.seqPh b 1 c
    let k : Rat := if c = 0 then 3 else 1
    { ins := [io.1, vo.1]
      eval := fun e =>
        let v := cxScale (-k) vo.2.x
        let l := dirLoop s i (cxScale k io.2.x) (if s.setR i 4 ≤ k * vo.2.mag then some v else none)
        ⟨e, fwdRev [(3, l.2.1, l.2.2)], some (f32 l.1), some 0⟩ }

/-- One loop of the incremental element in a frame: delta v, delta i and delta i_rep given (R179). The new decision, if any,
is 1 or 2, with rho. -/
def incLoop (f nlat nq : Nat) (big : Bool) (dv dr kf kr : Rat) (l : LoopSt) : LoopSt × Option (Nat × Rat) :=
  let l := if l.dec = 0 then l else if l.left ≤ 1 then { l with dec := 0, left := 0 } else { l with left := l.left - 1 }
  let l := { l with quiet := if big then 0 else l.quiet + 1 }
  let l := if l.waits = true ∧ nq ≤ l.quiet then { l with waits := false } else l
  let l := if big = true ∧ l.waits = false ∧ l.armed.isNone then { l with armed := some f, num := 0, den := 0 } else l
  match l.armed with
  | none => (l, none)
  | some a =>
    let k := (f + 2 ^ 32 - a) % 2 ^ 32
    let l := { l with num := l.num + dv * dr, den := l.den + dr * dr }
    let rho := if l.den = 0 then 0 else -l.num / l.den
    let hit := if k < 3 ∨ 15 < k ∨ l.den = 0 then none
      else if kf ≤ rho then some (1, rho) else if rho ≤ -kr then some (2, rho) else none
    match hit with
    | some d => ({ l with armed := none, waits := true, dec := d.1, left := nlat }, some d)
    | none => if 15 ≤ k then ({ l with armed := none, waits := true }, none) else (l, none)

/-- A loop whose decision of this frame is void, because both directions would set (R179): it goes on as without, and an earlier
decision holds on. -/
def voidLoop (f : Nat) (old new : LoopSt) (dv dr : Rat) : LoopSt :=
  let h := if old.left ≤ 1 then (0, 0) else (old.dec, old.left - 1)
  match old.armed with
  | some a =>
    if 15 ≤ (f + 2 ^ 32 - a) % 2 ^ 32 then { new with dec := h.1, left := h.2 }
    else { old with num := old.num + dv * dr, den := old.den + dr * dr, quiet := new.quiet, dec := h.1, left := h.2 }
  | none => { new with dec := h.1, left := h.2 }

/-- The incremental-quantity directional element (R179). Where several loops decide in one frame, PEL_IVAL shows the rho of the lowest
(R191; assumption log 31). -/
def readIncremental (s : State) (i : Nat) : Reading :=
  let b := s.ibay i
  let n := (nearest (s.cycleLen b)).toNat
  let sel : List (List Nat × List Nat) := [([0], [4]), ([1], [5]), ([2], [6]), ([0, 1, 2], [4, 5, 6])]
  let ws := sel.map (fun x => (s.winOf b x.1 (n + 2), s.winOf b x.2 (n + 2)))
  let d := fun (q : List Qty) (k : Nat) => (nth {} q k).v - (nth {} q (k + n)).v
  { ins := (ws.take 3).flatMap (fun x => x.1.1 ++ x.2.1)
    eval := fun e =>
      let lim := s.setR i 3
      let one := fun (x : Nat) =>
        let w := nth (([], []), ([], [])) ws x
        let di := d w.1.2 0
        let dr := s.setR i 1 * di + s.setR i 2 * (di - d w.1.2 1) / tS
        let big := decide (2 * lim * lim ≤ di * di)
        (d w.2.2 0, dr, incLoop s.frame (framesOf (s.setW i 6)) n big (d w.2.2 0) dr (s.setR i 4) (s.setR i 5) (nth {} e.loops x))
      let rs := [0, 1, 2, 3].map one
      let hits := rs.filterMap (fun r => r.2.2.2)
      let both := hits.any (fun h => h.1 == 1) && hits.any (fun h => h.1 == 2)
      let ls := (rs.zipIdx).map (fun r =>
        if both && r.1.2.2.2.isSome then voidLoop s.frame (nth {} e.loops r.2) r.1.2.2.1 r.1.1 r.1.2.1 else r.1.2.2.1)
      let val := if both then none else match hits with
        | [] => none
        | h :: _ => some (f32 h.2)
      ⟨{ e with loops := ls }, fwdRev ((ls.zipIdx).map (fun l => (l.2, l.1.dec == 1, l.1.dec == 2))), val, some 0⟩ }

/-! ### Voltage and frequency (R180, R181) -/

/-- PTUV and PTOV (R180). -/
def readVoltage (s : State) (i : Nat) (under : Bool) : Reading :=
  let b := s.ibay i
  let opt := s.iopt i
  let qs : List (Nat × List Inp × Qty) := match opt % 4 with
    | 0 => [0, 1, 2].map (fun x => (x, s.sumPh b [(4 + x, 1)]))
    | 1 => [0, 1, 2].map (fun x => (x, s.sumPh b [(4 + x, 1), (4 + (x + 1) % 3, -1)]))
    | 2 => [(3, s.seqQ b 1 1)]
    | _ => [(3, s.seqQ b 1 (if under then 1 else 2))]
  { ins := qs.flatMap (fun x => x.2.1)
    eval := fun e =>
      let pu := s.setR i 1
      let hys := s.setR i 4
      let vs := qs.map (fun x => x.2.2.v)
      let val := f32 (if under then minRat vs else maxRat vs)
      let vblk := s.setR i 5
      if under = true ∧ 0 < vblk ∧ vs.all (fun v => decide (v ≤ vblk)) = true then ownBlock e (some val)
      else
        let e := { e with ownBlk := false }
        let starts := qs.map (fun x => (x.1, if under then startUnder (e.str x.1) x.2.2 pu hys
          else startOver (e.str x.1) x.2.2 pu hys))
        let ms := qs.map (fun x => (x.1, if x.2.2.o && !under then 40 else x.2.2.v / pu))
        let step := fun (on : Bool) (m g : Rat) =>
          if on = false then 0
          else if under then
            (if 1 ≤ m then g else addG g (some (s.setR i 3 / (1 - (if mkRat 999 1000 < m then mkRat 999 1000 else m)))))
          else if m ≤ 1 then g else addG g (some (s.setR i 3 / (m - 1)))
        let n := framesOf (s.setW i 3)
        let inv := s.setN i 2 == 1
        if natBit opt 2 then
          let all := starts.all Prod.snd
          let m := if under then maxRat (ms.map Prod.snd) else minRat (ms.map Prod.snd)
          let c := timerCount (all && !inv) (nth 0 e.cnt 0)
          let g := step (all && inv) m (nth 0 e.g 0)
          let op := all && (if inv then decide (1 ≤ g) else decide (n ≤ c))
          ⟨{ e with cnt := [c, 0, 0, 0], g := [g, 0, 0, 0] }, strOp starts [] ||| (if op then 2 ^ 5 else 0), some val,
            some (if inv then accOf [g] else c)⟩
        else if inv then
          let g := (List.range 4).map (fun x => match starts.find? (fun y => y.1 == x), ms.find? (fun y => y.1 == x) with
            | some st, some m => step st.2 m.2 (nth 0 e.g x)
            | _, _ => 0)
          ⟨{ e with cnt := [0, 0, 0, 0], g := g }, strOp starts (starts.map (fun x => (x.1, x.2 && decide ((1 : Rat) ≤ nth 0 g x.1)))),
            some val, some (accOf g)⟩
        else
          let r := timed { e with g := [0, 0, 0, 0] } starts n 0
          { r with val := some val } }

/-- PTUF, PTOF and PFRC (R181): class 8, 9 or 10. -/
def readFrequency (s : State) (i cls : Nat) : Reading :=
  let b := s.ibay i
  let base := 1984 + 32 * b
  let vmin := s.setR i 3
  let v1 := s.seqPh b 1 1
  { ins := ⟨0, !s.bayEn b⟩ :: (if 0 < vmin then [v1.1] else [])
    eval := fun e =>
      let raw := if cls = 10 then s.img (base + 1) else s.img base
      if field (s.img (base + 2)) 1 0 ≠ 2 ∨ (0 < vmin ∧ v1.2.mag < vmin) then ownBlock e (some raw)
      else
        let r := fpRat raw
        let q := if cls = 10 then (match s.iopt i % 4 with
          | 1 => r
          | 2 => -r
          | _ => absRat r) else r
        let pu := s.setR i 1
        let hys := s.setR i 4
        let prev := bit e.status 0
        let st := if cls = 8 then decide (q ≤ pu) || (prev && decide (q ≤ pu + hys))
          else decide (pu ≤ q) || (prev && decide (pu - hys ≤ q))
        let c := timerCount st (nth 0 e.cnt 0)
        let op := st && decide (framesOf (s.setW i 2) ≤ c)
        ⟨{ e with cnt := [c, 0, 0, 0], ownBlk := false }, b2n st + 32 * b2n op, some raw, some c⟩ }

/-! ### Thermal, breaker failure, synchronism (R182-R184) -/

/-- PTTR's inputs and the highest phase current (R182). -/
def State.pttrCurrent (s : State) (i : Nat) : List Inp × Qty :=
  let b := s.ibay i
  let qs := [0, 1, 2].map (fun r => if natBit (s.iopt i) 0 then s.sumPh b [(r, 1)] else s.roleRms b r)
  (qs.flatMap Prod.fst, ⟨maxRat (qs.map (fun q => q.2.v)), qs.any (fun q => q.2.o)⟩)

/-- M of PTTR. -/
def State.pttrM (s : State) (i : Nat) (q : Qty) : Rat := q.v / (s.setR i 2 * s.setR i 1)

/-- theta after one frame (R182). -/
def State.heat (s : State) (i : Nat) (q : Qty) (th : Rat) : Rat :=
  let m := s.pttrM i q
  let tau := if m < mkRat 5 100 then s.setR i 4 else s.setR i 3
  carry48 (th + tS / tau * (m * m - th))

/-- PTTR (R182). -/
def readPttr (s : State) (i : Nat) : Reading :=
  let q := s.pttrCurrent i
  { ins := q.1
    eval := fun e =>
      let th := s.heat i q.2 e.theta
      let m := s.pttrM i q.2
      let str := q.2.o || decide (s.setR i 6 < m * m)
      let op := decide (s.setR i 6 ≤ th) || (bit e.status 5 && decide (s.setR i 7 ≤ th))
      ⟨{ e with theta := th }, bitsAt [(0, str), (5, op), (20, decide (s.setR i 5 ≤ th))], some (f32 th), some 0⟩ }

/-- The instances of a class in a bay. -/
def State.instsOf (s : State) (cls b : Nat) : List Nat :=
  (List.range s.pel.insts.length).filter (fun j => s.idef j && s.icls j == cls && s.ibay j == b)

/-- RBRF (R183). -/
def readRbrf (s : State) (i : Nat) : Reading :=
  let b := s.ibay i
  let half := (s.cycleLen b / 2).ceil.toNat
  let ws := [0, 1, 2].map (fun r => s.roleWin b r half)
  let ibf := s.setR i 2
  { ins := ws.flatMap Prod.fst
    eval := fun e =>
      let init := (s.instsOf 17 b).any (fun j => bit (s.status j) 5) || s.ibit i 1
      let cur := ws.any (fun w => w.2.any (fun q => q.o || decide (2 * ibf * ibf ≤ q.v * q.v)))
      let on := init && (cur || (s.setN i 5 == 1 && s.ibit i 6))
      let c := timerCount on (nth 0 e.cnt 0)
      ⟨{ e with cnt := [c, 0, 0, 0] },
        bitsAt [(0, on), (5, on && decide (framesOf (s.setW i 4) ≤ c)), (20, on && decide (framesOf (s.setW i 3) ≤ c))],
        some 0#32, some c⟩ }

/-- RSYN (R184). -/
def readRsyn (s : State) (i : Nat) : Reading :=
  let b := s.ibay i
  let vx := s.rolePh b 7
  let v32 := s.rolePhAt b 7 32
  let sel : List (Nat × Int) := match s.setN i 1 with
    | 0 => [(4, 1)]
    | 1 => [(5, 1)]
    | 2 => [(6, 1)]
    | 3 => [(4, 1), (5, -1)]
    | 4 => [(5, 1), (6, -1)]
    | _ => [(6, 1), (4, -1)]
  let vl := sel.map (fun r => (s.rolePh b r.1, r.2))
  { ins := ⟨0, !s.bayEn b⟩ :: vx.1 :: v32.1 :: vl.map (fun e => e.1.1)
    eval := fun e =>
      let l := vl.foldl (fun a e => cxAdd a (cxScale (e.2 : Rat) e.1.2.x)) (0, 0)
      let ml := match vl with
        | [y] => y.1.2.mag
        | _ => cxAbs l
      let mx := vx.2.mag
      let fx := nominal (s.bay b).cfg + cxArg (cxMul vx.2.x (cxConj v32.2.x)) / (twoPi * mkRat 1 500)
      let df := fx - fpRat (s.img (1984 + 32 * b))
      let dphi := wrapPi (cxArg vx.2.x - cxArg l + s.setR i 10)
      let pp := dphi + twoPi * df * s.setR i 5
      let live := fun (m : Rat) => decide (s.setR i 7 < m)
      let dead := fun (m : Rat) => decide (m < s.setR i 8)
      let dm := s.setN i 9
      let str := (live mx && live ml && decide (absRat (mx - ml) ≤ s.setR i 2) && decide (absRat df ≤ s.setR i 3)
          && decide (absRat pp ≤ s.setR i 4))
        || (natBit dm 0 && dead ml && live mx) || (natBit dm 1 && live ml && dead mx) || (natBit dm 2 && dead ml && dead mx)
      let c := timerCount str (nth 0 e.cnt 0)
      ⟨{ e with cnt := [c, 0, 0, 0] }, bitsAt [(0, str), (21, str && decide (framesOf (s.setW i 6) ≤ c))], some (f32 pp),
        some c⟩ }

/-! ### Cold load, trip, fault location (R185, R189, R190) -/

/-- Cold-load pickup (R190). `rst` is a RESET that takes effect in this frame. -/
def readCold (s : State) (i : Nat) (rst : Bool) : Reading :=
  let b := s.ibay i
  let qs := [0, 1, 2].map (fun r => s.sumPh b [(r, 1)])
  { ins := qs.flatMap Prod.fst
    eval := fun e =>
      let any := qs.any (fun q => q.2.o || decide (s.setR i 1 ≤ q.2.v))
      let c := nth 0 e.cnt 0
      let first := timerCount (!any) 0
      let x : Nat × Nat :=
        if rst then (0, first)
        else match e.cold with
          | 0 =>
            let n := timerCount (!any) c
            if !any && decide (framesOf (s.setW i 2) ≤ n) then (1, 0) else (0, n)
          | 1 => if any then (2, 1) else (1, 0)
          | _ => if c + 1 ≤ max (framesOf (s.setW i 3)) 1 then (2, c + 1) else (0, first)
      ⟨{ e with cold := x.1, cnt := [x.2, 0, 0, 0] }, bitsAt [(21, x.1 != 0)], some 0#32, some x.2⟩ }

/-- Whether a source word of a PTRC is 1 (R189). A zone counts only while the bay is assigned to it or its merged set. -/
def State.tripSource (s : State) (b : Nat) (w : Word) : Bool :=
  let ix := field w 15 0
  let n := field w 20 16
  if ix = 0xFFFF then false
  else if 0x8000 ≤ ix then
    let z := nth {} s.pel.zones (ix - 0x8000)
    natBit z.bays b && bit z.status n
  else bit (s.status ix) n

/-- The input of a PTRC (R189). -/
def State.tripInput (s : State) (i : Nat) : Bool :=
  (List.range 16).any (fun n => s.tripSource (s.ibay i) (s.setW i (1 + n))) || s.ibit i 17

/-- Whether a PTRC's latch is reset in this frame, where its input is 0 (R189). -/
def State.latchOff (s : State) (i : Nat) (rst : Bool) (e : ElemSt) : Bool := rst || (s.ibit i 20 && !e.prevBit)

/-- PTRC (R189): `rst` is a RESET that takes effect in this frame. -/
def readPtrc (s : State) (i : Nat) (rst : Bool) : Reading :=
  { ins := []
    eval := fun e =>
      let inp := s.tripInput i
      let rb := s.ibit i 20
      let off := s.latchOff i rst e
      let hold := e.prevTrip && decide (e.pulse < framesOf (s.setW i 18))
      let pulsed := inp || hold
      let pulse := if pulsed then (if e.prevTrip then e.pulse + 1 else 1) else 0
      let latch := s.setN i 19 == 1 && (inp || (e.latch && !off))
      ⟨{ e with prevTrip := pulsed, pulse := pulse, latch := latch, prevBit := rb },
        bitsAt [(5, pulsed || latch), (22, latch)], some 0#32, some pulse⟩ }

/-- A rising edge that triggers RFLO: of a PTRC TRIP of its bay, or of bit TRIG (R185). -/
def State.rfloTrigger (s : State) (i : Nat) (e : ElemSt) : Bool :=
  (s.instsOf 17 (s.ibay i)).any (fun j => bit (s.status j) 5 && !s.flag (Reg.PEL_ISTAT j) 5) || (s.ibit i 1 && !e.prevBit)

/-- RFLO (R185): the capture's phasors are read by RFLO_CAPTURE_COMPLETE; in each frame their U does not hold the instance,
whose record carries their flags (assumption log 37). -/
def readRflo (s : State) (i : Nat) : Reading :=
  let b := s.ibay i
  let ps := ([0, 1, 2, 4, 5, 6].map (s.rolePh b)).map Prod.fst
  { ins := ps.map (fun x => { x with fl := x.fl / 4 * 4 })
    eval := fun e =>
      let e' := match e.cap with
        | some _ => e
        | none => if s.rfloTrigger i e then { e with cap := some ⟨s.frame, (nearest (s.cycleLen b)).toNat⟩ } else e
      ⟨e', 0, none, none⟩ }

/-! ### One instance in one frame -/

/-- What the class of an instance reads and does. -/
def State.readClass (s : State) (i : Nat) (rst : Bool) : Reading :=
  match s.icls i with
  | 1 => readPioc s i
  | 2 => readPtoc s i
  | 3 => readPtocNeg s i
  | 4 => readRdir s i
  | 5 => readIncremental s i
  | 6 => readVoltage s i true
  | 7 => readVoltage s i false
  | 8 => readFrequency s i 8
  | 9 => readFrequency s i 9
  | 10 => readFrequency s i 10
  | 11 => readPttr s i
  | 12 => readRbrf s i
  | 13 => readRsyn s i
  | 14 => readRflo s i
  | 15 => readBroken s i
  | 16 => readCold s i rst
  | _ => readPtrc s i rst

/-- Blocked under R167: by the scheme bit, or by HBLK as the image holds it (R213). -/
def State.iblocked (s : State) (i : Nat) : Bool := s.ibit i 0 || bit (s.img (7960 + i / 32)) (i % 32)

/-- The fail-safe output of R168 and R169: a PTRC whose own latch or count is poisoned loses both. -/
def State.failSafe (s : State) (i : Nat) (p : Poison) (e : ElemSt) : Eval :=
  let base := 2 ^ 23 + 2 ^ 27
  let keep := fun (l : List Nat) => bitsAt (l.map (fun n => (n, bit e.status n)))
  match s.icls i with
  | 11 => ⟨e.clear, base + keep [5, 20], none, none⟩
  | 14 => ⟨{ e.clear with cap := none }, base, none, none⟩
  | 16 => ⟨e.clear, base + keep [21], none, some 0⟩
  | 17 =>
    let e := if p = .own then { e with latch := false, prevTrip := false } else e
    let hold := e.prevTrip && decide (e.pulse < framesOf (s.setW i 18))
    let pulse := if hold then e.pulse + 1 else 0
    ⟨{ e with prevTrip := hold, pulse := pulse, prevBit := s.ibit i 20 },
      base + bitsAt [(5, hold || e.latch), (22, e.latch)], none, some pulse⟩
  | _ => ⟨e.clear, base, none, some 0⟩

/-- The first matching row of R166. A blocked frame resets the integrators with the timers, and a NODATA frame abandons a capture
(R167, R185; assumption log 31). PEL_IVAL of a PTTR always reads theta (R182); the memories of an RDIR take the frame whatever its row,
but for poison, whose words cannot be read (R178, assumption log 37). -/
def State.judge (s : State) (i : Nat) (poison : Poison) (rst : Bool) (e : ElemSt) : Eval :=
  let r := s.readClass i rst
  let both := fun (x : Inp) => natBit x.fl 0 && natBit x.fl 2
  let nodata := r.ins.any (fun x => x.absent || both x)
  let frozen := r.ins.any (fun x => natBit x.fl 0)
  let cls := s.icls i
  let e := if poison = .clean then s.rememberAll i e else e
  let q := 2 ^ 25 * b2n (r.ins.any (fun x => natBit x.fl 2)) + 2 ^ 26 * b2n (r.ins.any (fun x => natBit x.fl 3))
  let v := if poison ≠ .clean then s.failSafe i poison e
    else if s.iblocked i then
      let th := if cls = 11 ∧ nodata = false ∧ frozen = false then s.heat i (s.pttrCurrent i).2 e.theta else e.theta
      let latch := e.latch && !(s.latchOff i rst e && !s.tripInput i)
      ⟨{ e.clear with
          theta := th, latch := latch, prevBit := if cls = 17 then s.ibit i 20 else e.prevBit },
        2 ^ 23 + (if cls = 17 then 2 ^ 22 * b2n latch else 0), none, some 0⟩
    else if nodata then
      ⟨{ e.clear with latch := false, cap := none, prevBit := if cls = 17 then s.ibit i 20 else e.prevBit }, 2 ^ 28,
        none, some 0⟩
    else if frozen then
      ⟨e, (e.status.toNat % 2 ^ 23) + 2 ^ 24 + 2 ^ 23 * b2n e.ownBlk, none, none⟩
    else r.eval e
  { v with st := v.st + q, e := if cls = 14 then { v.e with prevBit := s.ibit i 1 } else v.e
           val := if cls = 11 then some (f32 v.e.theta) else v.val }

/-- A RESET of PEL_ICTRL takes effect in this frame (R191): for PTTR only in COMMISSION or TEST as behaved (R182). -/
def State.iresets (s : State) (i : Nat) : Bool :=
  bit (s.img (7992 + i / 32)) (i % 32) &&
    (s.icls i == 17 || s.icls i == 16 || (s.icls i == 11 && (s.behaved == mCOMMISSION || s.behaved == mTEST)))

/-- An ELEMENT or POISON record (R163, R168, R297). -/
def State.elementRecord (s : State) (typ cls idx : Nat) (o : Option Nat) (w : Word) : State :=
  s.post typ (srcOf cls idx) (wordBytes w ++ s.frameBytes) (ownerLog o) true

/-- Poison has been consumed (R168, R194): `zone` sets bit 31; the first frame of a run of poisoned frames is counted. -/
def State.poisonSeen (s : State) (idx : Nat) (zone first : Bool) : State :=
  let t := (s.wr Reg.PEL_LASTPOIS (BitVec.ofNat 32 (idx + 2 ^ 31 * b2n zone))).wr Reg.PEL_LASTPFRM (s.rd Reg.ENG_FRAME)
  if first then t.incFld Reg.PEL_POISCNT 31 0 else t

/-- The status word of an instance takes its value of this frame; flags, counters and records follow (R163, R168, R191). -/
def State.showInstance (s : State) (i : Nat) (old : Word) (v : Eval) (poison first : Bool) : State :=
  let w := BitVec.ofNat 32 v.st
  let t := s.modElem i (fun _ => { v.e with status := w, pois := poison })
  let t := match v.val with
    | some x => t.wr (Reg.PEL_IVAL i) x
    | none => t
  let t := match v.acc with
    | some x => t.wr (Reg.PEL_IACC i) (BitVec.ofNat 32 x)
    | none => t
  let fl := Reg.PEL_IFLAG i
  let t := if bit w 0 && !bit old 0 then (t.setFlag fl 0 true).satFld (Reg.PEL_ICNT i) 15 0 1 else t
  let t := if bit w 5 && !bit old 5 then (t.setFlag fl 1 true).satFld (Reg.PEL_ICNT i) 31 16 1 else t
  let t := if bit w 28 then t.setFlag fl 3 true else t
  let t := if bit w 24 then t.setFlag fl 4 true else t
  let o := s.instOwner i
  let t := if bit w 5 != bit old 5 then t.elementRecord 0x10 1 i o w else t
  let t := if poison then t.poisonSeen i false first else t
  if first then (t.setFlag fl 2 true).elementRecord 0x11 1 i o w else t

/-- Evaluate instance i in the present frame. -/
def State.runInstance (s : State) (i : Nat) (poison : Poison) : State :=
  let e := s.elem i
  let rst := s.iresets i
  let e1 := if rst && s.icls i == 11 then { e with theta := 0 }
    else if rst && s.icls i == 16 then { e with cold := 0, cnt := [0, 0, 0, 0] } else e
  let v := s.judge i poison rst e1
  let bad := decide (poison ≠ .clean)
  let ignored := s.icls i == 14 && !bad && !s.iblocked i && e.cap.isSome && s.rfloTrigger i e
  let t := s.showInstance i e.status v bad (bad && !e.pois)
  if ignored then t.satFld (Reg.PEL_ICNT i) 15 0 1 else t

/-- ELEMENT_INSTANCE_RUN (R160-R168): at its turn in a frame in which the triad runs a plan; the words it reads may hold poison, of one
member or of all (R220, R408), and its results pass the voters (R217). -/
def execElementInstanceRun (i : Fin 1024) (reads : JobReads) (v : Voting) (s : State) : R :=
  if s.idef i.val = false ∨ s.jobTurn i.val = false then .next s
  else
    let a := s.agreed (s.jobPoison reads) v
    .next (((s.noteJob reads).ranJob i.val).voted a.2 1 (fun w => w.runInstance i.val a.1))

/-! ### Fault location -/

/-- The phasors of a bay whose data is of frame x: the image of frame x + 2 held them (R161). -/
def State.phOfFrame (s : State) (b x : Nat) : PhEnt := s.phAt b ((s.frame + 2 ^ 32 - 2 - x) % 2 ^ 32)

/-- The loop of a fault type: roles' phasors combined, the current with k0 for one phase (R185). -/
structure LoopPh where
  v : Cx
  i : Cx
  pre : Cx
deriving DecidableEq, Repr

/-- What a fault-location capture finds (R185). -/
structure Location where
  ftype : Nat
  flags : Nat
  used : Nat
  tc : Nat
  m : Word
  dist : Word
  rl : Word
  xl : Word
  il : Word
  vl : Word
  far : Bool
deriving DecidableEq, Repr

/-- Reactance and resistance of the apparent impedance, distance in per unit (R185). `flagged`: no valid pre-fault. -/
def State.distance (s : State) (i : Nat) (l : LoopPh) (flagged : Bool) : Rat :=
  if flagged then (cxDiv l.v l.i).2 / s.setR i 5
  else
    let di := cxConj (cxAdd l.i (cxScale (-1) l.pre))
    (cxMul l.v di).2 / (cxMul (cxMul (s.setR i 4, s.setR i 5) l.i) di).2

/-- Evaluate a complete capture (R185). -/
def State.locate (s : State) (i : Nat) (c : CapSt) : State × Location :=
  let b := s.ibay i
  let ft := (c.frame + c.rw) % 2 ^ 32
  let pre := s.phOfFrame b ((c.frame + 2 ^ 32 - 2 * c.rw) % 2 ^ 32)
  let lane := fun (r : Nat) => (s.roleLane b r).getD 0
  let cur := fun (e : PhEnt) => [0, 1, 2].map (fun r => e.at (lane r))
  let late := s.phOfFrame b ft
  let low := (cur late).all (fun p => decide (p.mag < s.setR i 2))
  let bad := (cur late).any (fun p => natBit p.fl 0 || natBit p.fl 2)
  let useT := low || bad
  let e := if useT then s.phOfFrame b c.frame else late
  let used := if useT then c.frame else ft
  let is := cur e
  let vs := [4, 5, 6].map (fun r => e.at (lane r))
  let i0 := is.foldl (fun a p => cxAdd a p.x) (0, 0)
  let p0 := (cur pre).foldl (fun a p => cxAdd a p.x) (0, 0)
  let ph := is.map (fun p => decide (s.setR i 2 ≤ p.mag))
  let earth := decide (s.setR i 3 ≤ cxAbs i0)
  let a := nth false ph 0
  let bb := nth false ph 1
  let cc := nth false ph 2
  let k0 := (s.setR i 6, s.setR i 7)
  let gi := fun (l : List Ph) (x : Nat) => (nth {} l x).x
  let sub := fun (x y : Cx) => cxAdd x (cxScale (-1) y)
  let one := fun (x : Nat) => some (LoopPh.mk (gi vs x) (cxAdd (gi is x) (cxMul k0 i0)) (cxAdd (gi (cur pre) x) (cxMul k0 p0)))
  let two := fun (x y : Nat) =>
    some (LoopPh.mk (sub (gi vs x) (gi vs y)) (sub (gi is x) (gi is y)) (sub (gi (cur pre) x) (gi (cur pre) y)))
  let loop := match a, bb, cc with
    | true, false, false => if earth then one 0 else none
    | false, true, false => if earth then one 1 else none
    | false, false, true => if earth then one 2 else none
    | true, true, false => two 0 1
    | false, true, true => two 1 2
    | true, false, true => two 0 2
    | true, true, true => two 0 1
    | false, false, false => none
  let prefl : Nat := (cur pre).foldl (fun x p => x ||| p.fl) 0
  let pfl : Nat := prefl % 8
  let fl : Nat := (is ++ vs).foldl (fun x p => x ||| p.fl) (if pfl = 0 then prefl else 0)
  let ftype := b2n a + 2 * b2n bb + 4 * b2n cc + 8 * b2n earth
  let tau := ((List.range 8).find? (fun k => (s.lane (8 * b + k)).role == 0)).getD 0
  -- the phasors of a frame are formed with f_trk of the frame before (R141), half cycles with half its W (R142)
  let before := (s.phOfFrame b ((used + 2 ^ 32 - 1) % 2 ^ 32)).fTrk
  let cyc := 16000 / (if before = 0#32 then nominal (s.bay b).cfg else fpRat before)
  let w := if dftOf (s.bay b).cfg = 2 then cyc / 2 else cyc
  let dly := if 8 * b + tau < 256 then mkRat 127 2048000 - groupDelay (s.lane (8 * b + tau)).dec
    else -((s.fld Reg.PBX_DSV 15 0 : Rat) * tS)
  let tc := ((e.tb : Int) + unitOf ((dly - (w - 1) / 2 * tS) * 1000000000)) % (2 ^ 32 : Nat)
  match loop with
  | some l =>
    let z := cxDiv l.v l.i
    let m := s.distance i l (pfl != 0)
    (s, ⟨ftype, fl + 16 * b2n useT + 32 * b2n (pfl != 0), used, tc.toNat, f32 m, f32 (m * s.setR i 8), f32 z.1, f32 z.2,
      f32 (cxAbs l.i), f32 (cxAbs l.v), true⟩)
  | none =>
    let x1 := s.free
    let x2 := x1.2.free
    let x3 := x2.2.free
    let x4 := x3.2.free
    let x5 := x4.2.free
    let x6 := x5.2.free
    (x6.2, ⟨ftype, fl + 16 * b2n useT + 32 * b2n (pfl != 0) + 64, used, tc.toNat, x1.1, x2.1, x3.1, x4.1, x5.1, x6.1, false⟩)

/-- The fault-location record (R185). -/
def rfloRecord (i b : Nat) (c : CapSt) (l : Location) : List Byte :=
  bytesLE 2 64 ++ bytesLE 1 0x43 ++ bytesLE 1 1 ++ bytesLE 2 b ++ bytesLE 2 i ++ bytesLE 1 l.ftype ++ bytesLE 1 l.flags
    ++ bytesLE 2 0 ++ bytesLE 4 c.frame ++ bytesLE 4 l.used ++ bytesLE 4 l.tc ++ wordBytes l.m ++ wordBytes l.dist
    ++ wordBytes l.rl ++ wordBytes l.xl ++ wordBytes l.il ++ wordBytes l.vl ++ bytesLE 16 0

/-- RFLO_CAPTURE_COMPLETE (R185): the phasors of frame t + round(W) have reached the image; the distance is computed and the
record goes to the measurement stream queue, a transaction of class 2 (R217) that the frame's end releases (R45). It is the G work of
its instance, at that instance's place in the frame (R44, R160). -/
def execRfloCaptureComplete (run : RfloRun) (s : State) : R :=
  let i := run.inst
  let e := s.elem i.val
  match e.cap with
  | none => .next s
  | some c =>
    let need := (c.frame + c.rw + 2) % 2 ^ 32
    if s.jobPlace i.val = false ∨ s.icls i.val ≠ 14 ∨ frameReached s.frame need = false then .next s
    else
      .next (s.voted run.vote 2 (fun s =>
        let r := s.locate i.val c
        let t := r.1.modElem i.val (fun x => { x with cap := none })
        let t := if r.2.far then t.wr (Reg.PEL_IVAL i.val) r.2.dist else t
        match s.instOwner i.val with
        | some p => t.laterItem p false false (rfloRecord i.val (s.ibay i.val) c r.2) 0
        | none => t))

end Sys2Proof.Machine
end

