-- ==== Sys2Proof/Machine/ProcBus.lean ====
section
/-!
DEFINITION. Sys2Proof/Machine/ProcBus.lean: the process-bus ports (R324-R346): receive and PTP mailbox, PRP, GOOSE
publication and subscription, sampled values; rows ETHERNET_FRAME_RECEIVE to SV_STREAM_RESTORE. Where the manual cites IEC
61850-8-1, 9-2, 62439-3 and IEEE 1588 for a frame's layout, the layout is taken from those standards (assumption log 32).
-/
namespace Sys2Proof.Machine

/-! ### State -/

def State.pb (s : State) (p : Nat) : PbPort := nth {} s.pbx.ports p
def State.modPb (s : State) (p : Nat) (f : PbPort → PbPort) : State :=
  { s with pbx := { s.pbx with ports := modAt s.pbx.ports p f } }
def State.pair (s : State) (q : Nat) : PrpPair := nth {} s.pbx.pairs q
def State.modPair (s : State) (q : Nat) (f : PrpPair → PrpPair) : State :=
  { s with pbx := { s.pbx with pairs := modAt s.pbx.pairs q f } }
def State.gpb (s : State) (c : Nat) : GpBlk := nth {} s.pbx.pubs c
def State.modPub (s : State) (c : Nat) (f : GpBlk → GpBlk) : State :=
  { s with pbx := { s.pbx with pubs := modAt s.pbx.pubs c f } }
def State.gsub (s : State) (i : Nat) : GsSub := nth {} s.pbx.subs i
def State.modSub (s : State) (i : Nat) (f : GsSub → GsSub) : State :=
  { s with pbx := { s.pbx with subs := modAt s.pbx.subs i f } }
def State.str (s : State) (i : Nat) : SvStr := nth {} s.pbx.streams i
def State.modStr (s : State) (i : Nat) (f : SvStr → SvStr) : State :=
  { s with pbx := { s.pbx with streams := modAt s.pbx.streams i f } }

/-- Whether a port is one of a PRP pair (R345). -/
def State.paired (s : State) (p : Nat) : Bool := s.flag (Reg.PBX_PCFG p) 29

/-- A port's MAC address in wire order (R345). -/
def State.macOf (s : State) (p : Nat) : List Byte :=
  wordBytes (s.rd (Reg.PBX_MACLO p)) ++ bytesLE 2 (s.fld (Reg.PBX_MACHI p) 15 0)

/-- What the time base has run since reset, in ns: the clock of spans such as 400 ms or timeAllowedToLive. -/
def State.runNs (s : State) : Nat := s.time.elapsed / 2 ^ 32

/-- Full time in ns (R321). -/
def State.fullNs (s : State) : Nat := s.time.sec * 1000000000 + s.time.nsec

/-- A PROCBUS record (R343), stamped with the given instant: kinds 1 and 2 to every log, the others to the owner's; always to
the kennel. -/
def State.pbRecord (s : State) (kind idx port logs tb wrap : Nat) : State :=
  s.postAt 0x22 (srcOf 7 idx) (bytesLE 1 kind ++ bytesLE 1 port ++ bytesLE 2 0 ++ s.frameBytes) logs true tb wrap

/-! ### Frames -/

/-- Replace bytes from an offset on. -/
def patch (bs : List Byte) (off : Nat) (new : List Byte) : List Byte := bs.take off ++ new ++ bs.drop (off + new.length)

/-- Big-endian number in bytes i .. i+n-1. -/
def beAt (bs : List Byte) (i n : Nat) : Nat := fromBE (slice bs i n)

/-- Where the EtherType stands: past an 802.1Q tag (R330). -/
def etypeOff (bs : List Byte) : Nat := if beAt bs 12 2 = 0x8100 then 16 else 12

def etype (bs : List Byte) : Nat := beAt bs (etypeOff bs) 2

def etPTP : Nat := 0x88F7
def etGOOSE : Nat := 0x88B8
def etSV : Nat := 0x88BA
def etPRP : Nat := 0x88FB

/-- One tag-length-value of ISO 8825 BER: tag, bytes of its header, value, rest. -/
def berOne (bs : List Byte) : Option (Nat × Nat × List Byte × List Byte) :=
  match bs with
  | t :: l :: rest =>
    let n := l.toNat
    if n < 128 then
      if n ≤ rest.length then some (t.toNat, 2, rest.take n, rest.drop n) else none
    else
      let k := n - 128
      let m := fromBE (rest.take k)
      if k ≤ 3 ∧ k + m ≤ rest.length then some (t.toNat, 2 + k, (rest.drop k).take m, rest.drop (k + m)) else none
  | _ => none

/-- The elements of a BER value: tag, offset of the value, value. None where the bytes do not parse. -/
def berList : Nat → Nat → List Byte → Option (List (Nat × Nat × List Byte))
  | 0, _, bs => if bs.isEmpty then some [] else none
  | k + 1, off, bs =>
    if bs.isEmpty then some []
    else match berOne bs with
      | none => none
      | some (t, h, v, rest) => (berList k (off + h + v.length) rest).map (fun l => (t, off + h, v) :: l)

/-- The leaves of a list of data: structures and arrays are entered. -/
def berLeaves : Nat → List (Nat × Nat × List Byte) → List (Nat × Nat × List Byte)
  | 0, l => l
  | k + 1, l => l.flatMap (fun e =>
    if e.1 = 0xA1 ∨ e.1 = 0xA2 then
      match berList e.2.2.length e.2.1 e.2.2 with
      | some m => berLeaves k m
      | none => [e]
    else [e])

/-- The value of the first element with a tag. -/
def berVal (l : List (Nat × Nat × List Byte)) (tag : Nat) : List Byte :=
  match l.find? (fun e => e.1 == tag) with
  | some e => e.2.2
  | none => []

/-- Elements of a PDU whose tag is given, standing behind the eight bytes APPID to Reserved 2. -/
def pduOf (bs : List Byte) (tag : Nat) : Option (List (Nat × Nat × List Byte)) :=
  let o := etypeOff bs + 10
  match berOne (bs.drop o) with
  | some (t, h, v, _) => if t = tag then berList v.length (o + h) v else none
  | none => none

/-- APPID of a GOOSE or SV frame. -/
def appidOf (bs : List Byte) : Nat := beAt bs (etypeOff bs + 2) 2

/-- The simulation bit of Reserved 1 (SV). -/
def simOf (bs : List Byte) : Bool := natBit (beAt bs (etypeOff bs + 6) 2) 15

/-- The dataset of a GOOSE PDU as leaves. -/
def gooseData (pdu : List (Nat × Nat × List Byte)) : List (Nat × Nat × List Byte) :=
  match pdu.find? (fun e => e.1 == 0xAB) with
  | some e => match berList e.2.2.length e.2.1 e.2.2 with
    | some l => berLeaves 4 l
    | none => []
  | none => []

/-! ### Transmission -/

/-- A frame leaves a port, padded to 60 bytes (R326); the port counts it. -/
def State.putEth (s : State) (p cls : Nat) (bytes : List Byte) : State :=
  (s.emit (.eth ⟨p % 4, Nat.mod_lt _ (by decide)⟩ cls (bytes ++ List.replicate (60 - bytes.length) 0#8))).incFld
    (Reg.PBX_TXFRM p) 31 0

/-- A frame is sent on a port in a class of R330: one of class 3 or 4 stays behind a mailbox frame that waits, one of class 1 does
not. -/
def State.sendEth (s : State) (p cls : Nat) (bytes : List Byte) : State :=
  if 3 ≤ cls ∧ (s.pb p).tx.isSome = true then s.modPb p (fun x => { x with queue := x.queue ++ [(cls, bytes)] })
  else s.putEth p cls bytes

/-- What waited behind the mailbox frame leaves: class 3, then class 4, each in its order (R330). -/
def State.drainEth (s : State) (p : Nat) : State :=
  let q := (s.pb p).queue
  ((q.filter (fun e => e.1 == 3)) ++ (q.filter (fun e => e.1 != 3))).foldl (fun s e => s.putEth p e.1 e.2)
    (s.modPb p (fun x => { x with queue := [] }))

/-- The redundancy control trailer of R329: sequence number, LanId with LSDU size, suffix. -/
def rct (seq lan : Nat) (bytes : List Byte) : List Byte :=
  bytes ++ bytesBE 2 seq ++ bytesBE 2 (lan * 4096 + (bytes.length - (etypeOff bytes + 2) + 6) % 4096) ++ bytesBE 2 etPRP

/-- Send on both ports of a pair with the same trailer but for the LanId (R329). -/
def State.sendPair (s : State) (q cls : Nat) (bytes : List Byte) : State :=
  let b := bytes ++ List.replicate (54 - bytes.length) 0#8
  let n := (s.pair q).seq
  let t := (s.sendEth (2 * q) cls (rct n 10 b)).sendEth (2 * q + 1) cls (rct n 11 b)
  t.modPair q (fun x => { x with seq := (n + 1) % 65536 })

/-- Send on the ports of a mask; a paired port stands for its pair (R329). -/
def State.sendMask (s : State) (mask cls : Nat) (bytes : List Byte) : State :=
  [0, 1].foldl (fun s q =>
    if s.paired (2 * q) && (natBit mask (2 * q) || natBit mask (2 * q + 1)) then s.sendPair q cls bytes
    else
      let t := if natBit mask (2 * q) then s.sendEth (2 * q) cls bytes else s
      if natBit mask (2 * q + 1) then t.sendEth (2 * q + 1) cls bytes else t) s

/-! ### GOOSE publication -/

/-- Octets of a bit string: string bit n is bit 7 - n mod 8 of octet n div 8. -/
def bitString (n : Nat) (w : Word) : List Byte :=
  (List.range ((n + 7) / 8)).map (fun i =>
    BitVec.ofNat 8 ((List.range 8).foldl (fun a j => if bit w (8 * i + j) && decide (8 * i + j < n) then a + 2 ^ (7 - j) else a) 0))

/-- The word of a bit string's octets: string bit n in word bit n (R336). -/
def bitWord (n : Nat) (bs : List Byte) : Word :=
  BitVec.ofNat 32 ((List.range (min n 32)).foldl (fun a j =>
    if natBit (nth 0#8 bs (j / 8)).toNat (7 - j % 8) then a + 2 ^ j else a) 0)

/-- A frame with one member's value written (R331): in the octets that its template element has. -/
def putMember (leaves : List (Nat × Nat × List Byte)) (bs : List Byte) (m : Member) (w : Word) : List Byte :=
  match leaves.find? (fun e => e.2.1 == m.off) with
  | none => bs
  | some (_, off, v) =>
    match m.typ with
    | 0 => patch bs off [BitVec.ofNat 8 (b2n (bit w 0))]
    | 1 => patch bs off (bytesBE v.length (toTwos (8 * v.length) w.toInt))
    | 2 => patch bs (off + (v.length - 4)) (bytesBE 4 w.toNat)
    | _ => patch bs (off + 1) (bitString m.bits w)

/-- A frame with an element of its PDU overwritten by a number in the octets the template gives it. -/
def putPdu (pdu : List (Nat × Nat × List Byte)) (bs : List Byte) (tag v : Nat) : List Byte :=
  match pdu.find? (fun e => e.1 == tag) with
  | some e => patch bs e.2.1 (bytesBE e.2.2.length v)
  | none => bs

/-- The frame of a block: template with tag, members, stNum, sqNum, timeAllowedToLive and t (R330-R332). -/
def gooseFrame (b : GpBlk) (data : List Word) (stamp : List Byte) (st sq tal : Nat) : List Byte :=
  let pdu := (pduOf b.frame 0x61).getD []
  let leaves := gooseData pdu
  let f := if beAt b.frame 12 2 = 0x8100 then patch b.frame 14 (bytesBE 2 (b.pcp % 8 * 8192 + b.vid % 4096)) else b.frame
  let f := (b.members.zip data).foldl (fun f e => putMember leaves f e.1 e.2) f
  let f := putPdu pdu (putPdu pdu (putPdu pdu f 0x81 tal) 0x85 st) 0x86 sq
  let f := putPdu pdu (putPdu pdu f 0x87 0) 0x89 0
  match pdu.find? (fun e => e.1 == 0x84) with
  | some e => patch f e.2.1 (stamp.take e.2.2.length)
  | none => f

/-- The field t at the present instant (R332). -/
def State.gooseT (s : State) : List Byte :=
  let sec := toTwos 32 ((s.time.sec : Int) - (s.rd Reg.ACQ_UTCOFS).toInt)
  bytesBE 4 sec ++ bytesBE 3 (s.time.nsec * 2 ^ 24 / 1000000000) ++ bytesLE 1 (s.fld Reg.PBX_GTQ 7 0)

/-- Frames from one transmission to the next: T1, then as much again as has passed since the change, capped at TMAX (R332;
assumption log 32). -/
def GpBlk.gap (b : GpBlk) (since : Nat) : Nat := min b.tmax (if since = 0 then b.t1 else since)

/-- timeAllowedToLive in ms: twice the interval, rounded up (R332). -/
def talOf (gap : Nat) : Nat := ceilDiv gap 8

/-- A quality member under the mode (R333): test bit in TEST, validity invalid in SAFE. -/
def modeQuality (m : Nat) (w : Word) : Word :=
  if m = mTEST then setBit w 11 true
  else if m = mSAFE then setBit (setBit w 0 false) 1 true
  else w

/-- Whether a mode publishes (R60, R333). -/
def publishes (m : Nat) : Bool := m == mCOMMISSION || m == mSERVICE || m == mTEST || m == mSAFE

/-- The next count, wrapping from 2^32 - 1 to 1 (R332). -/
def wrapOne (n : Nat) : Nat := if n + 1 < 2 ^ 32 then n + 1 else 1

/-- The dataset of block c is released at the end of frame f in mode m (R332, R333): a changed dataset is a state change with
its first transmission; where the mode publishes nothing, publication starts anew later. -/
def State.publish (s : State) (c f m : Nat) : State :=
  let b := s.gpb c
  let cfg := s.rd (Reg.PBX_GPCFG c)
  if bit cfg 31 = false then s
  else if publishes m = false then s.modPub c (fun b => { b with last := none, due := none, voted := none })
  else match b.voted with
    | none => s
    | some d =>
      let d' := (b.members.zip d).map (fun e => if e.1.typ = 4 then modeQuality m e.2 else e.2)
      if b.last = some d' then s.modPub c (fun b => { b with voted := none })
      else
        let st := if b.last.isNone then 1 else wrapOne (s.rd (Reg.PBX_GPST c)).toNat
        let stamp := s.gooseT
        let gap := b.gap 0
        let t := ((s.wr (Reg.PBX_GPST c) (BitVec.ofNat 32 st)).wr (Reg.PBX_GPSQ c) 0#32).wr (Reg.PBX_GPCHG c)
          (BitVec.ofNat 32 f)
        let t := t.modPub c (fun b => { b with
          voted := none, last := some d', stamp := stamp, since := 0, due := some ((f + 1 + gap) % 2 ^ 32) })
        t.sendMask (field cfg 28 25) 1 (gooseFrame b d' stamp st 0 (talOf gap))

/-! ### GOOSE subscription -/

/-- Image word of subscription i (R336). -/
def subWord (i : Nat) : Nat := 0xE18 + 16 * i

/-- The value of a received member as a word (R336). -/
def memberWord (m : Member) (e : Nat × Nat × List Byte) : Word :=
  let v := e.2.2
  if m.typ = 0 then BitVec.ofNat 32 (b2n (fromBE v != 0))
  else if m.typ = 1 then
    if e.1 = 0x86 then BitVec.ofNat 32 (fromBE v) else BitVec.ofInt 32 (sext (8 * v.length) (fromBE v))
  else if m.typ = 2 then BitVec.ofNat 32 (fromBE (v.drop (v.length - 4)))
  else bitWord m.bits (v.drop 1)

/-- The defaults of subscription i are delivered with STAT = 2#10 (R336, R337). -/
def State.subDefaults (s : State) (i tb : Nat) : State :=
  let d := ((s.gsub i).defaults ++ List.replicate 14 0#32).take 14
  s.deliver (subWord i) ([2#32, BitVec.ofNat 32 tb] ++ d)

/-- The log of a subscription's partition. -/
def State.subLog (s : State) (i : Nat) : Nat := logOf (s.fld (Reg.PBX_GSCFG i) 30 29)

/-- A stamp: the present instant moved by d ns: TB_NS, NSEC, SEC, wrap count (R324). -/
def State.stampOf (s : State) (d : Int) : Nat × Nat × Nat × Nat :=
  let tb := (s.time.tbNs : Int) + d
  let full := (((s.fullNs : Int) + d) % (2 ^ 48 * 1000000000 : Nat)).toNat
  let w := if tb < 0 then s.time.wrap + 255 else if 2 ^ 32 ≤ tb then s.time.wrap + 1 else s.time.wrap
  (toTwos 32 tb, full % 1000000000, full / 1000000000, w % 256)

/-- A subscription whose expiry instant has come: the defaults are committed and a record is written, both stamped with that instant
(R337). -/
def State.expireSub (s : State) (i : Nat) : State :=
  match (s.gsub i).expiry with
  | none => s
  | some e =>
    if e ≤ s.runNs then
      let st := s.stampOf ((e : Int) - (s.runNs : Int))
      let t := (s.modSub i (fun x => { x with expiry := none })).subDefaults i st.1
      let k := Reg.PBX_GSSTAT i
      let t := ((t.setFlag k 31 true).setFlag k 30 false).satFld k 15 0 1
      t.pbRecord 3 (256 + i) (s.gsub i).port (s.subLog i) st.1 st.2.2.2
    else s

/-- The type of a member as its octets show it (R335): the tag, with the length of a floating-point number, or of a bit string in
bits. -/
def memberShape (e : Nat × Nat × List Byte) : Nat × Nat :=
  let v := e.2.2
  (e.1, if e.1 = 0x87 then v.length else if e.1 = 0x84 then 8 * (v.length - 1) - (nth 0#8 v 0).toNat else 0)

/-- A GOOSE message that matches subscription i (R335-R337); one that arrives after the expiry instant finds the subscription expired. -/
def State.takeGoose (s : State) (i port : Nat) (pdu : List (Nat × Nat × List Byte)) : State :=
  let s := s.expireSub i
  let x := s.gsub i
  let tp := (pduOf x.frame 0x61).getD []
  let want := gooseData tp
  let got := gooseData pdu
  let st := fromBE (berVal pdu 0x85)
  let sq := fromBE (berVal pdu 0x86)
  let sim := fromBE (berVal pdu 0x87) != 0
  let nds := fromBE (berVal pdu 0x89) != 0
  let cnt := Reg.PBX_GSCNT i
  if fromBE (berVal pdu 0x88) ≠ fromBE (berVal tp 0x88) ∨ got.map memberShape ≠ want.map memberShape
      ∨ (sim = true ∧ s.behaved ≠ mTEST) then s.satFld cnt 15 0 1
  else if x.last = some (st, sq) then s
  else
    let vals := (want.zip got).filterMap (fun e =>
      (x.members.find? (fun m => m.off == e.1.2.1)).map (fun m => (m, memberWord m e.2)))
    let test := sim || vals.any (fun e => e.1.typ == 4 && bit e.2 11)
    let v := vals.foldl (fun l e => l.set e.1.src e.2) (List.replicate 14 0#32)
    let stat := 1 + 4 * b2n test + 8 * b2n sim + 16 * b2n nds
    let t := s.deliver (subWord i)
      ([BitVec.ofNat 32 (stat + 65536 * (st % 65536)), BitVec.ofNat 32 s.time.tbNs] ++ v)
    let t := (t.incFld cnt 31 16).wr (Reg.PBX_GSLAST i) (BitVec.ofNat 32 s.time.tbNs)
    let t := t.modSub i (fun y => { y with
      last := some (st, sq), expiry := some (s.runNs + fromBE (berVal pdu 0x81) * 1000000), port := port })
    let was := s.flag (Reg.PBX_GSSTAT i) 31
    let t := (t.setFlag (Reg.PBX_GSSTAT i) 31 false).setFlag (Reg.PBX_GSSTAT i) 30 true
    if was then t.pbRecord 4 (256 + i) port (s.subLog i) s.time.tbNs s.time.wrap else t

/-- Subscriptions a GOOSE frame matches: port, destination, APPID and gocbRef (R335). -/
def State.gooseMatch (s : State) (port : Nat) (bs : List Byte) (pdu : List (Nat × Nat × List Byte)) : List Nat :=
  (List.range s.pbx.subs.length).filter (fun i =>
    let cfg := s.rd (Reg.PBX_GSCFG i)
    let f := (s.gsub i).frame
    bit cfg 31 && natBit (field cfg 28 25) port && bs.take 6 == f.take 6 && appidOf bs == field cfg 15 0
      && berVal pdu 0x80 == berVal ((pduOf f 0x61).getD []) 0x80)

/-! ### Sampled values -/

/-- Samples per second of stream i (R346). -/
def State.svRate (s : State) (i : Nat) : Nat := if s.flag (Reg.PBX_SVCFG i) 30 then 14400 else 4800

/-- The ASDUs of an SV message. -/
def svAsdus (pdu : List (Nat × Nat × List Byte)) : List (List (Nat × Nat × List Byte)) :=
  match pdu.find? (fun e => e.1 == 0xA2) with
  | some e => match berList e.2.2.length e.2.1 e.2.2 with
    | some l => l.filterMap (fun a => berList a.2.2.length a.2.1 a.2.2)
    | none => []
  | none => []

/-- The log of a stream: that of its virtual bay's partition. -/
def State.strLog (s : State) (i : Nat) : Nat := ownerLog (s.bay (32 + i)).part

/-- One sample of stream i (R339): its count from smpCnt and the arrival instant, on the seconds counted since reset; gaps and bad validity are
counted (R346). -/
def State.takeSample (s : State) (i : Nat) (sim : Bool) (a : List (Nat × Nat × List Byte)) : State :=
  let rate := s.svRate i
  let k := fromBE (berVal a 0x82)
  let sec := if s.time.nsec * rate < k * 1000000000 then s.time.runSec - 1 else s.time.runSec
  let n : Int := sec * rate + k
  let d := berVal a 0x87
  let vals := (List.range 8).map (fun c => sext 32 (beAt d (8 * c) 4))
  let quals := (List.range 8).map (fun c => beAt d (8 * c + 4) 4)
  let x := s.str i
  let missing := match x.held with
    | [] => 0
    | y :: _ => (n - (y.n + 1)).toNat
  let fresh := match x.held with
    | [] => true
    | y :: _ => decide (y.n + 2 < n)
  let st := Reg.PBX_SVSTAT i
  let t := (s.setFld st 15 0 k).wr (Reg.PBX_SVLAST i) (BitVec.ofNat 32 s.time.tbNs)
  let t := t.setFld (Reg.PBX_SVMISS i) 31 0 ((t.rd (Reg.PBX_SVMISS i)).toNat + missing)
  let t := if quals.any (fun q => q % 4 != 0) then t.satFld (Reg.PBX_SVCNT i) 15 0 1 else t
  let t := if t.flag st 31 then t else t.setFlag st 30 true
  t.modStr i (fun x => { x with
    held := (⟨n, vals, quals, fromBE (berVal a 0x85), sim⟩ :: x.held).take 128
    here := true, since := if fresh then 0 else x.since, count := x.count + 1 })

/-- Streams an SV frame matches: destination, APPID and svID of its first ASDU (R338). -/
def State.svMatch (s : State) (bs : List Byte) (pdu : List (Nat × Nat × List Byte)) : List Nat :=
  let id := berVal (nth [] (svAsdus pdu) 0) 0x80
  (List.range s.pbx.streams.length).filter (fun i =>
    let cfg := s.rd (Reg.PBX_SVCFG i)
    let f := (s.str i).frame
    bit cfg 31 && bs.take 6 == f.take 6 && appidOf bs == field cfg 15 0
      && id == berVal (nth [] (svAsdus ((pduOf f 0x60).getD [])) 0) 0x80)

/-- A message for stream i is checked as in R335 (confRev, the number of its ASDUs, the length of each one's sample data; simulation
only in TEST) and its samples taken. -/
def State.takeSv (s : State) (i port : Nat) (bs : List Byte) (pdu : List (Nat × Nat × List Byte)) : State :=
  let tmpl := svAsdus ((pduOf (s.str i).frame 0x60).getD [])
  let want := nth [] tmpl 0
  let sim := simOf bs
  let as := svAsdus pdu
  if (sim = true ∧ s.behaved ≠ mTEST) ∨ as.length ≠ tmpl.length ∨ as.any (fun a =>
      fromBE (berVal a 0x83) != fromBE (berVal want 0x83) || (berVal a 0x87).length != (berVal want 0x87).length) then s
  else (as.foldl (fun s a => s.takeSample i sim a) s).modStr i (fun x => { x with port := port })

/-- The resampled value of channel k from four samples (R340), at fraction mu. -/
def svCubic (mu : Rat) (y : List Int) : Rat :=
  let v := fun i => ((nth 0 y i : Int) : Rat)
  carrySv (-(mu * (mu - 1) * (mu - 2) / 6) * v 0 + (mu + 1) * (mu - 1) * (mu - 2) / 2 * v 1
    - (mu + 1) * mu * (mu - 2) / 2 * v 2 + (mu + 1) * mu * (mu - 1) / 6 * v 3)

/-- At a frame boundary: the words of virtual bay 32 + i for the frame that began at the instant `start`, on the seconds counted since
reset (R340, R341). A virtual lane to
which no stream is mapped keeps the word of reset, 16#0000_0000, on which the manual is silent (DESIGN CHOICE, assumption log 62). -/
def State.resample (s : State) (i : Nat) (start : Int) (test : Bool) : State :=
  let cfg := s.rd (Reg.PBX_SVCFG i)
  let x := s.str i
  if bit cfg 31 = false then s
  else
    let rate := s.svRate i
    let tau := start - (s.fld Reg.PBX_DSV 15 0 * 62500 : Nat)
    let k0 := tau * rate / 1000000000
    let mu : Rat := mkRat (tau * rate % 1000000000) 1000000000
    let four := (List.range 4).map (fun (j : Nat) => x.held.find? (fun y => y.n + 1 == k0 + (j : Int)))
    let have4 := four.filterMap id
    let miss := four.any Option.isNone
    let t := if miss then s.incFld (Reg.PBX_SVHELD i) 31 0 else s
    (List.range 8).foldl (fun s k =>
      let l := 256 + 8 * i + k
      let shift := if k < 4 then field cfg 19 16 else field cfg 23 20
      let y := nearestEven (svCubic mu (have4.map (fun e => nth 0 e.vals k)) / (2 ^ shift : Nat))
      let c := clampVal y
      let q := have4.map (fun e => nth 0 e.quals k)
      let w : Sample := {
        src := 1
        t := test || q.any (fun b => natBit b 11) || have4.any (fun e => e.sim)
        s := miss || q.any (fun b => b % 4 != 0) || (bit cfg 29 && have4.any (fun e => e.synch == 0))
        o := (!miss && c.2) || q.any (fun b => natBit b 2)
        u := decide (x.since < 4)
        val := if miss then wordVal (s.lane l).rate else c.1 }
      s.modLane l (fun z => { z with rate := w.word })) t

/-- At a frame boundary: frames with and without samples, frames since a start or gap (R341, R342). -/
def State.countStream (s : State) (i : Nat) : State :=
  s.modStr i (fun x => { x with
    here := false, count := 0, idle := if x.here then 0 else x.idle + 1, run := if x.here then x.run + 1 else 0
    since := min 4 (x.since + 1) })

/-! ### Reception -/

/-- The registers that show a port's FIFO follow it (R345). -/
def State.showRx (s : State) (p : Nat) : State :=
  let q := (s.pb p).rx
  ((s.setFld (Reg.PBX_PRXSTAT p) 3 0 q.length).wrList (Reg.PBX_PRX p 0) (wordsOf 68 (nth [] q 0))).freshWin (winRx p) 68

/-- A PTP frame enters the FIFO of its port; a full FIFO drops it (R325). -/
def State.ptpIn (s : State) (p : Nat) (bs : List Byte) : State :=
  let q := (s.pb p).rx
  if 8 ≤ q.length then s.satFld (Reg.PBX_PRXSTAT p) 31 16 1
  else
    let st := s.stampOf (-((s.rd (Reg.TIM_PRXLAT p)).toNat : Int))
    let held := bs.take 256
    let flags := b2n (beAt bs 12 2 == 0x8100) + 2 * b2n (decide (256 < bs.length))
    let e := bytesLE 2 held.length ++ bytesLE 1 flags ++ bytesLE 1 st.2.2.2 ++ bytesLE 4 st.1 ++ bytesLE 4 st.2.1
      ++ bytesLE 4 st.2.2.1 ++ held ++ List.replicate (256 - held.length) 0#8
    let t := (s.modPb p (fun x => { x with rx := x.rx ++ [e] })).showRx p
    if q.isEmpty then t.causeAll 11 else t

/-- Whether a PTP frame answers sniff's own request on port p (R327): Pdelay_Resp or its follow-up with requestingPortIdentity
portNumber 16#FF00 + p. -/
def sniffPtp (p : Nat) (bs : List Byte) : Bool :=
  let o := etypeOff bs + 2
  let ty := beAt bs o 1 % 16
  (ty == 3 || ty == 10) && beAt bs (o + 52) 2 == 0xFF00 + p

/-- A Pdelay_Resp or its follow-up for sniff (R134, R327): the response gives t2, t4 and the partner, the follow-up t3, and with it the
exchange is complete. The times are the stamps alone; R134 names no correctionField (DEDUCED, assumption log 61). -/
def State.pdelayIn (s : State) (p : Nat) (bs : List Byte) : State :=
  let x := nth {} s.sniff.ports p
  let o := etypeOff bs + 2
  let at34 : Int := (beAt bs (o + 34) 6 * 1000000000 + beAt bs (o + 40) 4 : Nat)
  let put := fun (s : State) (y : PdelaySt) => { s with sniff := { s.sniff with ports := modAt s.sniff.ports p (fun _ => y) } }
  if (s.flag Reg.SNF_CMD 30 && s.sniff.items.head? == some 5 && x.waiting && beAt bs (o + 30) 2 + x.left == 2) = false then s
  else if beAt bs o 1 % 16 = 3 then
    let t4 : Int := (s.fullNs : Int) - (s.rd (Reg.TIM_PRXLAT p)).toNat
    put s { x with resp := some (at34, t4), mac := slice bs 6 6, clock := slice bs (o + 20) 8 }
  else match x.resp with
    | some (t2, t4) =>
      put s { x with waiting := false, resp := none, count := x.count + 1, sum2 := x.sum2 + ((t4 - x.t1) - (at34 - t2)) }
    | none => s

/-- The trailer of a received frame: sequence number and LanId, when the suffix and the LSDU size are right (R329). -/
def rctOf (bs : List Byte) : Option (Nat × Nat) :=
  let n := bs.length
  if n < 20 then none
  else if beAt bs (n - 2) 2 = etPRP ∧ beAt bs (n - 4) 2 % 4096 = n - (etypeOff bs + 2) then
    some (beAt bs (n - 6) 2, beAt bs (n - 4) 2 / 4096)
  else none

/-- PRP on receive (R329): whether the frame is passed on, and its counts and table. -/
def State.prpIn (s : State) (p : Nat) (bs : List Byte) : State × Bool :=
  if s.paired p = false then (s, true)
  else match rctOf bs with
    | none => (s, true)
    | some (seq, lan) =>
      let q := p / 2
      let src := slice bs 6 6
      let t := if lan = 10 + p % 2 then s else s.satFld (Reg.PBX_PRPLAN p) 31 0 1
      if ((s.pair q).table).any (fun e => e.1 == src && e.2.1 == seq && decide (s.runNs < e.2.2 + 400000000)) then (t.incFld (Reg.PBX_PRPDUP p) 31 0, false)
      else (t.modPair q (fun x =>
        { x with table := (x.table ++ [(src, seq, s.runNs)]).drop (x.table.length + 1 - 1024) }), true)

/-- A frame of a port is routed by its EtherType (R328). -/
def State.route (s : State) (p : Nat) (bs : List Byte) : State :=
  let drop := s.incFld (Reg.PBX_RXDROP p) 31 0
  if etype bs = etGOOSE then
    match pduOf bs 0x61 with
    | none => drop
    | some pdu => match s.gooseMatch p bs pdu with
      | [] => drop
      | l => l.foldl (fun s i => s.takeGoose i p pdu) s
  else if etype bs = etSV then
    match pduOf bs 0x60 with
    | none => drop
    | some pdu => match s.svMatch bs pdu with
      | [] => drop
      | l => l.foldl (fun s i => s.takeSv i p bs pdu) s
  else if etype bs = etPRP then s
  else drop

/-! ### Meanings of the rows -/

/-- ETHERNET_FRAME_RECEIVE (R324-R329, R335, R339): `bytes` is the frame from the destination address on, without FCS. -/
def execEthernetFrameReceive (port : Fin 4) (bytes : List Byte) (fcsOk : Bool) (s : State) : R :=
  let p := port.val
  if s.phase ≠ .running ∨ s.mode = mFILL ∨ s.flag (Reg.PBX_PCFG p) 31 = false ∨ s.flag (Reg.PBX_PSTAT p) 31 = false then
    .next s
  else if fcsOk = false ∨ 1528 < bytes.length + 4 then .next (s.satFld (Reg.PBX_RXERR p) 31 0 1)
  else if bytes.length < 60 then .next s
  else
    let t := s.incFld (Reg.PBX_RXFRM p) 31 0
    if etype bytes = etPTP then .next (if sniffPtp p bytes then t.pdelayIn p bytes else t.ptpIn p bytes)
    else
      let r := t.prpIn p bytes
      .next (if r.2 then r.1.route p bytes else r.1)

/-- The action of a write of PBX_PRXCTL: POP removes the head entry (R325). -/
def wrPrxctl (p : Nat) (v : Word) (s : State) : State :=
  if bit v 0 then (s.modPb p (fun x => { x with rx := x.rx.drop 1 })).showRx p else s

/-- PTP_FIFO_POP (R325). -/
def execPtpFifoPop (p : Port) (port : Fin 4) (v : Word) (s : State) : R :=
  gate s p .engine .global 0xFFFFFFFE#32 (Reg.PBX_PRXCTL port.val) (v ||| 1#32) (wrPrxctl port.val)

/-- rsv bits of PBX_PTXCTL. -/
def ptxctlRsv : Word := 0x3FFF7E00#32

/-- The action of a write of PBX_PTXCTL (R326, R345): a GO while BUSY is discarded; LEN below 14 acts as 14. -/
def wrPtxctl (p : Nat) (v : Word) (s : State) : State :=
  let k := Reg.PBX_PTXCTL p
  let t := s.plain k 0x1FF#32 0x40000000#32 v
  if bit v 15 && !s.flag k 31 then
    let len := max 14 (min 256 (field v 8 0))
    let t := (t.setFlag k 31 true).setFlag (Reg.TIM_PEG_ID p) 31 false
    let ws := t.takeWin (winTx p) ((List.range 64).map (fun i => s.rd (Reg.PBX_PTX p i)))
    ws.1.modPb p (fun x => { x with tx := some ((ws.2.flatMap wordBytes).take len) })
  else t

/-- PTP_TRANSMIT (R326). -/
def execPtpTransmit (p : Port) (port : Fin 4) (v : Word) (s : State) : R :=
  gate s p .engine .global ptxctlRsv (Reg.PBX_PTXCTL port.val) (v ||| 0x8000#32) (wrPtxctl port.val)

/-- PTP_TRANSMIT_DONE (R326): a PTP message's egress stamp, DONE, BUSY; vector 11 with VALID (R385). -/
def execPtpTransmitDone (port : Fin 4) (s : State) : R :=
  let p := port.val
  match (s.pb p).tx with
  | none => .next s
  | some bs =>
    let t := (s.modPb p (fun x => { x with tx := none })).putEth p 2 bs
    let t := ((t.setFlag (Reg.PBX_PTXCTL p) 31 false).setFlag (Reg.PBX_PTXCTL p) 30 true)
    if etype bs = etPTP then
      let o := etypeOff bs + 2
      let st := s.stampOf ((s.rd (Reg.TIM_PTXLAT p)).toNat : Int)
      let t := t.wr (Reg.TIM_PEG_NS p) (BitVec.ofNat 32 st.1)
      let t := t.wr (Reg.TIM_PEG_NSEC p) (BitVec.ofNat 32 st.2.1)
      let t := t.wr (Reg.TIM_PEG_SECLO p) (BitVec.ofNat 32 st.2.2.1)
      let t := t.wr (Reg.TIM_PEG_SECHI p) (BitVec.ofNat 32 (st.2.2.1 / 2 ^ 32 % 65536 + 2 ^ 24 * st.2.2.2))
      .next (((t.wr (Reg.TIM_PEG_ID p)
        (BitVec.ofNat 32 (2 ^ 31 + 65536 * (beAt bs o 1 % 16) + beAt bs (o + 30) 2))).causeAll 11).drainEth p)
    else .next (t.drainEth p)

/-- PB_LINK_CHANGE (R328): auto-negotiation is complete while the link is up. -/
def execPbLinkChange (port : Fin 4) (up : Bool) (s : State) : R :=
  let p := port.val
  let k := Reg.PBX_PSTAT p
  if s.phase ≠ .running ∨ s.flag (Reg.PBX_PCFG p) 31 = false ∨ s.flag k 31 = up then .next s
  else
    let t := ((s.setFlag k 31 up).setFlag k 30 up).satFld k 15 0 1
    .next (t.pbRecord (if up then 1 else 2) p p everyLog s.time.tbNs s.time.wrap)

/-- A PRP supervision frame of a pair (R329). -/
def State.supFrame (s : State) (q : Nat) : List Byte :=
  [0x01#8, 0x15#8, 0x4E#8, 0x00#8, 0x01#8, 0x00#8] ++ s.macOf (2 * q) ++ bytesBE 2 etPRP ++ bytesBE 2 1
    ++ bytesBE 2 (s.pair q).sup ++ [20#8, 6#8] ++ s.macOf (2 * q) ++ bytesBE 2 0

/-- PRP_SUPERVISION_TIMER (R329): every pair whose 2 000 ms have passed sends on both its ports, class 4 (R330). -/
def execPrpSupervisionTimer (s : State) : R :=
  if s.phase ≠ .running then .next s
  else .next ([0, 1].foldl (fun s q =>
    let due := (s.pair q).supDue
    if s.paired (2 * q) = true ∧ due ≤ s.runNs then
      (s.sendPair q 4 (s.supFrame q)).modPair q (fun x => { x with
        sup := (x.sup + 1) % 65536, supDue := if s.runNs < due + 2000000000 then due + 2000000000 else s.runNs + 2000000000 })
    else s) s)

/-- PRP_DISCARD_EXPIRY: entries 400 ms old are forgotten (R329). -/
def execPrpDiscardExpiry (pair : Fin 2) (s : State) : R :=
  .next (s.modPair pair.val (fun x => { x with table := x.table.filter (fun e => decide (s.runNs < e.2.2 + 400000000)) }))

/-- GOOSE_RETRANSMIT (R332): the interval has expired; sqNum advances and the dataset is sent again. -/
def execGooseRetransmit (block : Fin 64) (s : State) : R :=
  let c := block.val
  let b := s.gpb c
  match b.last, b.due with
  | some d, some due =>
    if frameReached s.frame due then
      let since := b.since + b.gap b.since
      let gap := b.gap since
      let sq := wrapOne (s.rd (Reg.PBX_GPSQ c)).toNat
      let t := s.wr (Reg.PBX_GPSQ c) (BitVec.ofNat 32 sq)
      let t := t.modPub c (fun b => { b with since := since, due := some ((due + gap) % 2 ^ 32) })
      .next (t.sendMask (s.fld (Reg.PBX_GPCFG c) 28 25) 3
        (gooseFrame b d b.stamp (s.rd (Reg.PBX_GPST c)).toNat sq (talOf gap)))
    else .next s
  | _, _ => .next s

/-- GOOSE_SUBSCRIPTION_EXPIRY (R337): the defaults are committed, stamped with the expiry instant. -/
def execGooseSubscriptionExpiry (sub : Fin 256) (s : State) : R :=
  .next (s.expireSub sub.val)

/-- SV_STREAM_LOSS (R342): 16 frames have passed without a sample. -/
def execSvStreamLoss (i : Fin 16) (s : State) : R :=
  let k := Reg.PBX_SVSTAT i.val
  if s.flag (Reg.PBX_SVCFG i.val) 31 = true ∧ s.flag k 31 = false ∧ 16 ≤ (s.str i.val).idle then
    let t := ((s.setFlag k 31 true).setFlag k 30 false).satFld (Reg.PBX_SVCNT i.val) 31 16 1
    .next (t.pbRecord 5 (16 + i.val) (s.str i.val).port (s.strLog i.val) s.time.frTb s.time.frWrap)
  else .next s

/-- SV_STREAM_RESTORE (R342): 4 consecutive frames have held samples. -/
def execSvStreamRestore (i : Fin 16) (s : State) : R :=
  let k := Reg.PBX_SVSTAT i.val
  if s.flag (Reg.PBX_SVCFG i.val) 31 = true ∧ s.flag k 31 = true ∧ 4 ≤ (s.str i.val).run then
    let t := (s.setFlag k 31 false).setFlag k 30 true
    .next (t.pbRecord 6 (16 + i.val) (s.str i.val).port (s.strLog i.val) s.time.frTb s.time.frWrap)
  else .next s

end Sys2Proof.Machine
end

