-- ==== Sys2Proof/Machine/Recorder.lean ====
section
/-!
DEFINITION. Sys2Proof/Machine/Recorder.lean: the recorders (R265-R283, R291): rows RECORDER_ENABLE, RECORDER_ARM, RECORDER_STOP,
HOST_TRIGGER, RECORDER_COMMAND_EFFECT, TRIGGER_EDGE_TEN_WRITE, RECORDER_ROW_WRITE, RECORDING_CLOSE, SEGMENT_COPY_DONE,
RECORDER_STOP_COMPLETE, RUN_DELIVERED. Instants are ns with frame n (counted without wrap) starting at 62 500 n.
-/
namespace Sys2Proof.Machine

def State.recorder (s : State) (r : Nat) : RecSt := nth {} s.acq.recs r
def State.modRec (s : State) (r : Nat) (f : RecSt → RecSt) : State :=
  { s with acq := { s.acq with recs := modAt s.acq.recs r f } }

/-! ### What the ACQ section fixes (R265, R291) -/

def State.rcValid (s : State) (r : Nat) : Bool := s.flag (Reg.ACQ_RCFG r) 31
def State.rcPart (s : State) (r : Nat) : Nat := s.fld (Reg.ACQ_RCFG r) 30 29
/-- The partition that a recorder belongs to (R265, R371). -/
def State.rcOwner (s : State) (r : Nat) : Option Nat := s.heldOwner (8 + r) (if s.rcValid r then some (s.rcPart r) else none)
def State.rcMode (s : State) (r : Nat) : Nat := s.fld (Reg.ACQ_RCFG r) 27 26
def State.rcRate (s : State) (r : Nat) : Nat := s.fld (Reg.ACQ_RCFG r) 25 23
def State.rcOneshot (s : State) (r : Nat) : Bool := s.flag (Reg.ACQ_RCFG r) 22
def State.rcPre (s : State) (r : Nat) : Nat := s.fld (Reg.ACQ_RPRE r) 23 0
def State.rcPost (s : State) (r : Nat) : Nat := s.fld (Reg.ACQ_RPOST r) 23 0
def State.rcNseg (s : State) (r : Nat) : Nat := s.fld (Reg.ACQ_RSEG r) 12 0
def State.rcLanes (s : State) (r : Nat) : Nat := s.fld (Reg.ACQ_RSEG r) 22 16
/-- The region of the buffer's wing. -/
def State.rcRegion (s : State) (r : Nat) : Nat := 4 + s.fld (Reg.ACQ_RCFG r) 28 28
/-- Rows that the ring holds. -/
def State.ringRows (s : State) (r : Nat) : Nat := max 1 (s.fld (Reg.ACQ_BUFSZ r) 31 16 * 16384 / max 1 (s.rcLanes r))
/-- First word of the ring, and of the store behind it (assumption log 39). -/
def State.ringAt (s : State) (r : Nat) : Nat := (s.rd (Reg.ACQ_BUFBASE r)).toNat * 16384
def State.storeAt (s : State) (r : Nat) : Nat := s.ringAt r + s.fld (Reg.ACQ_BUFSZ r) 31 16 * 16384

/-- STATE of ACQ_RSTAT. -/
def rOFF : Nat := 0
def rARMED : Nat := 1
def rPOST : Nat := 2
def rWAIT : Nat := 3
def rHELD : Nat := 4
def rSTOPPING : Nat := 5
def rTREND : Nat := 6
def State.rcState (s : State) (r : Nat) : Nat := s.fld (Reg.ACQ_RSTAT r) 31 29
def State.setRc (s : State) (r st : Nat) : State := s.setFld (Reg.ACQ_RSTAT r) 31 29 st

/-! ### Row and sample instants (R267) -/

/-- k of stage-B output k that RATE 2 to 7 takes. -/
def stageOf (rate : Nat) : Nat := rate - 1

/-- Instant of row 0 of the present era, and ns from row to row. -/
def State.rowStart (s : State) (r : Nat) : Rat :=
  let f := (s.recorder r).eraF
  match s.rcRate r with
  | 0 => (62500 * f : Nat)
  | rate =>
    let p := 2 ^ stageOf rate
    (62500 * ((f + 1 + p - 1) / p * p - 1) : Nat) + 127 * mkRat 48828125 100000
def State.rowStep (s : State) (r : Nat) : Rat :=
  match s.rcRate r with
  | 0 => mkRat 48828125 100000
  | rate => ((62500 * 2 ^ stageOf rate : Nat) : Rat)

/-- The delay D of a lane at the recorder's rate, in ns (R267). -/
def State.rowDelay (s : State) (r l : Nat) : Rat :=
  let da : Rat := if l < 256 then groupDelay (s.lane l).form.dec * 1000000000 else 0
  match s.rcRate r with
  | 0 => 0
  | rate => da + 3 * ((2 ^ stageOf rate - 1 : Nat) : Rat) * 62500

/-- The reference delay D_R. -/
def State.refDelay (s : State) (r : Nat) : Rat := s.rowDelay r (nth 0 (s.recorder r).lanes 0)

/-- The stamp of a row, by write index. -/
def rowStamp (l : List Stamp) (w : Nat) : Stamp := (l.find? (fun x => decide (x.w ≤ w) && decide (w < x.w + x.n))).getD {}

/-- A row's instant after the start of its frame, in ns. -/
def rowOffset (rate : Nat) (x : Stamp) (w : Nat) : Rat := (if rate = 0 then ((w - x.w : Nat) : Rat) else 127) * mkRat 48828125 100000

/-! ### Words of a row (R266) -/

/-- The word of one strobe at RATE 0. -/
def rawWord (x : LaneSt) (l n : Nat) : Word :=
  let f := x.form
  if 256 ≤ l then wordOffT f.t
  else if f.on = false then wordOffT f.t
  else if f.typ = 0 then wordDisabled f.t
  else
    let c := nth 0#16 x.old n
    let o := isMarker c
    let v : Int := if c == 0x7FFF#16 then valMax else if c == 0x8000#16 then -valMax else c.toInt * 256
    (Sample.mk (if f.inj = 1 ∨ f.inj = 2 then 3 else 0) f.t (nth false x.oldRep n || f.inj != 0) o
      (decide (n < x.unsetOld)) v).word

/-- The rows that frame F - 1 gave, as lists of words in set order. -/
def State.newRows (s : State) (r : Nat) : List (List Word) :=
  let ls := (s.recorder r).lanes
  let f := s.time.frames - 1
  match s.rcRate r with
  | 0 => (List.range 128).map (fun n => ls.map (fun l => rawWord (s.lane l) l n))
  | 1 => [ls.map (fun l => (s.lane l).rate)]
  | rate =>
    let k := stageOf rate
    if f % 2 ^ k = 2 ^ k - 1 then
      [ls.map (fun l => if k = 6 then (s.lane l).b6 else nth 0#32 (nth [] (s.lane l).bst k) 0)]
    else []

/-! ### Held spans (R283) -/

/-- The O jobs' pending runs follow the work that exists (R46, R54). -/
def State.syncJob (s : State) (kind : Nat) (work : Bool) : State :=
  { s with ojobs := s.ojobs.map (fun j => if j.kind = kind then { j with pend := b2n work } else j) }

/-- ACQ_FMT (R292). -/
def State.showFmt (s : State) : State :=
  let h := match s.acq.queue with
    | d :: _ => 32768 * b2n d.begun + (if d.begun then d.who else 0)
    | [] => 0
  (s.wr Reg.ACQ_FMT (BitVec.ofNat 32 (65536 * s.acq.queue.length + h))).syncJob 4 (!s.acq.queue.isEmpty)

def State.syncTrend (s : State) : State := s.syncJob 5 (s.acq.recs.any (fun x => !x.blocks.isEmpty))

/-- A closed recording leaves the queue; a store is free again (R277, R283). -/
def State.dropDone (s : State) (d : Done) : State :=
  let t := { s with acq := { s.acq with queue := s.acq.queue.filter (fun e => !(e.who == d.who && e.recno == d.recno)) } }
  (if d.multi then t.modRec d.who (fun x => { x with busy := false }) else t).showFmt

/-- Rows of a recording. -/
def Done.rows (d : Done) : Nat := d.segs.foldl (fun a g => a + g.n) 0

/-- A recording without its first row. -/
def Done.shrink (d : Done) : Done :=
  { d with flags := natSetBit d.flags 1 true
           segs := d.segs.map (fun g => { g with first := g.first + 1, n := g.n - 1, t0 := g.t0 - 1 }) }

/-- Add to the 64-bit ACQ_SLOST. -/
def State.addSlost (s : State) (r n : Nat) : State :=
  let v := satAdd (2 ^ 64 - 1) ((s.rd (Reg.ACQ_SLOST_LO r)).toNat + 2 ^ 32 * (s.rd (Reg.ACQ_SLOST_HI r)).toNat) n
  (s.wr (Reg.ACQ_SLOST_LO r) (BitVec.ofNat 32 v)).wr (Reg.ACQ_SLOST_HI r) (BitVec.ofNat 32 (v / 2 ^ 32))

/-- What the writer does to a held span that starts at its position: write index i of the row it overwrites (R283). -/
def State.reachSpan (s : State) (r i : Nat) : State :=
  let t := match s.acq.queue.find? (fun d => d.who == r && !d.multi && d.segs.any (fun g => g.first == i)) with
    | none => s
    | some d =>
      if s.flag (Reg.ACQ_RCFG r) 21 = false ∨ d.begun = true then (s.dropDone d).satFld (Reg.ACQ_RLOST r) 31 16 1
      else
        let u := s.addSlost r (4 * s.rcLanes r)
        if d.rows ≤ 1 then (u.dropDone d).satFld (Reg.ACQ_RLOST r) 31 16 1
        else { u with acq := { u.acq with
          queue := u.acq.queue.map (fun (e : Done) => if e.who = r ∧ e.recno = d.recno then d.shrink else e) } }
  if (t.recorder r).blocks.any (fun b => b.first == i) then
    (((t.modRec r (fun x => { x with blocks := x.blocks.filter (fun b => b.first != i) })).satFld (Reg.ACQ_RLOST r) 15 0 1)).syncTrend
  else t

/-- One row goes to the ring (R283). -/
def State.putRow (s : State) (r : Nat) (ws : List Word) : State :=
  let w := (s.recorder r).wrN
  let n := s.ringRows r
  let t := if n ≤ w then s.reachSpan r (w - n) else s
  (t.wrMemList (s.rcRegion r) (s.ringAt r + w % n * s.rcLanes r) ws).modRec r (fun x => { x with wrN := w + 1 })

/-! ### Digital signals (R268, R269) -/

/-- The state of a digital signal now: kind and index of its word (R418); the command set released. -/
def State.digState (s : State) (r sig : Nat) (dos : Word) : Bool :=
  let i := sig % 2 ^ 28
  match sig / 2 ^ 28 with
  | 1 => bit (s.status (i / 32)) (i % 32)
  | 2 => (s.part (s.rcPart r)).vars.bit (i % 8192)
  | 3 => s.flag (Reg.FIO_DISTAT i) 0
  | 4 => s.flag (Reg.DEC_TSTAT i) 0
  | 5 => s.flag (Reg.DEC_TSTAT i) 1
  | 6 => bit dos i
  | _ => false

/-- Whether the signal's changes need a plan that runs. -/
def planSig (sig : Nat) : Bool := sig / 2 ^ 28 == 1 || sig / 2 ^ 28 == 2 || sig / 2 ^ 28 == 6

/-- Instant of a lane's word of the frame before the present one, in ns after that frame's start (R140). -/
def State.tauNs (s : State) (l : Nat) : Rat := s.tau l * 1000000000 - (s.time.prNsec : Rat)

/-- The tag of a change found at the end of the present frame (R268). -/
def State.digTag (s : State) (sig : Nat) : Int :=
  let i := sig % 2 ^ 28
  match sig / 2 ^ 28 with
  | 3 => s.widen (s.rd (Reg.FIO_DILAST i)).toNat
  | 4 | 5 => let t := s.tauNs i
             s.widen s.time.prTb + roundUp t.num t.den
  | 6 => s.tbWide
  | _ => s.widen s.time.prTb

/-- The 8 bytes of an entry as two words; WRAPS counts from `base` (R269). -/
def DigEnt.words (e : DigEnt) (base : Int) : List Word :=
  [BitVec.ofNat 32 (e.sig % 4096 + 32768 * b2n e.on + 65536 * toTwos 16 (e.tag / 4294967296 - base)),
   BitVec.ofNat 32 (toTwos 32 e.tag)]

/-- First word of the slot of entry k in the wing's DRAM: the digital ring stands behind the store (assumption log 39). -/
def State.digAddr (s : State) (r k : Nat) : Nat :=
  s.storeAt r + s.fld (Reg.ACQ_BUFSZ r) 15 0 * 16384 + 2 * (k % max 1 (s.rd (Reg.ACQ_DIGSZ r)).toNat)

/-- Tag of the oldest row that the ring, a segment of the run or a recording not yet delivered still holds. -/
def State.oldestTag (s : State) (r : Nat) : Int :=
  let x := s.recorder r
  let mine := s.acq.queue.filter (fun d => d.who == r)
  let all := x.stamps.take 1 ++ (x.segs ++ (x.closing ++ mine).flatMap Done.segs).flatMap (fun g => g.stamps.take 1)
  (all.map Stamp.tb).foldl min s.tbWide - (s.refDelay r).ceil

/-- An entry joins the digital ring, in DRAM too; a full ring loses its oldest (R269, R283). -/
def State.addDig (s : State) (r : Nat) (e : DigEnt) : State :=
  let size := (s.rd (Reg.ACQ_DIGSZ r)).toNat
  let x := s.recorder r
  let e : DigEnt := { e with slot := x.digN }
  let t := if size = 0 then s else s.wrMemList (s.rcRegion r) (s.digAddr r x.digN) (e.words x.digWrap)
  let all := x.digs ++ [e]
  let gone := all.take (all.length - size)
  let old := s.oldestTag r
  t.modRec r (fun x => { x with
    digN := x.digN + 1
    digs := all.drop gone.length
    digBase := gone.foldl (fun l d => modAt l d.sig (fun _ => d.on)) x.digBase
    digLost := (x.digLost ++ gone.map DigEnt.tag).filter (fun g => decide (old ≤ g)) })

/-- Whether this frame's scan looks at a signal, and its state there: element, zone and scheme bits as the frame-closure job took
them (R43), commands as released, both in frames in which a plan runs; the field's and lanes' own always (R268). -/
def State.digLook (s : State) (r : Nat) (e : Nat × Nat) (dos : Word) : Option Bool :=
  if planSig e.1 = false then some (s.digState r e.1 dos)
  else if s.planRuns = false then none
  else if e.1 / 2 ^ 28 = 6 then some (s.digState r e.1 dos)
  else if s.run.jobs.contains 4096 then some (nth false (s.recorder r).digShot e.2) else none

/-- The changes of one recorder's signals in the frame that ends (R268); `dos` is the command set it releases. -/
def State.digitalScan (s : State) (r : Nat) (dos : Word) : State :=
  if s.rcValid r = false then s
  else
    ((s.recorder r).sigs.zipIdx).foldl (fun t e =>
      match s.digLook r e dos with
      | none => t
      | some now =>
        if nth false (t.recorder r).digNow e.2 = now then t
        else (t.modRec r (fun x => { x with digNow := modAt x.digNow e.2 (fun _ => now) })).addDig r
          ({ sig := e.2, on := now, tag := s.digTag e.1 } : DigEnt)) s

/-- The states that the first comparison after staging starts from: those the signals have then. -/
def State.digStart (s : State) : State :=
  (List.range 16).foldl (fun s r =>
    let now := (s.recorder r).sigs.map (fun g => s.digState r g s.fio.released)
    s.modRec r (fun x => { x with digNow := now, digBase := now, digShot := now })) s

/-! ### The state machine (R277) -/

/-- Ring writing begins with the rows of frame f: the entry to ARMED or TREND falls on its start. -/
def State.startEra (s : State) (r f : Nat) : State :=
  s.modRec r (fun x => { x with eraW := x.wrN, eraF := f, endF := none, armPos := ((62500 * f : Nat) : Rat), stopAt := none
                                stopReq := false, maskEnd := false, post := none, trendW := x.wrN
                                masks := List.replicate 4 (0, 0), digWrap := s.tbWide / 4294967296 })

/-- A run or recording begins afresh: ARMED, TREND, or WAIT while the store is held (R277, R280). -/
def State.enterArmed (s : State) (r f : Nat) : State :=
  if s.rcMode r = 2 then (s.startEra r f).setRc r rTREND
  else if s.rcMode r = 1 ∧ (s.recorder r).busy = true then s.setRc r rWAIT
  else (((s.startEra r f).modRec r (fun x => { x with segs := [], storeN := 0 })).setFld (Reg.ACQ_RSTAT r) 12 0 0).setRc r rARMED

/-- A recording is on its way to the queue: it closes at the end of the frame after that of its last row, a run that a command
ends at once (R277, R281). -/
def State.toClose (s : State) (r : Nat) (multi : Bool) (segs : List Seg) (flags due : Nat) : State :=
  s.modRec r (fun x => { x with closing := x.closing ++
    [({ who := r, multi := multi, segs := segs, flags := flags, due := due } : Done)] })

/-- FLAGS [5:3] of R286. -/
def endFlags (multi mask stopped : Bool) : Nat := 8 * b2n multi + 16 * b2n mask + 32 * b2n stopped

/-- The run of a segmented recorder closes with the segments it holds (R280). -/
def State.finishRun (s : State) (r : Nat) (mask stopped : Bool) (short due : Nat) : State :=
  let x := s.recorder r
  if x.segs.isEmpty then s
  else ((s.toClose r true x.segs (endFlags true mask stopped ||| short) due).modRec r
    (fun x => { x with segs := [], storeN := 0, busy := true }))

/-- Whether a segment of the run began late (FLAGS bit 0). -/
def RecSt.shortRun (x : RecSt) (pre : Nat) : Nat := b2n (x.segs.any (fun g => g.t0 < pre))

/-- The recording in POST has its last row: it closes or its segment does, and the recorder goes on (R277-R280). -/
def State.finishPost (s : State) (r : Nat) : State :=
  let x := s.recorder r
  match x.post with
  | none => s
  | some (trig, w0) =>
    let endW := w0 + s.rcPost r
    if x.wrN < endW then s
    else
      let stopping := s.rcState r == rSTOPPING
      let lo := max (max x.eraW (w0 - s.rcPre r)) (x.wrN - s.ringRows r)
      let st := x.stamps.filter (fun p => decide (lo < p.w + p.n) && decide (p.w < endW))
      let g : Seg := { first := lo, n := endW - lo, t0 := w0 - lo, trig := trig, stamps := st }
      let halt := x.stopReq || x.maskEnd
      let last := rowStamp x.stamps (endW - 1)
      let arm := ((62500 * last.frame : Nat) : Rat) + rowOffset (s.rcRate r) last (endW - 1) + mkRat 48828125 100000
      let due := last.frame + 2
      let t := s.modRec r (fun x => { x with post := none, armPos := arm, masks := List.replicate 4 (0, 0) })
      let rearm : State → State := fun u => (u.modRec r (fun x => { x with
        digWrap := (last.tb + (arm - ((62500 * last.frame : Nat) : Rat)).floor) / 4294967296 })).setRc r rARMED
      let t := if x.maskEnd then t.setFlag (Reg.ACQ_RSTAT r) 27 true else t
      let t := if stopping then t.modRec r (fun x => { x with stopAt := some (s.time.frames + 2) }) else t
      let short := b2n (decide (g.t0 < s.rcPre r))
      if s.rcMode r = 0 then
        let t := t.toClose r false [g] (endFlags false x.maskEnd (x.stopReq || stopping) ||| short) due
        if stopping then t
        else if halt || s.rcOneshot r then (t.modRec r (fun x => { x with stopReq := false, maskEnd := false })).setRc r rHELD
        else rearm t
      else
        let segs := x.segs ++ [g]
        let t := t.modRec r (fun y => { y with segs := segs, copies := y.copies ++ [(y.storeN, g)], storeN := y.storeN + g.n })
        let t := t.setFld (Reg.ACQ_RSTAT r) 12 0 segs.length
        let full := decide (s.rcNseg r ≤ segs.length)
        let sh := (t.recorder r).shortRun (s.rcPre r)
        if stopping then t.finishRun r x.maskEnd true sh due
        else if full || halt then
          let u := (t.finishRun r x.maskEnd x.stopReq sh due).modRec r (fun x => { x with stopReq := false, maskEnd := false })
          if halt || s.rcOneshot r then u.setRc r rHELD else u.setRc r rWAIT
        else rearm t

/-- A trigger becomes the recording's (R272, R273). -/
def State.takeTrig (s : State) (r : Nat) (g : Trig) : State :=
  let q := ((g.pos : Rat) + s.refDelay r - s.rowStart r) / s.rowStep r
  let j := q.ceil.toNat
  let t := s.modRec r (fun x => { x with post := some (g, x.eraW + j), maskEnd := g.stop })
  let t := (t.setRc r rPOST).wr (Reg.ACQ_LTRIG_NS r) (BitVec.ofNat 32 g.nsec)
  let t := (t.wr (Reg.ACQ_LTRIG_SECLO r) (BitVec.ofNat 32 g.sec)).wr (Reg.ACQ_LTRIG_SECHI r) (BitVec.ofNat 32 (g.sec / 2 ^ 32))
  t.wr (Reg.ACQ_LTRIG_FRM r) (BitVec.ofNat 32 g.frame)

/-- Edges in the order of R273. -/
def trigBefore (a b : Trig) : Bool := decide (a.pos < b.pos) || (a.pos == b.pos && decide (a.idx < b.idx))
def trigInsert (g : Trig) : List Trig → List Trig
  | [] => [g]
  | h :: t => if trigBefore g h then g :: h :: t else h :: trigInsert g t
def trigSort (l : List Trig) : List Trig := l.foldl (fun a g => trigInsert g a) []

/-- The edges recognised in the frame that ends meet the recorder's state (R273). -/
def State.acceptTrigs (s : State) (r : Nat) : State :=
  let t := s.finishPost r
  let t := (trigSort (s.recorder r).edges).foldl (fun t g =>
    let st := t.rcState r
    if st = rARMED ∧ (t.recorder r).armPos ≤ (g.pos : Rat) then (t.takeTrig r g).finishPost r
    else if st = rARMED ∨ st = rPOST then t.satFld (Reg.ACQ_RCNT r) 15 0 1
    else t) t
  t.modRec r (fun x => { x with edges := [] })

/-- Every recorder's triggers and digital changes at a frame's end. -/
def State.acqBoundary (s : State) (dos : Word) : State :=
  (List.range 16).foldl (fun s r => if s.rcValid r then (s.acceptTrigs r).digitalScan r dos else s) s

/-! ### Edges (R270, R271, R275) -/

/-- An instant `off` ns after the start of the frame that lies `back` frames before the present one, held to 1 ns (R271). -/
def State.trigAt (s : State) (back : Nat) (off : Rat) (idx : Nat) (stop : Bool) : Trig :=
  let o := roundUp off.num off.den
  let sec0 := if back = 0 then s.time.frSec else s.time.prSec
  let ns0 := if back = 0 then s.time.frNsec else s.time.prNsec
  let full : Int := ((sec0 * 1000000000 + ns0 : Nat) : Int) + o
  let f := (full % (2 ^ 48 * 1000000000 : Nat)).toNat
  { pos := 62500 * ((s.time.frames - back : Nat) : Int) + o, sec := f / 1000000000, nsec := f % 1000000000, idx := idx
    frame := s.frame, stop := stop }

/-- The interpolated offset of a threshold edge, or that of the word (R271). -/
def State.edgeOffset (s : State) (l : Nat) (hh rising interp : Bool) : Rat :=
  let x := s.lane l
  let t1 := s.tauNs l
  if interp = false then t1
  else
    let set := if hh then x.form.hh else x.form.hi
    let w1 := (nth (0#32, 0) x.hist 0).1
    let w0 := (nth (0#32, 0) x.hist 1).1
    let lvl : Int := if rising then field set 23 0 else (field set 23 0 : Int) - 4096 * field set 31 24
    let v1 : Int := (wordVal w1).natAbs
    let v0 : Int := (wordVal w0).natAbs
    if v1 = v0 ∨ wordU w1 || wordO w1 || wordU w0 || wordO w0 then t1
    else
      let t := t1 - 62500 + 62500 * ((lvl - v0 : Int) : Rat) / ((v1 - v0 : Int) : Rat)
      if t < t1 - 62500 ∨ t1 < t then t1 else t

/-- A recorder's enabled definitions, with their words. -/
def State.defs (s : State) (r : Nat) : List (Nat × Word) :=
  (List.range 16).filterMap (fun i => if natBit (s.recorder r).ten i then some (i, s.rd (Reg.ACQ_TRIG r i)) else none)

def State.addEdges (s : State) (r : Nat) (gs : List Trig) : State :=
  if gs.isEmpty then s else s.modRec r (fun x => { x with edges := x.edges ++ gs })

/-- The limits of a mask k frames after the entry to ARMED: the last point at or before k (R275). -/
def State.maskLimits (s : State) (r m k : Nat) : Option (Int × Int) :=
  (List.range (s.fld (Reg.ACQ_MCFG r m) 23 20 + 1)).foldl (fun a i =>
    let p := 48 * m + 3 * i
    if (s.rd (Reg.ACQ_MPT r p)).toNat ≤ k then
      some (sext 24 (s.rd (Reg.ACQ_MPT r (p + 1))).toNat, sext 24 (s.rd (Reg.ACQ_MPT r (p + 2))).toNat)
    else a) none

/-- Mask m of an armed recorder takes the lane's word of the frame before the present one (R275). -/
def State.evalMask (s : State) (r m : Nat) : State :=
  let k := Reg.ACQ_MCFG r m
  let x := s.recorder r
  let armF := (x.armPos / 62500).floor.toNat
  let f := s.time.frames - 1
  let l := s.fld k 8 0
  let w := (s.lane l).rate
  if s.flag k 31 = false ∨ s.rcState r ≠ rARMED ∨ f < armF ∨ wordU w = true then s
  else
    let out := match s.maskLimits r m (f - armF) with
      | some (lo, hi) => wordO w || decide (wordVal w < lo) || decide (hi < wordVal w)
      | none => wordO w
    let run := nth (0, 0) x.masks m
    let tau := s.tauNs l
    let here : Int := 62500 * (f : Int) + roundUp tau.num tau.den
    let run : Nat × Int := if out then (run.1 + 1, if run.1 = 0 then here else run.2) else (0, 0)
    if run.1 < s.fld k 27 24 + 1 then s.modRec r (fun x => { x with masks := modAt x.masks m (fun _ => run) })
    else
      let t := (s.modRec r (fun x => { x with masks := modAt x.masks m (fun _ => (0, 0)) })).satFld k 16 9 1
      let off : Rat := ((run.2 - 62500 * (f : Int) : Int) : Rat)
      t.addEdges r ((s.defs r).filterMap (fun d =>
        if field d.2 31 28 = 6 ∧ field d.2 25 0 = m then some (s.trigAt 1 off d.1 (s.flag k 30)) else none))

/-- The masks of every recorder, once the rows of the frame before are written: a recorder that its last row has re-armed takes that
frame's word (R275, R279). -/
def State.acqMasks (s : State) : State :=
  (List.range 16).foldl (fun s r =>
    if s.rcValid r then (List.range 4).foldl (fun s m => s.evalMask r m) s else s) s

/-- Threshold edges once stage A has formed the words of the frame before (R270). -/
def State.acqThresholds (s : State) : State :=
  (List.range 16).foldl (fun s r =>
    if s.rcValid r = false then s
    else
      let gs := (s.defs r).flatMap (fun d =>
        let k := field d.2 31 28
        if k = 1 ∨ k = 2 then
          let l := field d.2 25 0
          let up := !bit d.2 27
          if s.run.edges.contains (l, k == 2, up) then [s.trigAt 1 (s.edgeOffset l (k == 2) up (bit d.2 26)) d.1 false] else []
        else [])
      s.addEdges r gs) s

/-- The state behind a definition of kind 3 or 4. -/
def State.trigBit (s : State) (r : Nat) (d : Word) : Bool :=
  match field d 31 28 with
  | 3 => bit (s.status (field d 15 5)) (field d 4 0)
  | 4 => (s.part (s.rcPart r)).vars.bit (field d 12 0)
  | _ => false

/-- Element, zone and scheme bits as the frame-closure job finds them: the recorders' digital words and triggers (R43, R268, R270). -/
def State.acqClosure (s : State) : State :=
  (List.range 16).foldl (fun s r =>
    if s.rcValid r = false then s
    else
      let bits := (List.range 16).map (fun i => s.trigBit r (s.rd (Reg.ACQ_TRIG r i)))
      let gs := (s.defs r).filterMap (fun d =>
        let k := field d.2 31 28
        let was := nth false (s.recorder r).trigPrev d.1
        let now := nth false bits d.1
        if (k = 3 ∨ k = 4) ∧ was ≠ now ∧ now = !bit d.2 27 then some (s.trigAt 1 0 d.1 false) else none)
      (s.addEdges r gs).modRec r (fun x => { x with trigPrev := bits, digShot := x.sigs.map (fun g => s.digState r g 0#32) })) s

/-! ### Commands (R274, R276, R277) -/

/-- rsv bits of ACQ_RCTRL and ACQ_TEN. -/
def rctrlRsv : Word := 0x7FFFFFF0#32
def tenRsv : Word := 0xFFFF0000#32

/-- The action of a write of ACQ_RCTRL: a later EN replaces one that waits (R276). -/
def wrRctrl (r : Nat) (v : Word) (s : State) : State :=
  ((s.setFlag (Reg.ACQ_RCTRL r) 0 (bit v 0)).setFlag (Reg.ACQ_RCTRL r) 31 true).modRec r (fun x => { x with
    cmds := x.cmds.map (fun c => (c.1, c.2.1, false)) ++ [((s.frame + 3) % 2 ^ 32, v, true)] })

/-- The action of a write of ACQ_TEN (R274). -/
def wrTen (r : Nat) (p : Port) (v : Word) (s : State) : State := (s.wr (Reg.ACQ_TEN r) v).placeEach (Reg.ACQ_TEN r) v p

/-- A write of ACQ_RCTRL with some of its bits set. -/
def rctrlRow (p : Port) (r : Nat) (v : Word) (s : State) : R :=
  gate s p .engine (.owned (s.rcOwner r)) rctrlRsv (Reg.ACQ_RCTRL r) v (wrRctrl r)

/-- RECORDER_ENABLE: a write of EN (R276). -/
def execRecorderEnable (p : Port) (r : Fin 16) (v : Word) (s : State) : R := rctrlRow p r.val v s

/-- RECORDER_ARM: a write with ARM = 1 (R277). -/
def execRecorderArm (p : Port) (r : Fin 16) (v : Word) (s : State) : R := rctrlRow p r.val (v ||| 2#32) s

/-- RECORDER_STOP: a write with STOP = 1 (R277). -/
def execRecorderStop (p : Port) (r : Fin 16) (v : Word) (s : State) : R := rctrlRow p r.val (v ||| 8#32) s

/-- HOST_TRIGGER: a write with HTRIG = 1 (R270). -/
def execHostTrigger (p : Port) (r : Fin 16) (v : Word) (s : State) : R := rctrlRow p r.val (v ||| 4#32) s

/-- TRIGGER_EDGE_TEN_WRITE (R274). -/
def execTriggerEdgeTenWrite (p : Port) (r : Fin 16) (v : Word) (s : State) : R :=
  gate s p .engine (.owned (s.rcOwner r.val)) tenRsv (Reg.ACQ_TEN r.val) v (wrTen r.val p)

/-- EN takes effect (R277). -/
def State.enEffect (s : State) (r : Nat) (on : Bool) : State :=
  let st := s.rcState r
  if st = rOFF then (if on then s.enterArmed r s.time.frames else s)
  else if st = rSTOPPING then s.setFlag (Reg.ACQ_RSTAT r) 28 on
  else if on then s
  else
    let x := s.recorder r
    let idle := st == rHELD || st == rWAIT
    let t := s.modRec r (fun x => { x with endF := some (if idle then 0 else s.time.frames)
                                           stopAt := if st = rPOST then none else some (s.time.frames + 2) })
    let t := if st = rARMED ∧ s.rcMode r = 1 then t.finishRun r false true (x.shortRun (s.rcPre r)) s.time.frames else t
    t.setRc r rSTOPPING

/-- STOP takes effect (R277). -/
def State.stopEffect (s : State) (r : Nat) : State :=
  let st := s.rcState r
  if st = rARMED then
    ((if s.rcMode r = 1 then s.finishRun r false true ((s.recorder r).shortRun (s.rcPre r)) s.time.frames else s)).setRc r rHELD
  else if st = rPOST then s.modRec r (fun x => { x with stopReq := true })
  else s

/-- One command whose boundary has come: EN, STOP, ARM, then the host trigger. -/
def State.rcCommand (s : State) (r : Nat) (c : Nat × Word × Bool) : State :=
  let v := c.2.1
  let t := if c.2.2 then s.enEffect r (bit v 0) else s
  let t := if bit v 3 then t.stopEffect r else t
  let t := if bit v 1 && t.rcState r == rHELD then t.enterArmed r t.time.frames else t
  if bit v 2 then t.addEdges r [t.trigAt 0 0 16 false] else t

/-- RECORDER_COMMAND_EFFECT: commands and ACQ_TEN whose boundary has come (R274, R276). In FILL and LOAD recorders stay as they
are (R277). -/
def execRecorderCommandEffect (r : Fin 16) (s : State) : R :=
  let n := r.val
  let t := s.onDue (Reg.ACQ_TEN n) (fun s q => s.modRec n (fun x => { x with ten := field q.value 15 0 }))
  let x := t.recorder n
  let now := x.cmds.filter (fun c => frameReached s.frame c.1)
  let later := x.cmds.filter (fun c => !frameReached s.frame c.1)
  let t := t.modRec n (fun x => { x with cmds := later })
  let t := t.setFlag (Reg.ACQ_RCTRL n) 31 (!later.isEmpty)
  .next (if s.mode = mFILL ∨ s.mode = mLOAD ∨ s.rcValid n = false then t
    else now.foldl (fun t c => t.rcCommand n c) t)

/-! ### Rows, copies, closing -/

/-- Whether the recorder writes the rows of the frame before the present one (R277). -/
def State.writesRows (s : State) (r : Nat) : Bool :=
  let x := s.recorder r
  let f := s.time.frames - 1
  let st := s.rcState r
  let live := st == rARMED || st == rPOST || st == rTREND || (st == rSTOPPING && (x.post.isSome ||
    (match x.endF with
      | some e => decide (f < e)
      | none => true)))
  s.rcValid r && live && decide (x.eraF ≤ f) && decide (0 < s.time.frames) && x.rowF != some s.time.frames

/-- The rows of the frame before the present one go to the ring, and the trend blocks they complete are held (R283, R285). -/
def State.writeRows (s : State) (r : Nat) : State :=
  if s.writesRows r = false then s
  else
    let rows := s.newRows r
    let x := s.recorder r
    let st : Stamp := { w := x.wrN, n := rows.length, frame := s.time.frames - 1, sec := s.time.prSec, nsec := s.time.prNsec
                        tb := s.widen s.time.prTb, gains := x.lanes.map (fun l => (s.lane l).form.gain) }
    let t := rows.foldl (fun t ws => t.putRow r ws) s
    let keep := (t.recorder r).wrN - s.ringRows r
    let t := t.modRec r (fun y => { y with
      rowF := some s.time.frames
      stamps := (if rows.isEmpty then y.stamps else y.stamps ++ [st]).filter (fun p => decide (keep < p.w + p.n)) })
    if s.rcMode r = 2 then
      let a := (x.wrN - x.trendW) / 4096
      let b := ((t.recorder r).wrN - x.trendW) / 4096
      if a < b then
        let first := x.trendW + 4096 * a
        (t.modRec r (fun y => { y with blocks := y.blocks ++ [({ no := a, first := first, stamps := y.stamps.filter (fun p =>
          decide (first < p.w + p.n) && decide (p.w < first + 4096)) } : TrendBlk)] })).syncTrend
      else t
    else t.finishPost r

/-- RECORDER_ROW_WRITE: the rows that the last frame gave, once stage A has formed its words (R266, R283). -/
def execRecorderRowWrite (r : Fin 16) (s : State) : R := .next (if s.run.formed then s.writeRows r.val else s)

/-- One segment's rows go from the ring to the store; poison travels with them (R278, R408). -/
def State.copySeg (s : State) (r : Nat) (c : Nat × Seg) : State :=
  let n := s.rcLanes r
  (List.range c.2.n).foldl (fun s i => (List.range n).foldl (fun s j =>
    let from_ := s.ringAt r + (c.2.first + i) % s.ringRows r * n + j
    let v := s.readWord (s.rcRegion r) from_
    let a := s.storeAt r + (c.1 + i) * n + j
    let s := s.noteRead (s.rcRegion r) from_ 8
    if v.2 then s.poisonMem (s.rcRegion r) a v.1 else s.wrMem (s.rcRegion r) a v.1) s) s

/-- All copies that are still to be made. -/
def State.copySegs (s : State) (r : Nat) : State :=
  ((s.recorder r).copies.foldl (fun s c => s.copySeg r c) s).modRec r (fun x => { x with copies := [] })

/-- SEGMENT_COPY_DONE (R278). -/
def execSegmentCopyDone (r : Fin 16) (s : State) : R := .next (s.copySegs r.val)

/-- RECORDING_CLOSE: the oldest recording or run whose close has come joins the delivery queue (R281, R284). -/
def execRecordingClose (r : Fin 16) (s : State) : R :=
  let n := r.val
  match (s.recorder n).closing with
  | [] => .next s
  | d :: rest =>
    if s.time.frames < d.due then .next s else
    let t := s.copySegs n
    let no := ((t.recorder n).recno + 1) % 2 ^ 32
    let t := t.modRec n (fun x => { x with closing := rest, recno := no })
    let t := t.incFld (Reg.ACQ_RCNT n) 31 16
    .next ({ t with acq := { t.acq with queue := t.acq.queue ++ [{ d with recno := no }] } }).showFmt

/-- RECORDER_STOP_COMPLETE: two frames after the last row the recorder is OFF, or starts again (R277). -/
def execRecorderStopComplete (r : Fin 16) (s : State) : R :=
  let n := r.val
  match (s.recorder n).stopAt with
  | some f =>
    if s.rcState n = rSTOPPING ∧ f ≤ s.time.frames then
      let t := (s.modRec n (fun x => { x with stopAt := none })).setFlag (Reg.ACQ_RSTAT n) 28 false
      .next (if s.flag (Reg.ACQ_RSTAT n) 28 then (t.setRc n rOFF).enterArmed n (s.time.frames + 1) else t.setRc n rOFF)
    else .next s
  | none => .next s

/-- RUN_DELIVERED: the store is free; a recorder in WAIT re-arms (R277, R280). -/
def execRunDelivered (r : Fin 16) (s : State) : R :=
  let n := r.val
  if s.rcState n = rWAIT ∧ (s.recorder n).busy = false then .next (s.enterArmed n s.time.frames) else .next s

/-! ### Load and start (R277) -/

/-- At the entry to LOAD every recorder stops at once and what is not delivered is discarded. -/
def State.acqStopAll (s : State) : State :=
  let t := (List.range 16).foldl (fun s r =>
    ((s.modRec r (fun x => { x with cmds := [], stamps := [], post := none, segs := [], copies := [], storeN := 0, busy := false
                                    closing := [], stopAt := none, blocks := [], edges := [], digs := [], digBase := x.digNow
                                    digLost := [], stopReq := false, maskEnd := false, wrN := 0, eraW := 0 })).setRc r rOFF).setFlag
      (Reg.ACQ_RSTAT r) 28 false |>.setFld (Reg.ACQ_RSTAT r) 12 0 0 |>.setFlag (Reg.ACQ_RCTRL r) 31 false) s
  ({ t with acq := { t.acq with queue := [] } }).showFmt.syncTrend

/-- Recorders whose EN is 1 enter ARMED or TREND (R277, R429). -/
def State.acqStart (s : State) : State :=
  (List.range 16).foldl (fun s r =>
    if s.rcValid r && s.flag (Reg.ACQ_RCTRL r) 0 && s.rcState r == rOFF then s.enterArmed r s.time.frames else s) s

end Sys2Proof.Machine
end

