-- ==== Sys2Proof/Machine/Closure.lean ====
section
/-!
DEFINITION. Sys2Proof/Machine/Closure.lean: what a frame puts out: the frame-closure job (R43), the output command set (R60, R189,
R354, R355), the GOOSE datasets (R331): row FRAME_CLOSURE_JOB.
-/
namespace Sys2Proof.Machine

/-! ### The output command set -/

/-- Whether a PTRC of partition p that holds TRIP drives output n (R189). -/
def State.trips (s : State) (p n : Nat) : Bool :=
  (List.range s.pel.insts.length).any (fun i =>
    s.icls i == 17 && s.idef i && s.bayOwner (s.ibay i) == some p && bit (s.elem i).status 5 && bit (s.setW i 21) n)

/-- SAFE_PATTERN (R356). -/
def State.safePattern (s : State) : Word := s.rd Reg.FIO_SAFEPAT

/-- The command for output n from scheme, elements and forces; SAFE_PATTERN where no partition owns it (R189, R251, R356). -/
def State.doCommand (s : State) (n : Nat) : Bool :=
  match (s.dout n).owner with
  | none => bit s.safePattern n
  | some p =>
    match s.forced 4 n with
    | some v => bit v 0
    | none => bit (s.part p).vars.o n || s.trips p n

/-- The command set that the members form (R43). -/
def State.commandSet (s : State) : Word :=
  BitVec.ofNat 32 ((List.range 32).foldl (fun a n => a + b2n (s.doCommand n) * 2 ^ n) 0)

/-- The set released at the end of the present frame, by the rule of the mode as behaved (R60, R224, R355). -/
def State.outputSet (s : State) : Word :=
  let m := s.behaved
  if m = mFILL then 0#32
  else if s.triad.safeOut = true ∨ m = mLOAD ∨ m = mSTANDBY ∨ m = mSAFE then s.safePattern
  else if m = mTEST then (if s.flag Reg.SYS_TEST 0 then s.rd Reg.SYS_TESTPAT else s.safePattern)
  else s.fio.voted.getD s.safePattern

/-- Each voter that is not excluded sends the set in one flit (R217, R354). -/
def State.sendOutputs (s : State) : State :=
  let set := s.outputSet
  let pay := wordBytes set ++ s.frameBytes ++ bytesLE 1 s.mode ++ List.replicate 55 0#8
  let t := (List.range 3).foldl (fun t y => if s.voterOn y then t.sendFlit .engine 3 (y + 1) 0 pay else t) s
  { t with fio := { t.fio with released := set, voted := none } }

/-! ### GOOSE datasets -/

/-- The value of a dataset member from its source (R331). -/
def State.memberValue (s : State) (p : Nat) (m : Member) : Word :=
  let o : Opnd := ⟨m.src / 2 ^ 22 % 16, m.src % 2 ^ 22⟩
  let r := s.beginRun p 0
  if m.typ = 0 ∨ o.space = 0 ∨ o.space = 9 then BitVec.ofNat 32 (b2n (s.bitOp r o)) else s.wordOp r o

/-- The datasets of all blocks are assembled (R331). -/
def State.assemble (s : State) : State :=
  (List.range s.pbx.pubs.length).foldl (fun t c =>
    let cfg := s.rd (Reg.PBX_GPCFG c)
    t.modPub c (fun b => { b with voted := some (b.members.map (s.memberValue (field cfg 30 29))) })) s

/-! ### The job -/

/-- The frame-closure job with the voters' reports on the command set, on the datasets and on the recorders' digital words (R43, R217). -/
def State.closeFrame (s : State) (v w x : Voting) : State :=
  let s := s.ranJob 4096
  let s := { s with triad := { s.triad with turn := 3 } }
  let set := s.commandSet
  let a := s.vote v 3
  let t := if a.2 then { a.1 with fio := { a.1.fio with voted := some set } } else a.1
  let t := if t.pbx.pubs.isEmpty then t else
    let b := t.vote w 4
    if b.2 then b.1.assemble else b.1
  let c := t.vote x 2
  if c.2 then c.1.acqClosure else c.1

/-- FRAME_CLOSURE_JOB, the last G job of a frame: `v` reports on the output command set, `w` on the GOOSE datasets, `x` on the
recorders' digital words (R43, R44). -/
def execFrameClosureJob (v w x : Voting) (s : State) : R := .next (if s.jobTurn 4096 then s.closeFrame v w x else s)

end Sys2Proof.Machine
end

