-- ==== Sys2Proof/Machine/Comtrade.lean ====
section
/-!
DEFINITION. Sys2Proof/Machine/Comtrade.lean: delivery of recordings (R284, R286-R290, R383, R384) and of trend blocks (R285): rows
COMTRADE_FORMATTING_SLICE, TREND_COMPRESSION_SLICE.
-/
namespace Sys2Proof.Machine

/-! ### Text -/

def txt (s : String) : List Byte := s.toList.map (fun c => BitVec.ofNat 8 c.toNat)
def crlf : List Byte := [13#8, 10#8]
def digit (n : Nat) : Byte := BitVec.ofNat 8 (if n < 10 then 48 + n else 55 + n)

/-- n in exactly k decimal digits. -/
def fixText : Nat → Nat → List Byte
  | 0, _ => []
  | k + 1, n => fixText k (n / 10) ++ [digit (n % 10)]

/-- Digits of n: at most `fuel`, without leading zeros. -/
def natText (n : Nat) : List Byte :=
  let d := fixText 20 n
  let e := d.dropWhile (fun b => b == 48#8)
  if e.isEmpty then [48#8] else e

/-- Fields of a line with commas between, and the line's end. -/
def line (fs : List (List Byte)) : List Byte := (List.intercalate [44#8] fs) ++ crlf

/-- Year, month and day of a day number from 01/01/1970. -/
def civil (days : Int) : Int × Nat × Nat :=
  let z := days + 719468
  let era := z / 146097
  let doe := (z % 146097).toNat
  let yoe := (doe - doe / 1460 + doe / 36524 - doe / 146096) / 365
  let doy := doe - (365 * yoe + yoe / 4 - yoe / 100)
  let mp := (5 * doy + 2) / 153
  let m := if mp < 10 then mp + 3 else mp - 9
  ((yoe : Int) + era * 400 + (if m ≤ 2 then 1 else 0), m, doy - (153 * mp + 2) / 5 + 1)

/-- dd/mm/yyyy,hh:mm:ss.sssssssss of a time in ns less ACQ_UTCOFS seconds (R287). -/
def State.dateText (s : State) (ns : Int) : List Byte :=
  let t := ns - (s.rd Reg.ACQ_UTCOFS).toInt * 1000000000
  let sec := t / 1000000000
  let c := civil (sec / 86400)
  let d := (sec % 86400).toNat
  fixText 2 c.2.2 ++ txt "/" ++ fixText 2 c.2.1 ++ txt "/" ++ fixText 4 c.1.toNat ++ txt "," ++ fixText 2 (d / 3600) ++ txt ":"
    ++ fixText 2 (d / 60 % 60) ++ txt ":" ++ fixText 2 (d % 60) ++ txt "." ++ fixText 9 (t % 1000000000).toNat

/-! ### Rows of a recording -/

/-- The segment of row i of the .dat file and the row's place in it. -/
def segRow : List Seg → Nat → Seg × Nat
  | [], _ => ({}, 0)
  | g :: t, i => if i < g.n then (g, i) else segRow t (i - g.n)

/-- A row of a recording: its segment, its stamp, its instant after the frame's start in ns. -/
def State.doneRow (s : State) (d : Done) (i : Nat) : Seg × Stamp × Rat :=
  let e := segRow d.segs i
  let w := e.1.first + e.2
  let x := rowStamp e.1.stamps w
  (e.1, x, rowOffset (s.rcRate d.who) x w)

/-- A row's time in ns, and as extended TB_NS. -/
def State.doneNs (s : State) (d : Done) (i : Nat) : Rat :=
  let e := s.doneRow d i
  ((e.2.1.sec * 1000000000 + e.2.1.nsec : Nat) : Rat) + e.2.2
def State.doneTb (s : State) (d : Done) (i : Nat) : Rat :=
  let e := s.doneRow d i
  (e.2.1.tb : Rat) + e.2.2

/-- Where word j of row i stands: in the ring, or in the store for a run. -/
def State.doneAddr (s : State) (d : Done) (i j : Nat) : Nat :=
  let n := s.rcLanes d.who
  let e := segRow d.segs i
  if d.multi then s.storeAt d.who + i * n + j else s.ringAt d.who + (e.1.first + e.2) % s.ringRows d.who * n + j

/-- Word j of row i in memory, and whether it is poisoned. -/
def State.doneWord (s : State) (d : Done) (i j : Nat) : Word × Bool :=
  s.readWord (s.rcRegion d.who) (s.doneAddr d i j)

/-- The states of the digital signals at extended time t: after the last change at or before it (R288). -/
def digAt (d : Done) (t : Rat) : List Bool :=
  d.digs.foldl (fun l e => if (e.tag : Rat) ≤ t then modAt l e.sig (fun _ => e.on) else l) d.base

/-- Booleans in 16-bit words, lowest channel in bit 0. -/
def packBits : Nat → List Bool → List Byte
  | 0, _ => []
  | n + 1, l => bytesLE 2 (((l.take 16).zipIdx).foldl (fun a e => a + b2n e.1 * 2 ^ e.2) 0) ++ packBits n (l.drop 16)

/-- 16-bit digital words of a row. -/
def State.digWords (s : State) (r : Nat) : Nat := ceilDiv ((s.recorder r).sigs.length + s.rcLanes r) 16

/-- Bytes of one row of the .dat file. -/
def State.rowLen (s : State) (r : Nat) : Nat := 8 + 4 * s.rcLanes r + 2 * s.digWords r

/-- One row of the .dat file (R288, R409). -/
def State.datRow (s : State) (d : Done) (i : Nat) : List Byte :=
  let r := d.who
  let ls := (s.recorder r).lanes
  let e := s.doneRow d i
  let ws := (List.range ls.length).map (fun j => s.doneWord d i j)
  let dt := s.doneNs d i - s.doneNs d 0
  let stamp := toTwos 32 (nearest (if d.fine then dt else dt / 1000))
  let val := fun (j l : Nat) =>
    let w := nth (0#32, false) ws j
    if w.2 || wordU w.1 then 0xFFFFFFFF#32 else f32 (s.primary l (w.1, nth 0 e.2.1.gains j))
  let qual := ws.map (fun w => w.2 || wordU w.1 || wordO w.1 || wordS w.1)
  bytesLE 4 (i + 1) ++ bytesLE 4 stamp ++ (ls.zipIdx).flatMap (fun x => wordBytes (val x.2 x.1))
    ++ packBits (s.digWords r) (digAt d (s.doneTb d i - s.refDelay r) ++ qual)

/-- Bytes a to a + n of the .dat file. -/
def State.datPart (s : State) (d : Done) (a n : Nat) : List Byte :=
  let k := s.rowLen d.who
  let i := a / k
  (((List.range (ceilDiv (a + n) k - i)).flatMap (fun j => s.datRow d (i + j))).drop (a - i * k)).take n

/-! ### The other images (R287, R289) -/

/-- Rows per second of a rate (R282). -/
def rowRate (rate : Nat) : Nat := if rate = 0 then 2048000 else 16000 / 2 ^ stageOf rate

/-- A lane's full scale in VAL terms times SCALE, as min and max of its channel (R287). -/
def State.chanMax (s : State) (l gain : Nat) : Rat :=
  if l < 256 then fullScale gain * fpRat (s.lane l).scale else 8388608 * s.streamScale l * fpRat (s.lane l).scale

/-- The .cfg file (R287). -/
def State.cfgFile (s : State) (d : Done) : List Byte :=
  let r := d.who
  let x := s.recorder r
  let na := x.lanes.length
  let nd := x.sigs.length
  let str := fun (i : Nat) => nth [] x.strs i
  let e0 := s.doneRow d 0
  let dr := s.refDelay r
  let analogue := (x.lanes.zipIdx).flatMap (fun e =>
    let i := e.2
    let b := 2 + 4 * i
    let m := s.chanMax e.1 (nth 0 e0.2.1.gains i)
    let p := nth (0#32, 0#32) x.prim i
    line [natText (i + 1), str b, str (b + 1), str (b + 2), str (b + 3), txt "1", txt "0",
      Config.realText ((dr - s.rowDelay r e.1) / 1000), Config.realText (-m), Config.realText m,
      Config.realText (fpRat p.1), Config.realText (fpRat p.2), txt "P"])
  let digital := (List.range nd).flatMap (fun k => line [natText (k + 1), str (2 + 4 * na + k), [], [], txt "0"])
  let quality := (List.range na).flatMap (fun k => line [natText (nd + k + 1), str (2 + 4 * k) ++ txt ".Q", [], [], txt "0"])
  let rows := d.rows
  let rates := if d.multi then line [txt "0"] ++ line [txt "0", natText rows]
    else line [txt "1"] ++ line [natText (rowRate (s.rcRate r)), natText rows]
  let first := nearest (s.doneNs d 0 - dr)
  let g := nth {} d.segs 0
  let tq := s.rd Reg.ACQ_TQ
  line [str 0, str 1, txt "2013"] ++ line [natText (2 * na + nd), natText na ++ txt "A", natText (na + nd) ++ txt "D"]
    ++ analogue ++ digital ++ quality
    ++ line [natText (if s.flag (Reg.MSR_CFG (nth 0 x.lanes 0 / 8)) 4 then 60 else 50)] ++ rates
    ++ line [s.dateText first] ++ line [s.dateText ((g.trig.sec * 1000000000 + g.trig.nsec : Nat) : Int)] ++ line [txt "BINARY32"]
    ++ line [txt (if d.fine then "0.001" else "1")] ++ line [txt "+0", txt "+0"]
    ++ line [[digit (field tq 5 2)], natText (field tq 1 0)]

/-- The .hdr file of a run (R289). -/
def State.hdrFile (s : State) (d : Done) : List Byte :=
  ((d.segs.zipIdx).foldl (fun (a : List Byte × Nat) e =>
    let g := e.1
    (a.1 ++ line [txt "SEG", natText (e.2 + 1), natText (a.2 + g.t0 + 1),
      s.dateText ((g.trig.sec * 1000000000 + g.trig.nsec : Nat) : Int), if 16 ≤ g.trig.idx then txt "F" else natText g.trig.idx],
     a.2 + g.n)) ([], 0)).1

/-- The change list: the recording's digital entries, WRAPS from its first row (R269, R288). -/
def State.changeList (s : State) (d : Done) : List Byte :=
  let w0 := (s.doneTb d 0).floor / 4294967296
  d.digs.flatMap (fun e => (e.words w0).flatMap wordBytes)

/-- An entry as its slot in the digital ring holds it: signal, state and tag are read there, its wraps are known; a slot that is not
plausible data gives no value, and the entry stays as the recorder made it (R400). -/
def State.readDig (s : State) (r : Nat) (e : DigEnt) : DigEnt :=
  let a := s.readWord (s.rcRegion r) (s.digAddr r e.slot)
  let b := s.readWord (s.rcRegion r) (s.digAddr r e.slot + 1)
  if a.2 || b.2 then e
  else { e with sig := field a.1 11 0, on := bit a.1 15, tag := e.tag / 4294967296 * 4294967296 + b.1.toNat }

/-- The words of entries' slots. -/
def State.digSlots (s : State) (r : Nat) (l : List DigEnt) : List Nat :=
  l.flatMap (fun e => [s.digAddr r e.slot, s.digAddr r e.slot + 1])

/-- What the first slice fixes: the digital entries from the first row's instant to the last's, the states before them, whether
some are lost, and the unit of the time stamps (R287, R288). -/
def State.beginDone (s : State) (d : Done) : Done :=
  let x := s.recorder d.who
  let dr := s.refDelay d.who
  let n := d.rows
  let t0 := s.doneTb d 0 - dr
  let t1 := s.doneTb d (n - 1) - dr
  let before := x.digs.filter (fun e => decide ((e.tag : Rat) < t0))
  let within := x.digs.filter (fun e => decide (t0 ≤ (e.tag : Rat)) && decide ((e.tag : Rat) ≤ t1))
  let lost := x.digLost.any (fun t => decide (t0 ≤ (t : Rat)) && decide ((t : Rat) ≤ t1))
  { d with begun := true, digs := within.map (s.readDig d.who), base := before.foldl (fun l e => modAt l e.sig (fun _ => e.on)) x.digBase
           flags := if lost then natSetBit d.flags 6 true else d.flags
           fine := decide (s.doneNs d (n - 1) - s.doneNs d 0 < 4000000000) }

/-! ### Items of the recording queue (R383) -/

def padTo4 (l : List Byte) : List Byte := l ++ List.replicate ((4 - l.length % 4) % 4) 0#8
def imageHead (kind size : Nat) : List Byte := bytesLE 2 0 ++ bytesLE 1 0x4A ++ bytesLE 1 kind ++ bytesLE 4 size
def imageItem (kind : Nat) (img : List Byte) : List Byte := padTo4 (imageHead kind img.length ++ img)

/-- Position in the ring of a byte n bytes past PROD. -/
def State.rcqPos (s : State) (p n : Nat) : Nat :=
  let w := hqKey p (ringBase .rcq)
  ((s.rd (w + 0x18)).toNat + n) % 2 ^ s.fld (w + 0x08) 4 0

/-- Write items one after another. -/
def State.rcqItems (s : State) (p : Nat) (l : List (List Byte)) : State := l.foldl (fun s b => s.ringWrite p .rcq b false) s

/-- The head of the delivery queue becomes d. -/
def State.setHead (s : State) (d : Done) : State :=
  ({ s with acq := { s.acq with queue := d :: s.acq.queue.drop 1 } }).showFmt

/-- No credit: the slice is not run and the job waits; frames waited are counted (R384). -/
def State.sliceWaits (s : State) (p : Nat) : State := ((s.ringLost p .rcq).setFlag (hqKey p Reg.HQ_PERR) 1 true).showFmt.syncTrend

/-- The recording descriptor (R286). -/
def State.descriptor (s : State) (d : Done) : List Byte :=
  let g := nth {} d.segs 0
  let anyT := (List.range d.rows).any (fun i => (List.range (s.rcLanes d.who)).any (fun j =>
    !(s.doneWord d i j).2 && wordT (s.doneWord d i j).1))
  bytesLE 2 64 ++ bytesLE 1 0x48 ++ bytesLE 1 1 ++ bytesLE 1 d.who ++ bytesLE 1 (d.flags ||| (4 * b2n anyT))
    ++ bytesLE 2 d.segs.length ++ bytesLE 4 d.recno ++ bytesLE 4 g.trig.frame ++ bytesLE 4 g.trig.nsec ++ bytesLE 6 g.trig.sec
    ++ bytesLE 2 (min 15 g.trig.idx) ++ bytesLE 4 d.rows ++ d.ofs.flatMap (fun n => bytesLE 4 n)

/-- The first slice of a recording: .cfg, .hdr of a run, change list (R284). -/
def State.firstSlice (s : State) (d0 : Done) (p : Nat) : State :=
  let d := s.beginDone d0
  let cfg := s.cfgFile d
  let hdr := if d.multi then s.hdrFile d else []
  let dig := s.changeList d
  let c := imageItem 1 cfg
  let h := if d.multi then imageItem 3 hdr else []
  let g := imageItem 4 dig
  if s.fits p .rcq (c.length + h.length + g.length) = false then s.sliceWaits p
  else
    let ofs := [s.rcqPos p 8, cfg.length, 0, 0, if d.multi then s.rcqPos p (c.length + 8) else 0, hdr.length,
      s.rcqPos p (c.length + h.length + 8), dig.length]
    let region := s.rcRegion d.who
    let slots := s.digSlots d.who d.digs
    let pois := slots.any (fun a => (s.readWord region a).2)
    let t := (s.noteReads region 8 slots).rcqItems p (if d.multi then [c, h] else [c])
    (t.ringWrite p .rcq g pois).setHead { d with ofs := ofs }

/-- A further slice: up to 256 KiB of the .dat file; the last one also posts the descriptor (R284, R383). -/
def State.datSlice (s : State) (d : Done) (p : Nat) : State :=
  let total := d.rows * s.rowLen d.who
  let n := min 262144 (total - d.sent)
  let last := decide (total ≤ d.sent + n)
  let part := s.datPart d d.sent n
  let body := if d.sent = 0 then imageHead 2 total ++ part else part
  let body := if last then body ++ List.replicate ((4 - total % 4) % 4) 0#8 else body
  let ofs := if d.sent = 0 then modAt (modAt d.ofs 2 (fun _ => s.rcqPos p 8)) 3 (fun _ => total) else d.ofs
  let e : Done := { d with sent := d.sent + n, ofs := ofs }
  -- rows whose words the part holds
  let lo := d.sent / max 1 (s.rowLen d.who)
  let hi := ceilDiv (d.sent + n) (max 1 (s.rowLen d.who))
  let words := (List.range (hi - lo)).flatMap (fun i => (List.range (s.rcLanes d.who)).map (fun j => s.doneAddr d (lo + i) j))
  if s.fits p .rcq (body.length + (if last then 64 else 0)) = false then s.sliceWaits p
  else
    let t := s.noteReads (s.rcRegion d.who) 8 words
    if last then (t.rcqItems p [body, s.descriptor e]).dropDone d else (t.rcqItems p [body]).setHead e

/-- COMTRADE_FORMATTING_SLICE: an admitted run serves the head of the delivery queue (R284, R384). -/
def execComtradeFormattingSlice (s : State) : R :=
  if s.canRun 4 0 = false then .next s
  else
    let t := s.takeRun 4 0
    match t.acq.queue with
    | [] => .next t.showFmt
    | d :: _ =>
      let p := t.rcPart d.who
      if t.ringOn p .rcq = false then .next ((t.ringLost p .rcq).dropDone d)
      else if d.begun = false then .next (t.firstSlice d p)
      else .next (t.datSlice d p)

/-! ### Trend blocks (R285) -/

/-- Minimum, maximum and mean of a group of 256 rows of lane j: NaN without a word of U = 0, or with a poisoned word (R285, R409);
bit 0 a word with U, O or S, bit 1 T, of the words that are plausible data (R400). -/
def State.trendGroup (s : State) (r j : Nat) (b : TrendBlk) (g : Nat) : List Word × Nat :=
  let n := s.rcLanes r
  let l := nth 0 (s.recorder r).lanes j
  let ws := (List.range 256).map (fun i =>
    let w := b.first + 256 * g + i
    (s.readWord (s.rcRegion r) (s.ringAt r + w % s.ringRows r * n + j), nth 0 (rowStamp b.stamps w).gains j))
  let sound := ws.filter (fun e => !e.1.2)
  let good := (sound.filter (fun e => !wordU e.1.1)).map (fun e => s.primary l (e.1.1, e.2))
  let fl := b2n (sound.any (fun e => wordU e.1.1 || wordO e.1.1 || wordS e.1.1)) + 2 * b2n (sound.any (fun e => wordT e.1.1))
  let nan3 := (List.range 3).map (fun k => fpNaN (16 + k) (BitVec.ofNat 32 j) (BitVec.ofNat 32 (b.first + 256 * g)))
  match good with
  | [] => (nan3, fl)
  | v :: vs =>
    if ws.any (fun e => e.1.2) then (nan3, fl)
    else ([f32 (vs.foldl min v), f32 (vs.foldl max v), f32 ((vs.foldl (· + ·) v) / (good.length : Rat))], fl)

/-- The trend record (R285). -/
def State.trendRecord (s : State) (r : Nat) (b : TrendBlk) : List Byte :=
  let n := s.rcLanes r
  let x := rowStamp b.stamps b.first
  let o := nearest (rowOffset (s.rcRate r) x b.first)
  bytesLE 2 (32 + 192 * n) ++ bytesLE 1 0x49 ++ bytesLE 1 1 ++ bytesLE 1 r ++ bytesLE 1 b.flags ++ bytesLE 2 n ++ bytesLE 4 b.no
    ++ bytesLE 4 (toTwos 32 (x.tb + o)) ++ bytesLE 6 ((x.sec * 1000000000 + x.nsec + o.toNat) / 1000000000) ++ bytesLE 2 (s.rcRate r)
    ++ List.replicate 8 0#8 ++ b.words.flatMap wordBytes

/-- TREND_COMPRESSION_SLICE: an admitted run compresses 8 lanes of the recorder's oldest block; the last slice writes the record
(R285, R384). -/
def execTrendCompressionSlice (r : Fin 16) (s : State) : R :=
  let n := r.val
  match (s.recorder n).blocks with
  | [] => .next s
  | b :: rest =>
    if s.canRun 5 0 = false then .next s
    else
      let t := s.takeRun 5 0
      let p := t.rcPart n
      let lanes := ((List.range (t.rcLanes n)).drop (8 * b.done)).take 8
      let gs := lanes.flatMap (fun j => (List.range 16).map (fun g => t.trendGroup n j b g))
      let c : TrendBlk := { b with done := b.done + 1, words := b.words ++ gs.flatMap Prod.fst
                                   flags := gs.foldl (fun a e => a ||| e.2) b.flags }
      let t := t.noteReads (t.rcRegion n) 8 (lanes.flatMap (fun j => (List.range 4096).map (fun i =>
        t.ringAt n + (b.first + i) % t.ringRows n * t.rcLanes n + j)))
      let set := fun (l : List TrendBlk) => (t.modRec n (fun x => { x with blocks := l })).syncTrend
      if 8 * c.done < t.rcLanes n then .next (set (c :: rest))
      else if t.ringOn p .rcq = false then .next ((set rest).ringLost p .rcq)
      else
        let item := t.trendRecord n c
        if t.fits p .rcq item.length = false then .next (t.sliceWaits p)
        else .next ((set rest).rcqItems p [item])

end Sys2Proof.Machine
end

