-- ==== Sys2Proof/Machine/FieldIn.lean ====
section
/-!
DEFINITION. Sys2Proof/Machine/FieldIn.lean: binary and fast inputs (R350-R352) and the image sections of chapter 15 (R362, R363):
rows DI_DEBOUNCED_CHANGE, FAST_INPUT_EDGE, FAST_INPUT_PERIOD_OVERFLOW, FAST_INPUT_CLEAR, FIO_CONFIG_APPLY.
-/
namespace Sys2Proof.Machine

def State.din (s : State) (n : Nat) : DiSt := nth {} s.fio.di n
def State.modDin (s : State) (n : Nat) (f : DiSt → DiSt) : State := { s with fio := { s.fio with di := modAt s.fio.di n f } }

/-- N of R350: 0.1 ms is 102.4 sample periods; DEB above 200 acts as 200. -/
def debounceCount (cfg : Word) : Nat := ceilDiv (min 200 (field cfg 7 0) * 1024) 10

/-- Input n takes a state with its tag (R350, R351); a survey's binary-input item sees an input that is on (R132). -/
def State.putDin (s : State) (n : Nat) (level : Bool) (tag : Nat) : State :=
  let k := Reg.FIO_DISTAT n
  let s := if level then { s with sniff := { s.sniff with diSeen := natSetBit s.sniff.diSeen n true } } else s
  (((s.setFlag k 0 level).setFlag k 1 level).incFld k 31 16).wr (Reg.FIO_DILAST n) (BitVec.ofNat 32 tag)

/-- The raw state that a pad voltage in mV gives under FIO_DICFG.TYPE (R349): none in the undefined band, where an input reads either
state, and outside the bands of the table. -/
def inputBand (cfg : Word) (mv : Int) : Option Bool :=
  let on : Int := if bit cfg 8 then 11000 else 15000
  if on ≤ mv ∧ mv ≤ 30000 then some true else if -3000 ≤ mv ∧ mv ≤ 5000 then some false else none

/-- The raw state an input reads: a free value where its band is undefined (R349). -/
def State.readInput (s : State) (cfg : Word) (mv : Int) : Bool × State :=
  match inputBand cfg mv with
  | some b => (b, s)
  | none => s.freeB

/-- DI_DEBOUNCED_CHANGE: consecutive samples of an input, those after a change of TYPE not counted (R352): once the raw state has
differed in N + 1 counted samples the debounced state takes it, tagged by the first of them; a sample alike restarts the count
(R350). -/
def execDiDebouncedChange (n : Fin 56) (samples : DiSamples) (s : State) : R :=
  let x := s.din n.val
  let r := s.readInput x.cfg samples.millivolts
  let t := r.2.modDin n.val (fun x => { x with skip := x.skip - samples.stamps.length })
  match samples.stamps.drop x.skip with
  | [] => .next t
  | tb :: rest =>
    let t := t.setFlag (Reg.FIO_DISTAT n.val) 1 r.1
    let diff := x.diff + rest.length + 1
    let first := if x.diff = 0 then tb else x.firstTb
    if s.flag (Reg.FIO_DISTAT n.val) 0 = r.1 then .next (t.modDin n.val (fun x => { x with diff := 0 }))
    else if diff < debounceCount x.cfg + 1 then .next (t.modDin n.val (fun x => { x with diff := diff, firstTb := first }))
    else .next ((t.modDin n.val (fun x => { x with diff := 0 })).putDin n.val r.1 (first - 4000#32).toNat)

/-- Whether EDGE selects an edge to a level; 3 acts as 2 (R351, R365). -/
def edgeCounts (cfg : Word) (level : Bool) : Bool :=
  match field cfg 17 16 with
  | 0 => level
  | 1 => !level
  | _ => true

/-- FAST_INPUT_EDGE: a fast input's pad takes a voltage `cycles` CCLK cycles after its last change (R351); one that reads as before is
no edge. -/
def execFastInputEdge (m : Fin 8) (millivolts : Int) (cycles : Nat) (s : State) : R :=
  let n := 56 + m.val
  let x := s.din n
  let r := s.readInput x.cfg millivolts
  let level := r.1
  if s.flag (Reg.FIO_DISTAT n) 0 = level then .next (r.2.modDin n (fun x => { x with acc := x.acc + cycles }))
  else
    let t := r.2.putDin n level ((BitVec.ofNat 32 s.time.tbNs) - 4000#32).toNat
    if edgeCounts x.cfg level = false then .next (t.modDin n (fun x => { x with acc := x.acc + cycles }))
    else
      let st := Reg.FIO_FSTAT m.val
      let t := (t.incFld (Reg.FIO_FCOUNT m.val) 31 0).wr (Reg.FIO_FPERIOD m.val) (BitVec.ofNat 32 (min (2 ^ 32 - 1) (x.acc + cycles)))
      let t := (if x.counted then t.setFlag st 31 true else t).setFlag st 30 false
      .next (t.modDin n (fun x => { x with acc := 0, counted := true }))

/-- FAST_INPUT_PERIOD_OVERFLOW: 2^32 - 1 CCLK cycles have passed without a counted edge, the span's cycles of them since the last
change (R351). -/
def execFastInputPeriodOverflow (span : FastSpan) (s : State) : R :=
  let m := span.input.val
  if (s.din (56 + m)).acc + span.cycles < 2 ^ 32 - 1 then .next s
  else .next ((s.wr (Reg.FIO_FPERIOD m) 0xFFFFFFFF#32).setFlag (Reg.FIO_FSTAT m) 30 true)

/-- rsv bits of FIO_FCTL. -/
def fctlRsv : Word := 0xFFFFFFFE#32

/-- The action of a write of FIO_FCTL (R351). -/
def wrFctl (m : Nat) (p : Port) (v : Word) (s : State) : State := if bit v 0 then s.placeEach (Reg.FIO_FCTL m) v p else s

/-- FAST_INPUT_CLEAR: a write of FIO_FCTL with CLR = 1 (R351). -/
def execFastInputClear (p : Port) (m : Fin 8) (v : Word) (s : State) : R :=
  gate s p .field (.owned (s.din (56 + m.val)).owner) fctlRsv (Reg.FIO_FCTL m.val) v (fun w => wrFctl m.val p (w ||| 1#32))

/-- The action of a write of FIO_DICFG, and of FIO_DOCFG (R352, R365). -/
def wrDicfg (n : Nat) (p : Port) (v : Word) (s : State) : State := (s.wr (Reg.FIO_DICFG n) v).placeEach (Reg.FIO_DICFG n) v p
def wrDocfg (n : Nat) (p : Port) (v : Word) (s : State) : State := (s.wr (Reg.FIO_DOCFG n) v).placeEach (Reg.FIO_DOCFG n) v p

/-- FIO_CONFIG_APPLY: settings and clears whose strobe 0 has come (R351, R352). -/
def execFioConfigApply (s : State) : R :=
  let t := (List.range 64).foldl (fun s n => s.onDue (Reg.FIO_DICFG n) (fun s r => s.modDin n (fun x =>
    { x with cfg := r.value, skip := if bit x.cfg 8 = bit r.value 8 then x.skip else 2 }))) s
  let t := (List.range 32).foldl (fun s n => s.onDue (Reg.FIO_DOCFG n) (fun s r =>
    (s.modDout n (fun x => { x with cfg := r.value })).showDo n)) t
  .next ((List.range 8).foldl (fun s m => s.onDue (Reg.FIO_FCTL m) (fun s _ =>
    (((s.wr (Reg.FIO_FCOUNT m) 0#32).setFld (Reg.FIO_FSTAT m) 31 30 0).modDin (56 + m) (fun x => { x with counted := false })))) t)

/-! ### The image's sections -/

/-- A mask of n bits. -/
def bitsOf (n : Nat) (f : Nat → Bool) : Nat := (List.range n).foldl (fun a i => a + (if f i then 2 ^ i else 0)) 0

/-- The DI section (R362). -/
def State.diSection (s : State) : List Word :=
  let st := bitsOf 64 (fun n => s.flag (Reg.FIO_DISTAT n) 0)
  let ng := bitsOf 64 (fun n => s.flag (Reg.FIO_DISTAT n) 2)
  let pv := bitsOf 8 (fun m => s.flag (Reg.FIO_FSTAT m) 31) + 256 * bitsOf 8 (fun m => s.flag (Reg.FIO_FSTAT m) 30)
  [BitVec.ofNat 32 st, BitVec.ofNat 32 (st / 2 ^ 32), BitVec.ofNat 32 ng, BitVec.ofNat 32 (ng / 2 ^ 32)]
    ++ (List.range 8).map (fun m => s.rd (Reg.FIO_FCOUNT m)) ++ (List.range 8).map (fun m => s.rd (Reg.FIO_FPERIOD m))
    ++ [BitVec.ofNat 32 pv] ++ List.replicate 11 0#32

/-- The DO section (R363). -/
def State.doSection (s : State) : List Word :=
  let st := fun n => s.rd (Reg.FIO_DOSTAT n)
  let faulty := fun n => (let c := field (st n) 27 24
                          (decide (1 ≤ c) && decide (c ≤ 5)) || c == 7)
  let bank := fun m => (let b := s.rd (Reg.FIO_BSTAT m)
                        field b 4 0)
  [s.rd Reg.FIO_APPLIED, BitVec.ofNat 32 (bitsOf 32 (fun n => bit (st n) 30)), BitVec.ofNat 32 (bitsOf 32 faulty),
   BitVec.ofNat 32 (bitsOf 32 (fun n => bit (st n) 29))]
    ++ (List.range 4).map (fun w => BitVec.ofNat 32 ((List.range 8).foldl (fun a i => a + field (st (8 * w + i)) 27 24 * 16 ^ i) 0))
    ++ [BitVec.ofNat 32 ((List.range 4).foldl (fun a m => a + bank m * 256 ^ m) 0)]
    ++ (List.range 16).map (fun w => BitVec.ofNat 32 (field (st (2 * w)) 15 0 + 65536 * field (st (2 * w + 1)) 15 0))
    ++ List.replicate 7 0#32

/-- The field die delivers both sections as it stands at strobe 0 (R362, R363). -/
def State.fioSections (s : State) : State := (s.deliver 0xDD8 s.diSection).deliver 0xDF8 s.doSection

end Sys2Proof.Machine
end

