-- ==== Sys2Proof/Machine/Force.lean ====
section
/-!
DEFINITION. Sys2Proof/Machine/Force.lean: forcing (R251-R254) and on-line change (R255-R259, R262): rows FORCE_SET, FORCE_RELEASE,
FORCE_RELEASE_ALL, FORCE_COMMAND_CHECK, SCHEME_CARRY_OVER.
-/
namespace Sys2Proof.Machine

/-! ### Registers that show the forces -/

/-- Whether any force is in effect (R254). -/
def State.anyForce (s : State) : Bool := (List.range 4).any (fun p => !(s.part p).forces.isEmpty)

/-- FIO_DISTAT.FORCED of the inputs that a force of kind 3 names (R251, R365). -/
def State.showForcedDi (s : State) : State :=
  (List.range 64).foldl (fun s n => s.setFlag (Reg.FIO_DISTAT n) 3 (s.forced 3 n).isSome) s

/-- SYS_STAT.FORCE, FIO_DISTAT.FORCED and FORCED_N; the pin keeps its state while the link is down (R254). -/
def State.showForced (s : State) : State :=
  let a := s.anyForce
  let t := s.showForcedDi.setFlag Reg.SYS_STAT 3 a
  if t.linkUp then { t with slx := { t.slx with forcedN := a } } else t

/-- SLX_PSTAT.FORCES and SLX_FTAB of a partition (R261, R264). -/
def State.showForces (s : State) (p : Nat) : State :=
  let fs := (s.part p).forces
  let t := s.setFld (Reg.SLX_PSTAT p) 8 0 fs.length
  let t := (List.range 256).foldl (fun s j =>
    match fs[j]? with
    | some f => (s.wr (Reg.SLX_FTAB p j) (BitVec.ofNat 32 (2 ^ 31 + f.kind * 65536 + f.index))).wr (Reg.SLX_FTABV p j) f.value
    | none => (s.wr (Reg.SLX_FTAB p j) 0#32).wr (Reg.SLX_FTABV p j) 0#32) t
  t.showForced

/-- A partition's force table changes. -/
def State.setForces (s : State) (p : Nat) (fs : List Force) : State :=
  (s.modPart p (fun x => { x with forces := fs })).showForces p

/-! ### Names -/

/-- The slot an ID names in a program: space and index. -/
def Prog.slotOf (g : Prog) (id : Nat) : Option (Nat × Nat) :=
  if id = 0 then none else (g.vids.find? (fun e => e.1 == id)).map (fun e => e.2)

/-- The ID of a slot, 0 for an anonymous one (R256). -/
def Prog.idOf (g : Prog) (space idx : Nat) : Nat :=
  match g.vids.find? (fun e => e.2.1 == space && e.2.2 == idx) with
  | some e => e.1
  | none => 0

/-- Targets of a kind (R251). -/
def kindRange : Nat → Nat
  | 0 => 8192
  | 1 => 2048
  | 2 => 512
  | 3 => 64
  | 4 => 32
  | _ => 384

/-- The partition a target of kinds 3 to 5 belongs to. -/
def State.targetOwner (s : State) (kind idx : Nat) : Option Nat :=
  match kind with
  | 3 => (nth {} s.fio.di idx).owner
  | 4 => (s.dout idx).owner
  | _ => s.laneOwner idx

/-- The value of a force as its target holds it (R251). -/
def forceValue (kind : Nat) (v : Word) : Word :=
  match kind with
  | 0 | 3 | 4 => v &&& 1#32
  | 5 => v &&& 0xFFFFFF#32
  | _ => v

/-- The variable itself takes the value (R251). -/
def Vars.force (v : Vars) (kind idx : Nat) (x : Word) : Vars :=
  match kind with
  | 0 => v.setBit idx (Sys2Proof.bit x 0)
  | 1 => v.setFp idx x
  | 2 => v.setInt idx x
  | _ => v

/-! ### Commands -/

/-- rsv bits of SLX_FCMD. -/
def fcmdRsv : Word := 0x70FFFFFC#32

/-- The action of a write of SLX_FCMD (R252): OP 0 is no command; another replaces one that waits and takes SLX_FIDX, SLX_FVAL
and SLX_FVID as they stand (assumption log 34). -/
def wrFcmd (part : Nat) (p : Port) (v : Word) (s : State) : State :=
  if field v 1 0 = 0 then s
  else
    let k := Reg.SLX_FCMD part
    let t := (s.setFlag k 31 true).place k v p
    let t := t.place (Reg.SLX_FIDX part) (s.rd (Reg.SLX_FIDX part)) p
    let t := t.place (Reg.SLX_FVAL part) (s.rd (Reg.SLX_FVAL part)) p
    t.place (Reg.SLX_FVID part) (s.rd (Reg.SLX_FVID part)) p

/-- A word with OP in bits [1:0]. -/
def withOp (v : Word) (op : Nat) : Word := setField v 1 0 op

/-- FORCE_SET: a write of SLX_FCMD with OP 1 (R252, R261). -/
def execForceSet (p : Port) (part : Fin 4) (v : Word) (s : State) : R :=
  gate s p .engine (.shared (some part.val)) fcmdRsv (Reg.SLX_FCMD part.val) (withOp v 1) (wrFcmd part.val p)

/-- FORCE_RELEASE: OP 2 (R252). -/
def execForceRelease (p : Port) (part : Fin 4) (v : Word) (s : State) : R :=
  gate s p .engine (.shared (some part.val)) fcmdRsv (Reg.SLX_FCMD part.val) (withOp v 2) (wrFcmd part.val p)

/-- FORCE_RELEASE_ALL: OP 3 (R252). -/
def execForceReleaseAll (p : Port) (part : Fin 4) (v : Word) (s : State) : R :=
  gate s p .engine (.shared (some part.val)) fcmdRsv (Reg.SLX_FCMD part.val) (withOp v 3) (wrFcmd part.val p)

/-! ### The check -/

/-- The target of a command: kind and index, or the refusal code (R252): 2 for a kind of 6 or 7 and a bad or foreign index, 4 for
a name that does not resolve. -/
def State.forceTarget (s : State) (p : Nat) (fidx fvid : Word) : Except Nat (Nat × Nat) :=
  let kind := field fidx 18 16
  if 6 ≤ kind then .error 2
  else
    let named : Except Nat Nat :=
      if bit fidx 31 ∧ kind ≤ 2 then
        match (s.part p).prog.slotOf fvid.toNat with
        | some (sp, i) => if sp = kind then .ok i else .error 4
        | none => .error 4
      else .ok (field fidx 12 0)
    match named with
    | .error c => .error c
    | .ok i =>
      if kindRange kind ≤ i ∨ (3 ≤ kind ∧ s.targetOwner kind i ≠ some p) then .error 2 else .ok (kind, i)

/-- The ID of a force's target, 0 for kinds 3 to 5 (R260). -/
def State.forceId (s : State) (p : Nat) (f : Force) : Nat := if f.kind ≤ 2 then (s.part p).prog.idOf f.kind f.index else 0

/-- A release's record (R260). -/
def State.releaseRecord (s : State) (p : Nat) (f : Force) : State :=
  s.schemeRecord p 3 255 f.kind f.index f.value.toNat (s.forceId p f)

/-- The command with operation op, at its boundary: the new state and the code (R252, R253). -/
def State.forceCommand (s : State) (p op : Nat) (fidx fval fvid : Word) : State × Nat :=
  let fs := (s.part p).forces
  let m := s.behaved
  if op = 1 ∧ m ≠ mCOMMISSION ∧ m ≠ mTEST then (s, 1)
  else if op = 3 then ((fs.foldl (fun s f => s.releaseRecord p f) s).setForces p [], 0)
  else match s.forceTarget p fidx fvid with
    | .error c => (s, c)
    | .ok (kind, i) =>
      let here := fun (f : Force) => f.kind == kind && f.index == i
      if op = 2 then
        match fs.find? here with
        | none => (s, 5)
        | some f => ((s.releaseRecord p f).setForces p (fs.filter (fun g => !here g)), 0)
      else if kind = 5 ∧ field fval 23 0 = 0x800000 then (s, 2)
      else if fs.any here = false ∧ 256 ≤ fs.length then (s, 3)
      else
        let v := forceValue kind fval
        let id := if kind ≤ 2 then (s.part p).prog.idOf kind i else 0
        let new := if fs.any here then fs.map (fun f => if here f then { f with value := v } else f)
          else fs ++ [⟨kind, i, v, id⟩]
        let t := s.modPart p (fun x => { x with vars := x.vars.force kind i v })
        ((t.setForces p new).schemeRecord p 2 255 kind i v.toNat id, 0)

/-- FORCE_COMMAND_CHECK: at the start of frame f + 3 (R252), after a swap of that boundary has rewritten the table (R258): until then
the command waits. -/
def execForceCommandCheck (part : Fin 4) (s : State) : R :=
  let p := part.val
  let k := Reg.SLX_FCMD p
  match if s.swapOpen p then none else s.due k with
  | none => .next s
  | some r =>
    let val := fun a => match s.req a with
      | some q => q.value
      | none => 0#32
    let t := (s.setReq k none).setFlag k 31 false
    let t := ((t.setReq (Reg.SLX_FIDX p) none).setReq (Reg.SLX_FVAL p) none).setReq (Reg.SLX_FVID p) none
    let c := t.forceCommand p (field r.value 1 0) (val (Reg.SLX_FIDX p)) (val (Reg.SLX_FVAL p)) (val (Reg.SLX_FVID p))
    .next (c.1.setFld k 27 24 c.2)

/-! ### Forces that end by themselves (R253) -/

/-- Keep only the forces that satisfy a test; one record of kind 4 counts the others. -/
def State.endForces (s : State) (p : Nat) (keep : Force → Bool) (logs : Nat) : State :=
  let fs := (s.part p).forces
  let n := (fs.filter (fun f => !keep f)).length
  if n = 0 then s
  else
    let t := s.setForces p (fs.filter keep)
    t.post 0x19 (srcOf 3 p) (bytesLE 1 4 ++ bytesLE 1 p ++ bytesLE 1 255 ++ bytesLE 1 0 ++ s.frameBytes ++ bytesLE 4 n
      ++ bytesLE 4 0 ++ bytesLE 4 0) logs true

/-- A change of the mode as behaved (R253). -/
def State.forcesOnMode (s : State) (old new : Nat) : State :=
  if old = new then s
  else if new = mSTANDBY ∨ new = mSAFE then (List.range 4).foldl (fun s p => s.endForces p (fun _ => false) (logOf p)) s
  else if new = mSERVICE then
    (List.range 4).foldl (fun s p =>
      let k := Reg.SLX_PSTAT p
      s.endForces p (fun f => if f.kind = 4 then s.flag k 28 else s.flag k 27) (logOf p)) s
  else s

/-! ### Costs (R241, R247) -/

/-- Cycles of an instruction word (R241). -/
def wordCycles (w : Word) : Nat :=
  let op := field w 31 26
  if 1 ≤ op ∧ op ≤ 7 then bitCycles ⟨field w 25 22, field w 21 0⟩
  else match op with
    | 0x00 | 0x08 | 0x0D | 0x0E | 0x0F | 0x28 | 0x29 => 1
    | 0x10 | 0x11 | 0x15 | 0x18 | 0x22 | 0x23 | 0x24 | 0x34 => 4
    | 0x12 | 0x13 | 0x14 => 8
    | 0x16 | 0x17 => 6
    | 0x25 => 12
    | 0x2A => 14
    | 0x32 | 0x33 | 0x35 | 0x36 | 0x37 | 0x38 | 0x39 | 0x3A | 0x3D | 0x3E | 0x3F => 2
    | _ => 3

/-- Costs of the paths from each position on, the list for the positions after an instruction given (R247). -/
def pathCosts : List Word → List Nat
  | [] => []
  | w :: ws =>
    let rest := pathCosts ws
    let c := wordCycles w
    let off := (BitVec.toInt (w.setWidth 26)).toNat
    let next := nth 0 rest 0
    let jump := nth 0 rest off
    (match field w 31 26 with
     | 0x00 => c
     | 0x3D => c + jump
     | 0x3E | 0x3F => c + max next jump
     | _ => c + next) :: rest

/-- task_cost of R247. -/
def taskCost (code : List Word) : Nat := 60 + nth 0 (pathCosts code) 0 + 40

/-- Whether a task's code holds a backward branch (R239, R48). -/
def hasLoop (code : List Word) : Bool := code.any (fun w => decide (0x3D ≤ field w 31 26) && bit w 25)

/-- The code of task t of a program. -/
def Prog.codeOf (g : Prog) (t : Nat) : List Word :=
  let x := nth {} g.tasks t
  (g.code.drop x.first).take x.words

/-- SLX_TCFG, SLX_TCOST and SLX_PSTAT.TASKS show the program in force (R261, R262). -/
def State.showTasks (s : State) (p : Nat) : State :=
  let g := (s.part p).prog
  let t := (List.range 8).foldl (fun s i =>
    let x := nth {} g.tasks i
    let j := s.taskJob p i
    let prio := match j with
      | some j => j.prio
      | none => 0
    let cost := if x.tierB then s.taskBudget p i else taskCost (g.codeOf i)
    if x.valid then
      ((s.wr (Reg.SLX_TCFG p i) (BitVec.ofNat 32 (2 ^ 31 + b2n x.tierB * 2 ^ 30 + x.n % 16 * 2 ^ 24 + x.phase % 256 * 65536
        + (if x.tierB then prio % 256 * 256 else 0)))).wr (Reg.SLX_TCOST p i) (BitVec.ofNat 32 (cost % 2 ^ 24))).showTask p i
    else ((s.wr (Reg.SLX_TCFG p i) 0#32).wr (Reg.SLX_TCOST p i) 0#32).wr (Reg.SLX_TSTAT p i) 0#32) s
  t.setFld (Reg.SLX_PSTAT p) 19 16 (g.tasks.filter (fun x => x.valid)).length

/-! ### On-line change -/

/-- A slot's carried value (R256): presets stay the new program's. -/
def carrySlot (old new : Vars) (space i j : Nat) : Vars :=
  match space with
  | 0 => new.setBit j (old.bit i)
  | 1 => new.setFp j (old.fp i)
  | 2 => new.setInt j (old.int i)
  | 3 => new.setTimer j { old.timer i with pt := (new.timer j).pt }
  | 4 => new.setCounter j { old.counter i with pv := (new.counter j).pv }
  | _ => new.setEdge j (old.edge i)

/-- The variables of the new program, how many IDs were carried and how many initialised (R256). Scheme outputs stay. -/
def State.carryOver (s : State) (p : Nat) : Vars × Nat × Nat :=
  let x := s.part p
  let start : Vars := { x.shadow.init with o := x.vars.o }
  x.shadow.vids.foldl (fun (a : Vars × Nat × Nat) e =>
    if e.1 = 0 then a
    else match x.prog.slotOf e.1 with
      | some (sp, i) => if sp = e.2.1 then (carrySlot x.vars a.1 sp i e.2.2, a.2.1 + 1, a.2.2) else (a.1, a.2.1, a.2.2 + 1)
      | none => (a.1, a.2.1, a.2.2 + 1)) (start, 0, 0)

/-- SCHEME_CARRY_OVER: in slot 255 of the frame before the swap, after the last G job where a plan runs (R257 step 2). -/
def execSchemeCarryOver (part : Fin 4) (s : State) : R :=
  let p := part.val
  if s.run.swapDue.any (fun e => e.1 == p && (s.frame + 1) % 2 ^ 32 == e.2) && (!s.planRuns || s.jobsDone) then
    .next (s.modPart p (fun x => { x with carried := some (s.carryOver p) }))
  else .next s

/-- Whether task t is unchanged by the swap (R259). -/
def State.taskSame (s : State) (p t : Nat) : Bool :=
  let x := s.part p
  let a := nth {} x.prog.tasks t
  let b := nth {} x.shadow.tasks t
  let newBudget := match x.shadowJobs.find? (fun j => j.target == 8 * p + t) with
    | some j => j.cycles
    | none => 0
  a.valid && b.valid && a.tierB == b.tierB && a.n == b.n && a.phase == b.phase && x.prog.codeOf t == x.shadow.codeOf t
    && s.taskBudget p t == newBudget

/-- The force table after the rewrite of R258: moved, kept, and those that end. -/
def State.moveForces (s : State) (p : Nat) : List Force × List Force × Nat :=
  let x := s.part p
  x.forces.foldl (fun (a : List Force × List Force × Nat) f =>
    if f.kind ≤ 2 then
      match x.shadow.slotOf (x.prog.idOf f.kind f.index) with
      | some (sp, i) => if sp = f.kind then (a.1 ++ [{ f with index := i }], a.2.1, a.2.2 + 1) else (a.1, a.2.1 ++ [f], a.2.2)
      | none => (a.1, a.2.1 ++ [f], a.2.2)
    else (a.1 ++ [f], a.2.1, a.2.2)) ([], [], 0)

/-- The O jobs after a swap: the partition's B-tier tasks are those of the delta; an unchanged task keeps its pending run
(R259). -/
def State.swapJobs (s : State) (p : Nat) (same : Nat → Bool) : List OJob :=
  let mine := fun (j : OJob) => j.kind == 7 && j.target / 8 == p
  let new := (s.part p).shadowJobs.map (fun j =>
    if same (j.target % 8) then
      match s.taskJob p (j.target % 8) with
      | some o => { j with pend := o.pend }
      | none => j
    else { j with pend := 0 })
  s.ojobs.filter (fun j => !mine j) ++ new

/-- SEC_PARTHASH of a partition: the hash of the block in its active bank (R431). -/
def State.showHash (s : State) (p : Nat) : State :=
  let g := (s.part p).prog
  s.wrList (Reg.SEC_PARTHASH p 0) (if g.defined then wordsOf 16 g.hash else List.replicate 16 0#32)

/-- The counters of added or replaced O-job indices clear (PWR_ODEF, PWR_ODROP). -/
def State.clearChanged (s : State) (old : List OJob) : State :=
  let entry := fun (j : OJob) => { j with pend := 0, granted := 0 }
  s.ojobs.foldl (fun s j =>
    if old.any (fun o => entry o == entry j) then s
    else (s.wr (Reg.PWR_ODEF j.index) 0#32).wr (Reg.PWR_ODROP j.index) 0#32) s

/-! ### Initial state (R235, R253, R264) -/

/-- A triad restart or pedigree staging sets the scheme state to the program's initial values and clears the task status bits; a
force ends with a record of kind 4, at staging to the kennel only. Counters stay. -/
def State.initScheme (s : State) (staging : Bool) : State :=
  (List.range 4).foldl (fun s p =>
    let t := s.endForces p (fun _ => false) (if staging then 0 else logOf p)
    let t := t.modPart p (fun x => { x with vars := x.prog.init, tasks := List.replicate 8 {} })
    let t := (List.range 8).foldl (fun s i =>
      (s.setFlag (Reg.SLX_TSTAT p i) 4 false).setFlag (Reg.SLX_TSTAT p i) 5 false) t
    t.showTasks p) { s with slx := { s.slx with run := {} } }

/-- The variable that SLX_VIDX names: NOTFOUND and SLX_VDATA (R261); committed values, forced targets read their forces. -/
def State.varData (s : State) (p : Nat) : Bool × Word :=
  let w := s.rd (Reg.SLX_VIDX p)
  let x := s.part p
  let slot : Option (Nat × Nat) :=
    if bit w 31 then x.prog.slotOf (s.rd (Reg.SLX_VVID p)).toNat else some (field w 25 22, field w 21 0)
  match slot with
  | none => (true, 0#32)
  | some (sp, i) =>
    let f := field w 29 28
    (false, match sp with
      | 0 => BitVec.ofNat 32 (b2n (x.vars.bit i))
      | 1 => x.vars.fp i
      | 2 => x.vars.int i
      | 3 =>
        let y := x.vars.timer i
        if f = 0 then BitVec.ofNat 32 y.et else if f = 1 then BitVec.ofNat 32 y.pt
        else if f = 2 then BitVec.ofNat 32 (b2n y.q) else 0#32
      | 4 =>
        let y := x.vars.counter i
        if f = 0 then BitVec.ofInt 32 y.cv else if f = 1 then BitVec.ofInt 32 y.pv
        else if f = 2 then BitVec.ofNat 32 (b2n y.q) else 0#32
      | 5 =>
        let y := x.vars.edge i
        BitVec.ofNat 32 (b2n y.p + 2 * b2n y.prime)
      | 6 => nth 0#32 x.prog.pool i
      | 9 => BitVec.ofNat 32 (b2n (bit x.vars.o i))
      | _ => 0#32)

end Sys2Proof.Machine
end

