-- ==== Sys2Proof/Machine/Waves.lean ====
section
/-!
DEFINITION. Sys2Proof/Machine/Waves.lean: traveling waves (chapter 9): rows TW_DETECTION, TW_BAY_REARM, TW_ARRIVAL_RECORD,
TW_CAPTURE_COMPLETE, TW_LOCATION_SLICE, TW_DOUBLE_ENDED_GO, TW_DOUBLE_ENDED_CHECK, TWV_CONFIG_APPLY. In frame f, once stage A has
taken frame f - 1, the path evaluates the strobes of frame f - 2, whose following codes are then all known.
-/
namespace Sys2Proof.Machine

def State.twLane (s : State) (l : Nat) : TwLane := nth {} s.tw.lanes l
def State.modTwLane (s : State) (l : Nat) (f : TwLane → TwLane) : State :=
  { s with tw := { s.tw with lanes := modAt s.tw.lanes l f } }
def State.twBay (s : State) (b : Nat) : TwBay := nth {} s.tw.bays b
def State.modTwBay (s : State) (b : Nat) (f : TwBay → TwBay) : State :=
  { s with tw := { s.tw with bays := modAt s.tw.bays b f } }

/-! ### The high-pass path (R195, R196) -/

/-- The code of raw position i of a lane (0 the newest) and its flags; a position before the path's start is not settled. -/
def LaneSt.codeAt (x : LaneSt) (i : Nat) : Int := (nth 0#16 x.raw i).toInt
def LaneSt.flAt (x : LaneSt) (i : Nat) : Nat := nth 1 x.cfl i

/-- d at raw position i (R195). -/
def LaneSt.dAt (x : LaneSt) (i : Nat) : Int := (x.codeAt i + x.codeAt (i + 1)) - (x.codeAt (i + 2) + x.codeAt (i + 3))

/-- Whether detection is suppressed at raw position i (R196). -/
def LaneSt.supAt (x : LaneSt) (i : Nat) : Bool := [i - 1, i, i + 1, i + 2, i + 3].any (fun j => x.flAt j != 0)

/-- Whether one of the codes behind d at raw position i is an overrange marker. -/
def LaneSt.mkAt (x : LaneSt) (i : Nat) : Bool := [i, i + 1, i + 2, i + 3].any (fun j => isMarker (nth 0#16 x.raw j))

/-- Flags U, O, S (bits 0, 1, 2) of the code at raw position i: a disabled lane's codes carry S (R82), those of a pack that is not ON
U and S (R71). -/
def LaneSt.usoAt (x : LaneSt) (i : Nat) : Nat :=
  let f := x.flAt i
  b2n (natBit f 0 || natBit f 5) + 4 * b2n (natBit f 2 || natBit f 4 || natBit f 5)
    + (if isMarker (nth 0#16 x.raw i) then 2 else 0)

/-- Raw position of strobe q of the frame evaluated, 0 to 134. -/
def pos (q : Nat) : Nat := 255 - q

/-- Whether a lane detects at strobe q (R197). -/
def LaneSt.detects (x : LaneSt) (cfg : Word) (q : Nat) : Bool :=
  bit cfg 31 && decide (0 < field cfg 17 0) && !x.supAt (pos q) && decide (field cfg 17 0 ≤ (x.dAt (pos q)).natAbs)

/-- The first detection at strobe q or later, among the next n strobes. -/
def LaneSt.firstDet (x : LaneSt) (cfg : Word) : Nat → Nat → Option Nat
  | 0, _ => none
  | n + 1, q => if x.detects cfg q then some q else x.firstDet cfg n (q + 1)

/-- Detections from strobe q on, each at least four strobes after the one before (assumption log 38). -/
def LaneSt.allDets (x : LaneSt) (cfg : Word) : Nat → Nat → List Nat
  | 0, _ => []
  | n + 1, q =>
    match x.firstDet cfg (128 - q) q with
    | some d => d :: x.allDets cfg n (d + 4)
    | none => []

/-- The place of the largest of up to four values, the lowest on ties. -/
def argMax4 (g : Nat → Nat) (q : Nat) : Nat :=
  [q + 1, q + 2, q + 3].foldl (fun m p => if g m < g p then p else m) q

/-- The sub-strobe offset delta of R197. -/
def subStrobe (a b c : Nat) (marked : Bool) : Rat :=
  let den : Int := 2 * ((a : Int) - 2 * b + c)
  if den = 0 ∨ marked = true then 0
  else
    let d := (((a : Int) - c : Int) : Rat) / (den : Rat)
    if mkRat 1 2 < d then mkRat 1 2 else if d < mkRat (-1) 2 then mkRat (-1) 2 else d

/-- One strobe in ns (R25). -/
def strobeNs : Rat := mkRat 48828125 100000

/-- A detection's peak: strobe, |d|, polarity, instant in ns from the frame's start (R197). -/
structure Peak where
  p : Nat
  mag : Nat
  neg : Bool
  at_ : Rat
deriving DecidableEq, Repr

/-- The signed CORR of a lane. -/
def corrOf (w : Word) : Int := sext 16 (field w 15 0)

/-- The peak of a detection at strobe n0 (R197). -/
def State.peakAt (s : State) (x : LaneSt) (corr : Int) (n0 : Nat) : Peak :=
  let g := fun q => (x.dAt (pos q)).natAbs
  let p := argMax4 g n0
  let marked := x.mkAt (pos (p + 1)) || x.mkAt (pos p) || x.mkAt (pos p + 1)
  let d := subStrobe (x.dAt (pos p + 1)).natAbs (g p) (g (p + 1)) marked
  ⟨p, g p, decide (x.dAt (pos p) < 0), ((p : Rat) + d) * strobeNs - ((s.rd Reg.TWV_GDLY).toNat : Rat) - (corr : Rat)⟩

/-- The nearest ns, ties upward (R199). -/
def nsUp (t : Rat) : Int := roundUp t.num t.den

/-! ### Bay events (R198, R199, R203) -/

/-- TWV_GSTAT: queued requests and held buffers (R210). -/
def State.twShow (s : State) : State :=
  let held := ((s.tw.bufs).zipIdx).foldl (fun a e => a + (if e.1.isSome then 2 ^ e.2 else 0)) 0
  (s.setFld Reg.TWV_GSTAT 15 8 s.tw.queue.length).setFld Reg.TWV_GSTAT 7 0 held

/-- An instant `ns` after the start of the frame evaluated, as TB_NS, ns of second and second; one before it is stamped in the previous
frame, one past its end in the next (R199). -/
def State.twStamp (s : State) (ns : Int) : Int × Int × Int :=
  let x := s.time
  if ns < 0 then ((x.p3Tb : Int) + x.p3Len + ns, (x.p3Nsec : Int) + x.p3Len + ns, x.p3Sec)
  else if ns < x.p2Len then ((x.p2Tb : Int) + ns, (x.p2Nsec : Int) + ns, x.p2Sec)
  else ((x.prTb : Int) - x.p2Len + ns, (x.prNsec : Int) - x.p2Len + ns, x.prSec)

/-- A lane's own registers after a detection that counts (R198, R209). -/
def State.laneHit (s : State) (l : Nat) (k : Peak) : State :=
  (s.wr (Reg.TWV_LLAST l) (BitVec.ofInt 32 (s.twStamp (nsUp k.at_)).1)).incFld (Reg.TWV_LSTAT l) 31 16

/-- Detections while disarmed (R198). -/
def State.laneIgn (s : State) (l n : Nat) : State := s.satFld (Reg.TWV_LSTAT l) 15 8 n

/-- A buffer is taken for an event, or the event goes without (R203). -/
def State.takeBuf (s : State) (b : Nat) (ev : TwEvent) : State × Bool :=
  match s.tw.bufs.findIdx? Option.isNone with
  | none => (s.satFld Reg.TWV_GSTAT 31 16 1, false)
  | some i =>
    let from_ := pos ev.n0 + 16
    let mask := field ev.set.cfg 23 16
    let ds := (List.range 8).map (fun k =>
      if natBit mask k then (List.range (from_ + 1)).map (fun j => (s.lane (8 * b + k)).dAt (from_ - j)) else [])
    let fl := (List.range (from_ + 1)).map (fun j => (s.lane (8 * b + ev.lead)).usoAt (from_ - j))
    (({ s with tw := { s.tw with bufs := modAt s.tw.bufs i (fun _ => some ⟨b, ev, ds, fl, false⟩) } }).twShow, true)

/-- Open the event of a bay: `js` are the joined lanes k with the strobes they detected at (R198, R199, R201). LANE[k] gives the rounded
difference of the exact instants (assumption log 38). -/
def State.openEvent (s : State) (b n0 : Nat) (js : List (Nat × Nat)) : State :=
  let g := (s.frame + 2 ^ 32 - 2) % 2 ^ 32
  let set := (s.twBay b).set2
  let ps := js.map (fun j => (j.1, j.2, s.peakAt (s.lane (8 * b + j.1)) (corrOf (s.twLane (8 * b + j.1)).corr2) j.2))
  match ps with
  | [] => s
  | first :: rest =>
    let lead := rest.foldl (fun m x => if m.2.2.mag < x.2.2.mag then x else m) first
    let t1 := rest.foldl (fun m x => if x.2.2.at_ < m then x.2.2.at_ else m) first.2.2.at_
    let fl := js.foldl (fun a j => (List.range 8).foldl (fun a i =>
      a ||| (s.lane (8 * b + j.1)).usoAt (pos n0 + 3 - i)) a) 0
    let t := s.wr Reg.TWV_EVNO (s.rd Reg.TWV_EVNO + 1#32)
    let st := s.twStamp (nsUp t1)
    let words := (List.range 8).map (fun k => match ps.find? (fun x => x.1 == k) with
      | some x => BitVec.ofNat 32 ((nsUp (x.2.2.at_ - t1)).toNat % 65536 + 65536 * min 32767 x.2.2.mag + 2 ^ 31 * b2n x.2.2.neg)
      | none => 0xFFFF#32)
    let ev : TwEvent :=
      { evno := t.rd Reg.TWV_EVNO, frame := g, n0 := n0, lead := lead.1
        flags := fl % 8 + 8 * b2n set.t + 32 * b2n lead.2.2.neg
        tb := (st.1 % (2 ^ 32 : Nat)).toNat
        sec := ((st.2.2 + st.2.1 / 1000000000) % (2 ^ 48 : Nat)).toNat
        nsec := (st.2.1 % 1000000000).toNat
        lanes := words, peak := lead.2.2.p, t1 := t1, neg := lead.2.2.neg
        corr := corrOf (s.twLane (8 * b + lead.1)).corr2, set := set }
    let r := if bit set.cfg 15 then t.takeBuf b ev else (t, true)
    let ev := if r.2 then ev else { ev with flags := ev.flags + 16 }
    let hold := max 16 (field set.cfg 11 0)
    r.1.modTwBay b (fun x => { x with
      events := x.events ++ [ev], last := some ev, rearm := some ((g + hold + 1) % 2 ^ 32) })

/-- The frame evaluated. -/
def State.twFrameNo (s : State) : Nat := (s.frame + 2 ^ 32 - 2) % 2 ^ 32

/-- Strobes at the start of the frame evaluated that belong to a detection of the frame before it. -/
def State.twSkip (s : State) (l : Nat) : Nat := if (s.twLane l).skipAt = s.twFrameNo then (s.twLane l).skip else 0

/-- A lane's detections of the frame evaluated, under its settings of that frame. -/
def State.twDets (s : State) (l : Nat) : List Nat := (s.lane l).allDets (s.twLane l).cfg2 33 (s.twSkip l)

/-- Whether a bay is armed in frame f (R198). -/
def State.twArmedIn (s : State) (b f : Nat) : Bool :=
  match (s.twBay b).rearm with
  | some r => frameReached f r
  | none => true

/-- Whether a bay is armed for the frame two before the present one (R198). -/
def State.twArmed (s : State) (b : Nat) : Bool := s.twArmedIn b s.twFrameNo

/-- The strobe at which an armed bay's event opens: the first detection on a lane of LMASK (R198). -/
def State.twOpens (s : State) (b : Nat) : Option Nat :=
  if s.twArmed b = false then none
  else (List.range 8).foldl (fun m k =>
    if natBit (field (s.twBay b).set2.cfg 23 16) k then
      (match (s.twDets (8 * b + k)).head?, m with
        | some d, some n => some (min d n)
        | some d, none => some d
        | none, m => m)
    else m) none

/-- The strobe at which lane k of a bay joins the event that opens at n0 (R198). -/
def State.twJoins (s : State) (b n0 k : Nat) : Option Nat :=
  let y := s.twLane (8 * b + k)
  let q := max n0 (s.twSkip (8 * b + k))
  if natBit (field (s.twBay b).set2.cfg 23 16) k then (s.lane (8 * b + k)).firstDet y.cfg2 (n0 + 4 - q) q else none

/-- Lane k's own registers in a frame in which its bay's event opens at n0, if at all (R198, R209). The strobes of a detection go on into
the next frame, but for one made while the bay is disarmed when the next frame finds it armed (R197). -/
def State.twCount (s : State) (b : Nat) (n0 : Option Nat) (k : Nat) : State :=
  let l := 8 * b + k
  let ds := s.twDets l
  let join := n0.bind (fun n => s.twJoins b n k)
  let mine := natBit (field (s.twBay b).set2.cfg 23 16) k
  let counted : List Nat := match n0, join with
    | some _, some d => [d]
    | some n, none => if mine then [] else ds.filter (fun d => decide (d < n))
    | none, _ => if s.twArmed b then ds else []
  let ign := (ds.filter (fun d => !counted.contains d && match join with
    | some j => decide (j + 4 ≤ d)
    | none => true)).length
  let t := counted.foldl (fun t d => t.laneHit l (s.peakAt (s.lane l) (corrOf (s.twLane l).corr2) d)) s
  let t := if ign = 0 then t else t.laneIgn l ign
  let next := (s.twFrameNo + 1) % 2 ^ 32
  let all := if s.twArmed b = false ∧ s.twArmedIn b next = true then [] else ds ++ join.toList
  t.modTwLane l (fun y => { y with skip := if all.isEmpty then 0 else all.foldl max 0 + 4 - 128, skipAt := next })

/-- An event about to open: its strobe, its bay and the joined lanes with their strobes. -/
abbrev Opening := Nat × Nat × List (Nat × Nat)

/-- Events open by strobe, those of one strobe in ascending bay number (R203); bays come in ascending order. -/
def openSort : List Opening → List Opening
  | [] => []
  | e :: rest => let r := openSort rest
                 r.filter (fun x => decide (x.1 < e.1)) ++ e :: r.filter (fun x => decide (e.1 ≤ x.1))

/-- Evaluate every bay for the frame two before the present one (R197-R199, R203). -/
def State.twEval (s : State) : State :=
  let es : List Opening := (List.range 32).filterMap (fun b => (s.twOpens b).map (fun n =>
    (n, b, (List.range 8).filterMap (fun k => (s.twJoins b n k).map (fun d => (k, d))))))
  let t := (List.range 32).foldl (fun t b =>
    let n0 := (es.find? (fun e => e.2.1 == b)).map Prod.fst
    ((List.range 8).foldl (fun t k => t.twCount b n0 k) t).modTwBay b (fun y => { y with seen := some s.frame })) s
  (openSort es).foldl (fun t e => t.openEvent e.2.1 e.1 e.2.2) t

/-- TW_DETECTION: a lane has detected; the frame's detections of every bay are evaluated in the order of their strobes, once in a frame
(R197-R199, R203; assumption log 38). -/
def execTwDetection (lane : Fin 256) (s : State) : R :=
  if s.run.formed = false ∨ (s.twBay (lane.val / 8)).seen = some s.frame then .next s else .next s.twEval

/-- TW_BAY_REARM: HOLD frames have passed after the frame of n0 (R198). -/
def execTwBayRearm (bay : Fin 32) (s : State) : R :=
  match (s.twBay bay.val).rearm with
  | some r =>
    if frameReached s.frame ((r + 2) % 2 ^ 32) then .next (s.modTwBay bay.val (fun y => { y with rearm := none })) else .next s
  | none => .next s

/-- An open buffer takes the strobes at raw positions m - 1 down to 0 of its lanes, up to its 2 048 (R203). -/
def TwBuf.extend (u : TwBuf) (lane : Nat → LaneSt) (m : Nat) : TwBuf :=
  let ext := (List.range m).map (fun j => m - 1 - j)
  { u with
    d := (u.d.zipIdx).map (fun e => if e.1.isEmpty then [] else (e.1 ++ ext.map (fun i => (lane (8 * u.bay + e.2)).dAt i)).take 2048)
    fl := (u.fl ++ ext.map (fun i => (lane (8 * u.bay + u.ev.lead)).usoAt i)).take 2048 }

/-- Change the buffers that a condition selects. -/
def State.modBufs (s : State) (c : TwBuf → Bool) (f : TwBuf → TwBuf) : State :=
  { s with tw := { s.tw with bufs := s.tw.bufs.map (fun o => o.map (fun u => if c u then f u else u)) } }

/-- What the path does with a frame that stage A has just taken: SUPP of the lanes, and the open buffers' next 128 strobes
(R196, R203). -/
def State.twFrame (s : State) : State :=
  let t := (List.range 256).foldl (fun s l =>
    let x := s.lane l
    let on := !x.raw.isEmpty && (List.range 132).any (fun j => x.flAt (127 + j) != 0)
    s.setFlag (Reg.TWV_LSTAT l) 0 on) s
  t.modBufs (fun u => decide (u.fl.length < 2048)) (fun u => u.extend t.lane 128)

/-- A lane with the first n codes of the present frame before those of the frame before. -/
def State.tailLane (s : State) (n l : Nat) : LaneSt :=
  let x := s.lane l
  let f := s.liveForm l
  let new := if f.on then (x.now, codeFlags f x.unset x.nowRep) else (List.replicate 128 0#16, List.replicate 128 noCode)
  { x with raw := (new.1.take n).reverse ++ x.raw, cfl := (new.2.take n).reverse ++ x.cfl }

/-- A frame ends: a capture whose last strobe lies in it, no later than strobe 110, is complete with it (R203). -/
def State.twTail (s : State) : State :=
  s.modBufs (fun u => decide (u.fl.length < 2048) && decide (2048 ≤ u.fl.length + 111)) (fun u => u.extend (s.tailLane 111) 111)

/-- At a frame boundary: the settings of the frame that ends join the last two (R208). -/
def State.twBoundary (s : State) : State :=
  { s with tw := { s.tw with
      lanes := s.tw.lanes.map (fun x => { x with cfg2 := x.cfg1, corr2 := x.corr1, cfg1 := x.cfg, corr1 := x.corr })
      bays := s.tw.bays.map (fun x => { x with set2 := x.set1, set1 := { x.set with t := s.testMode } }) } }

/-- The arrival record (R201). -/
def arrivalRecord (b : Nat) (e : TwEvent) : List Byte :=
  bytesLE 2 64 ++ bytesLE 1 0x44 ++ bytesLE 1 1 ++ bytesLE 2 b ++ bytesLE 1 e.lead ++ bytesLE 1 e.flags ++ wordBytes e.evno
    ++ bytesLE 4 e.frame ++ bytesLE 4 e.tb ++ bytesLE 6 e.sec ++ bytesLE 2 0 ++ bytesLE 4 e.nsec ++ e.lanes.flatMap wordBytes

/-- TW_ARRIVAL_RECORD: the record of the bay's oldest open event is written and TWV_BLAST updated (R201). -/
def execTwArrivalRecord (bay : Fin 32) (s : State) : R :=
  let b := bay.val
  match (s.twBay b).events with
  | [] => .next s
  | e :: rest =>
    let t := s.modTwBay b (fun x => { x with events := rest })
    let t := (t.wr (Reg.TWV_BLAST_EV b) e.evno).wr (Reg.TWV_BLAST_NS b) (BitVec.ofNat 32 e.nsec)
    let t := (t.wr (Reg.TWV_BLAST_SECLO b) (BitVec.ofNat 32 e.sec)).wr (Reg.TWV_BLAST_SECHI b) (BitVec.ofNat 32 (e.sec / 2 ^ 32))
    .next (match s.bayOwner b with
      | some p => t.msqItem p (arrivalRecord b e)
      | none => t)

/-! ### Location (R203-R207) -/

/-- n further runs of the location job are pending. -/
def State.queueSlices (s : State) (n : Nat) : State := (List.range n).foldl (fun s _ => s.queueRun 3) s

/-- TW_CAPTURE_COMPLETE: the buffer is full; its location is queued (R203, R204). -/
def execTwCaptureComplete (buf : Fin 8) (s : State) : R :=
  match nth none s.tw.bufs buf.val with
  | some u =>
    if u.queued = true ∨ u.fl.length < 2048 then .next s
    else
      let t := { s with tw := { s.tw with
        bufs := modAt s.tw.bufs buf.val (fun _ => some ({ u with queued := true } : TwBuf))
        queue := s.tw.queue ++ [({ bay := u.bay, ev := u.ev, buf := some buf.val } : TwReq)] } }
      .next ((t.twShow).queueSlices 4)
  | none => .next s

/-- Requests are given up when the pedigree is replaced or the triad stops running a plan (R205). -/
def State.twGiveUp (s : State) : State :=
  let n := s.tw.queue.length
  if n = 0 then s
  else
    let gone := s.tw.queue.filterMap (fun r => r.buf)
    let t := { s with tw := { s.tw with
      queue := [], bufs := ((s.tw.bufs).zipIdx).map (fun (e : Option TwBuf × Nat) => if gone.contains e.2 then none else e.1) } }
    let t := { t with ojobs := t.ojobs.map (fun (j : OJob) => if j.kind = 3 then { j with pend := 0, granted := 0 } else j) }
    (t.wr Reg.TWV_GIVEUP (t.rd Reg.TWV_GIVEUP + BitVec.ofNat 32 n)).twShow

/-- Peaks of a capture from place j on (R205): place, polarity, instant. The place of n0 is 16. -/
def State.capturePeaks (s : State) (u : TwBuf) : Nat → Nat → List (Bool × Rat × Nat)
  | 0, _ => []
  | n + 1, j =>
    let d := nth [] u.d u.ev.lead
    let g := fun i => (nth 0 d i).natAbs
    let thr := field u.ev.set.rthr 17 0
    match (List.range (2044 - j)).find? (fun i => decide (thr ≤ g (j + i))) with
    | none => []
    | some i =>
      let p := argMax4 g (j + i)
      let marked := (List.range 6).any (fun k => natBit (nth 0 u.fl (p + 1 - k)) 1)
      let dl := subStrobe (g (p - 1)) (g p) (g (p + 1)) marked
      let t := (((p : Int) + u.ev.n0 - 16 : Int) : Rat)
      (decide (nth 0 d p < 0), (t + dl) * strobeNs - ((s.rd Reg.TWV_GDLY).toNat : Rat) - (u.ev.corr : Rat), p)
        :: s.capturePeaks u n (j + i + 4)

/-- What a location reports: STATUS, D1, D2 in km, DT in us; none where not found. -/
structure TwLoc where
  status : Nat
  d1 : Option Rat
  d2 : Option Rat
  dt : Option Rat
deriving DecidableEq, Repr

/-- Whether a distance lies outside 0 .. L. -/
def offLine (l : Rat) : Option Rat → Bool
  | some d => decide (d < 0) || decide (l < d)
  | none => false

/-- The procedure of R205. Times in ns, v in m/us, L in km. -/
def State.locateSingle (s : State) (u : TwBuf) : TwLoc :=
  let v := fpRat u.ev.set.vel
  let l := fpRat u.ev.set.len
  let limit := u.ev.t1 + 2 * l / v * 1000000 + 1000
  let start := u.ev.peak - u.ev.n0 + 16 + 4
  let ps := (s.capturePeaks u 512 start).filter (fun x => decide (x.2.1 < limit))
  let t2 := (ps.find? (fun x => x.1 == u.ev.neg)).map (fun x => x.2.1)
  let tr := (ps.find? (fun x => x.1 != u.ev.neg)).map (fun x => x.2.1)
  let d1 := t2.map (fun t => v * (t - u.ev.t1) / 2 / 1000000)
  let d2 := tr.map (fun t => l - v * (t - u.ev.t1) / 2 / 1000000)
  let gd : Rat := ((s.rd Reg.TWV_GDLY).toNat : Rat) + (u.ev.corr : Rat)
  let stop := min 2048 (((limit + gd) / strobeNs).ceil + 16 - u.ev.n0).toNat
  let flagged := (List.range (stop - start)).any (fun i => nth 0 u.fl (start + i) != 0)
  let status := if d1.isNone ∧ d2.isNone then 1 else if flagged then 3 else if offLine l d1 || offLine l d2 then 2 else 0
  ⟨status, d1, d2, t2.map (fun t => (t - u.ev.t1) / 1000)⟩

/-- The outcome of R206. -/
def locateDouble (r : TwReq) : TwLoc :=
  let v := fpRat r.ev.set.vel
  let l := fpRat r.ev.set.len
  let us := (r.dt : Rat) / 1000
  let d1 := (l + v * us / 1000) / 2
  let far := decide (l / v * 1000 + 1 < (if us < 0 then -us else us))
  let status := if far then 4 else if offLine l (some d1) then 2 else if r.ev.flags % 8 ≠ 0 then 3 else 0
  ⟨status, some d1, some 0, some us⟩

/-- A reported value, free where the procedure finds none (assumption log 2). -/
def State.found (s : State) : Option Rat → Word × State
  | some x => (f32 x, s)
  | none => s.free

/-- The location record is written and TWV_LOC updated; a buffer is freed (R203, R207). -/
def State.locDone (s : State) (r : TwReq) (o : TwLoc) : State :=
  let method := if r.buf.isSome then 1 else 2
  let a := s.found o.d1
  let b := a.2.found o.d2
  let c := b.2.found o.dt
  let rec_ := bytesLE 2 48 ++ bytesLE 1 0x45 ++ bytesLE 1 1 ++ bytesLE 2 r.bay ++ bytesLE 1 method ++ bytesLE 1 o.status
    ++ wordBytes r.ev.evno ++ s.frameBytes ++ wordBytes a.1 ++ wordBytes b.1 ++ wordBytes c.1 ++ wordBytes r.ev.set.vel
    ++ wordBytes r.ev.set.len ++ bytesLE 12 0
  let t := c.2
  let t := { t with tw := { t.tw with
    queue := t.tw.queue.drop 1
    bufs := match r.buf with
      | some i => modAt t.tw.bufs i (fun _ => none)
      | none => t.tw.bufs } }
  let t := (t.wr (Reg.TWV_LOC_D1 r.bay) a.1).wr (Reg.TWV_LOC_D2 r.bay) b.1
  let t := t.wr (Reg.TWV_LOC_STAT r.bay)
    (BitVec.ofNat 32 (r.ev.evno.toNat % 65536 * 65536 + method * 256 + o.status))
  let t := t.twShow
  match s.bayOwner r.bay with
  | some p => t.msqItem p rec_
  | none => t

/-- TW_LOCATION_SLICE: an admitted run performs one slice of the request at the head of the queue (R204). -/
def execTwLocationSlice (s : State) : R :=
  if s.canRun 3 0 = false then .next s
  else
    let t := s.takeRun 3 0
    match t.tw.queue with
    | [] => .next t
    | r :: rest =>
      match r.buf with
      | some i =>
        if r.done + 1 < 4 then .next { t with tw := { t.tw with queue := { r with done := r.done + 1 } :: rest } }
        else match nth none t.tw.bufs i with
          | some u => .next (t.locDone r (t.locateSingle u))
          | none => .next { t with tw := { t.tw with queue := rest } }
      | none => .next (t.locDone r (locateDouble r))

/-! ### Double-ended requests (R206) -/

def dcmdRsv : Word := 0x70FFFFFE#32

/-- The action of a write of TWV_DCMD: each GO is checked at its own boundary. -/
def wrTwDcmd (b : Nat) (p : Port) (v : Word) (s : State) : State :=
  if bit v 0 then (s.setFlag (Reg.TWV_DCMD b) 31 true).placeAll (Reg.TWV_DCMD b) v p else s

/-- TW_DOUBLE_ENDED_GO: a write of TWV_DCMD with GO = 1. -/
def execTwDoubleEndedGo (p : Port) (bay : Fin 32) (v : Word) (s : State) : R :=
  gate s p .engine (.owned (s.bayOwner bay.val)) dcmdRsv (Reg.TWV_DCMD bay.val) (v ||| 1#32) (wrTwDcmd bay.val p)

/-- A double-ended request is judged; an accepted one is queued with tA - tB (R206). -/
def State.twCheck (s : State) (b : Nat) : State :=
  let set := fun (t : State) (c : Nat) => t.setFld (Reg.TWV_DCMD b) 27 24 c
  match (s.twBay b).last with
  | none => set s 1
  | some e =>
    if s.rd (Reg.TWV_DEVNO b) ≠ e.evno then set s 1
    else if bit (s.twBay b).set.cfg 14 = false then set s 2
    else if s.tw.queue.any (fun r => r.bay == b && r.buf.isNone) then set s 3
    else
      let sec : Nat := (s.rd (Reg.TWV_DREM_SECLO b)).toNat + 2 ^ 32 * s.fld (Reg.TWV_DREM_SECHI b) 15 0
      let dt := ((e.sec : Int) - (sec : Int)) * 1000000000 + ((e.nsec : Int) - ((s.rd (Reg.TWV_DREM_NS b)).toNat : Int))
      let t := set s 0
      let t := { t with tw := { t.tw with queue := t.tw.queue ++ [({ bay := b, ev := e, buf := none, dt := dt } : TwReq)] } }
      (t.twShow).queueSlices 1

/-- TW_DOUBLE_ENDED_CHECK: at frame f + 3 the bay's requests are judged, in order (R206). -/
def execTwDoubleEndedCheck (bay : Fin 32) (s : State) : R :=
  let k := Reg.TWV_DCMD bay.val
  let t := s.onDue k (fun s _ => s.twCheck bay.val)
  .next (if (s.due k).isNone then s else t.setFlag k 31 (!(t.waiting k).isEmpty))

/-! ### Settings (R208) -/

/-- The action of a write of a TWV setting register: stored, and in effect from frame f + 3. -/
def wrTwv (k : Nat) (p : Port) (v : Word) (s : State) : State := (s.wr k v).placeEach k v p

/-- TWV_CONFIG_APPLY: settings whose boundary has come take effect (R208). -/
def execTwvConfigApply (s : State) : R :=
  let t := (List.range 256).foldl (fun s l =>
    let u := s.onDue (Reg.TWV_LCFG l) (fun s r => s.modTwLane l (fun x => { x with cfg := r.value }))
    u.onDue (Reg.TWV_LCORR l) (fun s r => s.modTwLane l (fun x => { x with corr := r.value }))) s
  .next ((List.range 32).foldl (fun s b =>
    let m := fun (k : Nat) (f : TwSet → Word → TwSet) (s : State) =>
      s.onDue k (fun s r => s.modTwBay b (fun x => { x with set := f x.set r.value }))
    m (Reg.TWV_BCFG b) (fun x v => { x with cfg := v })
      (m (Reg.TWV_LEN b) (fun x v => { x with len := v })
        (m (Reg.TWV_VEL b) (fun x v => { x with vel := v })
          (m (Reg.TWV_RTHR b) (fun x v => { x with rthr := v }) s)))) t)

end Sys2Proof.Machine
end

