-- ==== Sys2Proof/Machine/FrameData.lean ====
section
/-!
DEFINITION. Sys2Proof/Machine/FrameData.lean: what is formed in a frame from the data of the frame before (R26, R100, R139): rows
STAGE_A_OUTPUT, HARMONIC_ANALYSIS.
-/
namespace Sys2Proof.Machine

/-- Stage A, stage B, measurement, the traveling-wave path and the recorders' thresholds take the frame before (R26). -/
def State.formFrame (s : State) : State :=
  let f := (s.frame + 2 ^ 32 - 1) % 2 ^ 32
  let t := (s.filterFrame f).measureFrame f
  let t := t.twFrame.acqThresholds
  { t with run := { t.run with formed := true } }

/-- The frame before has been formed: at most once in a frame. -/
def State.ensureFormed (s : State) : State := if s.run.formed then s else s.formFrame

/-- STAGE_A_OUTPUT: once in a frame (R26, R100). -/
def execStageAOutput (s : State) : R := .next s.ensureFormed

/-- HARMONIC_ANALYSIS: an admitted run of the bay's job (R154), after the words of the frame before have been formed (R26). A bay with
EN = 0 forms no results (R150). -/
def execHarmonicAnalysis (bay : Fin 48) (s : State) : R :=
  let b := bay.val
  if s.canRun 1 b = false then .next s
  else
    let s := s.ensureFormed
    let t := s.takeRun 1 b
    if bit (s.bay b).cfg 0 = false then .next t else
    let mask := (s.bay b).hmask % 256
    let t := (List.range 8).foldl (fun s k =>
      if natBit mask k then
        let r := s.harmonicRecord b k
        let u := r.1.wr (Reg.MSR_THD b k) r.2.1
        match u.bayOwner b with
        | some p => u.msqItem p r.2.2
        | none => u
      else s) t
    .next (t.wr (Reg.MSR_HFRAME b) (BitVec.ofNat 32 ((s.frame + 2 ^ 32 - 1) % 2 ^ 32)))


end Sys2Proof.Machine
end

