-- ==== Sys2Proof/Machine/Zones.lean ====
section
/-!
DEFINITION. Sys2Proof/Machine/Zones.lean: busbar zones (R186-R188, R192): row ZONE_RUN.
-/
namespace Sys2Proof.Machine

def State.zone (s : State) (z : Nat) : ZoneSt := nth {} s.pel.zones z
def State.modZone (s : State) (z : Nat) (f : ZoneSt → ZoneSt) : State :=
  { s with pel := { s.pel with zones := modAt s.pel.zones z f } }
def State.zpart (s : State) (z : Nat) : Nat := s.fld (Reg.PEL_ZCFG z) 29 28
def State.zsetW (s : State) (z k : Nat) : Word := nth 0#32 (s.zone z).words k

/-- A used slot (R186): its number, bit indices, bay and polarity. -/
structure Slot where
  n : Nat
  closed : Nat
  opened : Nat
  bay : Nat
  neg : Bool
deriving DecidableEq, Repr

/-- The used slots of a zone. -/
def State.slots (s : State) (z : Nat) : List Slot :=
  (List.range 48).filterMap (fun n =>
    let a := s.zsetW z (8 + 2 * n)
    let b := s.zsetW z (9 + 2 * n)
    if bit a 31 then some ⟨n, field a 15 0, field b 31 16, field b 5 0, bit a 30⟩ else none)

/-- Whether a slot of a discriminating zone is assigned, and whether its isolator bits disagree (R187). -/
def State.slotState (s : State) (z : Nat) (x : Slot) : Bool × Bool :=
  let on := s.schemeBit (some (s.zpart z))
  if s.zcheck z ∨ x.closed = 0xFFFF then (true, false)
  else if x.opened = 0xFFFF then (on x.closed, false)
  else if on x.closed = on x.opened then (true, true)
  else (on x.closed, false)

/-- The bays assigned to a zone with their polarities. -/
def State.assigned (s : State) (z : Nat) : List (Nat × Bool) :=
  (s.slots z).filterMap (fun x => if (s.slotState z x).1 then some (x.bay, x.neg) else none)

/-- Whether two zones share an assigned bay. -/
def State.shareBay (s : State) (z y : Nat) : Bool :=
  (s.assigned z).any (fun e => (s.assigned y).any (fun g => g.1 == e.1))

/-- The discriminating zones. -/
def State.discZones (s : State) : List Nat := (List.range 8).filter (fun z => s.zdef z && !s.zcheck z)

/-- One step of the merging: the zones that share a bay with one of the set (R187). -/
def State.mergeStep (s : State) (set : List Nat) : List Nat :=
  s.discZones.filter (fun z => set.contains z || set.any (fun y => s.shareBay z y))

/-- The merged set of a zone, transitively; eight zones need at most seven steps (R187). -/
def State.mergedSet (s : State) (z : Nat) : List Nat :=
  if s.zcheck z then [z] else (List.range 7).foldl (fun set _ => s.mergeStep set) [z]

/-- The bays over which a zone is evaluated, each once, at the polarity of the lowest-indexed zone's slot (R187). -/
def State.zoneBays (s : State) (z : Nat) : List (Nat × Bool) :=
  ((s.mergedSet z).flatMap s.assigned).foldl (fun a e => if a.any (fun g => g.1 == e.1) then a else a ++ [e]) []

/-- i_d and i_r of a phase (R188). -/
def State.zoneSums (s : State) (bays : List (Nat × Bool)) (ph : Nat) : List Inp × Rat × Rat :=
  let xs := bays.map (fun e => (s.roleWin e.1 ph 1, e.2))
  let v := fun (x : (List Inp × List Qty) × Bool) => (nth {} x.1.2 0).v
  (xs.flatMap (fun x => x.1.1), absRat (xs.foldl (fun a x => a + (if x.2 then -v x else v x)) 0),
    xs.foldl (fun a x => a + absRat (v x)) 0)

/-- One phase: C's history with this frame's C, and OP_x (R188). The check zone gates the setting of OP_x only, which then stays as long
as C held in one of the newest Q frames (assumption log 31). -/
def State.zonePhase (s : State) (z q : Nat) (id ir : Rat) (none' chk prev : Bool) (h : List Bool) : List Bool × Bool × Bool :=
  let idmin := fpRat (s.zsetW z 1)
  let k := fpRat (s.zsetW z 2)
  let c := !none' && decide (2 * idmin * idmin ≤ id * id) && decide (k * ir ≤ id)
  let h := (c :: h).take 128
  let n := ((h.take q).filter id').length
  (h, c, !none' && ((decide ((s.zsetW z 3).toNat ≤ n) && chk) || (prev && decide (0 < n))))
where
  id' (b : Bool) : Bool := b

/-- Normal evaluation of a zone (R187, R188). -/
def State.evalZone (s : State) (z : Nat) (bays : List (Nat × Bool)) (merged : Bool) (sums : List (Rat × Rat)) (x : ZoneSt) :
    ZoneSt × Nat :=
  let first := match s.slots z with
    | [] => 0
    | e :: _ => e.bay
  let q := (nearest (s.cycleLen first / 4)).toNat
  let chkz := (s.zsetW z 4).toNat
  let chk := fun (ph : Nat) =>
    if s.zcheck z ∨ chkz = 0xFFFF then true else bit (s.status (1024 + chkz)) (6 + ph)
  let ph := fun (n : Nat) (h : List Bool) =>
    let e := nth (0, 0) sums n
    s.zonePhase z q e.1 e.2 bays.isEmpty (chk n) (bit x.status (6 + n)) h
  let a := ph 0 x.ca
  let b := ph 1 x.cb
  let c := ph 2 x.cc
  let disc := (List.range 48).map (fun n => match (s.slots z).find? (fun e => e.n == n) with
    | some e => timerCount (s.slotState z e).2 (nth 0 x.disc n)
    | none => 0)
  let n := framesOf (s.zsetW z 5)
  let alm := disc.any (fun k => decide (0 < k) && decide (n ≤ k)) || (bit x.status 20 && disc.any (fun k => decide (0 < k)))
  ({ x with ca := a.1, cb := b.1, cc := c.1, disc := disc },
    strOp [(0, a.2.1), (1, b.2.1), (2, c.2.1)] [(0, a.2.2), (1, b.2.2), (2, c.2.2)] + bitsAt [(20, alm), (21, merged)])

/-- What the timers and windows of a zone reset to. -/
def ZoneSt.clear (x : ZoneSt) : ZoneSt := { x with ca := [], cb := [], cc := [], disc := [] }

/-- A zone in the present frame (R166-R168, R187, R188). The highest i_d and its i_r are those of every frame (R192).
A discrepancy counts by the timer the row carries on (assumption log 31). -/
def State.runZone (s : State) (z : Nat) (poison : Bool) : State :=
  let x := s.zone z
  let old := x.status
  let bays := s.zoneBays z
  let merged := decide (1 < (s.mergedSet z).length)
  let all := [0, 1, 2].map (s.zoneSums bays)
  let ins := all.flatMap Prod.fst
  let sums := all.map Prod.snd
  let top := sums.foldl (fun m e => if m.1 < e.1 then e else m) (nth (0, 0) sums 0)
  let nodata := ins.any (fun e => e.absent || (natBit e.fl 0 && natBit e.fl 2))
  let frozen := ins.any (fun e => natBit e.fl 0)
  let q := 2 ^ 25 * b2n (ins.any (fun e => natBit e.fl 2)) + 2 ^ 26 * b2n (ins.any (fun e => natBit e.fl 3))
  let r : ZoneSt × Nat :=
    if poison then (x.clear, 2 ^ 23 + 2 ^ 27)
    else if s.schemeBit (some (s.zpart z)) (field (s.zsetW z 0) 15 0) then (x.clear, 2 ^ 23)
    else if nodata then (x.clear, 2 ^ 28)
    else if frozen then (x, old.toNat % 2 ^ 23 + 2 ^ 24)
    else s.evalZone z bays merged sums x
  let w := BitVec.ofNat 32 (r.2 + q)
  let t := s.modZone z (fun _ => { r.1 with status := w, pois := poison, id := f32 top.1, ir := f32 top.2
                                            bays := bays.foldl (fun a e => natSetBit a e.1 true) 0 })
  let disc := r.1.disc.any (fun k => decide (0 < k))
  let t := if disc then t.satFld (Reg.PEL_ZCNT z) 15 0 1 else t
  let t := if bit w 5 && !bit old 5 then (t.satFld (Reg.PEL_ZCNT z) 31 16 1).setFlag (Reg.PEL_ZFLAG z) 0 true else t
  let t := if bit w 20 && !bit old 20 then t.setFlag (Reg.PEL_ZFLAG z) 1 true else t
  let o := some (s.zpart z)
  let t := if bit w 5 != bit old 5 then t.elementRecord 0x10 2 z o w else t
  let first := poison && !x.pois
  let t := if poison then t.poisonSeen z true first else t
  if first then (t.setFlag (Reg.PEL_ZFLAG z) 2 true).elementRecord 0x11 2 z o w else t

/-- ZONE_RUN: at its turn in a frame in which the triad runs a plan (R160); its results pass the voters (R217). -/
def execZoneRun (z : Fin 8) (reads : JobReads) (v : Voting) (s : State) : R :=
  if s.zdef z.val = false ∨ s.jobTurn (1024 + z.val) = false then .next s
  else
    let a := s.agreed (fun m => decide (s.jobPoison reads m ≠ .clean)) v
    .next (((s.noteJob reads).ranJob (1024 + z.val)).voted a.2 1 (fun w => w.runZone z.val a.1))

end Sys2Proof.Machine
end

