-- ==== Sys2Proof/Machine/PelSet.lean ====
section
/-!
DEFINITION. Sys2Proof/Machine/PelSet.lean: setting windows, commits and element control (R167, R171, R172, R191-R194): rows
PEL_SIDX_WRITE, PEL_SDATA_WRITE, SETTING_COMMIT, SETTING_COMMIT_CHECK, SETTINGS_APPLY, PEL_HOST_BLOCK, PEL_INSTANCE_RESET.
-/
namespace Sys2Proof.Machine

/-! ### Ranges of setting words (R171, R173-R190) -/

/-- What a setting word may hold: a number in a range, any number, an unsigned range, a bit index, an RDIR instance, an
overcurrent instance, a PTRC source, an output mask, a check zone; undefined words hold 0. -/
inductive WordKind where
  | num (lo hi : Word)
  | any
  | uint (lo hi : Nat)
  | bitIx
  | rdir
  | linked
  | source
  | mask
  | checkZone
  | user (even : Bool)
  | zero
deriving DecidableEq, Repr

/-- A bound n/d as binary32. -/
def fb (n : Int) (d : Nat) : Word := fpOfRatio n d
/-- A range of n/d to n'/d. -/
def rg (lo hi : Int) (d : Nat) : WordKind := .num (fb lo d) (fb hi d)
/-- pi, pi/2 and pi/6 as binary32. -/
def fPi : Word := 0x40490FDB#32
def fPi2 : Word := 0x3FC90FDB#32
def fPi6 : Word := 0x3F060A92#32

/-- Words 1 to 10 of PTOC (R174). -/
def ocKinds (top : Nat) : List WordKind :=
  [rg 1 10000000 100, .uint 0 top, rg 1 1500 100, rg 0 300 1, rg 0 10 1, .uint 0 2, rg 0 60 1, rg 1 20 100, .rdir, .uint 0 2]

def voltKinds : List WordKind := [rg 1 500000 1, .uint 0 1, rg 0 300 1, rg 1 20 100, rg 0 500000 1]

/-- Words 1 and on of a class with its options. -/
def classKinds (cls opt : Nat) : List WordKind :=
  match cls with
  | 1 => [rg 1 10000000 100, .uint 1 8, rg 0 60 1, rg 1 20 100]
  | 2 => if natBit opt 3 then ocKinds 8 ++ List.replicate 5 .zero
      ++ (List.range 32).flatMap (fun _ => [.user true, .user false])
    else ocKinds 7
  | 3 => ocKinds 7
  | 4 => [.num (fpNeg fPi) fPi, .num fPi6 fPi2, rg 1 1000000 100, rg 1 1000000 10, rg 0 1 1]
  | 5 => [rg 1 50000 100, rg 0 2 1, rg 1 1000000 100, rg 1 100 100, rg 1 100 100, rg 2 20 100]
  | 6 | 7 => voltKinds
  | 8 | 9 => [rg 40 70 1, rg 0 300 1, rg 0 500000 1, rg 1 100 100]
  | 10 => [rg 5 2000 100, rg 0 300 1, rg 0 500000 1, rg 1 200 100]
  | 11 => [rg 1 1000000 10, rg 10 15 10, rg 1 36000 1, rg 1 108000 1, rg 5 15 10, rg 5 20 10, .any, rg 0 2 1]
  | 12 => [.bitIx, rg 1 10000000 100, rg 0 1 1, rg 2 100 100, .uint 0 1, .bitIx]
  | 13 => [.uint 0 5, rg 0 100000 1, rg 1 2000 1000, .num (fb 1 100) fPi2, rg 0 5 10, rg 0 10 1, .any, .any, .uint 0 7,
      .num (fpNeg fPi) fPi]
  | 14 => [.bitIx, .any, .any, .any, .any, .any, .any, rg 1 10000 10]
  | 15 => [rg 5 100 100, rg 0 300 1, rg 1 10000000 100, rg 1 20 100]
  | 16 => [.any, rg 0 36000 1, rg 0 3600 1, rg 1 10 1] ++ List.replicate 8 .linked
  | 17 => List.replicate 16 .source ++ [.bitIx, rg 0 10 1, .uint 0 1, .bitIx, .mask]
  | _ => []

/-- Words 1 to 7 of a zone; the slot words are structural (R186). -/
def zoneKinds : List WordKind := [rg 1 100000 1, rg 10 90 100, .uint 1 64, .checkZone, rg 0 60 1, .zero, .zero]

/-- A finite number. -/
def isNum (w : Word) : Bool := field w 30 23 != 255

/-- The points before the first M = 0 (R176): M and T of point j at words 16 + 2j and 17 + 2j. -/
def usedPoints (ws : List Word) : List (Word × Word) :=
  ((List.range 32).map (fun j => (nth 0#32 ws (16 + 2 * j), nth 0#32 ws (17 + 2 * j)))).takeWhile (fun p => fpRat p.1 != 0 || !isNum p.1)

/-- The lowest offending word of a user curve (R176). -/
def userBad (ws : List Word) : Option Nat :=
  let ps := usedPoints ws
  let okM := fun (w : Word) => isNum w && fpLe (fb 101 100) w && fpLe w (fb 100 1)
  let okT := fun (w : Word) => isNum w && fpLe (fb 1 1000) w && fpLe w (fb 10000 1)
  let bad := (List.range ps.length).findSome? (fun j =>
    let p := nth (0#32, 0#32) ps j
    let o := nth (0#32, 0#32) ps (j - 1)
    if okM p.1 = false ∨ (0 < j ∧ fpLe p.1 o.1 = true) then some (16 + 2 * j)
    else if okT p.2 = false ∨ (0 < j ∧ fpLt o.2 p.2 = true) then some (17 + 2 * j)
    else none)
  match bad with
  | some k => some k
  | none => if ps.length < 2 then some (16 + 2 * ps.length) else none

/-- Whether instance j is a defined one of a class in a bay. -/
def State.isClass (s : State) (j : Nat) (cls : List Nat) (b : Nat) : Bool :=
  decide (j < 1024) && s.idef j && cls.contains (s.icls j) && s.ibay j == b

/-- Whether a word is as its kind demands, for something of bay b and partition p. -/
def State.kindOk (s : State) (b p : Nat) (w : Word) : WordKind → Bool
  | .num lo hi => isNum w && fpLe lo w && fpLe w hi
  | .any => isNum w
  | .uint lo hi => decide (lo ≤ w.toNat) && decide (w.toNat ≤ hi)
  | .bitIx => decide (w.toNat < 8192) || w.toNat == 0xFFFF
  | .rdir => w.toNat == 0xFFFF || s.isClass w.toNat [4] b
  | .linked => w.toNat == 0xFFFF || s.isClass w.toNat [1, 2, 3] b
  | .source =>
    let ix := field w 15 0
    field w 31 21 == 0 && (ix == 0xFFFF
      || (decide (ix < 1024) && s.idef ix && s.instOwner ix == some p)
      || (decide (0x8000 ≤ ix) && decide (ix < 0x8008) && s.zdef (ix - 0x8000)))
  | .mask => (List.range 32).all (fun n => !bit w n || (s.dout n).owner == some p)
  | .checkZone => w.toNat == 0xFFFF || (decide (w.toNat < 8) && s.zdef w.toNat && s.zcheck w.toNat)
  | .user _ => true
  | .zero => w == 0#32

/-- The lowest word that is not as R171 code 2 demands: words of an instance of a class, options, bay and partition. -/
def State.instBad (s : State) (cls opt b p : Nat) (ws : List Word) : Option Nat :=
  let ks := WordKind.bitIx :: classKinds cls opt
  let bad := (List.range 128).filter (fun k => !s.kindOk b p (nth 0#32 ws k) (nth .zero ks k))
  let bad := if cls = 2 ∧ natBit opt 3 then bad ++ (userBad ws).toList else bad
  let bad := if cls = 11 ∧ ¬ (fpLe (fb 1 10) (nth 0#32 ws 7) = true
      ∧ fpLe (nth 0#32 ws 7) (fpSub (nth 0#32 ws 6) (fb 5 100)) = true) then bad ++ [7] else bad
  match bad with
  | [] => none
  | k :: rest => some (rest.foldl min k)

/-- The lowest word of a zone that is not as R171 code 2 demands. A check zone needs no check zone. -/
def State.zoneBad (s : State) (check : Bool) (p : Nat) (ws : List Word) : Option Nat :=
  let ks := WordKind.bitIx :: zoneKinds
  ((List.range 8).find? (fun k => !((check && k == 4 && nth 0#32 ws 4 == 0#32)
    || s.kindOk 0 p (nth 0#32 ws k) (nth .zero ks k)))).orElse
    (fun _ => ((List.range 24).map (fun k => 104 + k)).find? (fun k => nth 0#32 ws k != 0#32))

/-! ### The window (R171, R193) -/

def State.win (s : State) (p : Port) : WinSt := nth {} s.pel.wins (portCode p)
def State.modWin (s : State) (p : Port) (f : WinSt → WinSt) : State :=
  { s with pel := { s.pel with wins := modAt s.pel.wins (portCode p) f } }

/-- A register of a port's own window. -/
def winKey (p : Port) (k : Nat) : Nat := portKey (portCode p) k

/-- Whether an index names a defined instance or zone. -/
def State.targetDef (s : State) (i : Nat) : Bool := if i < 1024 then s.idef i else decide (i < 1032) && s.zdef (i - 1024)

/-- The owner of a defined instance or zone (R371). -/
def State.settingOwner (s : State) (i : Nat) : Option Nat :=
  let now := if s.targetDef i then s.instOwner i else none
  if i < 1024 then now else s.heldOwner (i - 1024) now

/-- The settings in force of an instance or zone. -/
def State.targetWords (s : State) (i : Nat) : List Word := if i < 1024 then (s.elem i).words else (s.zone (i - 1024)).words

/-- What a window loads: nothing but zeros of what the port may not read (R19). -/
def State.loadable (s : State) (p : Port) (i : Nat) : List Word :=
  if s.targetDef i && decide (1 ≤ s.right p (.owned (s.settingOwner i))) then
    (s.targetWords i ++ List.replicate 128 0#32).take 128
  else List.replicate 128 0#32

def sidxRsv : Word := 0xF800FF80#32

/-- The action of a write of PEL_SIDX (R171 step 1). -/
def wrSidx (p : Port) (v : Word) (s : State) : State :=
  let k := winKey p Reg.PEL_SIDX
  let changes := field v 26 16 != s.fld k 26 16
  let t := s.wr k v
  if changes || !(s.win p).loaded then
    (t.modWin p (fun w => { w with loaded := true, shadow := s.loadable p (field v 26 16) })).freshWin (winSet (portCode p)) 128
  else t

/-- PEL_SIDX_WRITE. -/
def execPelSidxWrite (p : Port) (v : Word) (s : State) : R :=
  gate s p .engine .own sidxRsv Reg.PEL_SIDX v (wrSidx p)

/-- PEL_SDATA as a port reads it. -/
def State.sdata (s : State) (p : Port) : Word :=
  let w := s.win p
  if w.loaded then nth 0#32 w.shadow (s.fld (winKey p Reg.PEL_SIDX) 6 0) else 0#32

/-- The action of a write of PEL_SDATA (R171 step 2). -/
def wrSdata (p : Port) (v : Word) (s : State) : State :=
  let n := s.fld (winKey p Reg.PEL_SIDX) 6 0
  if (s.win p).loaded then
    (s.modWin p (fun w => { w with shadow := modAt w.shadow n (fun _ => v) })).freshWin (winSet (portCode p) + n) 1
  else s

/-- PEL_SDATA_WRITE. -/
def execPelSdataWrite (p : Port) (v : Word) (s : State) : R := gate s p .engine .own 0#32 Reg.PEL_SDATA v (wrSdata p)

/-- PEL_SSTAT.PENDING of every window: an accepted commit of it awaits its boundary. -/
def State.showPending (s : State) : State :=
  let ports := s.pel.insts.filterMap (fun e => e.commit.map (fun c => portCode c.2.2))
    ++ s.pel.zones.filterMap (fun e => e.commit.map (fun c => portCode c.2.2))
  (List.range 5).foldl (fun s n => s.setFlag (portKey n Reg.PEL_SSTAT) 31 (ports.contains n)) s

/-- The action of a write of PEL_SCOMMIT (R171 step 3). -/
def wrScommit (p : Port) (v : Word) (s : State) : State :=
  if bit v 0 && (s.win p).loaded then
    let ws := s.takeWin (winSet (portCode p)) (s.win p).shadow
    (ws.1.modWin p (fun w => { w with
      subs := w.subs ++ [((s.frame + 3) % 2 ^ 32, s.fld (winKey p Reg.PEL_SIDX) 26 16, ws.2)] })).setFlag
      (winKey p Reg.PEL_SSTAT) 30 true
  else s

/-- SETTING_COMMIT: a write of PEL_SCOMMIT with GO = 1. -/
def execSettingCommit (p : Port) (v : Word) (s : State) : R :=
  gate s p .engine .own 0xFFFFFFFE#32 Reg.PEL_SCOMMIT (v ||| 1#32) (wrScommit p)

/-- The code of a commit and its offending word (R171 step 3). -/
def State.commitCode (s : State) (p : Port) (i : Nat) (ws : List Word) : Nat × Nat :=
  if s.targetDef i = false then (4, 0)
  else if s.right p (.owned (s.settingOwner i)) ≠ 2 then (1, 0)
  else
    let own := (s.settingOwner i).getD 0
    if i < 1024 then
      match s.instBad (s.icls i) (s.iopt i) (s.ibay i) own ws with
      | some k => (2, k)
      | none => (0, 0)
    else
      let z := i - 1024
      match ((List.range 96).map (fun k => 8 + k)).find? (fun k => nth 0#32 ws k != s.zsetW z k) with
      | some k => (3, k)
      | none => match s.zoneBad (s.zcheck z) own ws with
        | some k => (2, k)
        | none => (0, 0)

/-- SETTING_COMMIT_CHECK: the oldest commit of a window whose frame has come is checked; an accepted one waits for the
hyperperiod boundary at least 3 frames after its write and replaces an earlier one (R171 steps 3 to 5). -/
def execSettingCommitCheck (p : Port) (s : State) : R :=
  match (s.win p).subs with
  | [] => .next s
  | (due, i, ws) :: rest =>
    if frameReached s.frame due = false then .next s
    else
      let c := s.commitCode p i ws
      let k := winKey p Reg.PEL_SSTAT
      let t := s.modWin p (fun w => { w with subs := rest })
      let t := ((t.setFlag k 30 (!rest.isEmpty)).setFld k 3 0 c.1).setFld k 23 16 c.2
      if c.1 ≠ 0 then .next t
      else
        let at' := (due + 255) / 256 * 256 % 2 ^ 32
        let t := if i < 1024 then t.modElem i (fun e => { e with commit := some (at', ws, p) })
          else t.modZone (i - 1024) (fun e => { e with commit := some (at', ws, p) })
        .next t.showPending

/-- SETTINGS_APPLY: at a hyperperiod boundary every commit that waited for it applies; timers, integrators, latches and
status carry over (R171 step 4, R172). -/
def execSettingsApply (s : State) : R :=
  let f := s.frame
  let ins := s.pel.insts.map (fun e => match e.commit with
    | some (d, ws, _) => if frameReached f d then { e with words := ws, commit := none } else e
    | none => e)
  let zs := s.pel.zones.map (fun e => match e.commit with
    | some (d, ws, _) => if frameReached f d then { e with words := ws, commit := none } else e
    | none => e)
  .next ({ s with pel := { s.pel with insts := ins, zones := zs } }).showPending

/-! ### Host block and reset (R167, R191) -/

def ictrlRsv : Word := 0xFFFFFFFC#32

/-- The action of a write of PEL_ICTRL: HBLK is stored; both reach the image of frame f + 3 (R213); the window of an instance that is
not defined holds nothing (R191). -/
def wrIctrl (i : Nat) (v : Word) (s : State) : State :=
  if s.idef i = false then s
  else
  let t := s.setFlag (Reg.PEL_ICTRL i) 0 (bit v 0)
  { t with pel := { t.pel with ctrl := t.pel.ctrl ++ [((s.frame + 3) % 2 ^ 32, i, v)] } }

/-- PEL_HOST_BLOCK: a write of PEL_ICTRL. -/
def execPelHostBlock (p : Port) (i : Fin 1024) (v : Word) (s : State) : R :=
  gate s p .engine (.owned (s.settingOwner i.val)) ictrlRsv (Reg.PEL_ICTRL i.val) v (wrIctrl i.val)

/-- PEL_INSTANCE_RESET: a write of PEL_ICTRL with RESET = 1. -/
def execPelInstanceReset (p : Port) (i : Fin 1024) (v : Word) (s : State) : R :=
  gate s p .engine (.owned (s.settingOwner i.val)) ictrlRsv (Reg.PEL_ICTRL i.val) (v ||| 2#32) (wrIctrl i.val)

/-- The host-block and host-reset sections of the image that closes for frame f (R213): what reached PEL three frames
before; RESET stands in this one image only. -/
def State.imageControls (s : State) (f : Nat) (im : List (Nat × Word)) : List (Nat × Word) :=
  let due := s.pel.ctrl.filter (fun e => frameReached f e.1)
  let im := (List.range 32).foldl (fun m k => imgPut m (7992 + k) [0#32]) im
  due.foldl (fun m e =>
    let put := fun (m : List (Nat × Word)) (k : Nat) (b : Bool) =>
      imgPut m k [Sys2Proof.setBit (sget (fun _ => 0#32) m k) (e.2.1 % 32) b]
    let m := put m (7960 + e.2.1 / 32) (bit e.2.2 0)
    if bit e.2.2 1 then put m (7992 + e.2.1 / 32) true else m) im

/-- Those writes leave their queue. -/
def State.dropControls (s : State) (f : Nat) : State :=
  { s with pel := { s.pel with ctrl := s.pel.ctrl.filter (fun e => !frameReached f e.1) } }

/-- Status words of the frame that ended show in their registers, with a zone's bays and currents (R191, R192). -/
def State.showStatuses (s : State) : State :=
  let t := ((s.pel.insts).zipIdx).foldl (fun s e => s.wr (Reg.PEL_ISTAT e.2) e.1.status) s
  ((t.pel.zones).zipIdx).foldl (fun s e =>
    let z := e.2
    ((((s.wr (Reg.PEL_ZSTAT z) e.1.status).wr (Reg.PEL_ZMEM_LO z) (BitVec.ofNat 32 e.1.bays)).wr (Reg.PEL_ZMEM_HI z)
      (BitVec.ofNat 32 (e.1.bays / 2 ^ 32))).wr (Reg.PEL_ZID z) e.1.id).wr (Reg.PEL_ZIR z) e.1.ir) t

/-- PEL_IVAL of every PTTR reads theta (R182). -/
def State.showThetas (s : State) : State :=
  (s.pel.insts.zipIdx).foldl (fun s e => if s.icls e.2 = 11 then s.wr (Reg.PEL_IVAL e.2) (f32 e.1.theta) else s) s

/-- The initial element state of a triad restart: settings and commits stay, PTTR starts at THETA0 (R67, R182). -/
def State.initElements (s : State) : State :=
  let ins := ((s.pel.insts).zipIdx).map (fun e => { ({} : ElemSt) with
    words := e.1.words, commit := e.1.commit, theta := if s.icls e.2 = 11 then s.setR e.2 8 else 0 })
  let zs := s.pel.zones.map (fun z => { ({} : ZoneSt) with words := z.words, commit := z.commit })
  ({ s with pel := { s.pel with insts := ins, zones := zs } }).showThetas

end Sys2Proof.Machine
end

