-- ==== Sys2Proof/Machine/Sniff.lean ====
section
/-!
DEFINITION. Sys2Proof/Machine/Sniff.lean: the environment survey (R126-R135, R137): rows SURVEY_COMMAND to SURVEY_END.
-/
namespace Sys2Proof.Machine

/-- The survey's state changes. -/
def State.modSniff (s : State) (f : SniffSt → SniffSt) : State := { s with sniff := f s.sniff }

/-- Whether a survey runs (SNF_CMD.BUSY). -/
def State.surveyRuns (s : State) : Bool := s.flag Reg.SNF_CMD 30

/-- A word of the survey record (R135). -/
def recKey (off : Nat) : Nat := Reg.SNF_REC 0 + off / 4 * 4

/-- A word of the survey record is written, in its register and its word of the window SRAM (R135, R396). -/
def State.putRec (s : State) (key : Nat) (v : Word) : State := (s.wr key v).freshWin (winRec + (key - Reg.SNF_REC 0) / 4 % 436) 1

/-- The order of the items (R127). -/
def itemOrder : List Nat := [4, 0, 3, 2, 1, 5]

/-- Frames an item lasts (R127); the cable item ends with its last bay. -/
def itemFrames : Nat → Nat
  | 4 => 1
  | 0 => 256
  | 3 => 16
  | 2 => 8
  | 5 => 4096
  | _ => 0

/-! ### Cable item -/

/-- Lanes of a bay that the cable item measures: TYPE not 0 and pack ON (R129). -/
def State.cableLanes (s : State) (b : Nat) : List Nat :=
  ((List.range 8).map (fun k => 8 * b + k)).filter (fun l => s.typ l != 0 && s.packOn l)

/-- A word of the running item's section: the section is written when the item completes (R135). -/
def State.note (s : State) (key : Nat) (w : Word) : State := s.modSniff (fun x => { x with found := x.found ++ [(key, w)] })

/-- A lane's entry in the record (R135). With status 3 the manual names neither C nor length: both are 0 (DESIGN CHOICE, assumption
log 61). -/
def State.putCable (s : State) (l : Nat) (st len c : Nat) : State :=
  s.note (recKey (128 + 4 * l)) (BitVec.ofNat 32 (st * 2 ^ 30 + len % 2 ^ 14 * 65536 + c % 65536))

/-- Sniff leaves the lanes of its step; without the link the field die keeps the injection it has (R94). -/
def State.endSniff (s : State) (ls : List Nat) : State :=
  if s.linkUp && s.link.field.up then ls.foldl (fun s l => s.sniffLeaves l) s else s

/-- The next bay of the item: one sniff step (R127, R129). -/
def State.nextBay (s : State) : State :=
  match s.sniff.cable with
  | [] => s.modSniff (fun x => { x with bay := none, stepAt := none, lanes := [], left := 0 })
  | b :: rest =>
    (s.modSniff (fun x => { x with
      cable := rest, bay := some b, wait := 0, stepAt := none, lanes := s.cableLanes b, left := 1 })).queueRun 6

/-- A lane whose pack leaves ON during its step gets status 3 (R129). -/
def State.cableLoses (s : State) (l : Nat) : State :=
  if s.sniff.lanes.contains l then
    ((s.putCable l 3 0 0).sniffLeaves l).modSniff (fun x => { x with lanes := x.lanes.filter (· != l) })
  else s

/-- The mode stops the cable item: its lanes and those of every later bay get status 3, and the item is over (R65, R129). -/
def State.cableCut (s : State) : State :=
  if s.surveyRuns && s.sniff.items.head? == some 1 then
    let ls := s.sniff.lanes ++ s.sniff.cable.flatMap s.cableLanes
    (ls.foldl (fun s l => s.putCable l 3 0 0) s).modSniff (fun x => { x with
      cable := [], bay := none, stepAt := none, lanes := [], left := 0, cut := true })
  else s

/-- Host injection 1 or 2 applied to a lane of the step (R129, R94). -/
def State.hostInjects (s : State) (l : Nat) : Bool := s.injection l == 1 || s.injection l == 2

/-- Whether the step at hand waits for host injection to end. -/
def State.cableWaits (s : State) : Bool :=
  s.sniff.bay.isSome && s.sniff.stepAt.isNone && s.sniff.lanes.any s.hostInjects

/-! ### Process-bus partners -/

/-- A Pdelay_Req of port p (R134, R327); its layout is IEEE 1588-2019's (assumption log 32). -/
def State.pdelayReq (s : State) (p seq : Nat) : List Byte :=
  [0x01#8, 0x80#8, 0xC2#8, 0x00#8, 0x00#8, 0x0E#8] ++ s.macOf p ++ bytesBE 2 etPTP ++ [0x02#8, 0x12#8] ++ bytesBE 2 54
    ++ bytesLE 16 0 ++ s.macOf p ++ bytesLE 2 0 ++ bytesBE 2 (0xFF00 + p) ++ bytesBE 2 seq ++ [0x05#8, 0x7F#8]
    ++ bytesLE 20 0

/-- The port's entry of the survey changes. -/
def State.modPd (s : State) (p : Nat) (f : PdelaySt → PdelaySt) : State :=
  s.modSniff (fun x => { x with ports := modAt x.ports p f })

/-- Send the next request of port p, with its egress stamp t1 (R134, R324). -/
def State.pdelaySend (s : State) (p : Nat) : State :=
  let n := (nth {} s.sniff.ports p).left
  let t1 : Int := (s.fullNs : Int) + (s.rd (Reg.TIM_PTXLAT p)).toNat
  (s.sendEth p 2 (s.pdelayReq p (3 - n))).modPd p (fun x => { x with
    left := n - 1, waiting := true, t1 := t1, resp := none, sent := s.frame })

/-! ### Items -/

/-- The item at the head begins. The process-bus item sends the first request of every port at once (R134); its sniff steps, one a
port, are taken beside the exchanges (R127; assumption log 51). -/
def State.startItem (s : State) : State :=
  let t := s.modSniff (fun x => { x with frames := 0, left := 0, vals := [], found := [], testOn := 0#32 })
  match s.sniff.items with
  | [] => t.modSniff (fun x => { x with closing := true })
  | 0 :: _ => t.modSniff (fun x => { x with sums := List.replicate 32 0, counted := 0 })
  | 1 :: _ =>
    let bays := (List.range 32).filter (fun b => bit s.sniff.bays b && !(s.cableLanes b).isEmpty)
    (t.modSniff (fun x => { x with cable := bays })).nextBay
  | 2 :: _ =>
    let on := (List.range 32).foldl (fun w n => setBit w n (s.dout n).cmd) 0#32
    t.modSniff (fun x => { x with onSeen := on, testOn := x.doMask &&& ~~~on })
  | 3 :: _ =>
    let seen := (List.range 64).foldl (fun w n => natSetBit w n (s.flag (Reg.FIO_DISTAT n) 0)) 0
    t.modSniff (fun x => { x with diSeen := seen })
  | 5 :: _ =>
    let ports := (List.range 4).map (fun p =>
      ({ linked := s.flag (Reg.PBX_PSTAT p) 31, done := !s.flag (Reg.PBX_PSTAT p) 31 } : PdelaySt))
    let u := t.modSniff (fun x => { x with ports := ports, svCount := List.replicate 16 0, svPort := List.replicate 16 0, left := 4 })
    let u := (List.range 4).foldl (fun s p =>
      if (nth {} ports p).linked then (s.modPd p (fun x => { x with left := 3 })).pdelaySend p else s) u
    (((u.queueRun 6).queueRun 6).queueRun 6).queueRun 6
  | _ :: _ => (t.modSniff (fun x => { x with left := 1 })).queueRun 6

/-- The item at the head is over: DONE where its section is complete, and the next item begins (R127, R135). -/
def State.endItem (s : State) (i : Nat) (complete : Bool) : State :=
  let t := if complete then
      let d := s.fld Reg.SNF_STAT 21 16 ||| 2 ^ i
      let u := s.sniff.found.foldl (fun s e => s.putRec e.1 e.2) s
      (u.setFld Reg.SNF_STAT 21 16 d).setFld (recKey 4) 15 8 d
    else s
  (t.modSniff (fun x => { x with items := x.items.drop 1 })).startItem

/-! ### Commands -/

/-- rsv bits of SNF_CMD. -/
def snfCmdRsv : Word := 0x3FFFFFC0#32

/-- The action of a write of SNF_CMD (R126). -/
def wrSnfCmd (p : Port) (v : Word) (s : State) : State :=
  ((s.setFld Reg.SNF_CMD 5 0 (field v 5 0)).setFlag Reg.SNF_CMD 31 true).placeAll Reg.SNF_CMD v p

/-- SURVEY_COMMAND (R126). -/
def execSurveyCommand (p : Port) (v : Word) (s : State) : R :=
  gate s p .engine .global snfCmdRsv Reg.SNF_CMD v (wrSnfCmd p)

/-- Sniff steps that wait are dropped with their survey. -/
def State.dropSteps (s : State) : State :=
  { s with ojobs := s.ojobs.map (fun j => if j.kind = 6 then { j with pend := 0, granted := 0 } else j) }

/-- A running survey is aborted: code 4 or 5; sniff leaves its lanes (R126). -/
def State.surveyAbort (s : State) (code : Nat) : State :=
  if s.surveyRuns && !s.sniff.closing then
    let t := if s.sniff.stepAt.isSome then s.endSniff s.sniff.lanes else s
    (t.dropSteps.setFld Reg.SNF_STAT 31 28 code).modSniff (fun x => { x with
      items := [], cable := [], bay := none, stepAt := none, lanes := [], left := 0, found := [], testOn := 0#32, code := code
      closing := true })
  else s

/-- A survey is accepted (R126, R135, R137). -/
def State.surveyAccept (s : State) (items req : Nat) : State :=
  let noCable := natBit items 1 && !s.permits
  let run := itemOrder.filter (fun i => natBit items i && !(noCable && i == 1))
  let code := if noCable then 3 else 0
  let seq := (s.fld Reg.SNF_STAT 15 0 + 1) % 65536
  let t := s.wr Reg.SNF_STAT (BitVec.ofNat 32 (code * 2 ^ 28 + req * 2 ^ 24 + seq))
  let t := (t.wrList (Reg.SNF_REC 0) (List.replicate 436 0#32)).freshWin winRec 436
  let t := t.wr (recKey 0) (BitVec.ofNat 32 (1744 + 65536 + req * 2 ^ 24))
  let t := t.wr (recKey 4) (BitVec.ofNat 32 items)
  let t := t.wr (recKey 8) (BitVec.ofNat 32 seq)
  let t := t.wr (recKey 12) (s.rd Reg.ENG_FRAME)
  let t := { t.setFlag Reg.SNF_CMD 30 true with sniff :=
    { items := run, req := req, code := code, bays := s.rd Reg.SNF_BAYS, doMask := s.rd Reg.SNF_DOMASK } }
  t.startItem

/-- SURVEY_COMMAND_EFFECT (R126). -/
def execSurveyCommandEffect (s : State) : R :=
  .next (s.onDue Reg.SNF_CMD (fun s r =>
    let t := s.setFlag Reg.SNF_CMD 31 (s.req Reg.SNF_CMD).isSome
    let items := field r.value 5 0
    if s.surveyRuns then (if items = 0 then t.surveyAbort 4 else t.setFld Reg.SNF_STAT 31 28 1)
    else if items = 0 then t
    else if s.planRuns = false then t.setFld Reg.SNF_STAT 31 28 2
    else t.surveyAccept items (portCode r.port)))

/-- The octets of an Ethernet frame from its fields: addresses, tags, type, message, trailer (log 32). -/
def etherOctets (dst src : BitVec 48) (tags : List Byte) (typ : BitVec 16) (msg trailer : List Byte) : List Byte :=
  bytesBE 6 dst.toNat ++ bytesBE 6 src.toNat ++ tags ++ bytesBE 2 typ.toNat ++ msg ++ trailer

/-- PDELAY_RESP_RECEIVE: a response or follow-up for sniff's request (R134, R327). -/
def execPdelayRespReceive (port : Fin 4) (dst src : BitVec 48) (tags : List Byte) (typ : BitVec 16) (msg trailer : List Byte)
    (s : State) : R :=
  let bytes := etherOctets dst src tags typ msg trailer
  .next (if sniffPtp port.val bytes then s.pdelayIn port.val bytes else s)

/-- PDELAY_TIMEOUT: 100 ms (1 600 frames) have passed since the port's last request (R134). -/
def execPdelayTimeout (port : Fin 4) (s : State) : R :=
  let x := nth {} s.sniff.ports port.val
  if s.surveyRuns && s.sniff.items.head? == some 5 && x.linked && !x.done
      && decide (1600 ≤ (s.frame + 2 ^ 32 - x.sent) % 2 ^ 32) then
    .next (if x.left = 0 then s.modPd port.val (fun x => { x with waiting := false, done := true }) else s.pdelaySend port.val)
  else .next s

/-- The section of port p and its streams (R134, R135). -/
def State.putPort (s : State) (p : Nat) : State :=
  let x := nth {} s.sniff.ports p
  let o := 1552 + 32 * p
  let d : Rat := if x.count = 0 then 0 else mkRat x.sum2 (2 * x.count)
  let len : Rat := max 0 (d - ((s.pb p).dfix : Rat)) * fpRat (s.pb p).vel / 100
  let len := if x.count = 0 then 0 else len
  let mask := (List.range 16).foldl (fun a i =>
    if nth 0 s.sniff.svCount i ≠ 0 ∧ nth 0 s.sniff.svPort i = p then a + 2 ^ i else a) 0
  let bytes := bytesLE 1 (b2n x.linked) ++ bytesLE 1 0 ++ (x.mac ++ List.replicate (6 - x.mac.length) 0#8)
    ++ (x.clock ++ List.replicate (8 - x.clock.length) 0#8) ++ bytesLE 4 (toTwos 32 (unitOf d))
    ++ bytesLE 4 (toTwos 32 (unitOf len)) ++ bytesLE 2 mask ++ bytesLE 6 0
  ((wordsOf 8 bytes).zipIdx).foldl (fun s e => s.putRec (recKey (o + 4 * e.2)) e.1) s

/-- The entry of stream i (R134): samples over 0.256 s. -/
def State.putStream (s : State) (i : Nat) : State :=
  let n := nth 0 s.sniff.svCount i
  let rate : Rat := mkRat (n * 1000) 256
  let want : Rat := (s.svRate i : Rat)
  let st := if n = 0 then 0 else if want * 99 / 100 ≤ rate ∧ rate ≤ want * 101 / 100 then 1 else 2
  s.putRec (recKey (1680 + 4 * i)) (BitVec.ofNat 32 ((unitOf rate).toNat % 65536 + 65536 * nth 0 s.sniff.svPort i + st * 2 ^ 24))

/-! ### Steps and ends -/

/-- HOST[h] of the record (R133, R135). -/
def State.putHost (s : State) (h : Nat) : State :=
  let w := s.rd (portKey h Reg.HQ_PSTAT)
  s.note (recKey (1536 + 4 * h)) (BitVec.ofNat 32 (field w 3 0 + 16 * field w 7 4))

/-- SNIFF_MEASUREMENT_STEP: a step of the running item runs as an admitted O job (R46, R127). -/
def execSniffMeasurementStep (d : SniffData) (s : State) : R :=
  if s.surveyRuns = false ∨ s.sniff.left = 0 ∨ s.canRun 6 0 = false then .next s
  else
    let t := (s.takeRun 6 0).modSniff (fun x => { x with left := x.left - 1 })
    match s.sniff.items.head? with
    | some 4 => .next ((List.range 4).foldl (fun s h => s.putHost h) t)
    | some 5 => .next t
    | _ => .next (t.modSniff (fun x => { x with vals := d.vals }))

/-- SUP[c] of the record: the mean code of channel c (R128, R135). -/
def State.putSupply (s : State) : State :=
  let m := fun i => (nearest (mkRat (nth 0 s.sniff.sums i : Nat) s.sniff.counted)).toNat
  (List.range 16).foldl (fun s i => s.putRec (recKey (64 + 4 * i)) (BitVec.ofNat 32 (m (2 * i) + 65536 * m (2 * i + 1)))) s

/-- LOAD[n] of the record (R131, R135): voltage in mV over 2 mA in 0.1 ohm. With status 3 there is no test current and no R is stated:
it is a free value. -/
def State.putLoad (s : State) (n : Nat) : State :=
  if bit s.sniff.doMask n = false then s
  else
    let mv := nth 0 s.sniff.vals n
    let st := if bit s.sniff.onSeen n || s.bankState (n / 8) == 2 || (s.dout n).tsd then 3
      else if 12000 ≤ mv then 2 else 1
    let f := s.free
    if st ≠ 3 then s.putRec (recKey (1152 + 4 * n)) (BitVec.ofNat 32 (st * 2 ^ 30 + 5 * mv % 2 ^ 20))
    else f.2.putRec (recKey (1152 + 4 * n)) (BitVec.ofNat 32 (st * 2 ^ 30 + f.1.toNat % 2 ^ 20))

/-- DI[n] of the record (R132, R135). The manual names no current for an input that is not supervised: 0 (DESIGN CHOICE, assumption
log 61). -/
def State.putDiRec (s : State) (n : Nat) : State :=
  let x := nth {} s.fio.di n
  let c := nth 0 s.sniff.vals n
  let st := if x.supervised = false then 5 else if natBit s.sniff.diSeen n then 4
    else if 2 * c < x.iq then 2 else if 2 * x.iq < c then 3 else 1
  s.putRec (recKey (1280 + 4 * n)) (BitVec.ofNat 32 ((if x.supervised then c % 65536 else 0) + st * 2 ^ 29))

/-- SURVEY_ITEM_END: the item's duration has elapsed and its steps have been taken; its section is written (R127-R135). -/
def execSurveyItemEnd (s : State) : R :=
  match s.sniff.items with
  | [] => .next s
  | i :: _ =>
    if s.surveyRuns = false ∨ s.sniff.left ≠ 0 ∨ s.sniff.frames < itemFrames i then .next s
    else if i = 0 then .next (if s.sniff.counted < 128 then s.endItem 0 false else s.putSupply.endItem 0 true)
    else if i = 1 then .next (if s.sniff.bay.isNone then s.endItem 1 true else s)
    else if i = 2 then .next (((List.range 32).foldl (fun s n => s.putLoad n) s).endItem 2 true)
    else if i = 3 then .next (((List.range 64).foldl (fun s n => s.putDiRec n) s).endItem 3 true)
    else if i = 5 then
      (if s.sniff.ports.all (fun x => x.done) then
        let t := (List.range 4).foldl (fun s p => s.putPort p) s
        .next (((List.range 16).foldl (fun s i => s.putStream i) t).endItem 5 true)
      else .next s)
    else .next (s.endItem i true)

/-- Whether the sniff step of the bay at hand was admitted: to an earlier frame, or to this one (R53, R127). -/
def State.stepAdmitted (s : State) : Bool := s.sniff.left == 0 || s.ojobs.any (fun j => j.kind == 6 && decide (0 < j.granted))

/-- CABLE_STEP_START at the start g of the frame to which the step was admitted, or of a later one: no lane of the step is under host
injection; sniff applies injection 3 and gain x1 (R129, R81; assumption log 51). -/
def execCableStepStart (s : State) : R :=
  if s.surveyRuns && s.sniff.items.head? == some 1 && s.sniff.bay.isSome && s.sniff.stepAt.isNone
      && s.stepAdmitted && !s.sniff.lanes.any s.hostInjects then
    let t := s.sniff.lanes.foldl (fun s l => s.sniffTakes l) s
    .next (t.modSniff (fun x => { x with stepAt := some s.frame }))
  else .next s

/-- CABLE_WAIT_TIMEOUT: after 256 frames of waiting the lanes still held get status 3 (R129). -/
def execCableWaitTimeout (s : State) : R :=
  if s.surveyRuns = true ∧ s.sniff.items.head? = some 1 ∧ s.cableWaits = true ∧ 256 ≤ s.sniff.wait then
    let held := s.sniff.lanes.filter s.hostInjects
    .next ((held.foldl (fun s l => s.putCable l 3 0 0) s).modSniff (fun x => { x with
      lanes := x.lanes.filter (fun l => !held.contains l) }))
  else .next s

/-- A lane's result (R130): m in raw LSB per strobe, C in pF, length in 0.1 m. The rms residual of a fit is taken over its codes of all
frames (DESIGN CHOICE, assumption log 61). What the record's fields cannot show where the status is 2 is a free value. -/
def State.cableResult (s : State) (l : Nat) : State :=
  let x := s.lane l
  let m : Rat := mkRat (x.fitR - x.fitF) (7308 * x.fitN)
  let cin : Rat := mkRat (Config.cin l : Nat) 1000
  let c : Rat := if m = 0 then 0 else mkRat 9765625 1 / (m * mkRat 15259 100) - cin
  let len : Rat := if x.cable = 0 then 0 else c * 100 / (x.cable : Rat)
  let worst := max x.resR x.resF / ((28 * x.fitN : Nat) : Rat)
  let bad := decide (m = 0) || decide (c < 10) || decide ((65535 : Rat) < c) || x.fitOvr
    || decide (mkRat 49 25 * m * m < worst)
  let f := s.free
  let cv := unitOf c
  let lv := unitOf len
  let cf := if m ≠ 0 ∧ 0 ≤ cv ∧ cv < 65536 then cv.toNat else f.1.toNat % 65536
  let lf := if x.cable = 0 then 0
    else if m ≠ 0 ∧ 0 ≤ lv ∧ lv < 16384 then lv.toNat else f.1.toNat / 65536 % 16384
  f.2.putCable l (if bad then 2 else 1) lf cf

/-- CABLE_STEP_END of the bay at hand: 16 frames have passed; results, and injection 3 ends (R129, R130). -/
def execCableStepEnd (bay : Fin 32) (s : State) : R :=
  match s.sniff.stepAt with
  | none => .next s
  | some g =>
    if s.surveyRuns = true ∧ s.sniff.bay = some bay.val ∧ 16 ≤ (s.frame + 2 ^ 32 - g) % 2 ^ 32 then
      let t := s.sniff.lanes.foldl (fun s l =>
        let u := if s.packOn l then s.cableResult l else s.putCable l 3 0 0
        u.sniffLeaves l) s
      .next t.nextBay
    else .next s

/-- SURVEY_END: the final step writes CODE and FRAME_END; a survey record; vector 12 (R126, R135, R385). It takes no run of the O tier
(assumption log 51). -/
def execSurveyEnd (s : State) : R :=
  if s.surveyRuns = true ∧ s.sniff.closing = true then
    let code := s.sniff.code
    let t := s.putRec (recKey 16) (s.rd Reg.ENG_FRAME)
    let t := t.putRec (recKey 20) (BitVec.ofNat 32 s.time.tbNs)
    let t := t.putRec (recKey 24) (BitVec.ofNat 32 s.sniff.waited)
    let t := t.setFld (recKey 4) 23 16 code
    let t := (t.setFld Reg.SNF_STAT 31 28 code).setFlag Reg.SNF_CMD 30 false
    let t := t.modSniff (fun x => { x with closing := false })
    .next ((t.post 0x0C (srcOf 0 0) (bytesLE 1 code ++ bytesLE 1 (s.fld Reg.SNF_STAT 21 16)
      ++ bytesLE 2 (s.fld Reg.SNF_STAT 15 0) ++ s.frameBytes) everyLog false).causeAll 12)
  else .next s

/-- What a frame boundary does to a running survey: frames of the item and of waits are counted, the step of an item of fixed length is
queued for its last frame, so that a deferred step lengthens the item (R59, R127), and the samples of streams in the first 4 096 frames of
the process-bus item are counted (R129, R134). -/
def State.sniffFrame (s : State) : State :=
  if s.surveyRuns then
    let i := s.sniff.items.head?
    let w := b2n (s.cableWaits && s.sniff.left == 0)
    let sv := i == some 5 && decide (s.sniff.frames < 4096)
    let last := (i == some 0 || i == some 2 || i == some 3) && s.sniff.frames + 2 == itemFrames (i.getD 0)
    let t := s.modSniff (fun x => { x with
      frames := x.frames + 1, wait := x.wait + w, waited := x.waited + w, left := if last then 1 else x.left
      svCount := if sv then (x.svCount.zipIdx).map (fun e => e.1 + (s.str e.2).count) else x.svCount
      svPort := if sv then (x.svPort.zipIdx).map (fun e => if (s.str e.2).count = 0 then e.1 else (s.str e.2).port)
        else x.svPort })
    if last then t.queueRun 6 else t
  else s

end Sys2Proof.Machine
end

