-- ==== Sys2Proof/Machine/Modes.lean ====
section
/-!
DEFINITION. Sys2Proof/Machine/Modes.lean: mode requests, entries to SAFE and DEGRADED, power states of packs, references and
triad (chapter 3): rows MODE_REQUEST, PWR_PACK_WRITE, PACK_EN_EFFECT, PACK_STOP_COMPLETE, PWR_REF_WRITE,
PWR_TRIAD_WRITE, TRIAD_GATE_EFFECT, TRIAD_GATE_STOP.
-/
namespace Sys2Proof.Machine

/-! ### What a change of mode acts on (R65, R253) -/

/-- The mode as behaved changes from `old` to the present one: injection and cable measurement stop where it no longer permits
them, and forces are dropped. -/
def State.modeChanged (s : State) (old : Nat) : State :=
  let t := if permitsInjection old && !s.permits then s.stopInjection.cableCut else s
  t.forcesOnMode old s.behaved

/-- The heel that runs is abandoned: code 6 (R226). -/
def State.abandonHeel (s : State) : State := if s.flag Reg.ENG_HEEL 30 then s.heelEnds 6 6 0 else s

/-! ### The plan stops and starts (R67, R73) -/

/-- The triad stops running a plan: RUN clears, a survey aborts with code 5, locations and a heel are given up
(R126, R205, R226). -/
def State.planStops (s : State) : State :=
  if s.planRuns = false then s
  else
    let t := s.setFlag Reg.PWR_TRIAD 8 false
    let t := { t with
      run := { t.run with gateStop := none, jobs := [] }
      slx := { t.slx with run := {} }
      ojobs := t.ojobs.map (fun (j : OJob) => { j with granted := 0 }) }
    (((t.surveyAbort 5).twGiveUp).abandonHeel).powerRecord 8 0 (b2n (t.flag Reg.PWR_TRIAD 9))

/-- A triad restart is triggered at boundary g (R67): PEND reads 1 and the plan that runs stops (assumption log 41). -/
def State.triggerRestart (s : State) (g : Nat) : State :=
  let t := s.setFlag Reg.PWR_TRIAD 9 true
  let t := { t with run := { t.run with restartAt := some ((g + 32 + 255) / 256 * 256 % 2 ^ 32) } }
  if t.run.gateStop.isNone then t.planStops else t

/-- FAULT_N, held since an exit from SAFE, is released (R66). -/
def State.releaseFault (s : State) : State :=
  if s.run.faultHold then
    let t := { s with run := { s.run with faultHold := false } }
    if assertsFault t.mode then t else t.setFault false
  else s

/-! ### SAFE, DEGRADED and back (R62, R63, R224, R227) -/

/-- The entry to SAFE falls on the boundary just reached: cause 5 of the record is a voter verdict, 6 a device fault. -/
def State.enterSafe (s : State) : State :=
  match s.run.safeNext with
  | some c =>
    let old := s.behaved
    let t := { s with run := { s.run with safeNext := none, degradedNext := false, healedNext := false }
                      triad := { s.triad with safeOut := false } }
    if s.mode = mSAFE ∨ s.mode = mFILL ∨ s.mode = mLOAD then t
    else
      let t := (t.wr Reg.SYS_SAFE_CAUSE (BitVec.ofNat 32 c)).wr Reg.SYS_SAFE_FRAME (t.rd Reg.ENG_FRAME)
      ((t.setMode mSAFE s.mode (if c ≤ 4 then 5 else 6)).abandonHeel).modeChanged old
  | none => s

/-- The entry to DEGRADED falls on the boundary just reached. -/
def State.enterDegraded (s : State) : State :=
  if s.run.degradedNext then
    let t := { s with run := { s.run with degradedNext := false } }
    if mSTANDBY ≤ s.mode ∧ s.mode ≤ mTEST then t.setMode mDEGRADED s.mode 5 else t
  else s

/-- A heel completes at the boundary just reached: the member is active again and the mode returns to PRIOR; FAULT_N follows
R60. -/
def State.enterHealed (s : State) : State :=
  if s.run.healedNext then
    let p := s.fld Reg.SYS_MODE 6 4
    let t := s.readmit
    if s.mode = mDEGRADED then (t.setMode p mDEGRADED 5).setFault (assertsFault p) else t
  else s

/-! ### Mode requests (R61-R66) -/

/-- rsv bits of SYS_MODE_REQ. -/
def modeReqRsv : Word := 0x7FFFFFF8#32

/-- The action of a write of SYS_MODE_REQ. -/
def wrModeReq (p : Port) (v : Word) (s : State) : State :=
  ((s.setFld Reg.SYS_MODE_REQ 2 0 (field v 2 0)).setFlag Reg.SYS_MODE_REQ 31 true).place Reg.SYS_MODE_REQ v p

/-- MODE_REQUEST: a write of SYS_MODE_REQ (R61). -/
def execModeRequest (p : Port) (v : Word) (s : State) : R :=
  gate s p .engine .global modeReqRsv Reg.SYS_MODE_REQ v (wrModeReq p)

/-- Whether a voter has failed its self-test in the last 256 frames (R66). -/
def State.selfTestFailed (s : State) : Bool :=
  match s.triad.vfail with
  | some f => decide ((s.frame + 2 ^ 32 - f) % 2 ^ 32 ≤ 256)
  | none => false

/-- The code a request for mode v receives (R62, R64, R66). -/
def State.modeCode (s : State) (v : Nat) : Nat :=
  let b := s.behaved
  if v < mSTANDBY ∨ mTEST < v then 4
  else if b = mSTANDBY then if v = mSTANDBY then 1 else if s.planRuns then 0 else 2
  else if b = mCOMMISSION ∨ b = mSERVICE ∨ b = mTEST then 0
  else if b = mSAFE ∧ v = mSTANDBY then if s.linkUp = false ∨ s.selfTestFailed = true then 3 else 0
  else 1

/-- An accepted request: in DEGRADED it replaces PRIOR (R64); an exit from SAFE triggers a restart where the triad is enabled
and holds FAULT_N until it completes (R66). -/
def State.takeMode (s : State) (v port : Nat) : State :=
  let old := s.behaved
  if s.mode = mDEGRADED then if v = old then s else (s.setMode mDEGRADED v port).modeChanged old
  else if s.mode = mSAFE then
    let t := s.setMode mSTANDBY mSAFE port
    if t.run.triadEn then
      ({ t with run := { t.run with faultHold := true } }).triggerRestart t.frame
    else t.setFault false
  else if v = s.mode then s
  else (s.setMode v s.mode port).modeChanged old

/-! ### Packs (R69-R71) -/

/-- A write of PWR_PACK, PWR_REF or PWR_TRIAD has no effect before the first pedigree has been admitted; each later one takes effect, in
order, at its own boundary (R21, R69). -/
def wrPwr (k : Nat) (rw : Word) (p : Port) (v : Word) (s : State) : State :=
  if s.ped then (s.plain k rw 0#32 v).placeAll k v p else s

def wrPwrPack (p : Port) (v : Word) (s : State) : State := wrPwr Reg.PWR_PACK 0xFF#32 p v s
def wrPwrRef (p : Port) (v : Word) (s : State) : State := wrPwr Reg.PWR_REF 7#32 p v s
def wrPwrTriad (p : Port) (v : Word) (s : State) : State := wrPwr Reg.PWR_TRIAD 1#32 p v s

/-- PWR_PACK_WRITE (R69). -/
def execPwrPackWrite (p : Port) (v : Word) (s : State) : R :=
  gate s p .engine .global 0xFFFFFF00#32 Reg.PWR_PACK v (wrPwrPack p)

/-- PWR_REF_WRITE (R69, R72): it takes effect at the boundary (FRAME_BOUNDARY). -/
def execPwrRefWrite (p : Port) (v : Word) (s : State) : R :=
  gate s p .engine .global 0xFFFFFFF8#32 Reg.PWR_REF v (wrPwrRef p)

/-- PWR_TRIAD_WRITE (R69, R73). -/
def execPwrTriadWrite (p : Port) (v : Word) (s : State) : R :=
  gate s p .engine .global 0xFFFEFCFE#32 Reg.PWR_TRIAD v (wrPwrTriad p)

/-- A pack enters a state; a POWER record says so (R70). -/
def State.packState (s : State) (p st : Nat) : State :=
  let t := s.setFld Reg.PWR_PACKSTAT (4 * p + 1) (4 * p) st
  t.powerRecord p st (b2n (t.flag Reg.PWR_PACKSTAT (4 * p + 2)))

/-- EN[p] takes effect at boundary g (R70). -/
def State.packEnable (s : State) (p : Nat) (en : Bool) (g : Nat) : State :=
  match s.pack p with
  | 0 => if en then (s.packState p 1).packEnters p else s
  | 1 =>
    if en then s
    else
      let t := s.packState p 2
      let t := { t with run := { t.run with packs := modAt t.run.packs p (fun (_ : PackSt) => { stopAt := g }) } }
      (List.range 32).foldl (fun s i => s.cableLoses (32 * p + i)) (t.packLeaves p)
  | _ => s.setFlag Reg.PWR_PACKSTAT (4 * p + 2) en

/-- PACK_EN_EFFECT: writes of PWR_PACK whose boundary has come take effect on every pack (R70). -/
def execPackEnEffect (s : State) : R :=
  .next (s.onDue Reg.PWR_PACK (fun s r => (List.range 8).foldl (fun s p => s.packEnable p (bit r.value p) r.due) s))

/-- PACK_STOP_COMPLETE: at the start of frame g + 4 a stopping pack enters OFF, or ON where a re-enable is kept (R70). -/
def execPackStopComplete (pack : Fin 8) (s : State) : R :=
  let p := pack.val
  if s.pack p = 2 ∧ frameReached s.frame (((nth {} s.run.packs p).stopAt + 4) % 2 ^ 32) = true then
    if s.flag Reg.PWR_PACKSTAT (4 * p + 2) then
      .next (((s.setFlag Reg.PWR_PACKSTAT (4 * p + 2) false).packState p 1).packEnters p)
    else .next (s.packState p 0)
  else .next s

/-! ### References and triad (R72, R73) -/

/-- Writes of PWR_REF whose boundary has come take effect; each change of a reference writes a POWER record. -/
def State.refsApply (s : State) : State :=
  s.onDue Reg.PWR_REF (fun s r =>
    let v := field r.value 2 0
    let old := s.run.refs
    let t := { s with run := { s.run with refs := v } }
    let t := if natBit v 2 == natBit old 2 then t
      else { t with aux := { t.aux with refAt := if natBit v 2 then some r.due else none } }
    (List.range 3).foldl (fun s i =>
      if natBit v i == natBit old i then s else s.powerRecord (9 + i) (b2n (natBit v i)) 0) t)

/-- A write of PWR_TRIAD.EN takes effect at boundary g (R73). PEND reads 1 from there on. In LOAD the triad is held, and the
entry to STANDBY triggers the restart (R60, R67). EN = 1 once more ungates nothing; EN = 0 in STANDBY cancels a restart that is
pending and releases the FAULT_N held for it (assumption log 60). -/
def State.triadEnable (s : State) (en : Bool) (g : Nat) : State :=
  let k := Reg.PWR_TRIAD
  if en then
    let t := { s with run := { s.run with triadEn := true } }
    if s.run.triadEn then t
    else if s.mode = mLOAD ∨ s.mode = mFILL then t.setFlag k 9 true
    else t.triggerRestart g
  else if s.mode ≠ mSTANDBY then (s.setFlag k 0 s.run.triadEn).setFlag k 16 true
  else
    let stop := if s.planRuns then some (s.run.gateStop.getD ((g / 256 + 1) * 256 % 2 ^ 32)) else none
    let t := { s with run := { s.run with triadEn := false, restartAt := none, gateStop := stop } }
    (t.setFlag k 9 false).releaseFault

/-- TRIAD_GATE_EFFECT: EN, and a 1 written to REFUSED, take effect (R69, R73). -/
def execTriadGateEffect (s : State) : R :=
  .next (s.onDue Reg.PWR_TRIAD (fun s r =>
    (if bit r.value 16 then s.setFlag Reg.PWR_TRIAD 16 false else s).triadEnable (bit r.value 0) r.due))

/-- TRIAD_GATE_STOP: the plan has stopped at the end of slot 255 and RUN clears (R73). -/
def execTriadGateStop (s : State) : R :=
  match s.run.gateStop with
  | some g => if frameReached s.frame g then .next s.planStops else .next s
  | none => .next s

end Sys2Proof.Machine
end

