-- ==== Sys2Proof/Machine/Sha.lean ====
section
/-!
DEFINITION. Sys2Proof/Machine/Sha.lean: SHA-512 and the RSASSA-PSS verification of R419 (RFC 8017 with SHA-512, MGF1
with SHA-512, a 64-byte salt, trailer field 16#BC, a 4 096-bit modulus and e = 65 537).
-/
namespace Sys2Proof

/-- The first 64 bits of the fractional parts of the cube roots of the first eighty primes. -/
def shaK : List (BitVec 64) :=
  [0x428a2f98d728ae22#64, 0x7137449123ef65cd#64, 0xb5c0fbcfec4d3b2f#64, 0xe9b5dba58189dbbc#64, 0x3956c25bf348b538#64,
   0x59f111f1b605d019#64, 0x923f82a4af194f9b#64, 0xab1c5ed5da6d8118#64, 0xd807aa98a3030242#64, 0x12835b0145706fbe#64,
   0x243185be4ee4b28c#64, 0x550c7dc3d5ffb4e2#64, 0x72be5d74f27b896f#64, 0x80deb1fe3b1696b1#64, 0x9bdc06a725c71235#64,
   0xc19bf174cf692694#64, 0xe49b69c19ef14ad2#64, 0xefbe4786384f25e3#64, 0x0fc19dc68b8cd5b5#64, 0x240ca1cc77ac9c65#64]
  ++ [0x2de92c6f592b0275#64, 0x4a7484aa6ea6e483#64, 0x5cb0a9dcbd41fbd4#64, 0x76f988da831153b5#64, 0x983e5152ee66dfab#64,
   0xa831c66d2db43210#64, 0xb00327c898fb213f#64, 0xbf597fc7beef0ee4#64, 0xc6e00bf33da88fc2#64, 0xd5a79147930aa725#64,
   0x06ca6351e003826f#64, 0x142929670a0e6e70#64, 0x27b70a8546d22ffc#64, 0x2e1b21385c26c926#64, 0x4d2c6dfc5ac42aed#64,
   0x53380d139d95b3df#64, 0x650a73548baf63de#64, 0x766a0abb3c77b2a8#64, 0x81c2c92e47edaee6#64, 0x92722c851482353b#64]
  ++ [0xa2bfe8a14cf10364#64, 0xa81a664bbc423001#64, 0xc24b8b70d0f89791#64, 0xc76c51a30654be30#64, 0xd192e819d6ef5218#64,
   0xd69906245565a910#64, 0xf40e35855771202a#64, 0x106aa07032bbd1b8#64, 0x19a4c116b8d2d0c8#64, 0x1e376c085141ab53#64,
   0x2748774cdf8eeb99#64, 0x34b0bcb5e19b48a8#64, 0x391c0cb3c5c95a63#64, 0x4ed8aa4ae3418acb#64, 0x5b9cca4f7763e373#64,
   0x682e6ff3d6b2b8a3#64, 0x748f82ee5defb2fc#64, 0x78a5636f43172f60#64, 0x84c87814a1f0ab72#64, 0x8cc702081a6439ec#64]
  ++ [0x90befffa23631e28#64, 0xa4506cebde82bde9#64, 0xbef9a3f7b2c67915#64, 0xc67178f2e372532b#64, 0xca273eceea26619c#64,
   0xd186b8c721c0c207#64, 0xeada7dd6cde0eb1e#64, 0xf57d4f7fee6ed178#64, 0x06f067aa72176fba#64, 0x0a637dc5a2c898a6#64,
   0x113f9804bef90dae#64, 0x1b710b35131c471b#64, 0x28db77f523047d84#64, 0x32caab7b40c72493#64, 0x3c9ebe0a15c9bebc#64,
   0x431d67c49c100d4c#64, 0x4cc5d4becb3e42b6#64, 0x597f299cfc657e2a#64, 0x5fcb6fab3ad6faec#64, 0x6c44198c4a475817#64]

def shaIV : List (BitVec 64) :=
  [0x6a09e667f3bcc908#64, 0xbb67ae8584caa73b#64, 0x3c6ef372fe94f82b#64, 0xa54ff53a5f1d36f1#64,
   0x510e527fade682d1#64, 0x9b05688c2b3e6c1f#64, 0x1f83d9abfb41bd6b#64, 0x5be0cd19137e2179#64]

def rotr (x : BitVec 64) (n : Nat) : BitVec 64 := x.rotateRight n

/-- One step of the message schedule: the newest word first. -/
def shaSched : Nat → List (BitVec 64) → List (BitVec 64)
  | 0, w => w
  | n + 1, w =>
    let w2 := nth 0#64 w 1
    let w7 := nth 0#64 w 6
    let w15 := nth 0#64 w 14
    let w16 := nth 0#64 w 15
    let s0 := rotr w15 1 ^^^ rotr w15 8 ^^^ (w15 >>> 7)
    let s1 := rotr w2 19 ^^^ rotr w2 61 ^^^ (w2 >>> 6)
    shaSched n ((w16 + s0 + w7 + s1) :: w)

/-- One round on the eight working variables. -/
def shaRound (v : List (BitVec 64)) (kw : BitVec 64) : List (BitVec 64) :=
  match v with
  | [a, b, c, d, e, f, g, h] =>
    let t1 := h + (rotr e 14 ^^^ rotr e 18 ^^^ rotr e 41) + ((e &&& f) ^^^ (~~~e &&& g)) + kw
    let t2 := (rotr a 28 ^^^ rotr a 34 ^^^ rotr a 39) + ((a &&& b) ^^^ (a &&& c) ^^^ (b &&& c))
    [t1 + t2, a, b, c, d + t1, e, f, g]
  | _ => v

/-- Big-endian 64-bit words of a byte list, `n` of them. -/
def words64 : Nat → List Byte → List (BitVec 64)
  | 0, _ => []
  | n + 1, bs => BitVec.ofNat 64 (fromBE (bs.take 8)) :: words64 n (bs.drop 8)

def shaBlock (h : List (BitVec 64)) (blk : List Byte) : List (BitVec 64) :=
  let w := (shaSched 64 (words64 16 blk).reverse).reverse
  let v := (List.zipWith (· + ·) shaK w).foldl shaRound h
  List.zipWith (· + ·) h v

def shaBlocks : Nat → List Byte → List (BitVec 64) → List (BitVec 64)
  | 0, _, h => h
  | n + 1, bs, h => shaBlocks n (bs.drop 128) (shaBlock h (bs.take 128))

/-- SHA-512 of an octet string: 64 octets. -/
def sha512 (bs : List Byte) : List Byte :=
  let len := bs.length
  let padded := bs ++ [0x80#8] ++ List.replicate ((239 - len % 128) % 128) 0#8 ++ bytesBE 16 (8 * len)
  (shaBlocks (padded.length / 128) padded shaIV).flatMap (fun w => bytesBE 8 w.toNat)

/-- base ^ 65537 modulo n, by sixteen squarings and one product. -/
def powE (n b : Nat) : Nat := (List.range 16).foldl (fun x _ => x * x % n) (b % n) * b % n

/-- b ^ e modulo n for an exponent of 4 096 bits, from its highest bit down. -/
def powMod (n b e : Nat) : Nat :=
  (List.range 4096).foldl (fun x i => let y := x * x % n
                                      if e.testBit (4095 - i) then y * b % n else y) (1 % n)

/-- MGF1 with SHA-512. -/
def mgf1 (seed : List Byte) (len : Nat) : List Byte :=
  ((List.range (ceilDiv len 64)).flatMap (fun i => sha512 (seed ++ bytesBE 4 i))).take len

def xorBytes (a b : List Byte) : List Byte := List.zipWith (· ^^^ ·) a b

/-- EMSA-PSS verification of an encoded message of 512 octets (emBits = 4 095) against a message hash. -/
def pssVerify (mHash em : List Byte) : Bool :=
  let masked := em.take 447
  let h := slice em 447 64
  let db0 := xorBytes masked (mgf1 h 447)
  let db := match db0 with
    | [] => []
    | b :: t => (b &&& 0x7F#8) :: t
  (slice em 511 1 == [0xBC#8])
    && ((em.headD 0#8).toNat < 128)
    && (db.take 382).all (· == 0#8)
    && (slice db 382 1 == [1#8])
    && (sha512 (List.replicate 8 0#8 ++ mHash ++ db.drop 383) == h)

/-- EMSA-PSS encoding of a message hash with a 64-octet salt, 512 octets (emBits = 4 095; R419). -/
def pssEncode (mHash salt : List Byte) : List Byte :=
  let h := sha512 (List.replicate 8 0#8 ++ mHash ++ salt)
  let masked := match xorBytes (List.replicate 382 0#8 ++ [1#8] ++ salt) (mgf1 h 447) with
    | [] => []
    | b :: t => (b &&& 0x7F#8) :: t
  masked ++ h ++ [0xBC#8]

/-- The RSASSA-PSS signature of a body under a modulus and its private exponent, 512 octets big-endian (R419). -/
def rsaSign (modulus : List Byte) (d : Nat) (salt body : List Byte) : List Byte :=
  bytesBE 512 (powMod (fromBE modulus) (fromBE (pssEncode (sha512 body) salt)) d)

/-- RSASSA-PSS verification under a 512-octet big-endian modulus (R419). -/
def rsaVerify (modulus sig body : List Byte) : Bool :=
  let n := fromBE modulus
  let s := fromBE sig
  decide (s < n) && pssVerify (sha512 body) (bytesBE 512 (powE n s))

end Sys2Proof
end

