-- ==== Sys2Proof/Machine/PedImage.lean ====
section
/-!
DEFINITION. Sys2Proof/Machine/PedImage.lean: the layout of a pedigree or partition delta (R415-R418): header, section frames,
SLX blocks, recorder entries, process-bus templates. Widths that R418 does not give are those of assumption log 42.
-/
namespace Sys2Proof.Machine

/-! ### Fields of an image -/

def u8 (b : List Byte) (o : Nat) : Nat := leAt b o 1
def u16 (b : List Byte) (o : Nat) : Nat := leAt b o 2
def u32 (b : List Byte) (o : Nat) : Nat := leAt b o 4
def w32 (b : List Byte) (o : Nat) : Word := BitVec.ofNat 32 (leAt b o 4)

/-- n zero bytes at an offset. -/
def zeros (b : List Byte) (o n : Nat) : Bool := (slice b o n).all (· == 0#8)

/-- The header (R416). -/
def pedBodyLen (b : List Byte) : Nat := u32 b 12
def pedAnchor (b : List Byte) : Nat := u8 b 20
def pedRollback (b : List Byte) : Nat := u8 b 21
def pedPart (b : List Byte) : Nat := u8 b 22
def pedBuild (b : List Byte) : Nat := u32 b 32
def pedDseq (b : List Byte) : Nat := u32 b 36
/-- The bytes of MAGIC. -/
def pedMagic : List Byte := [0x45#8, 0x50#8, 0x44#8, 0x47#8]
/-- The body, which the signature covers, and its hash (R415, R416). -/
def pedBody (b : List Byte) : List Byte := b.take (pedBodyLen b)
def pedHash (b : List Byte) : List Byte := sha512 (pedBody b)
/-- The trailer: the signer's modulus and the signature (R419). -/
def pedModulus (b : List Byte) : List Byte := slice b (pedBodyLen b) 512
def pedSignature (b : List Byte) : List Byte := slice b (pedBodyLen b + 512) 512

/-! ### SLX blocks -/

/-- An SLX block at an offset of a section value: PART, NTASK, its length as its parts give it, and its program. -/
structure Blk where
  off : Nat
  part : Nat
  ntask : Nat
  len : Nat
  prog : Prog
deriving DecidableEq, Repr

/-- The task entries of a block. -/
def blkTasks (v : List Byte) (o : Nat) : List Task :=
  (List.range 8).map (fun t =>
    let e := o + 8 + 16 * t
    { valid := natBit (u8 v e) 0, tierB := natBit (u8 v e) 1, n := u8 v (e + 1), phase := u8 v (e + 2)
      first := u32 v (e + 4), words := u32 v (e + 8) })

/-- n words from an offset. -/
def wordsAt (v : List Byte) (o n : Nat) : List Word := (List.range n).map (fun i => w32 v (o + 4 * i))

/-- Keep the entries that differ from a default. -/
def nonDefault {α : Type} [DecidableEq α] (d : α) (l : List (Nat × α)) : List (Nat × α) := l.filter (fun e => e.2 != d)

/-- Initial values from an offset on: B, F, I, T presets, C presets, E modes (R235, R245). -/
def blkInit (v : List Byte) (o : Nat) : Vars :=
  { b := nonDefault false ((List.range 8192).map (fun i => (i, natBit (u8 v (o + i / 8)) (i % 8))))
    f := nonDefault 0#32 ((List.range 2048).map (fun i => (i, w32 v (o + 1024 + 4 * i))))
    i := nonDefault 0#32 ((List.range 512).map (fun i => (i, w32 v (o + 9216 + 4 * i))))
    t := nonDefault {} ((List.range 1024).map (fun i => (i, ({ pt := u32 v (o + 11264 + 4 * i) } : Timer))))
    c := nonDefault {} ((List.range 512).map (fun i => (i, ({ pv := (w32 v (o + 15360 + 4 * i)).toInt } : Counter))))
    e := nonDefault {} ((List.range 1024).map (fun i =>
      let m := u8 v (o + 17408 + i)
      (i, ({ p := m == 1, prime := m == 2 } : Edge)))) }

/-- Bytes of the initial values. -/
def initLen : Nat := 18432

/-- Offsets of a block's parts: code count, pool count, initial values, map count, end. -/
def blkCode (o : Nat) : Nat := o + 136
def blkPool (v : List Byte) (o : Nat) : Nat := blkCode o + 4 + 4 * u32 v (blkCode o)
def blkVals (v : List Byte) (o : Nat) : Nat := blkPool v o + 4 + 4 * u32 v (blkPool v o)
def blkMap (v : List Byte) (o : Nat) : Nat := blkVals v o + initLen
def blkEnd (v : List Byte) (o : Nat) : Nat := blkMap v o + 4 + 8 * u32 v (blkMap v o)

/-- The block at an offset. -/
def readBlk (v : List Byte) (o : Nat) : Blk :=
  let vm := blkMap v o
  { off := o, part := u8 v o, ntask := u8 v (o + 1), len := blkEnd v o - o
    prog :=
      { defined := true
        tasks := blkTasks v o
        code := wordsAt v (blkCode o + 4) (min (u32 v (blkCode o)) (v.length / 4))
        pool := wordsAt v (blkPool v o + 4) (min (u32 v (blkPool v o)) (v.length / 4))
        init := blkInit v (blkVals v o)
        vids := (List.range (min (u32 v vm) (v.length / 8))).map (fun k =>
          let e := vm + 4 + 8 * k
          (u32 v e, field (w32 v (e + 4)) 25 22, field (w32 v (e + 4)) 21 0))
        hash := sha512 (slice v o (u32 v (o + 4))) } }

/-- The blocks of an SLX value, at most four; each takes the length it states, at least the smallest a block can have. -/
def readBlks (v : List Byte) : Nat → Nat → List Blk
  | 0, _ => []
  | n + 1, o => if v.length ≤ o then [] else readBlk v o :: readBlks v n (o + max 136 (u32 v (o + 4)))

/-! ### Recorder entries -/

/-- A counted string: one byte of count, then its characters (assumption log 42). -/
def readStrs (v : List Byte) : Nat → Nat → List (List Byte) × Nat
  | 0, o => ([], o)
  | n + 1, o =>
    let r := readStrs v n (o + 1 + u8 v o)
    (slice v (o + 1) (u8 v o) :: r.1, r.2)

/-- A recorder entry: offsets of its parts in the section value, and what it holds. -/
structure RecEnt where
  off : Nat
  lanesAt : Nat
  trigAt : Nat
  maskAt : Nat
  sigAt : Nat
  strAt : Nat
  primAt : Nat
  stop : Nat
  lanes : List Nat
  sigs : List Nat
  strs : List (List Byte)
  prim : List (Word × Word)
deriving DecidableEq, Repr

/-- The entry at an offset. -/
def readRec (v : List Byte) (o : Nat) : RecEnt :=
  let nl := field (w32 v (o + 12)) 22 16
  let nd := field (w32 v o) 12 0
  let la := o + 36
  let tr := la + 4 * nl
  let ma := tr + 64
  let si := ma + 4 * 196
  let st := si + 4 * nd
  let ss := readStrs v (2 + 4 * nl + nd) st
  { off := o, lanesAt := la, trigAt := tr, maskAt := ma, sigAt := si, strAt := st, primAt := ss.2, stop := ss.2 + 8 * nl
    lanes := (List.range nl).map (fun i => u32 v (la + 4 * i))
    sigs := (List.range nd).map (fun i => u32 v (si + 4 * i))
    strs := ss.1
    prim := (List.range nl).map (fun i => (w32 v (ss.2 + 8 * i), w32 v (ss.2 + 8 * i + 4))) }

def readRecs (v : List Byte) : Nat → Nat → List RecEnt
  | 0, _ => []
  | n + 1, o => let r := readRec v o
                r :: readRecs v n r.stop

/-! ### Process-bus templates (assumption log 42) -/

/-- A template entry: its configuration word, T1, TMAX, VID and PCP, defaults, frame, members, and where it ends. -/
structure Tmpl where
  off : Nat
  cfg : Word
  t1 : Nat := 0
  tmax : Nat := 0
  vid : Nat := 0
  pcp : Nat := 0
  defaults : List Word := []
  frame : List Byte
  members : List Member
  stop : Nat
deriving DecidableEq, Repr

/-- Frame and members from an offset on: a 4-byte length, the frame padded to a multiple of 4, a 4-byte count, descriptors. -/
def readBody (v : List Byte) (o : Nat) : List Byte × List Member × Nat :=
  let n := min (u32 v o) v.length
  let m := o + 4 + (n + 3) / 4 * 4
  let c := min (u32 v m) 64
  (slice v (o + 4) n,
   (List.range c).map (fun i =>
     let e := m + 4 + 8 * i
     { off := u16 v e, typ := u8 v (e + 2), bits := u8 v (e + 3), src := u32 v (e + 4) }),
   m + 4 + 8 * u32 v m)

/-- A template: 0 publishing block, 1 subscription, 2 stream. -/
def readTmpl (v : List Byte) (kind o : Nat) : Tmpl :=
  match kind with
  | 0 =>
    let r := readBody v (o + 20)
    { off := o, cfg := w32 v o, t1 := u32 v (o + 4), tmax := u32 v (o + 8), vid := u32 v (o + 12), pcp := u32 v (o + 16)
      frame := r.1, members := r.2.1, stop := r.2.2 }
  | 1 =>
    let r := readBody v (o + 60)
    { off := o, cfg := w32 v o, defaults := wordsAt v (o + 4) 14, frame := r.1, members := r.2.1, stop := r.2.2 }
  | _ =>
    let r := readBody v (o + 4)
    { off := o, cfg := w32 v o, frame := r.1, members := r.2.1, stop := r.2.2 }

def readTmpls (v : List Byte) (kind : Nat) : Nat → Nat → List Tmpl
  | 0, _ => []
  | n + 1, o => let r := readTmpl v kind o
                r :: readTmpls v kind n r.stop

/-- Where the entries after a list end. -/
def tmplEnd (o : Nat) (l : List Tmpl) : Nat := ((l.getLast?).map (fun x => x.stop)).getD (o + 4)

/-- Publishing blocks, subscriptions and streams, with the offsets of their counts and of the end. -/
structure PbxSect where
  pubsAt : Nat
  pubs : List Tmpl
  subsAt : Nat
  subs : List Tmpl
  strsAt : Nat
  strs : List Tmpl
  stop : Nat
deriving DecidableEq, Repr

/-- The PBX section's lists, at most `cap` entries of each read. -/
def readPbx (v : List Byte) (cap : Nat) : PbxSect :=
  let a := 132
  let pubs := readTmpls v 0 (min cap (u32 v a)) (a + 4)
  let c := tmplEnd a pubs
  let subs := readTmpls v 1 (min cap (u32 v c)) (c + 4)
  let d := tmplEnd c subs
  let strs := readTmpls v 2 (min cap (u32 v d)) (d + 4)
  ⟨a, pubs, c, subs, d, strs, tmplEnd d strs⟩

/-! ### Sections (R417) -/

/-- A section: its tag, and the offset and length of its value. -/
structure Sect where
  tag : Nat
  off : Nat
  len : Nat
deriving DecidableEq, Repr

/-- Where the blocks of an SLX value end, each by the length it states. -/
def slxEnd (v : List Byte) : Nat → Nat → Nat
  | 0, o => o
  | n + 1, o => if v.length ≤ o then o else slxEnd v n (o + max 136 (u32 v (o + 4)))

/-- Where the recorder entries of an ACQ value end. -/
def acqEnd (v : List Byte) : Nat :=
  (((readRecs v (min (u32 v 0) (v.length / 886 + 1)) 4).getLast?).map (fun x => x.stop)).getD 4

/-- Whether a section has the length that its layout gives it: a fixed one, or that of its counted entries (R417, R418). -/
def lenOk (b : List Byte) (tag off len : Nat) : Bool :=
  let v := slice b off len
  match tag with
  | 1 => len == 384 * 36
  | 2 => len == 48 * 32
  | 3 => len == 68
  | 4 => decide (4 ≤ len) && len == 4 + 516 * u32 b off
  | 5 => decide (4 ≤ len) && len == 4 + 612 * u32 b off
  | 8 => len == 32
  | 9 => len == 776
  | 11 => decide (8 ≤ len) && len == 8 + 16 * u8 b (off + 7)
  | 12 => len == 8
  | 6 => slxEnd v 4 0 == len
  | 7 => decide (4 ≤ len) && acqEnd v == len
  | _ => decide (144 ≤ len) && (readPbx v len).stop == len

/-- Sections from offset o on: those read, and the offset of the frame that breaks R417. -/
def readSects (b : List Byte) (body : Nat) : Nat → Nat → Nat → List Sect × Option Nat
  | 0, o, _ => ([], if o = body then none else some o)
  | n + 1, o, last =>
    if o = body then ([], none)
    else
      let tag := u16 b o
      let len := u32 b (o + 4)
      let next := o + 8 + (len + 7) / 8 * 8
      if body < o + 8 ∨ tag ≤ last ∨ 12 < tag ∨ zeros b (o + 2) 2 = false ∨ body < next
          ∨ zeros b (o + 8 + len) (next - o - 8 - len) = false ∨ lenOk b tag (o + 8) len = false then ([], some o)
      else
        let r := readSects b body n next tag
        (⟨tag, o + 8, len⟩ :: r.1, r.2)

/-- The sections of an image. -/
def pedSects (b : List Byte) : List Sect × Option Nat := readSects b (pedBodyLen b) 12 128 0

/-- A section of an image; an absent one is empty. -/
def sectOf (b : List Byte) (tag : Nat) : Sect := (((pedSects b).1).find? (fun x => x.tag == tag)).getD ⟨tag, 0, 0⟩
def hasSect (b : List Byte) (tag : Nat) : Bool := ((pedSects b).1).any (fun x => x.tag == tag)
/-- The value of a section. -/
def sectVal (b : List Byte) (tag : Nat) : List Byte := slice b (sectOf b tag).off (sectOf b tag).len

/-! ### Fields of sections that others refer to -/

/-- Partition p of the PART section: DEFINED, DANCHOR, PERSIST, RIGHTS. -/
def partByte (b : List Byte) (p k : Nat) : Nat := if hasSect b 3 then u8 (sectVal b 3) (4 + 16 * p + k) else 0
def partDefined (b : List Byte) (p : Nat) : Bool := decide (p < 4) && partByte b p 0 == 1

/-- The partition of a bay; none for 16#FF or an absent section. -/
def partOf (n : Nat) : Option Nat := if n < 4 then some n else none
def bayPart (b : List Byte) (y : Nat) : Option Nat :=
  if hasSect b 2 then partOf (u8 (sectVal b 2) (32 * y)) else none

/-- The O jobs of a BUDGET section (R418). -/
def budgetJobs (v : List Byte) : List OJob :=
  (List.range (u8 v 7)).map (fun j =>
    let e := 8 + 16 * j
    { index := j, kind := u8 v e, target := u8 v (e + 1), n := u8 v (e + 2), phase := u8 v (e + 3), prio := u8 v (e + 4)
      cycles := u32 v (e + 8), energy := u32 v (e + 12) })

/-- The SLX blocks of an image, and that of a partition. -/
def pedBlks (b : List Byte) : List Blk := readBlks (sectVal b 6) 4 0
def blkOf (b : List Byte) (p : Nat) : Option Blk := (pedBlks b).find? (fun x => x.part == p)

/-- The recorder entries of an image. -/
def pedRecs (b : List Byte) : List RecEnt := readRecs (sectVal b 7) (min 16 (u32 (sectVal b 7) 0)) 4

/-- The process-bus section of an image. -/
def pedPbx (b : List Byte) : PbxSect := readPbx (sectVal b 10) 257

end Sys2Proof.Machine
end

