-- ==== Sys2Proof/Machine/Stage.lean ====
section
/-!
DEFINITION. Sys2Proof/Machine/Stage.lean: staging (R418, R425, R458): what a pedigree writes into the blocks, what takes effect at
the entry to STANDBY (R371, R458).
-/
namespace Sys2Proof.Machine

/-- Write a staged register; a host write to it that still waits is overwritten (R425). -/
def State.stageWr (s : State) (k : Nat) (v : Word) : State := (s.wr k v).dropReqs k

/-- The same for one field. -/
def State.stageFld (s : State) (k hi lo v : Nat) : State := s.stageWr k (setField (s.rd k) hi lo v)

/-! ### Lanes and bays -/

/-- The settings words of one LANE entry: DEC_LANE, DEC_HI, DEC_HH, AFE_LANE, CNV_LTRIM, CNV_STRIM.TRIM, TWV_LCFG, TWV_LCORR. -/
structure LaneSet where
  dec : Word
  hi : Word
  hh : Word
  afe : Word
  ltrim : Word
  strim : Nat
  twCfg : Word
  twCorr : Word
deriving DecidableEq, Repr

/-- Those of lane l in a section value (R418). -/
def laneSet (v : List Byte) (l : Nat) : LaneSet :=
  let e := 36 * l
  let b1 := u8 v (e + 1)
  { dec := BitVec.ofNat 32 (b1 % 4 + b1 / 16 % 2 * 16 + b1 / 32 * 256 + u8 v (e + 2) * 65536)
    hi := BitVec.ofNat 32 (u32 v (e + 16) % 2 ^ 24 + u8 v (e + 13) * 2 ^ 24)
    hh := BitVec.ofNat 32 (u32 v (e + 20) % 2 ^ 24 + u8 v (e + 14) * 2 ^ 24)
    afe := BitVec.ofNat 32 (u8 v e % 64)
    ltrim := w32 v (e + 8)
    strim := u8 v (e + 12)
    twCfg := w32 v (e + 28)
    twCorr := BitVec.ofNat 32 (u16 v (e + 26)) }

/-- The LANE entry of lane l: its registers read the staged values (R458); what it sets takes hold by `holdLane`. -/
def State.stageLane (s : State) (v : List Byte) (l : Nat) : State :=
  let x := laneSet v l
  let t := ((s.stageWr (Reg.DEC_LANE l) x.dec).stageWr (Reg.DEC_HI l) x.hi).stageWr (Reg.DEC_HH l) x.hh
  let t := t.setFlag (Reg.DEC_TSTAT l) 5 false
  if 256 ≤ l then t
  else
    let t := t.stageWr (Reg.AFE_LANE l) x.afe
    let t := t.stageWr (Reg.CNV_LTRIM (l / 8) (l % 8)) x.ltrim
    let t := t.stageFld (Reg.CNV_STRIM (l / 8) (l % 8)) 7 0 x.strim
    let t := (t.stageWr (Reg.TWV_LCORR l) x.twCorr).stageWr (Reg.TWV_LCFG l) x.twCfg
    t.wr (Reg.AFE_OVRCNT l) 0#32

/-- ROLE, SCALE and CABLE_C of lane l; without the section the roles are those of R13. -/
def State.holdRole (s : State) (v : List Byte) (l : Nat) : State :=
  let e := 36 * l
  s.modLane l (fun x => { x with
    role := if v.isEmpty then l % 8 else u8 v (e + 3), scale := w32 v (e + 4), cable := u16 v (e + 24) })

def State.holdRoles (s : State) (v : List Byte) : State := (List.range 384).foldl (fun s l => s.holdRole v l) s

/-- The tracker starts in NOMINAL (R150). -/
def State.trackerStart (s : State) (y : Nat) : State :=
  let t := s.setFld (Reg.MSR_FSTAT y) 23 0 0
  t.modBay y (fun x => { x with fTrk := f32 (nominal x.cfg), vRun := 0, acqRun := 0, guardRun := 0, mainRun := 0, fHist := [] })

/-- The BAY entry of bay y. -/
def State.stageBay (s : State) (v : List Byte) (y : Nat) : State :=
  let e := 32 * y
  let t := s.stageWr (Reg.MSR_CFG y) (w32 v (e + 4))
  let t := t.wr (Reg.MSR_HMASK y) (BitVec.ofNat 32 (u8 v (e + 1)))
  let t := (t.stageFld (Reg.MSR_SYNC y) 3 0 (u8 v (e + 2))).setFld (Reg.MSR_SYNC y) 31 16 0
  let t := (t.trackerStart y).setFlag (Reg.MSR_FSTAT y) 31 false
  if 32 ≤ y then t
  else
    (((t.stageWr (Reg.TWV_BCFG y) (w32 v (e + 8))).stageWr (Reg.TWV_LEN y) (w32 v (e + 12))).stageWr
      (Reg.TWV_VEL y) (w32 v (e + 16))).stageWr (Reg.TWV_RTHR y) (w32 v (e + 20))

/-! ### Elements and zones -/

/-- Setting words of an entry. -/
def entryWords (v : List Byte) (o : Nat) : List Word := wordsAt v o 128

/-- The words of a zone with the OPEN indices in bits 31:16 of words 9 + 2s (R186). -/
def zoneWords (v : List Byte) (o : Nat) : List Word :=
  ((entryWords v o).zipIdx).map (fun e =>
    if 9 ≤ e.2 ∧ e.2 < 105 ∧ e.2 % 2 = 1 then
      BitVec.ofNat 32 (e.1.toNat % 65536 + 65536 * u16 v (o + 512 + (e.2 - 9)))
    else e.1)

/-- What an instance that is not defined reads: its counters, its control and its bits of the image are zero (R191, R213). -/
def State.noControls (s : State) (i : Nat) : State :=
  let off := fun (m : List (Nat × Word)) (k : Nat) => imgPut m k [setBit (sget (fun _ => 0#32) m k) (i % 32) false]
  let cut := fun (m : List (Nat × Word)) => off (off m (7960 + i / 32)) (7992 + i / 32)
  { (s.wr (Reg.PEL_ICNT i) 0#32).wr (Reg.PEL_ICTRL i) 0#32 with
    triad := { s.triad with image := cut s.triad.image, next := cut s.triad.next }
    pel := { s.pel with ctrl := s.pel.ctrl.filter (fun e => e.2.1 != i) } }

/-- Setting commits written before staging end, accepted or still unchecked: what they would set is overwritten (R425). -/
def State.dropCommits (s : State) : State :=
  let t := { s with pel := { s.pel with wins := s.pel.wins.map (fun (w : WinSt) => ({ w with subs := [] } : WinSt)) } }
  ((List.range 5).foldl (fun s n => s.setFlag (portKey n Reg.PEL_SSTAT) 30 false) t).showPending

/-- The ELEM section (R159, R191): instances, their initial state, PEL_ICFG; OPCNT clears. -/
def State.stageElems (s : State) (b v : List Byte) : State :=
  let n := min 1024 (u32 v 0)
  let t := { s with pel := { s.pel with insts := (List.range n).map (fun i =>
    let ws := entryWords v (4 + 516 * i + 4)
    ({ words := ws, theta := if u8 v (4 + 516 * i) = 11 then fpRat (nth 0#32 ws 8) else 0 } : ElemSt)) } }
  let t := (List.range 1024).foldl (fun s i =>
    let e := 4 + 516 * i
    let y := u8 v (e + 2)
    let cfg := if i < n then 2 ^ 31 + u8 v e % 32 * 2 ^ 24 + u8 v (e + 1) * 65536
      + ((bayPart b y).getD 0) * 4096 + y % 64 else 0
    let t := s.wr (Reg.PEL_ICFG i) (BitVec.ofNat 32 cfg)
    let t := (t.wr (Reg.PEL_ISTAT i) 0#32).setFld (Reg.PEL_ICNT i) 31 16 0
    if i < n then t
    else (((t.wr (Reg.PEL_IFLAG i) 0#32).wr (Reg.PEL_IVAL i) 0#32).wr (Reg.PEL_IACC i) 0#32).noControls i) t
  t.showThetas

/-- The ZONE section (R186, R192). -/
def State.stageZones (s : State) (v : List Byte) : State :=
  let n := min 8 (u32 v 0)
  let t := { s with pel := { s.pel with zones := (List.range n).map (fun z =>
    ({ words := zoneWords v (4 + 612 * z + 4) } : ZoneSt)) } }
  let t := (List.range 8).foldl (fun s z =>
    let e := 4 + 612 * z
    let used := (((List.range 48).filter (fun k => bit (w32 v (e + 4 + 4 * (8 + 2 * k))) 31))).length
    let cfg := if z < n then 2 ^ 31 + u8 v e % 2 * 2 ^ 30 + u8 v (e + 1) % 4 * 2 ^ 28 + used else 0
    let t := s.wr (Reg.PEL_ZCFG z) (BitVec.ofNat 32 cfg)
    if z < n then t.wr (Reg.PEL_ZSTAT z) 0#32 else t.clearRegs (Reg.PEL_ZSTAT z) (Reg.PEL_ZFLAG z + 4)) t
  (t.wr Reg.PEL_NINST (BitVec.ofNat 32 (n * 65536 + t.pel.insts.length))).dropCommits

/-! ### Scheme programs, O jobs, budget -/

/-- The SLX section: programs, initial values, PERSIST, counters; every force ends (R235, R253, R261). -/
def State.stageSlx (s : State) (b : List Byte) : State :=
  let t := (List.range 4).foldl (fun s p =>
    let g := ((blkOf b p).map (fun x => x.prog)).getD {}
    let k := Reg.SLX_PSTAT p
    let t := s.modPart p (fun x => { x with prog := g, shadow := {}, shadowJobs := [], carried := none })
    let t := ((t.setFld k 31 30 0).setFld k 28 27 (partByte b p 2)).wr (Reg.SLX_CHGCNT p) 0#32
    let t := (t.wr (Reg.SLX_PCHK p) 0#32).showHash p
    (List.range 8).foldl (fun s i => s.wr (Reg.SLX_TCNT p i) 0#32) t) s
  let t := { t with run := { t.run with swapDue := [] } }
  t.initScheme true

/-- The BUDGET section: the thermal model, the caps, the O jobs (R418); their counters clear. -/
def State.stageBudget (s : State) (v : List Byte) : State :=
  let t := { s with ojobs := budgetJobs v }
  let t := ((t.wr Reg.PWR_TAU (BitVec.ofNat 32 (u16 v 0))).wr Reg.PWR_RTH (BitVec.ofNat 32 (u16 v 2))).wr
    Reg.PWR_CAP (BitVec.ofNat 32 (u16 v 4))
  let t := t.wr Reg.PWR_TJMAX (BitVec.ofNat 32 (u8 v 6))
  let t := (t.wr Reg.PWR_ODEF_TOT_LO 0#32).wr Reg.PWR_ODEF_TOT_HI 0#32
  (List.range 64).foldl (fun s j => (s.wr (Reg.PWR_ODEF j) 0#32).wr (Reg.PWR_ODROP j) 0#32) t

/-! ### Recorders -/

/-- BW of R282 in B/s, exact. -/
def recBandwidth (rcfg rpre rpost rseg : Word) : Rat :=
  let rate := field rcfg 25 23
  let r : Rat := if rate = 0 then 2048000 else mkRat 16000 (2 ^ (rate - 1))
  let post := max 1 (field rpost 23 0)
  let f : Rat := if field rcfg 27 26 = 1 then 1 + mkRat ((field rpre 23 0 + post : Nat) : Int) post else 1
  4 * ((field rseg 22 16 : Nat) : Rat) * r * f + ((8 * 16000 * field rcfg 12 0 : Nat) : Rat)

/-- B/s in kB/s, rounded up (R291, R292). -/
def kiloUp (b : Rat) : Word := BitVec.ofNat 32 (b / 1000).ceil.toNat

/-- A limit of a mask point: VAL in [23:0], sign-extended (R291). -/
def maskWords (ws : List Word) : List Word :=
  (ws.zipIdx).map (fun e => if e.2 % 3 = 0 then e.1 else (e.1.setWidth 24).signExtend 32)

/-- Recorder r takes its entry of the ACQ section; its counters clear (R265, R291). -/
def State.stageRec (s : State) (v : List Byte) (r : Nat) (x : RecEnt) : State :=
  let o := x.off
  let ws := wordsAt v o 9
  let w := fun k => nth 0#32 ws k
  let t := s.modRec r (fun _ => { ({} : RecSt) with
    lanes := x.lanes, sigs := x.sigs, strs := x.strs, prim := x.prim, ten := field (w 4) 15 0 })
  let t := (((t.stageWr (Reg.ACQ_RCFG r) (w 0)).stageWr (Reg.ACQ_RPRE r) (w 1)).stageWr (Reg.ACQ_RPOST r) (w 2)).stageWr
    (Reg.ACQ_RSEG r) (w 3)
  let t := (t.stageWr (Reg.ACQ_TEN r) (w 4)).stageWr (Reg.ACQ_RCTRL r) (w 5 &&& 1#32)
  let t := ((t.wr (Reg.ACQ_BUFBASE r) (w 6)).wr (Reg.ACQ_BUFSZ r) (w 7)).wr (Reg.ACQ_DIGSZ r) (w 8)
  let t := t.wr (Reg.ACQ_BW r) (kiloUp (recBandwidth (w 0) (w 1) (w 2) (w 3)))
  let t := t.wrList (Reg.ACQ_TRIG r 0) (wordsAt v x.trigAt 16)
  let t := (List.range 4).foldl (fun s m =>
    let a := x.maskAt + 196 * m
    (s.wr (Reg.ACQ_MCFG r m) (w32 v a &&& 0xFFFE01FF#32)).wrList (Reg.ACQ_MPT r (48 * m)) (maskWords (wordsAt v (a + 4) 48))) t
  let t := (t.wr (Reg.ACQ_RSTAT r) 0#32).wr (Reg.ACQ_RCNT r) 0#32
  ((t.wr (Reg.ACQ_RLOST r) 0#32).wr (Reg.ACQ_SLOST_LO r) 0#32).wr (Reg.ACQ_SLOST_HI r) 0#32

/-- Admitted bandwidth of a wing in B/s (R282). -/
def wingBandwidth (v : List Byte) (rs : List RecEnt) (wing : Nat) : Rat :=
  (rs.filter (fun x => field (w32 v x.off) 28 28 == wing)).foldl (fun a x =>
    a + recBandwidth (w32 v x.off) (w32 v (x.off + 4)) (w32 v (x.off + 8)) (w32 v (x.off + 12))) 0

/-- The ACQ section. -/
def State.stageAcq (s : State) (b : List Byte) : State :=
  let v := sectVal b 7
  let rs := pedRecs b
  let t := (List.range 16).foldl (fun s r => s.clearRegs (Reg.ACQ_RCFG r) (Reg.ACQ_RCFG r + 0x800)) s.acqStopAll
  let t := { t with acq := { recs := List.replicate 16 {}, queue := [] } }
  let t := (rs.zipIdx).foldl (fun s e => s.stageRec v e.2 e.1) t
  let t := t.wr Reg.ACQ_GBW_WEST (kiloUp (wingBandwidth v rs 0))
  let t := t.wr Reg.ACQ_GBW_EAST (kiloUp (wingBandwidth v rs 1))
  t.wr Reg.ACQ_PCHK 0#32

/-! ### Event logs, field I/O, process bus -/

/-- The EVL section: every log is created empty and its first record is a CLEAR record (R293); a record
whose repeat run is open is offered to its event queue first (R310). -/
def State.stageLogs (s : State) (v : List Byte) : State :=
  let s := allLogs.foldl (fun s st => s.closeQueueRun st) s
  [(0 : Fin 4), 1, 2, 3].foldl (fun s p =>
    let e := 8 * p.val
    let size := u16 v e
    let k := Reg.EVL_LCFG p.val
    let t := (s.setStore (.log p) {}).clearRegs k (k + 0x1000)
    let t := t.dropReqs (Reg.EVL_LCTRL p.val)
    if size = 0 then t
    else
      let t := t.wr k (BitVec.ofNat 32 (2 ^ 31 + u8 v (e + 2) % 2 * 2 ^ 30 + size % 2048))
      (t.wr (Reg.EVL_LBASE p.val) (w32 v (e + 4))).clearStore (.log p) 5) s

/-- The FIO section; counters clear (R365, R425). -/
def State.stageFio (s : State) (v : List Byte) : State :=
  let t := (List.range 64).foldl (fun s n =>
    let e := 8 * n
    let t := (s.stageWr (Reg.FIO_DICFG n) (w32 v e)).setFld (Reg.FIO_DISTAT n) 31 16 0
    t.modDin n (fun x => { x with cfg := w32 v e, iq := u16 v (e + 4), supervised := natBit (u8 v (e + 6)) 0 })) s
  let t := (List.range 32).foldl (fun s n =>
    let e := 512 + 8 * n
    let t := (s.stageWr (Reg.FIO_DOCFG n) (w32 v e)).wr (Reg.FIO_DOCNT n) 0#32
    t.modDout n (fun x => { x with cfg := w32 v e })) t
  let t := (List.range 8).foldl (fun s m => s.wr (Reg.FIO_FCOUNT m) 0#32) t
  (List.range 4).foldl (fun s m =>
    (s.wr (Reg.FIO_DOPWR m) (BitVec.ofNat 32 (u16 v (768 + 2 * m)))).setFld (Reg.FIO_BSTAT m) 31 16 0) t

/-- The PBX section: ports, D_SV, templates; counters clear, no dataset is published, subscriptions hold their defaults
(R328, R332, R336, R346). -/
def State.stagePbx (s : State) (b : List Byte) : State :=
  let v := sectVal b 10
  let x : PbxSect := if v.isEmpty then ⟨0, [], 0, [], 0, [], 0⟩ else pedPbx b
  let t := (List.range 4).foldl (fun s p =>
    let e := 32 * p
    let t := s.wr (Reg.PBX_PCFG p) (w32 v e)
    let t := (t.wr (Reg.PBX_MACLO p) (w32 v (e + 4))).wr (Reg.PBX_MACHI p) (BitVec.ofNat 32 (u16 v (e + 8)))
    let t := (t.stageWr (Reg.TIM_PRXLAT p) (BitVec.ofNat 32 (u16 v (e + 12)))).stageWr (Reg.TIM_PTXLAT p)
      (BitVec.ofNat 32 (u16 v (e + 14)))
    let t := [Reg.PBX_RXFRM p, Reg.PBX_RXERR p, Reg.PBX_RXDROP p, Reg.PBX_TXFRM p, Reg.PBX_PRPDUP p, Reg.PBX_PRPLAN p].foldl
      (fun s k => s.wr k 0#32) t
    let t := (t.setFld (Reg.PBX_PRXSTAT p) 31 16 0).setFld (Reg.PBX_PSTAT p) 15 0 0
    { t with pbx := { t.pbx with ports := modAt t.pbx.ports p (fun y => { y with dfix := u32 v (e + 16), vel := w32 v (e + 20) }) } }) s
  let t := t.wr Reg.PBX_DSV (w32 v 128)
  let t := (t.clearRegs (Reg.PBX_GPCFG 0) (Reg.PBX_GPCFG 64)).clearRegs (Reg.PBX_GSCFG 0) (Reg.PBX_GSCFG 256)
  let t := (t.clearRegs (Reg.PBX_SVCFG 0) (Reg.PBX_SVCFG 16)).wr Reg.PBX_PCHK 0#32
  let t := { t with pbx := { t.pbx with
    pubs := x.pubs.map (fun y => { frame := y.frame, members := y.members, t1 := y.t1, tmax := y.tmax, vid := y.vid, pcp := y.pcp })
    subs := x.subs.map (fun y => { frame := y.frame, members := y.members, defaults := y.defaults })
    streams := x.strs.map (fun y => { frame := y.frame }) } }
  let t := (x.pubs.zipIdx).foldl (fun s e => s.wr (Reg.PBX_GPCFG e.2) e.1.cfg) t
  let t := (x.subs.zipIdx).foldl (fun s e => (s.wr (Reg.PBX_GSCFG e.2) e.1.cfg).subDefaults e.2 s.time.tbNs) t
  (x.strs.zipIdx).foldl (fun s e => s.wr (Reg.PBX_SVCFG e.2) e.1.cfg) t

/-! ### The whole pedigree -/

/-- Queue and lost-record counters of every host port clear (R395). -/
def State.clearHqCounters (s : State) : State :=
  (List.range 4).foldl (fun s p => [Ring.evq, Ring.rcq, Ring.msq].foldl (fun s q => s.wr (hqKey p (ringBase q) + 0x1C) 0#32) s) s

/-- The owners that go on applying after staging until STANDBY is entered (R371). -/
def State.presentOwners (s : State) : List (Option Nat) :=
  (List.range 8).map (fun z => s.settingOwner (1024 + z)) ++ (List.range 16).map s.rcOwner
    ++ (List.range 64).map (fun c => s.pbxOwner (Reg.PBX_GPCFG c) (24 + c))
    ++ (List.range 256).map (fun i => s.pbxOwner (Reg.PBX_GSCFG i) (88 + i))

/-- Staging writes every section into the blocks (R425). The partition assignment and the settings of R458 wait for the entry to
STANDBY. -/
def State.stagePed (s : State) (b : List Byte) : State :=
  let la := sectVal b 1
  let ba := sectVal b 2
  let t := (List.range 384).foldl (fun s l => s.stageLane la l) s
  let t := (List.range 48).foldl (fun s y => s.stageBay ba y) t
  let t := (t.stageElems b (sectVal b 4)).stageZones (sectVal b 5)
  let t := (t.stageBudget (sectVal b 11)).stageSlx b
  let t := ((t.stageAcq b).stageLogs (sectVal b 8)).stageFio (sectVal b 9)
  let t := t.stagePbx b
  let sf := sectVal b 12
  let t := (t.wr Reg.FIO_SAFEPAT (w32 sf 0)).wr Reg.ENG_POLICY (BitVec.ofNat 32 (u8 sf 4 % 2))
  t.clearHqCounters.digStart

/-- The partition assignment and the custodian take effect (R23, R371). -/
def State.assignParts (s : State) (b : List Byte) : State :=
  let fv := sectVal b 9
  let t := (List.range 48).foldl (fun s y => s.modBay y (fun x => { x with part := bayPart b y })) s
  let t := (List.range 64).foldl (fun s n => s.modDin n (fun x => { x with
    owner := if fv.isEmpty then none else partOf (u8 fv (8 * n + 7)) })) t
  let t := (List.range 32).foldl (fun s n => s.modDout n (fun x => { x with
    owner := if fv.isEmpty then none else partOf (u8 fv (512 + 8 * n + 4)) })) t
  let t := (List.range 4).foldl (fun s p => s.modPart p (fun x => { x with
    defined := partDefined b p, danchor := partByte b p 1, rights := partByte b p 3 })) t
  t.setFld Reg.SYS_STAT 9 8 (u8 (sectVal b 3) 0)

/-- The staged settings of one lane take hold at strobe 0 of the entry to STANDBY (R458): those of the section, whatever has been written
to their registers since (assumption log 44). -/
def State.holdLane (s : State) (sec : List Byte) (l : Nat) : State :=
  let v := laneSet sec l
  let t := (s.holdRole sec l).putDec l v.dec
  let t := t.modLane l (fun x => { x with hi := v.hi, hh := v.hh })
  if 256 ≤ l then t
  else
    let t := if t.packOn l then t.takeHold l v.afe else t.modLane l (fun x => { x with stored := some v.afe })
    let t := (t.putLtrim l v.ltrim).putTrim (l / 8) (l % 8) (BitVec.ofNat 32 v.strim)
    t.modTwLane l (fun x => { x with cfg := v.twCfg, corr := v.twCorr })

/-- Those of one bay. -/
def State.holdBay (s : State) (sec : List Byte) (y : Nat) : State :=
  let e := 32 * y
  let v := w32 sec (e + 4)
  -- a tracker that has stayed in NOMINAL since staging stays there (R150), with the new f0
  let t := if s.fld (Reg.MSR_FSTAT y) 1 0 = 0 then s.modBay y (fun x => { x with cfg := v, chg := 3 }) else s.putMsrCfg y v
  let t := t.modBay y (fun x => { x with rate := u8 sec (e + 2) % 16, hmask := u8 sec (e + 1) })
  if 32 ≤ y then t
  else t.modTwBay y (fun x => { x with set := { x.set with
    cfg := w32 sec (e + 8), len := w32 sec (e + 12), vel := w32 sec (e + 16), rthr := w32 sec (e + 20) } })

/-- All of them, from the image staged. -/
def State.holdSettings (s : State) (b : List Byte) : State :=
  (List.range 48).foldl (fun s y => s.holdBay (sectVal b 2) y)
    ((List.range 384).foldl (fun s l => s.holdLane (sectVal b 1) l) s)

end Sys2Proof.Machine
end

