-- ==== Sys2Proof/Machine/Admission.lean ====
section
/-!
DEFINITION. Sys2Proof/Machine/Admission.lean: the frame plan and admission (R41-R51, R169, R282, R457).
-/
namespace Sys2Proof.Machine

/-! ### Costs (R46, R169) -/

/-- The catalogue cost of a class with its options. -/
def classCost (cls opt : Nat) : Nat :=
  match cls with
  | 1 => if natBit opt 2 then 36 else 48
  | 2 => (if opt % 4 = 1 ∨ opt % 4 = 2 then 72 else 96) + (if natBit opt 3 then 24 else 0)
  | 3 => 80
  | 4 => if opt % 4 = 0 then 88 else 60
  | 5 => 140
  | 6 | 7 => 60
  | 8 | 9 => 40
  | 10 => 44
  | 11 => 120
  | 12 => 56
  | 13 => 98
  | 14 => 260
  | 15 => 50
  | 16 => 28
  | 17 => 32
  | _ => 0

/-- Cycles of the element and zone jobs of every slot (R160). -/
def State.elementLoad (s : State) : Nat :=
  (List.range 1024).foldl (fun a i => if s.idef i then a + classCost (s.icls i) (s.iopt i) else a) 0
    + (List.range 8).foldl (fun a z => if s.zdef z then a + 300 + 150 * (s.slots z).length else a) 0

/-- A G-tier scheme task as the plan holds it: 8 * partition + number, N, PHASE, cost (R247). -/
structure GTask where
  id : Nat
  n : Nat
  phase : Nat
  cost : Nat
  loop : Bool
deriving DecidableEq, Repr

/-- The G-tier tasks of the programs in partitions 0 to 3. -/
def gTasks (ps : List Prog) : List GTask :=
  (ps.zipIdx).flatMap (fun e =>
    (List.range 8).filterMap (fun t =>
      let x := nth {} e.1.tasks t
      if x.valid && !x.tierB then
        some ⟨8 * e.2 + t, x.n, x.phase, taskCost (e.1.codeOf t), hasLoop (e.1.codeOf t)⟩
      else none))

/-- The programs of the committed plan, or with every change in a shadow bank applied (R47). -/
def State.progs (s : State) (pending : Bool) : List Prog :=
  (List.range 4).map (fun p =>
    if pending && s.fld (Reg.SLX_PSTAT p) 31 30 != 0 then (s.part p).shadow else (s.part p).prog)

/-- The O jobs of the same plan. -/
def State.planJobs (s : State) (pending : Bool) : List OJob :=
  (List.range 4).foldl (fun js p =>
    if pending && s.fld (Reg.SLX_PSTAT p) 31 30 != 0 then
      js.filter (fun (j : OJob) => !(j.kind == 7 && j.target / 8 == p)) ++ (s.part p).shadowJobs
    else js) s.ojobs

/-- The G load of slot k: the frame-closure job, elements, zones and the tasks that run in it (R48). -/
def slotLoad (fixed : Nat) (gs : List GTask) (k : Nat) : Nat :=
  800 + fixed + gs.foldl (fun a g => if k % 2 ^ g.n = g.phase then a + g.cost else a) 0

/-- G(s) of the committed plan in ENG_SLOTLOAD (R51), and the peak and the lowest slot holding it in ENG_PLAN. -/
def State.showSlotLoads (s : State) : State :=
  let fixed := s.elementLoad
  let gs := gTasks (s.progs false)
  let loads := (List.range 256).map (slotLoad fixed gs)
  let peak := loads.foldl max 0
  let k := ((loads.zipIdx).find? (fun e => e.1 == peak)).map Prod.snd
  let t := ((loads.zipIdx).foldl (fun s e => s.wr (Reg.ENG_SLOTLOAD e.2) (BitVec.ofNat 32 (e.1 % 65536))) s).freshWin winSlot 256
  t.wr Reg.ENG_PLAN (BitVec.ofNat 32 (peak % 2 ^ 24 + 2 ^ 24 * (k.getD 0 % 256)))

/-! ### The admission procedure (R48, R457) -/

/-- Its result: code, item, slot, count, load. -/
structure AdmRes where
  code : Nat
  item : Nat := 0
  slot : Nat := 0
  count : Nat := 0
  load : Nat := 0
deriving DecidableEq, Repr

/-- The first limit of code 1 exceeded, and its item: the bays of the instances in ELEM order, zones, tasks of the partitions, O
jobs. -/
def limitBad (bays : List Nat) (zones : Nat) (tasks : List Nat) (jobs : Nat) : Option Nat :=
  let tooMany := (List.range 48).find? (fun y => decide (48 < (bays.filter (· == y)).length))
  match tooMany with
  | some y => some (nth 0 (((bays.zipIdx).filter (fun e => e.1 == y)).map Prod.snd) 48)
  | none =>
    if 1024 < bays.length then some 1024
    else if 8 < zones then some 8
    else match (tasks.zipIdx).find? (fun e => decide (8 < e.1)) with
      | some e => some e.2
      | none => if 64 < jobs then some 64 else none

/-- The checks of R48 on a plan: limits as found, fixed load, G tasks, O jobs, bandwidth of the wings in B/s. ITEM of a scheme task in
codes 2 and 3 is 8 * partition + task, and code 2 looks at the G tasks before the O jobs (assumption log 44). -/
def runAdmission (limit : Option Nat) (fixed : Nat) (gs : List GTask) (js : List OJob) (west east : Rat) : AdmRes :=
  let badPeriod := fun (n ph : Nat) => decide (8 < n) || decide (2 ^ n ≤ ph)
  match limit with
  | some i => { code := 1, item := i }
  | none =>
    match gs.find? (fun g => badPeriod g.n g.phase) with
    | some g => { code := 2, item := g.id }
    | none =>
      match js.find? (fun j => (j.kind == 1 || j.kind == 2 || j.kind == 7) && badPeriod j.n j.phase) with
      | some j => { code := 2, item := j.index }
      | none =>
        match gs.find? (fun g => g.loop) with
        | some g => { code := 3, item := g.id }
        | none =>
          match js.find? (fun j => decide (11500 < j.cycles)) with
          | some j => { code := 4, item := j.index }
          | none =>
            let loads := (List.range 256).map (slotLoad fixed gs)
            let tooMany := ((loads.zipIdx).filter (fun e => decide (60000 < e.1)))
            match tooMany with
            | e :: _ => { code := 5, slot := e.2, count := tooMany.length, load := e.1 }
            | [] =>
              if 2000000000 < west then { code := 6, item := 0 }
              else if 2000000000 < east then { code := 6, item := 1 }
              else
                let peak := loads.foldl max 0
                let k := ((loads.zipIdx).find? (fun e => e.1 == peak)).map Prod.snd
                { code := 0, slot := k.getD 0, load := peak }

/-- Admission of a whole pedigree, on the state it stages (R47: the configuration is replaced as a whole). -/
def admitPed (t : State) (b : List Byte) : AdmRes :=
  let ev := sectVal b 4
  let bays := (List.range (u32 ev 0)).map (fun i => u8 ev (4 + 516 * i + 2))
  let tasks := (List.range 4).map (fun p => ((blkOf b p).map (fun x => x.ntask)).getD 0)
  let rs := pedRecs b
  runAdmission (limitBad bays (u32 (sectVal b 5) 0) tasks (u8 (sectVal b 11) 7)) t.elementLoad (gTasks (t.progs false)) t.ojobs
    (wingBandwidth (sectVal b 7) rs 0) (wingBandwidth (sectVal b 7) rs 1)

/-- The bandwidth of the recorders in force. -/
def State.bandwidth (s : State) (wing : Nat) : Rat :=
  (List.range 16).foldl (fun a r => if s.rcValid r && s.rcRegion r == 4 + wing then
    a + recBandwidth (s.rd (Reg.ACQ_RCFG r)) (s.rd (Reg.ACQ_RPRE r)) (s.rd (Reg.ACQ_RPOST r)) (s.rd (Reg.ACQ_RSEG r)) else a) 0

/-- Admission of an on-line change: the committed plan with every change in a shadow bank (R47). `ntask` is NTASK of the delta for
partition p. -/
def State.admitChange (s : State) (p ntask : Nat) : AdmRes :=
  let bays := (List.range 1024).filterMap (fun i => if s.idef i then some (s.ibay i) else none)
  let tasks := (List.range 4).map (fun q => if q = p then ntask else
    ((nth {} (s.progs true) q).tasks.filter (fun x => x.valid)).length)
  let js := s.planJobs true
  runAdmission (limitBad bays ((List.range 8).filter s.zdef).length tasks js.length) s.elementLoad (gTasks (s.progs true)) js
    (s.bandwidth 0) (s.bandwidth 1)

/-- The result in ENG_ADM_STAT, ENG_ADM_SLOT and ENG_ADM_LOAD (R51). -/
def State.showAdm (s : State) (req : Nat) (a : AdmRes) : State :=
  ((s.wr Reg.ENG_ADM_STAT (BitVec.ofNat 32 (req % 8 * 2 ^ 28 + a.item % 65536 * 16 + a.code))).wr
    Reg.ENG_ADM_SLOT (BitVec.ofNat 32 (a.count * 256 + a.slot))).wr Reg.ENG_ADM_LOAD (BitVec.ofNat 32 (a.load % 2 ^ 24))

end Sys2Proof.Machine
end

