-- ==== Sys2Proof/Machine/PedCheck.lean ====
section
/-!
DEFINITION. Sys2Proof/Machine/PedCheck.lean: verification (R424): header, section frames, fields and references, the structural
checks of R246, R282 and R346. References of a whole pedigree are checked on the state it would stage. Which item SEC_VITEM names
where several fail: assumption log 43.
-/
namespace Sys2Proof.Machine

/-! ### Header, codes 1 to 8 (R416, R419-R421, R428) -/

/-- State of an anchor slot (R420). -/
def State.anchorState (s : State) (k : Nat) : Nat :=
  if nth false s.sec.revoked k then 2 else if nth false s.sec.damaged k then 3
  else if (nth [] s.sec.anchors k).isEmpty then 0 else 1

/-- The most bytes of an image (R415). -/
def maxImage (delta : Bool) : Nat := if delta then 2 ^ 20 else 2 ^ 25

/-- The header's code for an image; 0 when all of codes 1 to 8 pass. `part` is the delta command's partition. -/
def State.headerCode (s : State) (delta : Bool) (part : Nat) (b : List Byte) : Nat :=
  let body := pedBodyLen b
  if b.length < 128 ∨ b.take 4 ≠ pedMagic ∨ u16 b 4 ≠ 1 ∨ u16 b 6 ≠ (if delta then 2 else 1) ∨ u32 b 8 ≠ body + 1024
      ∨ body < 136 ∨ body % 8 ≠ 0 ∨ b.length ≠ body + 1024 ∨ maxImage delta < b.length then 1
  else if u32 b 16 ≠ 0x82561F7A ∨ (u8 b 23 % 2 = 1 ∧ leAt b 24 8 ≠ Config.devId.toNat) then 2
  else if 4 ≤ pedAnchor b ∨ s.anchorState (pedAnchor b) ≠ 1 ∨ (delta = true ∧ pedAnchor b ≠ (s.part part).danchor) then 3
  else if sha512 (pedModulus b) ≠ nth [] s.sec.anchors (pedAnchor b) ∨ u8 (pedModulus b) 0 < 128 then 4
  else if rsaVerify (pedModulus b) (pedSignature b) (pedBody b) = false then 5
  else if pedRollback b < s.sec.counter ∨ 64 < pedRollback b then 6
  else if delta = true ∧ (s.sec.inForce = false ∨ slice b 64 64 ≠ s.sec.hash) then 7
  else if delta = true ∧ (pedPart b ≠ part ∨ (s.part part).defined = false
      ∨ pedDseq b ≤ (s.rd (Reg.SEC_DSEQ part)).toNat) then 8
  else 0

/-! ### Lists of checks -/

/-- Checks in order: each holds or not, with the byte offset of its item. -/
abbrev Checks := List (Bool × Nat)

/-- The offset of the first check that fails. -/
def Checks.bad (l : Checks) : Option Nat := (l.find? (fun e => !e.1)).map Prod.snd

/-- Bits of a register image outside those the register holds as settings. -/
def onlyRw (addr : Nat) (w : Word) : Bool :=
  match regRow addr with
  | some r => w &&& ~~~r.rw == 0#32
  | none => false

/-- Non-zero reserved bits of the image of a read-only register. -/
def noRsv (addr : Nat) (w : Word) : Bool :=
  match regRow addr with
  | some r => w &&& r.rsv == 0#32
  | none => false

/-- A partition reference: defined, or 16#FF for none. -/
def partRef (b : List Byte) (n : Nat) : Bool := n == 255 || partDefined b n

/-! ### Fields and references of a whole pedigree, code 12 (R418) -/

/-- The header's fields that no other code checks (R416). -/
def headerFields (b : List Byte) (delta : Bool) : Checks :=
  [(decide (u8 b 23 < 2), 23), (u8 b 23 % 2 == 1 || zeros b 24 8, 24), (zeros b 44 20, 44)]
    ++ (if delta then [] else [(u8 b 22 == 0, 22), (u32 b 36 == 0, 36), (zeros b 64 64, 64)])

/-- LANE. -/
def laneChecks (v : List Byte) (o : Nat) : Checks :=
  (List.range 384).flatMap (fun l =>
    let e := 36 * l
    let virt := decide (256 ≤ l)
    [ (u8 v e &&& 0xCC == 0, o + e), (u8 v (e + 1) &&& 0x0C == 0, o + e + 1),
      (!virt || zeros v e 3, o + e), (decide (u8 v (e + 3) < 8) || u8 v (e + 3) == 255, o + e + 3),
      (isNum (w32 v (e + 4)), o + e + 4), (!virt || zeros v (e + 8) 5, o + e + 8), (zeros v (e + 15) 1, o + e + 15),
      (zeros v (e + 19) 1, o + e + 19), (zeros v (e + 23) 1, o + e + 23), (!virt || zeros v (e + 24) 8, o + e + 24),
      (virt || onlyRw (Reg.TWV_LCFG l) (w32 v (e + 28)), o + e + 28), (zeros v (e + 32) 4, o + e + 32) ])

/-- BAY. TWV_LEN and TWV_VEL have ranges (R210). -/
def bayChecks (b v : List Byte) (o : Nat) : Checks :=
  (List.range 48).flatMap (fun y =>
    let e := 32 * y
    let local_ := decide (y < 32)
    let cfg := w32 v (e + 8)
    [ (partRef b (u8 v e), o + e), (decide (u8 v (e + 2) < 16), o + e + 2), (zeros v (e + 3) 1, o + e + 3),
      (onlyRw (Reg.MSR_CFG y) (w32 v (e + 4)), o + e + 4), (local_ || zeros v (e + 8) 16, o + e + 8),
      (!local_ || onlyRw (Reg.TWV_BCFG y) cfg, o + e + 8),
      (!local_ || (fpLe (fb 1 10) (w32 v (e + 12)) && fpLe (w32 v (e + 12)) (fb 140 1)), o + e + 12),
      (!local_ || (fpLe (fb 150 1) (w32 v (e + 16)) && fpLe (w32 v (e + 16)) (fb 300 1)), o + e + 16),
      (!local_ || onlyRw (Reg.TWV_RTHR y) (w32 v (e + 20)), o + e + 20), (zeros v (e + 24) 8, o + e + 24) ])

/-- PART. -/
def partChecks (b v : List Byte) (o : Nat) : Checks :=
  [(partDefined b (u8 v 0), o), (zeros v 1 3, o + 1)] ++ (List.range 4).flatMap (fun p =>
    let e := 4 + 16 * p
    [ (decide (u8 v e < 2), o + e), (decide (u8 v (e + 1) < 4), o + e + 1), (decide (u8 v (e + 2) < 4), o + e + 2),
      ((List.range 4).all (fun q => u8 v (e + 3) / 4 ^ q % 4 != 3), o + e + 3), (zeros v (e + 4) 12, o + e + 4) ])

/-- ELEM, on the state t the pedigree would stage. -/
def State.elemChecks (t : State) (v : List Byte) (o : Nat) : Checks :=
  (List.range (min 1024 (u32 v 0))).flatMap (fun i =>
    let e := 4 + 516 * i
    let y := u8 v (e + 2)
    let own := (t.bayOwner y).getD 4
    [ (decide (1 ≤ u8 v e) && decide (u8 v e ≤ 17), o + e), (decide (y < 48), o + e + 2), (zeros v (e + 3) 1, o + e + 3),
      match t.instBad (u8 v e) (u8 v (e + 1)) y own (entryWords v (e + 4)) with
      | some k => (false, o + e + 4 + 4 * k)
      | none => (true, 0) ])

/-- ZONE: KIND and PART, settings, slots (R186). -/
def State.zoneChecks (t : State) (b v : List Byte) (o : Nat) : Checks :=
  (List.range (min 8 (u32 v 0))).flatMap (fun z =>
    let e := 4 + 612 * z
    let p := u8 v (e + 1)
    let ws := entryWords v (e + 4)
    [ (decide (u8 v e < 2), o + e), (partDefined b p, o + e + 1), (zeros v (e + 2) 2, o + e + 2),
      (match t.zoneBad (u8 v e == 1) p ws with
      | some k => (false, o + e + 4 + 4 * k)
      | none => (true, 0)) ] ++
    (List.range 48).flatMap (fun k =>
      let a := nth 0#32 ws (8 + 2 * k)
      let c := nth 0#32 ws (9 + 2 * k)
      let at_ := o + e + 4 + 4 * (8 + 2 * k)
      let opn := u16 v (e + 516 + 2 * k)
      let ix := fun (n : Nat) => decide (n < 8192) || n == 0xFFFF
      [ (field a 29 16 == 0, at_), (!bit a 31 || ix (field a 15 0), at_), (field c 31 6 == 0, at_ + 4),
        (!bit a 31 || (decide (field c 5 0 < 48) && t.readable p (t.bayOwner (field c 5 0))), at_ + 4),
        (!bit a 31 || ix opn, o + e + 516 + 2 * k) ]))

/-- Entries in a variable's space (R235). -/
def spaceSize (sp : Nat) : Nat := nth 0 [8192, 2048, 512, 1024, 512, 1024] sp

/-- One SLX block: zero bytes, tasks within the code, edge modes, map indices. `job` says whether a B-tier task has its O-job
entry. -/
def blkChecks (v : List Byte) (o : Nat) (x : Blk) (job : Nat → Bool) : Checks :=
  let code := u32 v (blkCode x.off)
  let vals := blkVals v x.off
  let vm := blkMap v x.off
  [ (u32 v (x.off + 4) == x.len && decide (x.off + x.len ≤ v.length), o + x.off + 4), (zeros v (x.off + 2) 2, o + x.off + 2),
    (decide (8 < x.ntask) || (x.prog.tasks.filter (fun t => t.valid)).length == x.ntask, o + x.off + 1) ] ++
  ((x.prog.tasks.zipIdx).flatMap (fun t =>
    let e := x.off + 8 + 16 * t.2
    [ (decide (u8 v e < 4), o + e), (zeros v (e + 3) 1, o + e + 3), (zeros v (e + 12) 4, o + e + 12),
      (!t.1.valid || decide (t.1.first + t.1.words ≤ code), o + e + 4),
      (!(t.1.valid && t.1.tierB) || job t.2, o + e) ])) ++
  ((List.range 1024).map (fun i => (decide (u8 v (vals + 17408 + i) ≤ 2), o + vals + 17408 + i))) ++
  ((x.prog.vids.zipIdx).map (fun e =>
    (u32 v (vm + 8 + 8 * e.2) / 2 ^ 26 == 0 && (decide (6 ≤ e.1.2.1) || decide (e.1.2.2 < spaceSize e.1.2.1)),
      o + vm + 8 + 8 * e.2)))

/-- SLX of a whole pedigree: one block for each defined partition, in ascending order. -/
def slxChecks (b v : List Byte) (o : Nat) : Checks :=
  let xs := pedBlks b
  let js := budgetJobs (sectVal b 11)
  [(xs.map (fun x => x.part) == (List.range 4).filter (partDefined b), o)] ++
  xs.flatMap (fun x => blkChecks v o x (fun t => js.any (fun j => j.kind == 7 && j.target == 8 * x.part + t)))

/-- ACQ: the entries' registers and strings (R265). -/
def acqChecks (b v : List Byte) (o : Nat) : Checks :=
  let rs := pedRecs b
  [(decide (u32 v 0 ≤ 16), o)] ++ ((rs.zipIdx).flatMap (fun e =>
    let a := e.1.off
    let w := fun k => w32 v (a + 4 * k)
    let r := e.2
    [ (noRsv (Reg.ACQ_RCFG r) (w 0) && bit (w 0) 31 && partDefined b (field (w 0) 30 29) && field (w 0) 27 26 != 3
        && decide (field (w 0) 12 0 ≤ 4096), o + a),
      (noRsv (Reg.ACQ_RPRE r) (w 1), o + a + 4), (noRsv (Reg.ACQ_RPOST r) (w 2) && decide (1 ≤ field (w 2) 23 0), o + a + 8),
      (noRsv (Reg.ACQ_RSEG r) (w 3) && decide (1 ≤ field (w 3) 22 16) && decide (field (w 3) 22 16 ≤ 64)
        && (field (w 0) 27 26 != 1 || (decide (1 ≤ field (w 3) 12 0) && decide (field (w 3) 12 0 ≤ 4096))), o + a + 12),
      (onlyRw (Reg.ACQ_TEN r) (w 4), o + a + 16), (decide ((w 5).toNat < 2), o + a + 20) ] ++
    (List.range 4).flatMap (fun m =>
      let c := e.1.maskAt + 196 * m
      let n := field (w32 v c) 23 20
      if bit (w32 v c) 31 then
        [ (field (w32 v c) 29 28 == 0 && field (w32 v c) 19 9 == 0, o + c),
          ((List.range n).all (fun i => decide (u32 v (c + 4 + 12 * i) < u32 v (c + 16 + 12 * i))), o + c + 4) ]
      else []) ++
    [(e.1.strs.all (fun x => decide (x.length ≤ 64) && x.all (fun c => decide (c.toNat < 128))), o + e.1.strAt)]))

/-- EVL: sizes and places of the logs (R293). -/
def State.evlChecks (t : State) (b v : List Byte) (o : Nat) : Checks :=
  let size := fun p => u16 v (8 * p)
  let wing := fun p => u8 v (8 * p + 2)
  let base := fun p => u32 v (8 * p + 4)
  (List.range 4).flatMap (fun p =>
    [ (size p == 0 || (decide (2 ≤ size p) && decide (size p ≤ 1024) && partDefined b p), o + 8 * p),
      (decide (wing p < 2), o + 8 * p + 2), (zeros v (8 * p + 3) 1, o + 8 * p + 3),
      (size p == 0 || decide ((base p + size p) * 16384 ≤ t.regionWords (4 + wing p)), o + 8 * p + 4),
      (size p == 0 || (List.range p).all (fun q => size q == 0 || wing q != wing p
        || decide (base q + size q ≤ base p) || decide (base p + size p ≤ base q)), o + 8 * p + 4) ])

/-- FIO. A DI point may be in no partition; a DO point is in one (R418). -/
def fioChecks (b v : List Byte) (o : Nat) : Checks :=
  (List.range 64).flatMap (fun n =>
    let e := 8 * n
    [ (onlyRw (Reg.FIO_DICFG n) (w32 v e), o + e), (decide (u8 v (e + 6) < 2), o + e + 6), (partRef b (u8 v (e + 7)), o + e + 7) ])
  ++ (List.range 32).flatMap (fun n =>
    let e := 512 + 8 * n
    [ (onlyRw (Reg.FIO_DOCFG n) (w32 v e), o + e), (partDefined b (u8 v (e + 4)), o + e + 4), (zeros v (e + 5) 3, o + e + 5) ])

/-- PBX: ports, D_SV, and the words of the templates (R331, R335, R338). -/
def pbxChecks (b v : List Byte) (o : Nat) : Checks :=
  let x := pedPbx b
  (List.range 4).flatMap (fun p =>
    let e := 32 * p
    [ (noRsv (Reg.PBX_PCFG p) (w32 v e), o + e), (zeros v (e + 10) 2, o + e + 10), (isNum (w32 v (e + 20)), o + e + 20),
      (zeros v (e + 24) 8, o + e + 24) ]) ++
  [(noRsv Reg.PBX_DSV (w32 v 128) && decide (4 ≤ u32 v 128) && decide (u32 v 128 ≤ 64), o + 128),
   (decide (u32 v x.pubsAt ≤ 64), o + x.pubsAt)] ++
  x.pubs.flatMap (fun y =>
    [ (noRsv (Reg.PBX_GPCFG 0) y.cfg && partDefined b (field y.cfg 30 29), o + y.off),
      (decide (8 ≤ y.t1) && decide (y.t1 ≤ 1600), o + y.off + 4),
      (decide (y.t1 ≤ y.tmax) && decide (y.tmax ≤ 960000), o + y.off + 8),
      (decide (y.vid < 4096), o + y.off + 12), (decide (y.pcp < 8), o + y.off + 16),
      (y.members.all (fun m => decide (m.typ ≤ 4) && decide (m.bits ≤ 32)), o + y.off) ]) ++
  x.subs.flatMap (fun y =>
    [ (noRsv (Reg.PBX_GSCFG 0) y.cfg && partDefined b (field y.cfg 30 29), o + y.off),
      (y.members.all (fun m => decide (m.typ ≤ 4) && decide (m.bits ≤ 32) && (decide (m.src < 14) || m.typ == 4)), o + y.off) ]) ++
  x.strs.flatMap (fun y =>
    [(noRsv (Reg.PBX_SVCFG 0) y.cfg && decide (field y.cfg 23 20 ≤ 8) && decide (field y.cfg 19 16 ≤ 8), o + y.off)])

/-- Cycles of a run of an O-tier service (R46). -/
def serviceCost (kind : Nat) : Nat := nth 0 [0, 2400, 600, 6000, 4000, 3000, 1500] kind

/-- BUDGET of a whole pedigree. The periods are left to admission, code 2; NJOB to code 1 (R48). -/
def budgetChecks (b v : List Byte) (o : Nat) : Checks :=
  let js := budgetJobs v
  let tier := fun (n : Nat) => match blkOf b (n / 8) with
    | some x => (nth {} x.prog.tasks (n % 8)).valid && (nth {} x.prog.tasks (n % 8)).tierB
    | none => false
  [ (decide (10 ≤ u16 v 0) && decide (u16 v 0 ≤ 60000), o), (decide (1 ≤ u16 v 2) && decide (u16 v 2 ≤ 1000), o + 2) ] ++
  js.flatMap (fun j =>
    let e := 8 + 16 * j.index
    [ (decide (1 ≤ j.kind) && decide (j.kind ≤ 7), o + e),
      (if j.kind ≤ 2 then decide (j.target < 48) else if j.kind = 7 then decide (j.target < 32) && tier j.target else j.target == 0,
        o + e + 1),
      (j.kind ≤ 2 || j.kind == 7 || (j.n == 255 && j.phase == 0), o + e + 2), (zeros v (e + 5) 3, o + e + 5),
      (if j.kind = 7 then decide (100 ≤ j.cycles) else j.cycles == serviceCost j.kind, o + e + 8) ])

/-- SAFE. -/
def safeChecks (v : List Byte) (o : Nat) : Checks := [(decide (u8 v 4 < 2), o + 4), (zeros v 5 3, o + 5)]

/-- The checks of one section of a whole pedigree. -/
def State.sectChecks (t : State) (b : List Byte) (x : Sect) : Checks :=
  let v := slice b x.off x.len
  match x.tag with
  | 1 => laneChecks v x.off
  | 2 => bayChecks b v x.off
  | 3 => partChecks b v x.off
  | 4 => t.elemChecks v x.off
  | 5 => t.zoneChecks b v x.off
  | 6 => slxChecks b v x.off
  | 7 => acqChecks b v x.off
  | 8 => t.evlChecks b v x.off
  | 9 => fioChecks b v x.off
  | 10 => pbxChecks b v x.off
  | 11 => budgetChecks b v x.off
  | _ => safeChecks v x.off

/-! ### SLX structural check (R246) -/

/-- Operand spaces of an opcode, and whether the operand is a bit (R241); none for an opcode without operand. -/
def opSpaces (op : Nat) : Option (List Nat × Bool) :=
  if 1 ≤ op ∧ op ≤ 7 then some (bitRead, true)
  else if 9 ≤ op ∧ op ≤ 0xC then some (bitWrite, true)
  else if op = 0x10 ∨ op = 0x11 then some ([5], false)
  else if (0x12 ≤ op ∧ op ≤ 0x15) ∨ op = 0x19 ∨ op = 0x1B then some ([3], false)
  else if (0x16 ≤ op ∧ op ≤ 0x18) ∨ op = 0x1A ∨ op = 0x1C then some ([4], false)
  else if op = 0x21 then some ([1], false)
  else if op = 0x20 ∨ (0x22 ≤ op ∧ op ≤ 0x27) ∨ (0x2B ≤ op ∧ op ≤ 0x2F) then some (fpRead, false)
  else if op = 0x31 then some ([2], false)
  else if op = 0x30 ∨ (0x32 ≤ op ∧ op ≤ 0x3A) then some (intRead, false)
  else none

/-- Codes 1 to 5 of an instruction at a position of a task of n words; `dq` says which outputs the partition owns. -/
def wordCode (w : Word) (pos n : Nat) (dq : Nat → Bool) : Nat :=
  let op := field w 31 26
  let o : Opnd := ⟨field w 25 22, field w 21 0⟩
  if 0x1D ≤ op ∧ op ≤ 0x1F then 1
  else if 0x3D ≤ op then
    let target : Int := (pos : Int) + 1 + (w.setWidth 26).toInt
    if 0 ≤ target ∧ target < (n : Int) then 0 else 5
  else match opSpaces op with
    | none => if field w 25 0 = 0 then 0 else 2
    | some (sp, isBit) =>
      if sp.contains o.space = false then 2
      else if inSpace isBit o = false then 3
      else if 9 ≤ op ∧ op ≤ 0xC ∧ o.space = 9 ∧ dq o.index = false then 4
      else 0

/-- The first failure of the code of a task: code and position. -/
def taskBad (code : List Word) (dq : Nat → Bool) : Option (Nat × Nat) :=
  let n := code.length
  match (code.zipIdx).findSome? (fun e =>
    let c := wordCode e.1 e.2 n dq
    let c := if c = 0 ∧ e.2 + 1 = n ∧ field e.1 31 26 ≠ 0 then 6 else c
    if c = 0 then none else some (c, e.2)) with
  | some r => some r
  | none => if n = 0 then some (6, 0) else none

/-- The first failure of a block: code, task, position, byte offset from the section's start. -/
def blkBad (v : List Byte) (x : Blk) (dq : Nat → Bool) : Option (Nat × Nat × Nat × Nat) :=
  let g := x.prog
  let code := blkCode x.off + 4
  let vm := blkMap v x.off
  let bad := (List.range 8).findSome? (fun t =>
    if (nth {} g.tasks t).valid then
      (taskBad (g.codeOf t) dq).map (fun r => (r.1, t, r.2, code + 4 * ((nth {} g.tasks t).first + r.2)))
    else none)
  match bad with
  | some r => some r
  | none =>
    if 32768 < g.tasks.foldl (fun a t => if t.valid then a + t.words else a) 0 ∨ 4096 < u32 v (blkPool v x.off) then
      some (7, 0, 0, code)
    else
      ((g.vids.zipIdx).find? (fun e => e.1.1 != 0 &&
        (decide (6 ≤ e.1.2.1) || (g.vids.take e.2).any (fun a => a.1 == e.1.1)))).map (fun e => (8, 0, e.2, vm + 4 + 8 * e.2))

/-- SLX_PCHK of partition p takes a result. -/
def State.showPchk (s : State) (p code task pos : Nat) : State :=
  s.wr (Reg.SLX_PCHK p) (BitVec.ofNat 32 (code * 2 ^ 28 + task * 2 ^ 24 + pos % 65536))

/-! ### ACQ structural check (R282) -/

/-- Whether partition p may read lane l. -/
def State.laneFor (t : State) (p l : Nat) : Bool := decide (l < 384) && t.readable p (t.laneOwner l)

/-- A status-bit source (R270 kind 3): instance and bit. -/
def State.statusSource (t : State) (p ix : Nat) : Bool :=
  let i := ix / 32
  decide (i < 1032) && (if i < 1024 then t.idef i else t.zdef (i - 1024)) && t.readable p (t.instOwner i)

/-- Whether a trigger definition names a source partition p may read; an unused kind names none (R274). `masks` says which masks are defined. -/
def State.trigSource (t : State) (p : Nat) (masks : Nat → Bool) (w : Word) : Bool :=
  let ix := field w 25 0
  match field w 31 28 with
  | 0 => true
  | 1 | 2 => t.laneFor p ix
  | 3 => t.statusSource p ix
  | 4 => decide (ix < 8192)
  | 6 => decide (ix < 4) && masks ix
  | _ => true

/-- Whether a signal word names a source partition p may read (R418). -/
def State.sigSource (t : State) (p sig : Nat) : Bool :=
  let ix := sig % 2 ^ 28
  match sig / 2 ^ 28 with
  | 1 => t.statusSource p ix
  | 2 => decide (ix < 8192)
  | 3 => decide (ix < 64) && t.readable p (nth ({} : DiSt) t.fio.di ix).owner
  | 4 | 5 => t.laneFor p ix
  | 6 => decide (ix < 32) && t.readable p (t.dout ix).owner
  | _ => false

/-- The words of a recorder's buffer: first and one past the last (assumption log 39). -/
def recSpan (v : List Byte) (x : RecEnt) : Nat × Nat :=
  let a := u32 v (x.off + 24) * 16384
  let z := w32 v (x.off + 28)
  (a, a + (field z 31 16 + field z 15 0) * 16384 + 2 * u32 v (x.off + 32))

/-- The first failure of recorder entry r: code, item, byte offset from the section's start. `taken` lists the spans of the wing that
other buffers hold. -/
def State.recBad (t : State) (v : List Byte) (x : RecEnt) (taken : List (Nat × Nat)) : Option (Nat × Nat × Nat) :=
  let w := fun k => w32 v (x.off + 4 * k)
  let p := field (w 0) 30 29
  let rate := field (w 0) 25 23
  let mode := field (w 0) 27 26
  let nl := field (w 3) 22 16
  let nd := field (w 0) 12 0
  let len := field (w 1) 23 0 + field (w 2) 23 0
  let nseg := field (w 3) 12 0
  let rows8 := max 8 (if rate = 0 then 1024 else 8 / 2 ^ (rate - 1))
  let ring := field (w 7) 31 16 * 16384 / max 1 nl
  let store := field (w 7) 15 0 * 16384 / max 1 nl
  let rows := if mode = 1 then nseg * len else len
  let span := recSpan v x
  let mask := fun m => w32 v (x.maskAt + 196 * m)
  match (x.lanes.zipIdx).find? (fun e => !(t.laneFor p e.1 && (rate != 0 || decide (e.1 < 256)))) with
  | some e => some (1, e.2, x.lanesAt + 4 * e.2)
  | none =>
    if ring < len + rows8 then some (2, 0, x.off + 28)
    else if mode = 1 ∧ store < nseg * len then some (3, 0, x.off + 28)
    else if mode ≠ 2 ∧ 1598 * 262144 < rows * (8 + 4 * nl + 2 * ceilDiv (nd + nl) 16) then some (4, 0, x.off + 4)
    else
      match (List.range 16).find? (fun i => !t.trigSource p (fun m => bit (mask m) 31) (w32 v (x.trigAt + 4 * i))) with
      | some i => some (5, i, x.trigAt + 4 * i)
      | none =>
        match (List.range 4).find? (fun m => bit (mask m) 31 && !x.lanes.contains (field (mask m) 8 0)) with
        | some m => some (5, m, x.maskAt + 196 * m)
        | none =>
          match (x.sigs.zipIdx).find? (fun e => !t.sigSource p e.1) with
          | some e => some (5, e.2, x.sigAt + 4 * e.2)
          | none =>
            if t.regionWords (4 + field (w 0) 28 28) < span.2
                ∨ taken.any (fun a => decide (span.1 < a.2) && decide (a.1 < span.2)) = true then some (6, 0, x.off + 24)
            else none

/-- The first failure of the ACQ section: code, recorder, item, offset. Buffers of the event logs count as taken. -/
def State.acqBad (t : State) (b : List Byte) : Option (Nat × Nat × Nat × Nat) :=
  let v := sectVal b 7
  let ev := sectVal b 8
  let rs := pedRecs b
  let wing := fun (x : RecEnt) => field (w32 v x.off) 28 28
  (rs.zipIdx).findSome? (fun e =>
    let logs := (List.range 4).filterMap (fun p =>
      if u16 ev (8 * p) ≠ 0 ∧ u8 ev (8 * p + 2) = wing e.1 then
        some (u32 ev (8 * p + 4) * 16384, (u32 ev (8 * p + 4) + u16 ev (8 * p)) * 16384)
      else none)
    let before := ((rs.take e.2).filter (fun x => wing x == wing e.1)).map (recSpan v)
    (t.recBad v e.1 (logs ++ before)).map (fun r => (r.1, e.2, r.2.1, r.2.2)))

/-! ### PBX structural check (R334, R346) -/

/-- Whether a template is well formed: its frame and members as they are counted, the frame's protocol, each mapped member inside the
frame. -/
def tmplOk (v : List Byte) (kind : Nat) (y : Tmpl) : Bool :=
  let at_ := y.off + (if kind = 0 then 20 else if kind = 1 then 60 else 4)
  let n := u32 v at_
  let m := at_ + 4 + (n + 3) / 4 * 4
  decide (n ≤ 1528) && decide (14 ≤ n) && decide (u32 v m ≤ 64) && decide (y.stop ≤ v.length)
    && (if kind = 2 then etype y.frame == etSV && (pduOf y.frame 0x60).isSome
        else etype y.frame == etGOOSE && (pduOf y.frame 0x61).isSome)
    && y.members.all (fun x => decide (x.off < n))

/-- Whether a publishing member's source, a quality member's too, may be read by partition p (R331, R346). -/
def State.memberSource (t : State) (p : Nat) (m : Member) : Bool :=
  let w := BitVec.ofNat 32 m.src
  let o : Opnd := ⟨field w 25 22, field w 21 0⟩
  match o.space with
  | 0 | 1 | 2 | 9 => inSpace (o.space == 0 || o.space == 9) o
  | 7 => t.statusSource p o.index
  | _ => false

/-- The first failure of the PBX section: code, item, byte offset from the section's start. A paired port sends what its partner's mask
bit publishes too, each frame with its trailer (R329, R334). -/
def State.pbxBad (t : State) (b : List Byte) : Option (Nat × Nat × Nat) :=
  let v := sectVal b 10
  let x := pedPbx b
  let all := (x.pubs.zipIdx).map (fun e => (0, e)) ++ (x.subs.zipIdx).map (fun e => (1, e)) ++ (x.strs.zipIdx).map (fun e => (2, e))
  let en := fun p => bit (w32 v (32 * p)) 31
  let pair := fun p => bit (w32 v (32 * p)) 29
  let sum := fun p =>
    let two := pair p
    x.pubs.foldl (fun a y =>
      if bit y.cfg (25 + p) || (two && bit y.cfg (25 + (if p % 2 = 0 then p + 1 else p - 1))) then
        a + y.frame.length + 20 + (if two then 6 else 0) else a) 0
  match all.find? (fun e => !tmplOk v e.1 e.2.1) with
  | some e => some (1, e.2.2, e.2.1.off)
  | none =>
    match (List.range 4).find? (fun p => decide (27000 < sum p)) with
    | some p => some (2, p, 32 * p)
    | none =>
      if 256 < u32 v x.subsAt then some (3, 256, x.subsAt)
      else if 16 < u32 v x.strsAt then some (3, 16, x.strsAt)
      else match (List.range 2).find? (fun q => (pair (2 * q) || pair (2 * q + 1)) && !(en (2 * q) && en (2 * q + 1))) with
        | some q => some (4, q, 64 * q)
        | none =>
          (x.pubs.zipIdx).findSome? (fun e =>
            if e.1.members.all (t.memberSource (field e.1.cfg 30 29)) then none else some (5, e.2, e.1.off))

/-! ### The whole verification (R424) -/

/-- Its result: code, tag and item of codes 10 to 15. -/
structure Verdict424 where
  code : Nat
  tag : Nat := 0
  item : Nat := 0
deriving DecidableEq, Repr

/-- Code 10 (R417): a frame that breaks the rule, or NSECT. -/
def sectCode (b : List Byte) : Option Verdict424 :=
  let r := pedSects b
  match r.2 with
  | some o => some ⟨10, if b.length < o + 2 then 0 else u16 b o % 16, o⟩
  | none => if u32 b 40 = r.1.length then none else some ⟨10, 0, 40⟩

/-- Code 11 (R418): a required section missing, or one the kind may not hold. -/
def kindCode (b : List Byte) (delta : Bool) : Option Verdict424 :=
  let need := if delta then [6] else [3, 11, 12]
  match need.find? (fun t => !hasSect b t) with
  | some t => some ⟨11, t, pedBodyLen b⟩
  | none =>
    if delta then
      (((pedSects b).1).find? (fun x => x.tag != 6 && x.tag != 11)).map (fun x => ⟨11, x.tag, x.off - 8⟩)
    else none

/-- Sections of a whole pedigree, codes 10 to 15, with the check registers written. -/
def State.checkWhole (s : State) (b : List Byte) : Verdict424 × State :=
  match (sectCode b).orElse (fun _ => kindCode b false) with
  | some r => (r, s)
  | none =>
    let t := ((s.stagePed b).assignParts b).holdRoles (sectVal b 1)
    match (headerFields b false).bad with
    | some o => (⟨12, 0, o⟩, s)
    | none =>
    match ((pedSects b).1).findSome? (fun x => ((t.sectChecks b x).bad).map (fun o => (x.tag, o))) with
    | some r => (⟨12, r.1, r.2⟩, s)
    | none =>
      let so := (sectOf b 6).off
      match (pedBlks b).findSome? (fun x =>
          (blkBad (sectVal b 6) x (fun n => (t.dout n).owner == some x.part)).map (fun r => (x.part, r))) with
      | some (p, r) => (⟨13, 6, so + r.2.2.2⟩, s.showPchk p r.1 r.2.1 r.2.2.1)
      | none =>
        let s := (pedBlks b).foldl (fun s x => s.showPchk x.part 0 0 0) s
        match t.acqBad b with
        | some r => (⟨14, 7, (sectOf b 7).off + r.2.2.2⟩,
            s.wr Reg.ACQ_PCHK (BitVec.ofNat 32 (r.1 * 2 ^ 28 + r.2.1 * 2 ^ 24 + r.2.2.1 % 65536)))
        | none =>
          let s := s.wr Reg.ACQ_PCHK 0#32
          match if hasSect b 10 then t.pbxBad b else none with
          | some r => (⟨15, 10, (sectOf b 10).off + r.2.2⟩, s.wr Reg.PBX_PCHK (BitVec.ofNat 32 (r.1 * 2 ^ 28 + r.2.1 % 65536)))
          | none => (⟨0, 0, 0⟩, s.wr Reg.PBX_PCHK 0#32)

/-! ### A delta (R246, R428) -/

/-- O-job entries of the B-tier tasks of a delta's program: from its BUDGET section, or kept from the program in force; none for a
task without either. Kept tasks keep their index, new ones take the lowest free. -/
def State.deltaJobs (s : State) (b : List Byte) (p : Nat) (g : Prog) : Option (List OJob) :=
  let js := budgetJobs (sectVal b 11)
  let mine := fun (j : OJob) => j.kind == 7 && j.target / 8 == p
  let others := (s.planJobs true).filter (fun j => !mine j)
  let tasks := (List.range 8).filter (fun t => (nth {} g.tasks t).valid && (nth {} g.tasks t).tierB)
  let kept := tasks.filterMap (s.taskJob p)
  tasks.foldl (fun (a : Option (List OJob)) t =>
    match a with
    | none => none
    | some out =>
      let used := (others ++ kept ++ out).map (fun j => j.index)
      let old := s.taskJob p t
      let index := match old with
        | some j => j.index
        | none => ((List.range 128).find? (fun i => !used.contains i)).getD 128
      match (js.find? (fun j => j.target == 8 * p + t)).orElse (fun _ => old) with
      | some j => some (out ++ [{ j with index := index, pend := 0, granted := 0 }])
      | none => none) (some [])

/-- Sections of a delta for partition p, codes 10 to 13; a passing one gives its block and its O jobs. -/
def State.checkDelta (s : State) (b : List Byte) (p : Nat) : Verdict424 × State × Option (Blk × List OJob) :=
  match (sectCode b).orElse (fun _ => kindCode b true) with
  | some r => (r, s, none)
  | none =>
    let v := sectVal b 6
    let so := (sectOf b 6).off
    let bo := (sectOf b 11).off
    let x := readBlk v 0
    let js := budgetJobs (sectVal b 11)
    let jobs := s.deltaJobs b p x.prog
    let task := fun t => (nth {} x.prog.tasks t).valid && (nth {} x.prog.tasks t).tierB
    let fields := headerFields b true ++ [(x.part == p && v.length == x.len, so)]
      ++ blkChecks v so x (fun t => js.any (fun j => j.target == 8 * p + t) || (s.taskJob p t).isSome)
      ++ [(decide (js.length ≤ 64), bo + 7)]
      ++ js.flatMap (fun j =>
        let e := 8 + 16 * j.index
        [ (j.kind == 7, bo + e), (j.target / 8 == p && task (j.target % 8), bo + e + 1),
          (zeros (sectVal b 11) (e + 5) 3, bo + e + 5), (decide (100 ≤ j.cycles), bo + e + 8) ])
    match Checks.bad fields with
    | some o => (⟨12, if so ≤ o ∧ o < so + v.length then 6 else if o < 128 then 0 else 11, o⟩, s, none)
    | none =>
      if s.fld (Reg.SLX_PSTAT p) 31 30 ≠ 0 then (⟨13, 6, so⟩, s.showPchk p 9 0 0, none)
      else match blkBad v x (fun n => (s.dout n).owner == some p) with
        | some r => (⟨13, 6, so + r.2.2.2⟩, s.showPchk p r.1 r.2.1 r.2.2.1, none)
        | none => (⟨0, 0, 0⟩, s.showPchk p 0 0 0, jobs.map (fun j => (x, j)))

end Sys2Proof.Machine
end

