-- ==== Sys2Proof/Machine/Security.lean ====
section
/-!
DEFINITION. Sys2Proof/Machine/Security.lean: loads and deltas, fuses, attestation (R420-R433): rows QSPI_LOAD_COMMAND,
PEDIGREE_READ_DONE, PEDIGREE_VERIFY_DONE, ADMISSION_COMPLETE, STAGING_COMPLETE, LOAD_REFUSED, STANDBY_ENTRY, PLAN_SWAP,
FUSE_PROGRAM_SLOT to FUSE_OPERATION_DONE, ATTEST_REPORT_DONE.
-/
namespace Sys2Proof.Machine

/-! ### Registers and records (R432, R433) -/

/-- SEC_STAT.ASTAT, SEC_RB and SEC_ANCHOR show the fuses. -/
def State.showFuses (s : State) : State :=
  let astat := (List.range 4).foldl (fun a k => a + s.anchorState k * 4 ^ k) 0
  let t := (s.setFld Reg.SEC_STAT 7 0 astat).setFld Reg.SEC_RB 6 0 s.sec.counter
  (List.range 4).foldl (fun s k => s.wrList (Reg.SEC_ANCHOR k 0) (wordsOf 16 (nth [] s.sec.anchors k))) t

/-- The load in progress, and SEC_STAT.LOADING. -/
def State.setLoad (s : State) (l : LoadSt) : State :=
  let t := { s with sec := { s.sec with load := l } }
  t.setFlag Reg.SEC_STAT 31 (decide (1 ≤ l.stage) && decide (l.stage ≤ 3))

/-- SEC_VRES for a load. -/
def State.showVres (s : State) (l : LoadSt) (busy : Bool) (code tag adm : Nat) : State :=
  s.wr Reg.SEC_VRES (BitVec.ofNat 32 (b2n busy * 2 ^ 31 + tag % 16 * 2 ^ 20 + (if l.delta then 2 else 1) * 65536
    + l.src % 16 * 4096 + adm % 16 * 256 + code % 256))

/-- Where records of this chapter go: every log and the kennel, or the kennel while no pedigree is in force. -/
def State.secLogs (s : State) : Nat := if s.sec.inForce then everyLog else 0

/-- A PEDIGREE record, stamped as SECURITY records are when it is raised: the two have one source (R299). -/
def State.pedRecord (s : State) (kind : Nat) (l : LoadSt) (code adm : Nat) : State :=
  let b := l.image
  let hash := if b.isEmpty then List.replicate 4 0#8 else (pedHash b).take 4
  s.postNow 0x0B (srcOf 10 0) (bytesLE 1 kind ++ bytesLE 1 l.src ++ bytesLE 1 code ++ bytesLE 1 adm
    ++ bytesLE 4 (pedBuild b) ++ s.frameBytes ++ hash) s.secLogs true

/-- A SECURITY record; vector 15 (R385). -/
def State.secRecord (s : State) (kind item : Nat) : State :=
  (s.postNow 0x24 (srcOf 10 0) (bytesLE 1 kind ++ bytesLE 1 item ++ [0#8, 0#8] ++ s.frameBytes) s.secLogs true).causeAll 15

/-- HQ_PSTAT.CUST and PEMPTY of every port: no partition is assigned before the first pedigree (R23, R394). -/
def State.showPstat (s : State) : State :=
  let any := (List.range 4).any (fun p => (s.part p).defined)
  (List.range 4).foldl (fun s p =>
    (s.setFlag (hqKey p Reg.HQ_PSTAT) 30 (any && s.cust == p)).setFlag (hqKey p Reg.HQ_PSTAT) 29 (!(s.part p).defined)) s

/-- The final entry of a load's command, if a host gave it. -/
def State.finishLoad (s : State) (l : LoadSt) (status result : Nat) : State :=
  match l.cmd with
  | some (p, tag) => s.complete p tag true status result
  | none => s

/-! ### How a load begins (R422, R427) -/

/-- Empty a partition's shadow bank (R255). -/
def State.emptyShadow (s : State) (p : Nat) : State :=
  (s.modPart p (fun x => { x with shadow := {}, shadowJobs := [], carried := none })).setFld (Reg.SLX_PSTAT p) 31 30 0

/-- Every delta held or in progress is discarded; those not yet admitted complete with STATUS 6 (R422). -/
def State.discardDeltas (s : State) : State :=
  let ls := (if s.sec.load.delta then [s.sec.load] else []) ++ s.sec.waiting
  let t := ls.foldl (fun s l => s.finishLoad l 6 0) s
  let t := (List.range 4).foldl (fun s p => if s.fld (Reg.SLX_PSTAT p) 31 30 = 0 then s else s.emptyShadow p) t
  let t := { t with sec := { t.sec with waiting := [] }, run := { t.run with swapDue := [] } }
  if s.sec.load.delta then (t.setLoad {}).setFlag Reg.ENG_ADM_STAT 31 false else t

/-- Whether a whole load is permitted (R422): in LOAD while no load runs, in STANDBY with the triad gated, in SAFE. -/
def State.mayLoad (s : State) : Bool :=
  (s.mode == mLOAD && (s.sec.load.stage == 0 || s.sec.load.delta)) || (s.mode == mSTANDBY && !s.run.triadEn && !s.planRuns)
    || s.mode == mSAFE

/-- The device enters LOAD from STANDBY or SAFE: the triad is held, recorders stop, FAULT_N asserts (R60, R62, R277, R422). -/
def State.enterLoad (s : State) (requester : Nat) : State :=
  let old := s.behaved
  let t := { s with run := { s.run with loadFrom := s.mode } }
  let t := (t.planStops).acqStopAll
  let t := { t with run := { t.run with restartAt := none, gateStop := none, faultHold := false } }
  ((((t.setFlag Reg.PWR_TRIAD 9 false).setMode mLOAD s.mode requester).setFault true)).modeChanged old

/-- A whole load takes effect. -/
def State.beginWhole (s : State) (l : LoadSt) : State :=
  let t := if s.mode = mLOAD then s else s.enterLoad l.port
  let t := t.discardDeltas.setLoad { l with stage := 1 }
  let t := { t with sec := { t.sec with wholeNow := true } }
  if 5 ≤ l.src then t.emit (.qspi (l.src - 5)) else t

/-- The read of the QSPI store at start-up or by SEC_LOADCMD: SLOT 1 and 2 force a slot (R423, R433). -/
def qspiLoad (slot requester : Nat) : LoadSt :=
  { src := if slot = 2 then 6 else 5, port := requester, choose := slot = 0 || slot = 3 }

/-- rsv bits of SEC_LOADCMD. -/
def loadcmdRsv : Word := 0x70FFFFF8#32

/-- The action of a write of SEC_LOADCMD. -/
def wrLoadcmd (p : Port) (v : Word) (s : State) : State :=
  let t := s.setFld Reg.SEC_LOADCMD 2 1 (field v 2 1)
  if bit v 0 then (t.setFlag Reg.SEC_LOADCMD 31 true).placeAll Reg.SEC_LOADCMD v p else t

/-- QSPI_LOAD_COMMAND: a write of SEC_LOADCMD with GO (R422); it takes effect at the start of frame f + 3. -/
def execQspiLoadCommand (p : Port) (v : Word) (s : State) : R :=
  gate s p .engine .global loadcmdRsv Reg.SEC_LOADCMD (v ||| 1#32) (wrLoadcmd p)

/-- One command of SEC_LOADCMD: accepted, or CODE 1 (R422). -/
def State.loadCommand (s : State) (r : Req) : State :=
  if s.mayLoad then (s.setFld Reg.SEC_LOADCMD 27 24 0).beginWhole (qspiLoad (field r.value 2 1) (portCode r.port))
  else s.setFld Reg.SEC_LOADCMD 27 24 1

/-- The commands of SEC_LOADCMD whose boundary has come, in the order of their ports (R427). Every PEDIGREE_LOAD of the same boundary comes
first (assumption log 44): FRAME_BOUNDARY calls this when none is due, PEDIGREE_LOAD after the last has been taken. -/
def State.qspiEffect (s : State) : State :=
  let k := Reg.SEC_LOADCMD
  let due := (s.waiting k).filter (fun r => frameReached s.frame r.due)
  let left := (s.waiting k).filter (fun r => !frameReached s.frame r.due)
  if due.isEmpty then s
  else
    let t := ({ s with reqs := sset (fun _ => []) s.reqs k left }).setFlag k 31 (!left.isEmpty)
    ((List.range 5).flatMap (fun n => due.filter (fun r => portCode r.port == n))).foldl (fun s r => s.loadCommand r) t

/-- The next waiting delta begins. -/
def State.nextLoad (s : State) : State :=
  match s.sec.waiting with
  | l :: rest => ({ s with sec := { s.sec with waiting := rest } }).setLoad { l with stage := 1 }
  | [] => s.setLoad {}

/-! ### Reading (R423) -/

/-- The order in which R423 tries the slots whose MAGIC matches. -/
def slotOrder (headers : List (List Byte)) : List Nat :=
  let h := fun k => nth [] headers k
  let full := fun k => (h k).take 4 == pedMagic
  let first1 := decide (pedRollback (h 0) < pedRollback (h 1))
    || (pedRollback (h 0) == pedRollback (h 1) && decide (pedBuild (h 0) < pedBuild (h 1)))
  if full 0 && full 1 then (if first1 then [1, 0] else [0, 1]) else [0, 1].filter full

/-- PEDIGREE_READ_DONE: an image has been read, and hashed on the way; from the QSPI store its headers choose the slot (R423, R425). A
slot whose MAGIC does not match is empty. -/
def execPedigreeReadDone (image : List Byte) (headers : List (List Byte)) (ok : Bool) (s : State) : R :=
  let l := s.sec.load
  if l.stage ≠ 1 then .next s
  else
    let l := if l.choose then
        match slotOrder headers with
        | a :: rest => { l with src := 5 + a, choose := false, fallback := rest.head? }
        | [] => { l with choose := false, fallback := none, readErr := true }
      else l
    let bad := l.readErr || !ok || (decide (5 ≤ l.src) && image.take 4 != pedMagic)
    let l := { l with stage := 2, image := if bad then [] else image, readErr := bad }
    .next ((s.setLoad l).showVres l true 0 0 0)

/-! ### Verification and admission (R424, R426, R428) -/

/-- A load or delta is refused: its record, and the other slot; where there is none the outcome is decided, and SEC_VRES and the final entry
follow (R426). -/
def State.refuseLoad (s : State) (code tag item adm status : Nat) : State :=
  let l := s.sec.load
  let t := s.pedRecord (if l.delta then 4 else 2) l code adm
  match l.fallback with
  | some k =>
    (t.setLoad { l with stage := 1, src := 5 + k, fallback := none, image := [], readErr := false }).emit (.qspi k)
  | none =>
    let t := t.showVres l false code tag adm
    let t := if 10 ≤ code ∧ code ≤ 15 then t.wr Reg.SEC_VITEM (BitVec.ofNat 32 item) else t
    let t := t.finishLoad l status (if status = 7 then code + 256 * adm else 0)
    if l.delta then t.nextLoad
    else t.setLoad { l with stage := 6, due := (s.frame + 1) % 2 ^ 32, image := [] }

/-- A load whose admission has given a result. -/
def LoadSt.withAdm (l : LoadSt) (a : AdmRes) : LoadSt :=
  { l with stage := 3, adm := a.code, admItem := a.item, admSlot := a.slot, admCount := a.count, admLoad := a.load }

/-- PEDIGREE_VERIFY_DONE: the checks of R424 in their order; when every check passes, admission runs (R47, R48). A delta that passes
enters its shadow bank (R255). -/
def execPedigreeVerifyDone (s : State) : R :=
  let l := s.sec.load
  if l.stage ≠ 2 then .next s
  else
    let c := if l.readErr then 16 else s.headerCode l.delta l.part l.image
    if c ≠ 0 then .next (s.refuseLoad c 0 0 0 7)
    else if l.delta then
      match s.checkDelta l.image l.part with
      | (_, t, some (x, jobs)) =>
        let t := t.modPart l.part (fun y => { y with shadow := x.prog, shadowJobs := jobs, carried := none })
        let t := t.setFld (Reg.SLX_PSTAT l.part) 31 30 1
        let a := t.admitChange l.part x.ntask
        .next ((t.setLoad (l.withAdm a)).setFlag Reg.ENG_ADM_STAT 31 true)
      | (r, t, none) => .next (t.refuseLoad r.code r.tag r.item 0 7)
    else
      match s.checkWhole l.image with
      | (r, t) =>
        if r.code ≠ 0 then .next (t.refuseLoad r.code r.tag r.item 0 7)
        else
          let a := admitPed (((s.stagePed l.image).assignParts l.image).holdRoles (sectVal l.image 1)) l.image
          .next ((t.setLoad (l.withAdm a)).setFlag Reg.ENG_ADM_STAT 31 true)

/-- The first hyperperiod boundary that begins after the present frame (R50). -/
def State.nextHyper (s : State) : Nat := (s.frame / 256 + 1) * 256 % 2 ^ 32

/-- ADMISSION_COMPLETE: the result in the admission registers (R51); a delta admitted waits for its swap and takes its DSEQ, a refused
one empties the shadow bank (R255, R428). -/
def execAdmissionComplete (s : State) : R :=
  let l := s.sec.load
  if l.stage ≠ 3 then .next s
  else
    let t := s.showAdm (if 5 ≤ l.src then 5 else l.src)
      { code := l.adm, item := l.admItem, slot := l.admSlot, count := l.admCount, load := l.admLoad }
    if l.adm ≠ 0 then
      .next ((if l.delta then t.emptyShadow l.part else t).refuseLoad 0 0 0 l.adm 7)
    else if l.delta then
      let t := t.setFld (Reg.SLX_PSTAT l.part) 31 30 2
      let t := t.wr (Reg.SEC_DSEQ l.part) (BitVec.ofNat 32 (pedDseq l.image))
      let t := { t with run := { t.run with swapDue := t.run.swapDue ++ [(l.part, s.nextHyper)] } }
      let t := (t.showVres l false 0 0 0).pedRecord 3 l 0 0
      .next ((t.finishLoad l 0 0).nextLoad)
    else .next ((t.setFlag Reg.SYS_STAT 6 true).setLoad { l with stage := 4 })

/-! ### Staging, refusal, STANDBY (R425, R426, R458) -/

/-- STAGING_COMPLETE: every section is written into the blocks, the pedigree is in force and LOAD ends (R425, R426). -/
def execStagingComplete (s : State) : R :=
  let l := s.sec.load
  if l.stage ≠ 4 then .next s
  else
    let b := l.image
    let held := s.presentOwners
    let t := (s.stagePed b).twGiveUp
    let t := { t with run := { t.run with heldOwners := held } }
    let t := { t with sec := { t.sec with
      hash := pedHash b, anchor := pedAnchor b, rollback := pedRollback b, build := pedBuild b, inForce := true, image := b } }
    let t := (t.setFld Reg.SEC_STAT 9 8 (pedAnchor b)).setFld Reg.SEC_RB 14 8 (pedRollback b)
    let t := (t.wr Reg.SEC_BUILD (BitVec.ofNat 32 (pedBuild b))).wrList (Reg.SEC_PEDHASH 0) (wordsOf 16 (pedHash b))
    let t := t.wrList (Reg.SEC_DSEQ 0) (List.replicate 4 0#32)
    let t := (t.showVres l false 0 0 0).pedRecord 1 l 0 0
    let t := (t.finishLoad l 0 0).setLoad { l with stage := 5, image := [] }
    .next { t with run := { t.run with standbyNext := some s.nextHyper } }

/-- LOAD_REFUSED: at the frame boundary after the refusal the device returns to the mode LOAD was entered from, with the previous
pedigree in force; without one it stays in LOAD (R426). A restart follows where the triad is enabled (R67). -/
def execLoadRefused (s : State) : R :=
  let l := s.sec.load
  if l.stage ≠ 6 ∨ frameReached s.frame l.due = false then .next s
  else
    let t := s.setLoad {}
    let m := s.run.loadFrom
    if s.sec.inForce = false ∨ m = mLOAD then .next t
    else
      let t := ((t.setMode m mLOAD l.port).setFault (assertsFault m)).acqStart
      .next (if t.run.triadEn then t.triggerRestart s.frame else t)

/-- STANDBY_ENTRY: at the hyperperiod boundary after staging the device enters STANDBY; the partition assignment, the custodian and the
staged settings take hold; recorders start; a restart follows where the triad is enabled (R62, R67, R277, R371, R426, R458). -/
def execStandbyEntry (s : State) : R :=
  match s.run.standbyNext with
  | some g =>
    if frameReached s.frame g then
      let l := s.sec.load
      let t := { s with run := { s.run with standbyNext := none, heldOwners := [] } }
      let t := ((t.assignParts s.sec.image).holdSettings s.sec.image).showPstat
      let t := ((t.setLoad {}).setMode mSTANDBY mLOAD (if s.run.loadFrom = mLOAD then 7 else l.port)).setFault false
      let t := (t.showSlotLoads).acqStart
      .next (if t.run.triadEn then t.triggerRestart g else t)
    else .next s
  | none => .next s

/-- PLAN_SWAP: at a hyperperiod boundary the admitted plan replaces the committed one: programs and O jobs by SCHEME_SWAP and
STANDBY_ENTRY, the slot loads here (R50, R51). -/
def execPlanSwap (s : State) : R :=
  if s.slot = 0 ∧ mSTANDBY ≤ s.mode then
    let due := s.run.swapDue.filter (fun e => frameReached s.frame e.2)
    let t := due.foldl (fun s e => s.modPart e.1 (fun x => { x with prog := x.shadow })) s
    let u := t.showSlotLoads
    .next { s with regs := u.regs, mem := u.mem, mst := u.mst }
  else .next s

/-! ### Fuses (R429) -/

/-- rsv bits of SEC_FUSECMD. -/
def fusecmdRsv : Word := 0x7000FCF8#32

/-- The action of a write of SEC_FUSECMD: its check follows at the start of its own frame f + 3, and takes SEC_FUSEDATA as it stands then
(assumption log 57). -/
def wrFusecmd (p : Port) (v : Word) (s : State) : State :=
  ((s.setFld Reg.SEC_FUSECMD 9 8 (field v 9 8)).setFlag Reg.SEC_FUSECMD 31 true).placeAll Reg.SEC_FUSECMD v p

/-- A write of SEC_FUSECMD with a given OP. -/
def fuseRow (p : Port) (op : Nat) (v : Word) (s : State) : R :=
  gate s p .engine .global fusecmdRsv Reg.SEC_FUSECMD (setField v 2 0 op) (wrFusecmd p)

/-- FUSE_PROGRAM_SLOT: OP 1. -/
def execFuseProgramSlot (p : Port) (v : Word) (s : State) : R := fuseRow p 1 v s

/-- FUSE_REVOKE_SLOT: OP 2. -/
def execFuseRevokeSlot (p : Port) (v : Word) (s : State) : R := fuseRow p 2 v s

/-- FUSE_ADVANCE_COUNTER: OP 3. -/
def execFuseAdvanceCounter (p : Port) (v : Word) (s : State) : R := fuseRow p 3 v s

/-- Whether a slot is the ANCHOR of the pedigree in force or a DANCHOR of its PART section. -/
def State.anchorUsed (s : State) (k : Nat) : Bool :=
  s.sec.inForce && (s.sec.anchor == k || (List.range 4).any (fun p => partByte s.sec.image p 1 == k))

/-- The code a fuse command receives at its check. -/
def State.fuseCode (s : State) (v : Word) : Nat :=
  let op := field v 2 0
  let k := field v 9 8
  if field v 23 16 ≠ 0xC9 ∨ op = 0 ∨ 3 < op then 1
  else if (s.mode ≠ mLOAD ∧ s.mode ≠ mSTANDBY ∧ s.mode ≠ mCOMMISSION) ∨ s.sec.load.stage = 2 ∨ s.sec.load.stage = 3 then 2
  else if (op = 1 ∧ s.anchorState k ≠ 0) ∨ (op = 2 ∧ s.anchorState k = 2) then 3
  else if op = 2 ∧ s.anchorUsed k = true then 4
  else if op = 3 ∧ (s.sec.inForce = false ∨ s.sec.rollback ≤ s.sec.counter) then 5
  else if op = 1 ∧ (s.rdBytes (Reg.SEC_FUSEDATA 0) 16).all (· == 0#8) = true then 7
  else 0

/-- SEC_FUSECMD.BUSY: a command waits for its check or runs. -/
def State.showFuseBusy (s : State) : State :=
  s.setFlag Reg.SEC_FUSECMD 31 ((s.req Reg.SEC_FUSECMD).isSome || s.sec.fuse.isSome)

/-- FUSE_COMMAND_CHECK: at the start of frame f + 3 a fuse command is refused with its code, or started. One whose check comes while an
operation runs waits for its end (assumption log 57). -/
def execFuseCommandCheck (s : State) : R :=
  match s.due Reg.SEC_FUSECMD with
  | some r =>
    if s.sec.fuse.isSome then .next s
    else
      let c := s.fuseCode r.value
      let t := s.setReq Reg.SEC_FUSECMD none
      if c = 0 then
        let t := t.setFlag Reg.SEC_STAT 30 true
        .next { t with sec := { t.sec with fuse := some (field r.value 2 0, field r.value 9 8, s.rdBytes (Reg.SEC_FUSEDATA 0) 16) } }
      else .next (t.setFld Reg.SEC_FUSECMD 27 24 c).showFuseBusy
  | none => .next s

/-- Sixty-four bytes the manual does not state. -/
def State.freeBytes (s : State) (n : Nat) : List Byte × State :=
  (List.range n).foldl (fun (a : List Byte × State) _ => let f := a.2.free
                                                         (a.1 ++ wordBytes f.1, f.2)) ([], s)

/-- FUSE_OPERATION_DONE: the operation finishes with code 0, or 6 when its verify read failed; `blown` says how many fuses of the
counter blew first. What a slot that failed its verify read holds is not stated. -/
def execFuseOperationDone (blown : Nat) (verified : Bool) (s : State) : R :=
  match s.sec.fuse with
  | some (op, k, d) =>
    let kept := s.freeBytes 16
    let t := if op = 1 ∧ verified = false then kept.2 else s
    let x := t.sec
    let x := match op with
      | 1 => if verified then { x with anchors := modAt x.anchors k (fun _ => d) }
             else { x with anchors := modAt x.anchors k (fun _ => kept.1), damaged := modAt x.damaged k (fun _ => true) }
      | 2 => if verified then { x with revoked := modAt x.revoked k (fun _ => true) }
             else { x with damaged := modAt x.damaged k (fun _ => true) }
      | _ => { x with counter := if verified then x.rollback else min x.rollback (x.counter + blown) }
    let t := ({ t with sec := { x with fuse := none } }).showFuses
    let t := ((t.setFlag Reg.SEC_STAT 30 false).showFuseBusy).setFld Reg.SEC_FUSECMD 27 24 (if verified then 0 else 6)
    .next (t.secRecord (if verified then op else 4) (if op = 3 then t.sec.counter else k))
  | none => .next s

/-! ### Attestation (R431) -/

/-- Bytes 0 to 511 of a report for port p with a nonce. -/
def State.report (s : State) (p : Nat) (nonce : List Byte) : List Byte :=
  bytesLE 2 1024 ++ [0x4C#8, 1#8] ++ bytesLE 1 s.mode ++ bytesLE 1 (s.fld Reg.SYS_MODE 6 4) ++ bytesLE 1 p
    ++ bytesLE 1 (b2n s.sec.inForce + 2 * b2n (s.flag Reg.SYS_STAT 3) + 4 * b2n (s.flag Reg.SYS_STAT 4))
    ++ bytesLE 8 Config.devId.toNat ++ s.frameBytes ++ bytesLE 4 s.time.frNsec ++ bytesLE 6 s.time.frSec ++ [0#8, 0#8]
    ++ nonce ++ s.rdBytes (Reg.SEC_PEDHASH 0) 16 ++ s.rdBytes (Reg.SEC_PARTHASH 0 0) 64
    ++ (List.range 4).flatMap (fun q => bytesLE 1 (b2n (s.part q).defined + 2 * s.fld (Reg.SLX_PSTAT q) 31 30
        + 8 * (s.part q).danchor))
    ++ s.rdBytes (Reg.SEC_DSEQ 0) 4 ++ bytesLE 1 (s.fld Reg.SEC_STAT 7 0) ++ bytesLE 1 s.sec.counter
    ++ bytesLE 1 s.sec.rollback ++ bytesLE 1 s.sec.anchor ++ bytesLE 4 s.sec.build ++ List.replicate 100 0#8

/-- The identity key's signature over a report (R419, R430, R431), with a salt the manual does not state. -/
def State.devSign (s : State) (bs : List Byte) : List Byte :=
  rsaSign ((List.range 512).map Config.devPub) Config.devKey (s.freeBytes 16).1 bs

/-- ATTEST_REPORT_DONE: the oldest report is signed, written by DMA, and its command completes with RESULT 1 024. -/
def execAttestReportDone (s : State) : R :=
  match s.sec.reports with
  | (p, tag, addr, bs) :: rest =>
    let sig := s.devSign bs
    let t := (s.freeBytes 16).2
    let t := { t with sec := { t.sec with reports := rest } }
    let t := t.setFlag Reg.SEC_STAT 29 (!rest.isEmpty)
    .next ((t.emit (.dma ⟨p % 4, Nat.mod_lt _ (by decide)⟩ addr (bs ++ sig) false)).complete p tag true 0 1024)
  | [] => .next s

end Sys2Proof.Machine
end

