-- ==== Sys2Proof/Machine/HostPorts.lean ====
section
/-!
DEFINITION. Sys2Proof/Machine/HostPorts.lean: commands, rings, doorbells and port resets of the host ports (R367-R390, R394): rows
COMMAND_DOORBELL, COMMAND_FETCH, NOP, PEDIGREE_LOAD, DELTA_LOAD, ATTEST, UNUSED_OPCODE, COMPLETION_DOORBELL,
RECORD_QUEUE_DOORBELL, QUEUE_ENABLE, QUEUE_DISABLE, DMA_READ_ERROR, PORT_RESET, PORT_LINK_UP, QUEUE_SERVICE.
-/
namespace Sys2Proof.Machine

/-! ### Configuration space (R366, R367) -/

/-- Words of port p's configuration space (R367), by offset: Vendor and Device ID, class code with SYS_VER.MINOR as Revision ID, two
64-bit non-prefetchable BARs of 16 MiB and 16 KiB and no other, Subsystem Vendor ID and Subsystem ID. -/
def State.pciWord (s : State) (p off : Nat) : Word :=
  let x := (s.port p).setup
  match off with
  | 0x00 => 0x82561F7A#32
  | 0x08 => 0x08800000#32 ||| BitVec.ofNat 32 (field (s.rd Reg.SYS_VER) 7 0)
  | 0x10 => (x.bar0.truncate 32 &&& 0xFF000000#32) ||| 4#32
  | 0x14 => (x.bar0 >>> 32).truncate 32
  | 0x18 => (x.bar2.truncate 32 &&& 0xFFFFC000#32) ||| 4#32
  | 0x1C => (x.bar2 >>> 32).truncate 32
  | 0x2C => BitVec.ofNat 32 (65536 * p + 0x1F7A)
  | _ => 0#32

/-- The device reads host memory: no read is larger than the read request size set (R366). -/
def State.dmaReads (s : State) (p : Fin 4) (addr len : Nat) : State :=
  let m := 128 * 2 ^ (s.port p.val).setup.readSize.val
  (List.range (ceilDiv len m)).foldl (fun s i => s.emit (.dmaRead p (addr + m * i) (min m (len - m * i)))) s

/-! ### Doorbells (R369, R375, R380, R381) -/

/-- rsv bits of a doorbell. -/
def bellRsv : Ring → Word
  | .cmd => 0xFFFFF000#32
  | .cpl => 0xFFFFE000#32
  | _ => 0#32

/-- The entries that a new head of the completion ring releases. -/
def State.releaseCpl (s : State) (p head : Nat) : State :=
  let size := 2 ^ s.fld (hqKey p Reg.HQ_CPLSIZE) 3 0
  let tail := s.fld (hqKey p Reg.HQ_CPLSTAT) 12 0
  let out := (s.port p).out
  let old := (tail + 2 ^ 16 * size - out) % size
  let n := (head + size - old) % size
  let t := s.modPort p (fun x => { x with out := out - n })
  t.drainCpl (t.port p).held.length p

/-- Whether the entry at HEAD is held back: it is available while 128 commands of the port are in flight (R375). -/
def State.noteHeldBack (s : State) (p : Nat) : State :=
  let full := decide (128 ≤ (s.port p).cmds.length)
    && s.fld (hqKey p Reg.HQ_CMDSTAT) 11 0 != field (s.rd (bar2Key p HQ_DB_CMD)) 11 0
  s.modPort p (fun x => { x with heldBack := x.heldBack || full })

/-- The action of a doorbell write. -/
def wrBell (p : Nat) (q : Ring) (v : Word) (s : State) : State :=
  let t := s.wr (bar2Key p (ringBell q)) v
  match q with
  | .cmd => (t.modPort p (fun x => { x with bells := x.bells ++ [(field v 11 0, s.frame)] })).noteHeldBack p
  | .cpl => t.releaseCpl p (field v 12 0)
  | _ => t

/-- A doorbell write: a reserved field written non-zero is a host error (R7, R14). -/
def bellRow (p : Fin 4) (q : Ring) (v : Word) (s : State) : R :=
  gate s (.hp p) .engine .own (bellRsv q) (bar2Key p.val (ringBell q)) v (wrBell p.val q)

/-- COMMAND_DOORBELL (R375). -/
def execCommandDoorbell (p : Fin 4) (v : Word) (s : State) : R := bellRow p .cmd v s

/-- COMPLETION_DOORBELL (R380). -/
def execCompletionDoorbell (p : Fin 4) (v : Word) (s : State) : R := bellRow p .cpl v s

/-- RECORD_QUEUE_DOORBELL (R381). -/
def execRecordQueueDoorbell (p : Fin 4) (q : Ring) (v : Word) (s : State) : R := bellRow p q v s

/-! ### Commands (R374-R377) -/

/-- COMMAND_FETCH: the entry at HEAD is fetched while HEAD differs from HQ_DB_CMD and fewer than 128 commands are in flight; its command
frame is that of the doorbell write that made it available, or the present one when the limit held it back. -/
def execCommandFetch (p : Fin 4) (entry : List Byte) (s : State) : R :=
  let q := p.val
  let k := hqKey q Reg.HQ_CMDSTAT
  let x := s.port q
  let head := s.fld k 11 0
  if s.ringOn q .cmd = false ∨ s.mode = mFILL ∨ head = field (s.rd (bar2Key q HQ_DB_CMD)) 11 0 ∨ 128 ≤ x.cmds.length then .next s
  else
    let bells := x.bells.dropWhile (fun b => b.1 == head)
    let f := match bells.head? with
      | some b => if x.heldBack = false ∧ (s.frame + 2 ^ 32 - b.2) % 2 ^ 32 ≤ 1 then b.2 else s.frame
      | none => s.frame
    let c : Cmd := { tag := x.nextTag, cid := u16 entry 0, opcode := u8 entry 2, param := entry.drop 8, frame := f }
    let t := s.modPort q (fun y => { y with cmds := y.cmds ++ [c], nextTag := y.nextTag + 1, bells := bells, heldBack := false })
    .next (((t.setFld k 11 0 ((head + 1) % 2 ^ s.fld (hqKey q Reg.HQ_CMDSIZE) 3 0)).setFld k 19 12 (x.cmds.length + 1)).noteHeldBack q)

/-- The commands of a port whose effect boundary has come and that have not been checked yet, in ring order. -/
def State.dueCmds (s : State) (p : Nat) : List Cmd :=
  ((s.port p).cmds.filter (fun c => !c.started)).takeWhile (fun c => frameReached s.frame ((c.frame + 3) % 2 ^ 32))

/-- Whether a PEDIGREE_LOAD of a port falls due at the boundary: it is judged before a QSPI load (R427). -/
def State.hostLoadDue (s : State) : Bool := (List.range 4).any (fun p => (s.dueCmds p).any (fun c => c.opcode == 1))

/-- The next command of a port in ring order, once its effect boundary has come (R375). -/
def State.nextCmd (s : State) (p : Nat) : Option Cmd :=
  match (s.port p).cmds.find? (fun c => !c.started) with
  | some c => if frameReached s.frame ((c.frame + 3) % 2 ^ 32) then some c else none
  | none => none

/-- That command has been checked. -/
def State.beganCmd (s : State) (p tag : Nat) : State :=
  s.modPort p (fun x => { x with cmds := x.cmds.map (fun (c : Cmd) => if c.tag = tag then { c with started := true } else c) })

/-- The command of a port that takes effect next: of several ports' at one boundary the lowest port's comes first (R375). -/
def State.turnCmd (s : State) (p : Nat) : Option Cmd :=
  if (List.range p).any (fun q => (s.nextCmd q).isSome) then none else s.nextCmd p

/-- Run a command of a port when it is the next one and has one of some opcodes. -/
def cmdRow (p : Nat) (isOp : Nat → Bool) (f : Cmd → State → State) (s : State) : R :=
  match s.turnCmd p with
  | some c => if isOp c.opcode then .next (f c (s.beganCmd p c.tag)) else .next s
  | none => .next s

/-- A parameter of a command: n bytes from byte `at` of the entry. -/
def Cmd.arg (c : Cmd) (at_ n : Nat) : Nat := leAt c.param (at_ - 8) n

/-- NOP: one final entry (R376). -/
def execNop (p : Fin 4) (s : State) : R :=
  cmdRow p.val (fun o => o == 0) (fun c s => s.complete p.val c.tag true 0 0) s

/-- UNUSED_OPCODE: STATUS 1 (R376, R377). -/
def execUnusedOpcode (p : Fin 4) (s : State) : R :=
  cmdRow p.val (fun o => decide (4 ≤ o)) (fun c s => s.complete p.val c.tag true 1 0) s

/-- The STATUS of a PEDIGREE_LOAD by right, state and parameters, 0 when it is accepted (R370, R375, R422). -/
def State.loadStatus (s : State) (p : Nat) (c : Cmd) : Nat :=
  let len := c.arg 16 4
  if s.isCust (portOf p) = false then 2
  else if s.mayLoad = false then 3
  else if c.arg 8 8 % 4 ≠ 0 ∨ len < 64 ∨ maxImage false < len then 4
  else 0

/-- Whether a whole load takes effect at the boundary at hand: one has, or a due one still to come is accepted (R427). -/
def State.wholeHere (s : State) : Bool :=
  s.sec.wholeNow
    || (List.range 4).any (fun p => (s.dueCmds p).any (fun c => c.opcode == 1 && s.loadStatus p c == 0))
    || ((s.due Reg.SEC_LOADCMD).isSome && s.mayLoad)

/-- PEDIGREE_LOAD: right, state and parameters are checked in that order; an accepted load begins (R370, R376, R422, R427). -/
def execPedigreeLoad (p : Fin 4) (s : State) : R :=
  cmdRow p.val (fun o => o == 1) (fun c s =>
    let q := p.val
    let addr := c.arg 8 8
    let len := c.arg 16 4
    let st := s.loadStatus q c
    let t :=
      if st ≠ 0 then s.complete q c.tag true st 0
      else ((s.complete q c.tag false 0 0).beginWhole { src := q, port := q, cmd := some (q, c.tag) }).dmaReads p addr len
    if t.hostLoadDue then t else t.qspiEffect) s

/-- DELTA_LOAD: permitted in STANDBY, COMMISSION, SERVICE and TEST; at the boundary at which a whole load takes effect it completes with
STATUS 6, be the whole load's command a later one (R376, R427, R428). Deltas are read and checked one at a time (R47). -/
def execDeltaLoad (p : Fin 4) (s : State) : R :=
  cmdRow p.val (fun o => o == 2) (fun c s =>
    let q := p.val
    let addr := c.arg 8 8
    let len := c.arg 16 4
    let part := c.arg 20 1
    if part ≠ q ∧ s.isCust (.hp p) = false then s.complete q c.tag true 2 0
    else if s.wholeHere = true then s.complete q c.tag true 6 0
    else if s.mode < mSTANDBY ∨ mTEST < s.mode then s.complete q c.tag true 3 0
    else if addr % 4 ≠ 0 ∨ len < 64 ∨ maxImage true < len ∨ 4 ≤ part then s.complete q c.tag true 4 0
    else
      let t := (s.complete q c.tag false 0 0).dmaReads p addr len
      let l : LoadSt := { delta := true, src := q, port := q, cmd := some (q, c.tag), part := part }
      if t.sec.load.stage = 0 then t.setLoad { l with stage := 1 }
      else { t with sec := { t.sec with waiting := t.sec.waiting ++ [l] } }) s

/-- ATTEST: permitted in every mode from LOAD on; the report is taken at the effect boundary (R376, R431). -/
def execAttest (p : Fin 4) (s : State) : R :=
  cmdRow p.val (fun o => o == 3) (fun c s =>
    let q := p.val
    let addr := c.arg 8 8
    let len := c.arg 16 4
    if s.mode = mFILL then s.complete q c.tag true 3 0
    else if addr % 64 ≠ 0 ∨ len < 1024 then s.complete q c.tag true 4 0
    else
      let bs := s.report q (slice c.param 16 32)
      let t := (s.complete q c.tag false 0 0).setFlag Reg.SEC_STAT 29 true
      { t with sec := { t.sec with reports := t.sec.reports ++ [(q, c.tag, addr, bs)] } }) s

/-! ### Rings (R373, R394) -/

/-- The control register of a ring, its rsv bits and its rw bits. -/
def ringCtl : Ring → Nat × Word × Word
  | .cmd => (Reg.HQ_CMDCTL, 0xFFFFFFFE#32, 1#32)
  | .cpl => (Reg.HQ_CPLCTL, 0xFFFF00FC#32, 0xFF03#32)
  | .evq => (Reg.HQ_EVQ_CTL, 0x3FFF00FC#32, 0xFF03#32)
  | .rcq => (Reg.HQ_RCQ_CTL, 0x3FFF00FC#32, 0xFF03#32)
  | .msq => (Reg.HQ_MSQ_CTL, 0x3FFF00FC#32, 0xFF03#32)

/-- Whether a ring's size and base alignment are in range. -/
def State.ringFits (s : State) (p : Nat) (q : Ring) : Bool :=
  let w := hqKey p (ringBase q)
  let n := s.fld (w + 0x08) 4 0
  let a := (s.rd w).toNat
  match q with
  | .cmd => decide (1 ≤ n) && decide (n ≤ 12) && a % 64 == 0
  | .cpl => decide (1 ≤ n) && decide (n ≤ 13) && a % 64 == 0
  | .evq => decide (12 ≤ n) && decide (n ≤ 24) && a % 4096 == 0
  | .rcq => decide (20 ≤ n) && decide (n ≤ 30) && a % 4096 == 0
  | .msq => decide (12 ≤ n) && decide (n ≤ 24) && a % 4096 == 0

/-- A ring starts from the beginning. -/
def State.startRing (s : State) (p : Nat) (q : Ring) : State :=
  let k := hqKey p (ringStat q)
  match q with
  | .cmd => (s.setFld k 11 0 0).modPort p (fun x => { x with bells := [], heldBack := false })
  | .cpl =>
    let t := ((s.setFld k 12 0 0).setFlag k 29 true).modPort p (fun x => { x with out := 0 })
    t.drainCpl (t.port p).held.length p
  | _ => s.wr (hqKey p (ringBase q) + 0x18) 0#32

/-- The action of a write of a ring's control register. -/
def wrRingCtl (p : Nat) (q : Ring) (v : Word) (s : State) : State :=
  let c := ringCtl q
  let k := hqKey p (ringStat q)
  let t := s.plain (hqKey p c.1) c.2.2 0#32 v
  if bit v 0 = false then (t.setFlag k 31 false).setFlag k 30 false
  else if t.ringFits p q then ((t.setFlag k 31 false).setFlag k 30 true).startRing p q
  else t.setFlag k 31 true

/-- A write of a ring's control register with a given EN. -/
def ringRow (p : Fin 4) (q : Ring) (on : Bool) (v : Word) (s : State) : R :=
  let w := setBit v 0 on
  gate s (.hp p) .engine .own (ringCtl q).2.1 (ringCtl q).1 w (wrRingCtl p.val q)

/-- QUEUE_ENABLE: EN = 1 (R394). -/
def execQueueEnable (p : Fin 4) (q : Ring) (v : Word) (s : State) : R := ringRow p q true v s

/-- QUEUE_DISABLE: EN = 0 (R394). -/
def execQueueDisable (p : Fin 4) (q : Ring) (v : Word) (s : State) : R := ringRow p q false v s

/-- QUEUE_SERVICE: held completion entries are written as far as the rings allow; where a plan runs, after the sweep slice (R44,
R380). -/
def execQueueService (s : State) : R :=
  if s.planRuns = true ∧ s.triad.turn ≠ 4 then .next s
  else
    let t := { s with triad := { s.triad with turn := if s.planRuns then 5 else s.triad.turn } }
    .next ((List.range 4).foldl (fun s p => s.drainCpl (s.port p).held.length p) t)

/-! ### DMA read errors and port resets (R368, R388-R390) -/

/-- The load or delta of a port that is being read, if any. -/
def State.readingOf (s : State) (p : Nat) : Bool :=
  s.sec.load.stage == 1 && s.sec.load.src == p && s.sec.load.cmd.isSome

/-- DMA_READ_ERROR: HQ_PERR.DMARD, a HOST record of kind 4; a load or delta being read ends with STATUS 5 and no code (R368, R388,
R424). -/
def execDmaReadError (p : Fin 4) (s : State) : R :=
  let q := p.val
  let reads := s.readingOf q
  let cid := if reads then
      match (s.port q).cmds.find? (fun c => some (q, c.tag) == s.sec.load.cmd) with
      | some c => c.cid
      | none => 0
    else 0
  let t := (s.setFlag (hqKey q Reg.HQ_PERR) 0 true).hostRecord q 4 0 cid 0 0
  .next (if reads then t.refuseLoad 0 0 0 0 5 else t)

/-- PORT_RESET: the port's HQ instance, BAR2 and MSI-X table return to their reset values but for PRST; its commands are no longer
counted, a load being read is refused; a HOST record of kind 1 (R389). Causes 1 to 5 are those of R390; a Function Level Reset leaves the
data link active, and HQ_PSTAT goes on showing it (assumption log 56). -/
def execPortReset (p : Fin 4) (cause : Fin 6) (s : State) : R :=
  let q := p.val
  if cause.val = 0 then .next s
  else
    let reads := s.readingOf q
    let gone := s.sec.waiting.filter (fun l => l.src == q)
    let t := (s.clearRegs (hqKey q 0x110000) (hqKey q 0x120000)).clearRegs (bar2Key q 0) (bar2Key q 0x10000)
    let t := (t.setFlag (hqKey q Reg.HQ_PERR) 4 true).showPstat
    let t := if cause.val = 4 then t.wr (hqKey q Reg.HQ_PSTAT) (s.rd (hqKey q Reg.HQ_PSTAT)) else t
    let t := t.modPort q (fun x => ({ nextTag := x.nextTag } : PortSt))
    let t := { t with
      hq := { t.hq with shadows := modAt t.hq.shadows q (fun _ => none) }
      sec := { t.sec with waiting := t.sec.waiting.filter (fun l => l.src != q) } }
    let t := gone.foldl (fun s l => s.pedRecord 4 l 0 0) t
    let t := if reads then t.refuseLoad 0 0 0 0 6 else t
    .next (t.hostRecord q 1 cause.val 0 0 0)

/-- PORT_LINK_UP: the data link is active at a rate and width, and the host sets the configuration space up (R366, R367; assumption
log 65); a return to it raises a HOST record of kind 2 (R389). -/
def execPortLinkUp (p : Fin 4) (speed width : Fin 4) (setup : PciSetup) (s : State) : R :=
  let k := hqKey p.val Reg.HQ_PSTAT
  let t := ((s.setFlag k 31 true).setFld k 3 0 speed.val).setFld k 7 4 width.val
  let t := t.modPort p.val (fun x => { x with setup := setup })
  .next (if s.flag k 31 then t else t.hostRecord p.val 2 (speed.val + 16 * width.val) 0 0 0)

end Sys2Proof.Machine
end

