-- ==== Sys2Proof/Machine/Plan.lean ====
section
/-!
DEFINITION. Sys2Proof/Machine/Plan.lean: the O tier (R36, R52-R57) and the rows that change the plan at a boundary: SCHEME_SWAP,
TRIAD_RESTART, MODE_REQUEST_EFFECT, BUDGET_FLAG_CHANGE.
-/
namespace Sys2Proof.Machine

/-! ### The heat and energy budget (R52, R124, R125) -/

/-- The supply pairs (16, 24) to (22, 30) with the product of their units in 10^-10 W. -/
def supplyPairs : List (Nat × Nat) := [(0, 500), (1, 500), (2, 5), (3, 50), (4, 100), (5, 50), (6, 50)]

/-- The code of an internal channel in SNF_INT; `i` counts from channel 16. -/
def State.intCode (s : State) (i : Nat) : Nat := s.fld (Reg.SNF_INT i) 15 0

/-- P_raw in W: the supply term of R124 and the output drivers' dissipation (R360). -/
def State.pRaw (s : State) : Rat :=
  let sup := supplyPairs.foldl (fun a e => a + s.intCode e.1 * s.intCode (e.1 + 8) * e.2) 0
  let outs := s.fio.dos.foldl (fun a x => a + x.drop * x.ma) 0
  mkRat ((sup + outs * 10000 : Nat) : Int) (10 ^ 10)

/-- P_fwd in W: `m` frames after the release that switched an output on (R52). -/
def State.pFwd (s : State) : Rat :=
  s.budget.switched.foldl (fun a e =>
    a + mkRat ((s.fld (Reg.FIO_DOPWR (e.1 / 8)) 15 0 * (16 - e.2) : Nat) : Int) 1600) 0

/-- P_meas in W. -/
def State.pMeas (s : State) : Rat :=
  let xs := s.budget.praw.filterMap id
  (if xs.isEmpty then 0 else (xs.foldl (· + ·) 0) / (xs.length : Rat)) + s.pFwd

/-- The hottest of the four die sensors, the first of equals, and its code (R124). -/
def State.hotSensor (s : State) : Nat × Nat :=
  (List.range 4).foldl (fun a i => if a.2 < s.intCode (16 + i) then (i, s.intCode (16 + i)) else a) (0, s.intCode 16)

/-- T_hot in degrees Celsius: 1/128 K per code. -/
def State.tHot (s : State) : Rat := mkRat s.hotSensor.2 128 - mkRat 27315 100

/-- PWR_TJMAX as it acts. -/
def State.tjMax (s : State) : Nat := max 60 (min 125 (s.fld Reg.PWR_TJMAX 7 0))

/-- One frame's values in PWR (R52): `win` says whether the frame that ended had a supply window, `on` are the outputs its
command set switched on. -/
def State.formBudget (s : State) (win : Bool) (on : List Nat) : State :=
  let b := s.budget
  let aged := (b.switched.map (fun e => (e.1, e.2 + 1))).filter (fun e => decide (e.2 < 16) && !on.contains e.1)
  let s := { s with budget := { b with
    praw := ((if win then some s.pRaw else none) :: b.praw).take 16
    switched := on.map (fun n => (n, 0)) ++ aged } }
  let p := s.pMeas
  let rth := mkRat (s.fld Reg.PWR_RTH 15 0) 100
  let alpha := mkRat 1 (16 * s.fld Reg.PWR_TAU 15 0)
  let th := b.theta + alpha * (rth * p - b.theta)
  let cap := s.fld Reg.PWR_CAP 15 0
  let hcap := mkRat cap 10 - p
  let hth := ((s.tjMax : Rat) - s.tHot + th) / rth - p
  let byTh := decide (cap = 0) || decide (hth < hcap)
  let h := if byTh then hth else hcap
  let a := if s.flag Reg.SNF_SUPSTAT 31 = false ∨ h < 0 then 0 else h * 62500
  let s := { s with budget := { s.budget with
    theta := th, hcapNeg := decide (cap ≠ 0) && decide (hcap < 0), hthNeg := decide (hth < 0) } }
  let t := s.setFld Reg.PWR_PMEAS 15 0 (unitOf (p * 100)).toNat
  let t := t.wr Reg.PWR_THOT (BitVec.ofNat 32 (s.hotSensor.1 * 65536 + toTwos 16 (unitOf (s.tHot * 10))))
  let t := t.setFld Reg.PWR_THETA 15 0 (unitOf (th * 100)).toNat
  t.wr Reg.PWR_ALLOW (BitVec.ofNat 32 (b2n byTh * 2 ^ 31 + min (2 ^ 31 - 1) (unitOf a).toNat))

/-- The counts behind OVER and HOT as a frame ends (R56): a change that is due waits for BUDGET_FLAG_CHANGE. -/
def State.countBudget (s : State) : State :=
  let b := s.budget
  let oS := if b.hcapNeg && !b.ran then b.overSet + 1 else 0
  let oC := if b.hcapNeg then 0 else b.overClr + 1
  let hS := if b.hthNeg && !b.ran then b.hotSet + 1 else 0
  let hC := if b.hthNeg then 0 else b.hotClr + 1
  let isOver := s.flag Reg.PWR_BSTAT 0
  let hot := s.flag Reg.PWR_BSTAT 1
  let due := (if !isOver && oS == 16 then [(0, true)] else if isOver && oC == 16 then [(0, false)] else [])
    ++ (if !hot && hS == 16 then [(1, true)] else if hot && hC == 16 then [(1, false)] else [])
  { s with budget := { b with
    overSet := min 16 oS, overClr := min 16 oC, hotSet := min 16 hS, hotClr := min 16 hC
    flags := b.flags ++ due, ran := false } }

/-- BUDGET_FLAG_CHANGE: a change of OVER or HOT that is due takes place: the flag, its sticky bit and vector 6 where it sets, the
record (R56, R297, R385). -/
def execBudgetFlagChange (s : State) : R :=
  match s.budget.flags with
  | [] => .next s
  | (i, on) :: rest =>
    let t := ({ s with budget := { s.budget with flags := rest } }).setFlag Reg.PWR_BSTAT i on
    let t := if on then (t.setFlag Reg.PWR_BSTAT (2 + i) true).causeAll 6 else t
    .next (t.post 0x0A (srcOf 0 0) (bytesLE 1 i ++ bytesLE 1 (b2n on) ++ bytesLE 2 0 ++ s.frameBytes) everyLog false)

/-! ### O jobs (R36, R53, R54) -/

/-- cycles_in_frame of R36: the rate is that of TIM_FREQ and of a slew that runs. -/
def State.cyclesInFrame (s : State) : Nat :=
  let len := (125000 : Int) + s.alignNext - s.time.align
  let sl := if 0 < s.time.slewRem then (s.time.slewRate : Int) else if s.time.slewRem < 0 then -(s.time.slewRate : Int) else 0
  let rate := (nsUnit : Int) * 1000000 + s.freq * 1000000 + sl * nsUnit
  (75000 * len * ((nsUnit : Int) * 1000000) / (125000 * rate)).toNat - 80

/-- The frame as the commands of TIM_CMD that take effect at its start leave it (R317, R319). -/
def State.timed (s : State) : State :=
  let t := match execPhaseStepApply s with
    | .next u => u
    | _ => s
  match execSlewStart t with
  | .next u => u
  | _ => t

/-- Whether a job is periodic. -/
def OJob.periodic (j : OJob) : Bool := j.kind == 1 || j.kind == 2 || j.kind == 7

/-- A job changes. -/
def State.modJob (s : State) (ix : Nat) (f : OJob → OJob) : State :=
  { s with ojobs := s.ojobs.map (fun j => if j.index = ix then f j else j) }

/-- A periodic job's activation in its frame (R41, R54): it takes the place of a run that still waits, which is counted as
dropped; a task that overran skips it (R249). -/
def State.activate (s : State) (j : OJob) : State :=
  if j.periodic = false ∨ s.frame % 2 ^ j.n ≠ j.phase then s
  else
    let p := j.target / 8
    let t := j.target % 8
    if j.kind = 7 ∧ (nth ({} : TaskSt) (s.part p).tasks t).skip = true then
      ((s.modTask p t (fun x => { x with skip := false })).satFld (Reg.SLX_TCNT p t) 15 0 1).showTask p t
    else
      let u := if j.pend = 0 then s else s.incFld (Reg.PWR_ODROP j.index) 31 0
      u.modJob j.index (fun x => { x with pend := 1 })

/-- Order of consideration: priority, then index (R53, R418). -/
def jobBefore (a b : OJob) : Bool := decide (a.prio < b.prio) || (a.prio == b.prio && decide (a.index < b.index))
def jobInsert (g : OJob) : List OJob → List OJob
  | [] => [g]
  | h :: t => if jobBefore g h then g :: h :: t else h :: jobInsert g t

/-- A deferral is counted (R54). -/
def State.defer (s : State) (ix : Nat) : State :=
  let n := (s.rd Reg.PWR_ODEF_TOT_LO).toNat + 2 ^ 32 * (s.rd Reg.PWR_ODEF_TOT_HI).toNat + 1
  ((s.incFld (Reg.PWR_ODEF ix) 31 0).wr Reg.PWR_ODEF_TOT_LO (BitVec.ofNat 32 n)).wr Reg.PWR_ODEF_TOT_HI
    (BitVec.ofNat 32 (n / 2 ^ 32))

/-- The search of R53 over jobs in order: cycles left, energy left in nJ, whether it has stopped. -/
def State.admitJobs : List OJob → Nat → Nat → Bool → State → State
  | [], _, _, _, s => s
  | j :: js, cyc, en, stop, s =>
    if j.pend = 0 then s.admitJobs js cyc en stop
    else if stop = false ∧ j.cycles ≤ cyc ∧ j.energy ≤ en then
      let t := s.modJob j.index (fun x => { x with pend := x.pend - 1, granted := x.granted + 1 })
      State.admitJobs js (cyc - j.cycles) (en - j.energy) stop { t with budget := { t.budget with ran := true } }
    else State.admitJobs js cyc en true (s.defer j.index)

/-- The O jobs of the frame are considered (R53, R54). -/
def State.admitO (s : State) : State :=
  let c := s.timed.cyclesInFrame
  let s := { s with budget := { s.budget with cycles := c, seen := some s.time.frames } }
  let t := s.ojobs.foldl (fun u j => u.activate j) s
  let g := slotLoad t.elementLoad (gTasks (t.progs false)) t.slot
  let js := t.ojobs.filter (fun (j : OJob) => !(j.kind == 7 && t.swapsNext (j.target / 8)))
  State.admitJobs (js.foldl (fun a j => jobInsert j a) []) (c - 3000 - g) (t.fld Reg.PWR_ALLOW 30 0) false t

/-- O jobs are considered once in a frame in which the triad runs a plan (R57), when the plan stands. -/
def State.considerO (s : State) : State :=
  if s.planRuns = false ∨ s.swapNow = true ∨ s.budget.seen = some s.time.frames then s else s.admitO

/-- INGRESS_AGREEMENT, the first work of a frame in which a plan runs (R44, R216): the effects of the frame's start have been taken, and
the frame's O jobs are considered (R53, R57; assumption log 13). -/
def execIngressAgreement (first second : List (BitVec 64)) (cycle : Nat) (s : State) : R :=
  if s.planRuns = false ∨ s.triad.turn ≠ 0 then .next s else s.considerO.ingress first second cycle

/-- As a frame ends, runs that were admitted and not taken: those of an on-demand job wait on, and those of a B-tier task that the
coming swap held back (R257). -/
def State.returnRuns (s : State) : State :=
  { s with ojobs := s.ojobs.map (fun (j : OJob) =>
    if j.kind = 7 ∧ s.swapsNext (j.target / 8) = true then { j with pend := max j.pend j.granted, granted := 0 }
    else if j.periodic then { j with granted := 0 }
    else if j.kind = 4 ∨ j.kind = 5 then { j with pend := max j.pend j.granted, granted := 0 }
    else { j with pend := j.pend + j.granted, granted := 0 }) }

/-! ### Rows that change the plan or the mode at a boundary -/

/-- SCHEME_SWAP: at the boundary g the shadow bank becomes active (R257 steps 3 and 4, R258, R259). -/
def execSchemeSwap (part : Fin 4) (s : State) : R :=
  let p := part.val
  match s.run.swapDue.find? (fun e => e.1 == p) with
  | none => .next s
  | some e =>
    if frameReached s.frame e.2 then
      let x := s.part p
      let c := x.carried.getD (s.carryOver p)
      let mv := s.moveForces p
      let same := fun t => s.taskSame p t
      let ended := mv.2.1.length
      let t := mv.2.1.foldl (fun s f => s.schemeRecord p 5 255 f.kind f.index 0 (s.forceId p f)) s
      let t := { t with ojobs := s.swapJobs p same, run := { t.run with swapDue := t.run.swapDue.filter (fun a => a.1 != p) } }
      let vars := mv.1.foldl (fun v f => v.force f.kind f.index f.value) c.1
      let t := t.modPart p (fun y => { y with
        prog := y.shadow, shadow := {}, shadowJobs := [], vars := vars, carried := none
        tasks := (List.range 8).map (fun i => if same i then nth {} y.tasks i else {}) })
      let t := (List.range 8).foldl (fun s i => if same i then s else s.wr (Reg.SLX_TCNT p i) 0#32) t
      let t := (((t.setForces p mv.1).showTasks p).showHash p).clearChanged s.ojobs
      let k := Reg.SLX_PSTAT p
      let t := (t.setFld k 31 30 0).setFlag k 29 (!s.flag k 29)
      let t := (t.wr (Reg.SLX_SWAP p) (BitVec.ofNat 32 e.2)).satFld (Reg.SLX_CHGCNT p) 31 16 ended
      let t := t.incFld (Reg.SLX_CHGCNT p) 15 0
      let u : State := t.schemeRecord p 6 255 0 c.2.1 c.2.2 (mv.2.2 + 65536 * ended)
      .next (if u.triad.turn = 0 then u else u.considerO)
    else .next s

/-- TRIAD_RESTART: at its boundary exclusions clear, element and scheme state takes its initial values and the plan starts
(R67); FAULT_N held by an exit from SAFE is released (R66). -/
def execTriadRestart (s : State) : R :=
  match s.run.restartAt with
  | some g =>
    if frameReached s.frame g then
      let t := s.planStops
      let t := ((t.clearTriad).initElements).initScheme false
      let t := (t.setFlag Reg.PWR_TRIAD 9 false).setFlag Reg.PWR_TRIAD 8 true
      let t := { t with run := { t.run with restartAt := none } }
      .next ((t.powerRecord 8 1 0).releaseFault.latchTstat)
    else .next s
  | none => .next s

/-- MODE_REQUEST_EFFECT: the request is checked at the start of frame f + 3 and its outcome written to SYS_MODE_RES (R61-R66).
Fault transitions of the boundary have been applied by FRAME_BOUNDARY (R63). -/
def execModeRequestEffect (s : State) : R :=
  match s.due Reg.SYS_MODE_REQ with
  | some r =>
    let v := field r.value 2 0
    let c := s.modeCode v
    let t := (s.setReq Reg.SYS_MODE_REQ none).setFlag Reg.SYS_MODE_REQ 31 false
    let t := t.wr Reg.SYS_MODE_RES (BitVec.ofNat 32 (portCode r.port * 2 ^ 29 + v * 16 + c))
    .next (if c = 0 then t.takeMode v (portCode r.port) else t)
  | none => .next s

end Sys2Proof.Machine
end

