-- ==== Sys2Proof/Machine/Frame.lean ====
section
/-!
DEFINITION. Sys2Proof/Machine/Frame.lean: the frame boundary (R38-R45): rows FRAME_BOUNDARY, G_JOB_DEADLINE_MISS.
-/
namespace Sys2Proof.Machine

/-! ### Interrupts at a frame's end (R386, R387) -/

/-- Vector v of port p is signalled: a message, or its pending bit while the vector is masked. -/
def State.signal (s : State) (p : Fin 4) (v : Nat) : State :=
  if s.flag (bar2Key p.val (0x200C + 16 * v)) 0 then s.setFlag (bar2Key p.val 0x3000) v true else s.emit (.msix p v)

/-- The rings behind vectors 0 to 3. -/
def vecRing : Nat → Ring
  | 0 => .cpl
  | 1 => .evq
  | 2 => .rcq
  | _ => .msq

/-- Vector q of port p at a frame's end (R386). -/
def State.queueVector (s : State) (p : Fin 4) (q : Nat) : State :=
  let x := s.port p.val
  let c := s.rd (hqKey p.val (ringCtl (vecRing q)).1)
  let drop := fun (y : PortSt) => { y with got := natSetBit y.got q false }
  if natBit x.got q = false then s
  else if bit c 1 = false then s.modPort p.val drop
  else
    let passed := match nth none x.lastSig q with
      | some f => decide (f + field c 15 8 ≤ s.time.frames)
      | none => true
    if passed then
      (s.modPort p.val (fun y => { drop y with lastSig := modAt y.lastSig q (fun _ => some s.time.frames) })).signal p q
    else s

/-- The causes of the frame set their bits; a bit that sets signals its vector where HQ_IEN permits (R387). -/
def State.causeVector (s : State) (p : Fin 4) (m n : Nat) : State :=
  let k := hqKey p.val Reg.HQ_ISTAT
  if natBit m n = false ∨ s.flag k n = true then s
  else
    let t := s.setFlag k n true
    if t.flag (hqKey p.val Reg.HQ_IEN) n then t.signal p n else t

/-- Every vector of every port as a frame ends. -/
def State.signals (s : State) : State :=
  let ms := s.causes
  let t := { s with causes := [0, 0, 0, 0] }
  ([0, 1, 2, 3] : List (Fin 4)).foldl (fun t p =>
    let u := (List.range 4).foldl (fun u q => u.queueVector p q) t
    (List.range 12).foldl (fun u i => u.causeVector p (nth 0 ms p.val) (4 + i)) u) t

/-! ### The frame ends -/

/-- A G job that has not completed at the end of its frame: the entry to SAFE with cause 7 is decided, with SAFE's outputs; its event is
the record of the mode change (R45). -/
def State.missDeadline (s : State) : State := if s.planRuns = true ∧ s.jobsDone = false then s.toSafe 7 else s

/-- Work of the ending frame that no command has called for: stage A and the recorders' rows, which precede the frame's close
(R26), the last strobes of the captures that end in it (R203); then the deadline of the G jobs (R45). -/
def State.finishFrame (s : State) : State :=
  let t := s.ensureFormed
  ((List.range 16).foldl (fun t r => t.writeRows r) t).acqMasks.twTail.missDeadline

/-- The output command set, the GOOSE datasets and the queue writes are released (R45, R60, R224): the mode that governs them is SAFE once an entry
to SAFE has been decided. -/
def State.releaseFrame (s : State) : State :=
  let m := if s.triad.safeOut then mSAFE else s.behaved
  let t := (List.range s.pbx.pubs.length).foldl (fun t c => t.publish c s.frame m) s
  let t := t.sendOutputs
  (t.acqBoundary t.fio.released).releaseQueues

/-- What the lanes and bays keep of the image that ends (R161, R178): their words and phasors join the histories. -/
def State.keepImage (s : State) : State :=
  let ls := (s.lanes.zipIdx).map (fun e =>
    { e.1 with eHist := ((s.img (16 + e.2), e.1.eGain) :: e.1.eHist).take 402, eGain := (nth (0#32, 0) e.1.hist 0).2 })
  let bs := (s.bays.zipIdx).map (fun e => { e.1 with phHist := (s.livePh e.2 :: e.1.phHist).take 1204 })
  { s with lanes := ls, bays := bs }

/-- The settings under which the frame's data are formed are taken (R65, R81, R103, R151, R208). -/
def State.latchSettings (s : State) : State :=
  let t := (List.range 384).foldl (fun t l => t.formLane l) s
  let t := (List.range 48).foldl (fun t b => t.formBay b) t
  let t := (List.range 32).foldl (fun t b => t.countWindows b) t
  let t := (List.range 256).foldl (fun t l => t.laneFrameEnd l) t.twBoundary
  { t with run := { t.run with formed := false, jobs := [] } }

/-- The streams' words and counts, the survey's frames (R127, R340-R342). -/
def State.streamFrame (s : State) : State :=
  let start := s.time.frRunSec * 1000000000 + s.time.frNsec
  let t := (List.range 16).foldl (fun t i => t.resample i start s.testMode) s.sniffFrame
  (List.range 16).foldl (fun t i => t.countStream i) t

/-- The counters step over the boundary (R38, R39, R318): the instants of the last frames move up. -/
def State.countFrame (s : State) : State :=
  let x := s.time
  let t := { s with time := { x with
    p3Len := x.p2Len, p2Len := x.prLen, prLen := (x.tbNs + 2 ^ 32 - x.frTb % 2 ^ 32) % 2 ^ 32
    p3Tb := x.p2Tb, p3Nsec := x.p2Nsec, p3Sec := x.p2Sec
    p2Tb := x.prTb, p2Nsec := x.prNsec, p2Sec := x.prSec
    prTb := x.frTb, prNsec := x.frNsec, prSec := x.frSec
    frTb := x.tbNs, frWrap := x.wrap, frNsec := x.nsec, frSec := x.sec, frRunSec := x.runSec
    rollAtStart := decide (x.nsec = 0), sinceStep := min 33 (x.sinceStep + 1), stepAge := x.sinceStep, frames := x.frames + 1 } }
  let t := t.wr Reg.ENG_FRAME (s.rd Reg.ENG_FRAME + 1#32)
  let t := t.setFld Reg.ENG_FSEC 13 0 ((s.fld Reg.ENG_FSEC 13 0 + 1) % 16000)
  t.setFld Reg.TIM_STAT 31 16 (s.fld Reg.TIM_STAT 31 16 - 1)

/-- The open image closes (R213, R214): units of the hardware sections delivered in the frame are complete, GOOSE units come by
COMMIT_UNIT; host-written values and element controls whose frame has come join it. -/
def State.closeImage (s : State) : State :=
  let f := s.frame
  let hw := s.triad.units.filter (fun u => decide (u.1 < 0xE18))
  let im := hw.foldl (fun m u => imgPut m u.1 u.2) s.triad.next
  let vals := s.triad.hostVals.filter (fun v => frameReached f v.1)
  let im := vals.foldl (fun m v => imgPut m v.2.1 [v.2.2]) im
  let im := s.imageControls f im
  let t := { s with triad := { s.triad with
    image := im, next := im
    units := s.triad.units.filter (fun u => !decide (u.1 < 0xE18))
    hostVals := s.triad.hostVals.filter (fun v => !frameReached f v.1) } }
  t.dropControls f

/-- The auxiliary converter's frame (R124, R125): marks of the last window, VALID, NOWIN. -/
def State.auxFrame (s : State) : State :=
  let win := s.aux.win
  let run := if win then min 16 (s.aux.winRun + 1) else 0
  let t := (List.range 32).foldl (fun t i => t.setFlag (Reg.SNF_INT i) 31 (s.aux.fresh.contains (16 + i))) s
  let t := t.setFlag Reg.SNF_SUPSTAT 31 (run == 16)
  let t := if win then t else t.incFld Reg.SNF_SUPSTAT 15 0
  -- an enable stays in effect however long it lasts
  let ref := s.aux.refAt.map (fun f => if 32 ≤ (s.frame + 2 ^ 32 - f) % 2 ^ 32 then (s.frame + 2 ^ 32 - 64) % 2 ^ 32 else f)
  { t with aux := { t.aux with win := false, fresh := [], winRun := run, refAt := ref } }

/-- The triad's frame: a heel's copy and its progress, the sweep's mark, the memory of a failed self-test (R66, R222, R227, R228,
R230). -/
def State.triadFrame (s : State) : State :=
  let s := s.heelStep
  let s := if s.triad.tested then s else s.setFld Reg.ENG_VTEST 2 0 0
  let t := if s.flag Reg.ENG_TSTAT 8 then
      s.setFld Reg.ENG_HEEL 23 16 (min 64 ((s.frame + 2 ^ 32 - s.triad.heelFrom) % 2 ^ 32))
    else s
  let t := t.setFlag Reg.ENG_SWEEP 8 s.triad.swept
  let old := match s.triad.vfail with
    | some f => decide (256 < (s.frame + 2 ^ 32 - f) % 2 ^ 32)
    | none => false
  let t := if old then t.setFlag Reg.ENG_VTEST 31 false else t
  let not := match s.triad.sweepNot with
    | some (m, f) => if frameReached s.frame f then none else some (m, f)
    | none => none
  { t with triad := { t.triad with swept := false, held := false, turn := 0, tested := false, sweepNot := not
                                   vfail := if old then none else s.triad.vfail } }

/-! ### The frame begins -/

/-- What the mode and time commands due at the start of the present frame make of it, in the order of R62, R63, R422 and R317. Their
rows follow FRAME_BOUNDARY; the status flit carries what they leave (R456; assumption log 19). -/
def State.started (s : State) : State :=
  [execStandbyEntry, execModeRequestEffect, execPedigreeLoad 0, execPedigreeLoad 1, execPedigreeLoad 2, execPedigreeLoad 3,
    execPhaseStepApply].foldl (fun s row => match row s with
      | .next t => t
      | _ => s) s

/-- The frame-strobe flit, with ENG_FRAME in its first payload bytes (assumption log 58), and the status flit, with time and mode at the
start of the frame (R31, R456). -/
def State.sendStrobe (s : State) : State :=
  let t := s.sendFree .engine 2 s.frameBytes
  let a := s.started
  t.sendFlit .engine 6 0 0 (s.frameBytes ++ bytesLE 4 a.time.frTb ++ bytesLE 1 a.time.frWrap ++ bytesLE 1 a.mode)

/-- What takes effect at the boundary itself: fault transitions first (R63), references, a QSPI load (R427). -/
def State.boundaryEffects (s : State) : State :=
  let s := { s with sec := { s.sec with wholeNow := false } }
  let t := s.enterSafe.enterDegraded.enterHealed.refsApply
  if t.hostLoadDue then t else t.qspiEffect

/-- FRAME_BOUNDARY. -/
def execFrameBoundary (s : State) : R :=
  if s.phase ≠ .running then .next s
  else
    let e := s.finishFrame
    -- the instant of the boundary
    let a := e.alignNext
    let e := e.advance e.toBoundary
    let e := { e with time := { e.time with align := a } }
    -- the end of the frame
    let was := e.fio.released
    let win := e.aux.win
    let e := (e.releaseFrame.showStatuses.keepImage.latchSettings.streamFrame.countBudget.returnRuns).signals
    let on := (List.range 32).filter (fun n => bit e.fio.released n && !bit was n)
    -- the start of the next
    let t := (e.countFrame.closeImage.auxFrame.triadFrame).bankSums.fioSections
    let t := t.boundaryEffects.latchTstat.showForced
    .next (t.formBudget win on).sendStrobe

/-! ### A G job that has not completed (R45) -/

/-- G_JOB_DEADLINE_MISS: the frame ends and a G job of it is not complete. No further job of it runs. -/
def execGJobDeadlineMiss (s : State) : R :=
  .next (if s.planRuns = true ∧ s.jobsDone = false then
      let t := s.missDeadline
      { t with triad := { t.triad with held := true } }
    else s)

end Sys2Proof.Machine
end

