-- ==== Sys2Proof/Machine/MemCtl.lean ====
section
/-!
DEFINITION. Sys2Proof/Machine/MemCtl.lean: correction, scrubbing, row retirement, the leaky bucket, the merge buffer and the checker
test (R402-R411): rows CORRECTION_WRITE_BACK, SCRUB_STEP, ROW_RETIRE_COMPLETE, BUCKET_LEAK, MERGE_BUFFER_FLUSH,
CHECKER_TEST_WRITE, CHECKER_TEST_READ.
-/
namespace Sys2Proof.Machine

/-! ### Hard words (R404, R405) -/

/-- Spare rows of a region: provided, used. -/
def State.spares (s : State) (region : Nat) : Nat × Nat :=
  (s.fld (Reg.MEM_RSPARE region) 7 0, s.fld (Reg.MEM_RSPARE region) 15 8)

/-- A word is declared hard, once: its record, with flags of who found it; where a spare is free its row begins to move. -/
def State.declareHard (s : State) (region w syn flags : Nat) : State :=
  if s.mst.hard.contains (region, w) then s
  else
    let s := { s with mst := { s.mst with hard := (region, w) :: s.mst.hard } }
    let t := (s.satFld (Reg.MEM_RSPARE region) 31 16 1).setFlag (Reg.MEM_RFLAG region) 1 true
    let t := t.memRecord region 1 syn (flags + protFlag region w) w 0
    let moving : List (Nat × Nat × Nat) := s.mst.retiring.filter (fun e => e.1 == region)
    let spare : Nat := (s.spares region).2 + moving.length
    if spare < (s.spares region).1 ∧ moving.any (fun e => e.2.1 == w / 64) = false then
      { t with mst := { t.mst with retiring := t.mst.retiring ++ [(region, w / 64, spare)] } }
    else t

/-- The bits of a stored word that are in error: data below, check bits above. -/
def State.putUpset (s : State) (region w : Nat) (upset : BitVec 39) : State :=
  if upset = 0#39 then s
  else s.putRaw region w (s.rawData region w ^^^ upset.setWidth 32) (s.rawCheck region w ^^^ (upset >>> 32).toNat)

/-- CORRECTION_WRITE_BACK: the corrected word, as the read had it, is written and read again; `upset` are the bits that the verifying
read finds wrong. A write since the read has cancelled it (R402, R404). A word that the checker test wrote is not declared hard (R411). -/
def execCorrectionWriteBack (region : Fin 9) (addr : Nat) (upset : BitVec 39) (s : State) : R :=
  let r := region.val
  match s.mst.wb.find? (fun b => b.region == r && b.addr == addr) with
  | none => .next s
  | some b =>
    let raw := s.mst.raw.contains (r, addr)
    let t := s.putRaw r addr b.data (checkBits b.data)
    let t := { t with mst := { t.mst with
      wb := t.mst.wb.filter (fun x => !(x.region == r && x.addr == addr))
      raw := t.mst.raw.filter (fun e => !(e.1 == r && e.2 == addr)) } }
    let t := t.putUpset r addr upset
    let y := syndrome (t.rawData r addr) (t.rawCheck r addr)
    if y = 0 ∨ raw = true then .next t else .next (t.declareHard r addr y b.flags)

/-- The scrubber finds an uncorrectable word: it is counted, recorded and written poisoned; in the protected area SAFE follows (R403,
R410). -/
def State.scrubBad (s : State) (r w : Nat) : State :=
  let d := s.rawData r w
  let t := (s.countBad r w).memRecord r 3 (syndrome d (s.rawCheck r w)) (1 + protFlag r w) w 0
  let t := t.poisonMem r w d
  if inProtected r w then t.toSafe 5 else t

/-- ROW_RETIRE_COMPLETE: the scrubber's copy of the region's oldest moving row is in its spare, corrected, and the address map has
switched: its words are hard no longer (R405). -/
def execRowRetireComplete (region : Fin 9) (s : State) : R :=
  let r := region.val
  match s.mst.retiring.find? (fun e => e.1 == r) with
  | none => .next s
  | some e =>
    let t := (List.range 64).foldl (fun s i =>
      let w := 64 * e.2.1 + i
      let d := eccDecode (s.rawData r w) (s.rawCheck r w)
      match d.1 with
      | .fixed => s.putRaw r w d.2 (checkBits d.2)
      | .bad => s.scrubBad r w
      | _ => s) s
    let t := { t with mst := { t.mst with
      retiring := t.mst.retiring.filter (fun x => x != e), retired := t.mst.retired ++ [e]
      hard := t.mst.hard.filter (fun x => !(x.1 == r && x.2 / 64 == e.2.1)) } }
    let t : State := (t.incFld (Reg.MEM_RSPARE r) 15 8).memRecord r 5 0 (17 + protFlag r (64 * e.2.1)) (64 * e.2.1) e.2.2
    let u : Nat × Nat := t.spares r
    if u.2 = u.1 then .next ((t.setFlag (Reg.MEM_RFLAG r) 3 true).memRecord r 6 0 (1 + protFlag r (64 * e.2.1)) (64 * e.2.1) 0) else .next t

/-! ### Scrubbing (R403, R404, R410) -/

/-- Words of a scrub step, and its time in us. -/
def scrubWords (region : Nat) : Nat := if region = 4 ∨ region = 5 then 64 else 1
def scrubUs (region : Nat) : Nat := if region = 4 ∨ region = 5 then 20 else if region = 6 then 16 else 1

/-- The scrubber meets one word. -/
def State.scrubWord (s : State) (r w : Nat) : State :=
  let c := s.rawCheck r w
  let d := s.rawData r w
  let e := eccDecode d c
  let y := syndrome d c
  match e.1 with
  | .clean => s
  | .fixed =>
    let again := s.mst.passLast.contains (r, w, y) && !s.mst.raw.contains (r, w)
    let t := s.countCorrection r w y 1
    let t := t.putRaw r w e.2 (checkBits e.2)
    let t := { t with mst := { t.mst with passNow := t.mst.passNow ++ [(r, w, y)] } }
    if again then t.declareHard r w y 1 else t
  | .bad => s.scrubBad r w
  | .poison => s.countBad r w

/-- SCRUB_STEP: the words at the region's scrub position, those of `upsets` with bits flipped since their last access. Scrubbing runs
from the end of FILL. -/
def execScrubStep (region : Fin 9) (upsets : List Upset) (s : State) : R :=
  let r := region.val
  let n := s.regionWords r
  if s.flag Reg.MEM_CFG 31 = false ∨ n = 0 then .next s
  else
    let at_ := nth 0 s.mst.scrub r
    let k := scrubWords r
    let t := upsets.foldl (fun s u =>
      if u.word.val < k ∧ at_ + u.word.val < n then s.putUpset r (at_ + u.word.val) u.bits else s) s
    let t := (List.range k).foldl (fun t i => if at_ + i < n then t.scrubWord r (at_ + i) else t) t
    let steps := nth 0 s.mst.steps r + 1
    if at_ + k < n then
      .next { t with mst := { t.mst with scrub := modAt t.mst.scrub r (fun _ => at_ + k), steps := modAt t.mst.steps r (fun _ => steps) } }
    else
      let m := t.mst
      let mine := fun (e : Nat × Nat × Nat) => e.1 == r
      let t := { t with mst := { m with
        scrub := modAt m.scrub r (fun _ => 0), steps := modAt m.steps r (fun _ => 0)
        passLast := m.passLast.filter (fun e => !mine e) ++ m.passNow.filter mine
        passNow := m.passNow.filter (fun e => !mine e) } }
      .next ((t.incFld (Reg.MEM_RSCRUB r) 31 16).setFld (Reg.MEM_RSCRUB r) 15 0
        (unitOf (mkRat ((steps * scrubUs r : Nat) : Int) 100000)).toNat)

/-! ### Bucket, merge buffer, checker test (R406, R407, R411) -/

/-- LEAK of a region on the elapsed clock. -/
def State.leakSpan (s : State) (r : Nat) : Nat := s.fld (Reg.MEM_RBKTCFG r) 31 16 * 1000000 * nsUnit

/-- Whether LEAK ms have passed since the region's bucket last leaked. -/
def State.leakDue (s : State) (r : Nat) : Bool :=
  s.leakSpan r != 0 && decide (nth 0 s.mst.leakAt r + s.leakSpan r ≤ s.time.elapsed)

/-- BUCKET_LEAK: the level falls by one when LEAK ms have passed; no leak when LEAK = 0 (R406). -/
def execBucketLeak (region : Fin 9) (s : State) : R :=
  let r := region.val
  let k := Reg.MEM_RBKT r
  if s.leakDue r = false then .next s
  else .next ({ s with mst := { s.mst with leakAt := modAt s.mst.leakAt r (fun t => t + s.leakSpan r) } }.setFld k 15 0 (s.fld k 15 0 - 1))

/-- MERGE_BUFFER_FLUSH: the region's oldest entry is flushed. -/
def execMergeBufferFlush (region : Fin 9) (s : State) : R :=
  match s.mst.merge.find? (fun e => e.region == region.val) with
  | some e => .next (s.flushMerge e)
  | none => .next s

/-- rsv bits of MEM_TCTL. -/
def tctlRsv : Word := 0x70FFFFFC#32

/-- The code of a checker-test operation: mode, region, address, in that order of the codes. -/
def State.testCode (s : State) : Nat :=
  let r := s.fld Reg.MEM_TREG 3 0
  let w := (s.rd Reg.MEM_TADDR).toNat
  if r ≠ 3 ∧ r ≠ 4 ∧ r ≠ 5 ∧ r ≠ 8 then 2
  else if r ≠ 8 ∧ s.behaved ≠ mCOMMISSION then 1
  else if s.regionWords r ≤ w ∨ inProtected r w then 3
  else 0

/-- The raw write (R411): a write of the word like any other for what waits on it. -/
def State.testWrite (s : State) : State :=
  let r := s.fld Reg.MEM_TREG 3 0
  let w := (s.rd Reg.MEM_TADDR).toNat
  let t := s.wrMem r w (s.rd Reg.MEM_TDATA)
  let t := t.putRaw r w (s.rd Reg.MEM_TDATA) (s.fld Reg.MEM_TCHK 6 0)
  { t with mst := { t.mst with raw := t.mst.raw ++ [(r, w)] } }

/-- The decode in MEM_TRSTAT. -/
def eccCode : Ecc → Nat
  | .clean => 0
  | .fixed => 1
  | .bad => 2
  | .poison => 3

/-- The raw read. -/
def State.testRead (s : State) : State :=
  let r := s.fld Reg.MEM_TREG 3 0
  let w := (s.rd Reg.MEM_TADDR).toNat
  let d := s.rawData r w
  let c := s.rawCheck r w
  (s.wr Reg.MEM_TRDATA d).wr Reg.MEM_TRSTAT
    (BitVec.ofNat 32 (eccCode (eccDecode d c).1 * 65536 + c * 256 + syndrome d c))

/-- The action of a write of MEM_TCTL: performed at once, WR before RD. -/
def wrTctl (v : Word) (s : State) : State :=
  if bit v 0 = false ∧ bit v 1 = false then s
  else
    let c := s.testCode
    let t := s.setFld Reg.MEM_TCTL 27 24 c
    if c ≠ 0 then t
    else
      let t := if bit v 0 then t.testWrite else t
      if bit v 1 then t.testRead else t

/-- CHECKER_TEST_WRITE: a write of MEM_TCTL with WR = 1. -/
def execCheckerTestWrite (p : Port) (v : Word) (s : State) : R :=
  gate s p .engine .global tctlRsv Reg.MEM_TCTL (v ||| 1#32) wrTctl

/-- CHECKER_TEST_READ: a write of MEM_TCTL with RD = 1. -/
def execCheckerTestRead (p : Port) (v : Word) (s : State) : R :=
  gate s p .engine .global tctlRsv Reg.MEM_TCTL (v ||| 2#32) wrTctl

end Sys2Proof.Machine
end

