-- ==== Sys2Proof/Machine/System.lean ====
section
/-!
DEFINITION. Sys2Proof/Machine/System.lean: resets, start-up and the supervisor's supplies (R74-R76, R303, R304, R401, R437, R438):
rows POWER_ON, RESET_N_ASSERT, RESET_N_RELEASE, SUPPLY_BELOW_THRESHOLD, SUPPLY_ABOVE_THRESHOLD, SYS_RESET_KEY,
CLOCK_START_COMPLETE, FILL_COMPLETE, SUPERVISOR_POWER_UP, SUPERVISOR_STOP, VDD_AO_WARNING, VDD_AO_WARNING_CLEAR,
SRAM_ZEROING_COMPLETE.
-/
namespace Sys2Proof.Machine

/-! ### Device reset (R74) -/

/-- Cells of a memory region. -/
def inRegion (r : Nat) (c : Host.Cell) : Bool := c.1 / 2 ^ 36 == r

/-- Registers that a reset keeps: EVL_KSTAT, EVL_KFEND, EVL_KWPTR, EVL_KOLD (R312) and FIO_BDROP (R365). -/
def retainedKeys : List Nat := [Reg.EVL_KSTAT, Reg.EVL_KFEND, Reg.EVL_KWPTR, Reg.EVL_KOLD, Reg.FIO_BDROP]

/-- Where start-up stands in reset: clock start waits for the supplies and for the release of RESET_N (R75, R437). -/
def State.startPhase (s : State) : Phase :=
  if s.pins.supplies = false then .off else if s.pins.resetN = false then .held else .clockStart

/-- A device reset: every field takes its reset value but the kennel with its pointer words, the fuses, the supervisor with the service
port but for HQ_SVLAST, the dropped banks with their releases that wait, and the field supplies; the commands that wait and what has been sent are the model's own. -/
def State.deviceReset (s : State) (cause req : Nat) : State :=
  let t : State := { State.reset with
    pending := s.pending, freeIx := s.freeIx, sent := s.sent, rdata := s.rdata, phase := s.startPhase, sup := { s.sup with svLast := 0 }, pins := s.pins
    mem := s.mem.filter (inRegion 6)
    regs := s.regs.filter (fun e => retainedKeys.contains e.1) }
  let t := { t with
    evl := { t.evl with
      kennel := { s.evl.kennel with run := none }, kfend := s.evl.kfend, kwptr := s.evl.kwptr, kold := s.evl.kold
      kfull := s.evl.kfull }
    run := { t.run with bootPin := s.run.bootPin, resetCause := cause, resetReq := req }
    sec := { t.sec with
      anchors := s.sec.anchors, revoked := s.sec.revoked, damaged := s.sec.damaged, counter := s.sec.counter }
    fio := { t.fio with mv := s.fio.mv, releasing := s.fio.releasing }
    hq := { t.hq with svcLast := s.hq.svcLast } }
  (t.showFuses).setFlag Reg.SYS_STAT 7 s.run.bootPin

/-- AGE of a RESET record (R456): us of KCLK since the last status flit arrived. KCLK lies within 5 % of its nominal rate; how far off,
and the time for which the engine's clocks stood, are free (assumption log 2). -/
def State.resetAge (s : State) (w : Word) : Word :=
  match s.sup.since with
  | some n => BitVec.ofNat 32 (n * (950000 + w.toNat % 100001) / 1000000000 + if s.sup.stood then Config.freeNat s.freeIx else 0)
  | none => w

/-- The supervisor's RESET record (R297). -/
def State.resetRecord (s : State) : State :=
  let f := s.free
  let t := f.2.supRecord 0x05 (bytesLE 1 s.run.resetCause ++ bytesLE 1 (if s.run.resetCause = 3 then s.run.resetReq else 0)
    ++ [0#8, 0#8] ++ wordBytes (s.resetAge f.1))
  { t with sup := { t.sup with stood := true } }

/-- A device reset while the supervisor runs: it writes the RESET record. -/
def State.resetBy (s : State) (cause req : Nat) : State :=
  let t := s.deviceReset cause req
  if t.sup.running then t.resetRecord else t

/-- Every bank drop is released: FIO_BDROP clears (R364, R437). -/
def State.releaseDrops (s : State) : State :=
  (List.range 4).foldl (fun s m => s.showBank m) (s.wr Reg.FIO_BDROP 0#32)

/-- The supervisor stops: what it held outside the retained state is lost (R307, R364, R437). -/
def State.supervisorOff (s : State) : State :=
  let k := s.evl.kennel
  let t := s.releaseDrops
  let t := { t with
    sup := { running := false, warning := t.sup.warning }
    evl := { t.evl with arriving := [] }
    hq := { t.hq with svcLast := 0 } }
  t.putStore .kennel { k with staged := [], lost := none, run := none }

/-- VKEEP was absent while VDD_AO was: the pointer words are lost, and the kennel with them (R304, R438). -/
def State.keepLost (s : State) : State :=
  { s with evl := { s.evl with kfend := 0#32, kwptr := 0#32, kold := 0#32, kfull := 0#32, kennel := {} } }

/-- POWER_ON: the supplies rise with RESET_N low; the supervisor's own power-up is SUPERVISOR_POWER_UP. `retained` says whether VKEEP
held: without it the pointer words are lost (R74, R304, R438). -/
def execPowerOn (retained : Bool) (s : State) : R :=
  let t := ({ s.supervisorOff with pins := { resetN := false } }).deviceReset 1 0
  let t := { t with sup := { running := false } }
  .next (if retained then t else t.keepLost)

/-- RESET_N_ASSERT: pulses below 200 ns are rejected, from 1 us on they reset; between, the manual leaves it to the device (R74,
R443). -/
def execResetNAssert (widthNs : Nat) (s : State) : R :=
  if 1000 ≤ widthNs ∨ (200 ≤ widthNs ∧ Config.resetPulse widthNs = true) then
    .next (({ s with pins := { s.pins with resetN := false } }).resetBy 2 0)
  else .next s

/-- RESET_N_RELEASE: BOOT_SRC is sampled and clock start begins, with the supplies valid (R75, R76). -/
def execResetNRelease (bootSrc : Bool) (s : State) : R :=
  if s.pins.resetN then .next s
  else
    let t := { s with pins := { s.pins with resetN := true }, run := { s.run with bootPin := bootSrc } }
    .next (({ t with phase := t.startPhase }).setFlag Reg.SYS_STAT 7 bootSrc)

/-- SUPPLY_BELOW_THRESHOLD: VDD_ENG or VDD_SOC falls below 0.70 V (R437). -/
def execSupplyBelowThreshold (s : State) : R :=
  .next (({ s with pins := { s.pins with supplies := false } }).resetBy 4 0)

/-- SUPPLY_ABOVE_THRESHOLD: both rise above 0.72 V and the device leaves that reset (R437). -/
def execSupplyAboveThreshold (s : State) : R :=
  if s.pins.supplies then .next s
  else
    let t := { s with pins := { s.pins with supplies := true } }
    .next { t with phase := t.startPhase }

/-- The action of a write of SYS_RESET. -/
def wrSysReset (p : Port) (v : Word) (s : State) : State :=
  if field v 15 0 = 0xA5C3 then s.resetBy 3 (portCode p) else s

/-- SYS_RESET_KEY: a write of 16#A5C3 by the custodian or the SVC resets the device; other values have no effect (R74). -/
def execSysResetKey (p : Port) (v : Word) (s : State) : R :=
  gate s p .always .global 0xFFFF0000#32 Reg.SYS_RESET v (wrSysReset p)

/-! ### Start-up (R75, R76, R401) -/

/-- CLOCK_START_COMPLETE: frame 0 begins and FILL is entered; the field banks are judged (R347). -/
def execClockStartComplete (s : State) : R :=
  match s.phase with
  | .clockStart => .next ({ s with phase := .running }).judgeBanks
  | _ => .next s

/-- Registers of the arrays that stand in the window SRAM and that a host writes (R345, R396). -/
def windowReg (k : Nat) : Bool := (List.range 4).any (fun p => decide (Reg.PBX_PTX p 0 ≤ k) && decide (k ≤ Reg.PBX_PTX p 63))

/-- SRAM_ZEROING_COMPLETE: every SRAM but the kennel is zero with valid check bits, the arrays of the window SRAM with it (R401). -/
def execSramZeroingComplete (s : State) : R :=
  if s.phase = .running ∧ s.mode = mFILL then
    .next { s with
      mem := s.mem.filter (fun c => inRegion 4 c || inRegion 5 c || inRegion 6 c)
      mst := { s.mst with sramDone := true }
      regs := s.regs.filter (fun e => !windowReg e.1)
      pel := { s.pel with wins := s.pel.wins.map (fun w => { w with shadow := w.shadow.map (fun _ => 0#32) }) } }
  else .next s

/-- A density in GiB (R397). -/
def gibOf : Density → Nat
  | .gib2 => 2
  | .gib4 => 4
  | .gib6 => 6
  | .gib8 => 8

/-- FILL_COMPLETE: the die link and the DRAM are trained, `west` and `east` GiB are found (R397), every memory but the kennel is zero,
and the device enters LOAD; with BOOT_SRC = 1 it begins to read the QSPI store (R75, R76, R401). -/
def execFillComplete (west east : Density) (s : State) : R :=
  if s.phase = .running ∧ s.mode = mFILL then
    let t := if s.link.training then s.linkTrained else s
    let t := { t with
      mem := t.mem.filter (inRegion 6)
      mst := { t.mst with sramDone := true, wb := t.mst.wb.filter (fun b => b.region == 6), merge := [], raw := [] } }
    let t := ((t.setFld Reg.MEM_CFG 7 0 (gibOf west)).setFld Reg.MEM_CFG 15 8 (gibOf east)).setFlag Reg.MEM_CFG 31 true
    let t := (t.setMode mLOAD mFILL 7).setFault true
    let t := { t with run := { t.run with loadFrom := mLOAD } }
    .next (if s.run.bootPin then t.beginWhole (qspiLoad 0 7) else t)
  else .next s

/-! ### The supervisor's supply (R303, R304, R437, R438) -/

/-- The newest record of an area that holds records from `cur` up to `stop`, by its offset and length: the walk ends at a first word that
is not plausible data, and gives no length (R400; assumption log 25). -/
def State.newestRec (s : State) (a1 stop : Nat) : Nat → Nat → Option (Nat × Nat) → Option (Nat × Nat)
  | 0, _, best => best
  | n + 1, cur, best =>
    if cur = stop then best
    else
      let v := s.storeWord .kennel cur
      let len := v.1.toNat % 65536
      if v.2 then best
      else if len = 0 then best
      else if len = 65535 then s.newestRec a1 stop n a1 best
      else s.newestRec a1 stop n (cur + len) (some (cur, len))

/-- The bytes of a kennel record, none where a word of it is not plausible data. -/
def State.kennelSlice (s : State) (off len : Nat) : Option (List Byte) :=
  let ws := (List.range (len / 4)).map (fun i => s.storeWord .kennel (off + 4 * i))
  if ws.any Prod.snd then none else some (ws.flatMap (fun e => wordBytes e.1))

/-- Whether a record is torn: neither its CRC matches nor the CRC with REPEAT replaced by RPT2 (R304). -/
def tornRec (bs : List Byte) : Bool :=
  let n := bs.length
  let body := bs.take (n - 2)
  let crc := leAt bs (n - 2) 2
  let alt := body.take 8 ++ slice bs (n - 4) 2 ++ body.drop 10
  (crc16 body).toNat != crc && (crc16 alt).toNat != crc

/-- Whether a pointer word's complement matches. -/
def ptrOk (w : Word) : Bool := w == ptrWord (field w 15 0)

/-- SUPERVISOR_POWER_UP: `retained` says whether VKEEP held while VDD_AO was away (R438); the pointer words are checked; the newest record of each area is judged, or the kennel, lost, is zeroed and
emptied with a CLEAR record; the RESET record follows (R304, R401). -/
def execSupervisorPowerUp (retained : Bool) (s : State) : R :=
  if s.sup.running then .next s
  else
    let t := { (if retained then s else s.keepLost) with sup := {} }
    let e := t.evl
    if ptrOk e.kfend && ptrOk e.kwptr && ptrOk e.kold && ptrOk e.kfull then
      let p := t.storePtrs .kennel
      let n1 := t.newestRec 0 p.1 8192 0 none
      let n2 := if p.2.2.2 then t.newestRec 65536 p.2.1 16384 p.2.2.1 none else none
      let torn := [n1, n2].any (fun o => match o with
        | some (off, len) => match t.kennelSlice off len with
          | some bs => tornRec bs
          | none => true
        | none => false)
      .next ((if torn then t.setFlag Reg.EVL_KSTAT 28 true else t).resetRecord)
    else
      let t := { t with mem := t.mem.filter (fun c => !inRegion 6 c) }
      let t := (t.putStore .kennel {}).setPtrs .kennel 0 65536 65536 false
      let t := (t.setFlag Reg.EVL_KSTAT 27 true).supPost 0x04 (srcOf 12 4) (bytesLE 1 6 ++ [0#8, 0#8, 0#8] ++ bytesLE 4 t.sup.stFrame)
      .next t.resetRecord

/-- VDD_AO_WARNING: the supervisor starts no further kennel word; VKEEP powers the retained state (R303, R438). -/
def execVddAoWarning (s : State) : R := .next { s with sup := { s.sup with warning := true } }

/-- VDD_AO_WARNING_CLEAR (R438). -/
def execVddAoWarningClear (s : State) : R := .next { s with sup := { s.sup with warning := false } }

/-- SUPERVISOR_STOP: the supervisor stops and every bank drop is released (R437). -/
def execSupervisorStop (s : State) : R := .next s.supervisorOff

end Sys2Proof.Machine
end

