-- ==== Sys2Proof/Machine/Regs.lean ====
section
/-!
DEFINITION. Sys2Proof/Machine/Regs.lean: reads and writes of registers by address (R6, R7, R14-R23, R316, R367-R372, R391-R395): rows
REGISTER_WRITE, LOW_WORD_READ, HIGH_WORD_READ, TIM_NS_READ, CAPTURE_FIRST_READ, SVC_WRITE, SVC_READ, SVC_UNKNOWN_OPCODE,
REGISTER_ACCESS_FLIT, REGISTER_RESPONSE_FLIT.
An address below 16#100_0000 is a BAR0 offset; BAR2 offset o of a host port is written 16#100_0000 + o.
-/
namespace Sys2Proof.Machine

/-! ### Where a register is served and whose it is (R17, R19, R20, R393) -/

/-- The block of a BAR0 offset. -/
def blockOf (addr : Nat) : Nat := addr / 65536

/-- Reach of a BAR0 offset. -/
def addrReach (addr : Nat) : Reach :=
  if addr = Reg.SYS_RESET then .always
  else if addr = Reg.FIO_BDROP ∨ (0xD8000 ≤ addr ∧ addr < 0xD9000) then .superv
  else match blockOf addr with
  | 2 | 3 | 5 | 16 => .field
  | _ => .engine

/-- Scope of register (i, j) of a row. -/
def State.addrScope (s : State) (r : RegRow) (i : Nat) : Scope :=
  match blockOf r.base with
  | 2 => .owned (s.laneOwner i)
  | 3 => .owned (s.bayOwner i)
  | 4 => if r.base = Reg.DEC_ACOEF 0 then .global else .owned (s.laneOwner i)
  | 7 => .owned (s.bayOwner i)
  | 8 =>
    if r.base < Reg.PEL_ZCFG 0 then .owned (s.settingOwner i)
    else if r.base < Reg.PEL_SIDX then .owned (s.settingOwner (1024 + i))
    else if r.base < Reg.PEL_NINST then .own else .global
  | 9 =>
    if r.base < Reg.TWV_BCFG 0 then .owned (s.laneOwner i)
    else if r.base < Reg.TWV_GDLY then .owned (s.bayOwner i) else .global
  | 11 => if r.base ∈ [Reg.SLX_FIDX 0, Reg.SLX_FVAL 0, Reg.SLX_FVID 0, Reg.SLX_FCMD 0] then .shared (some i) else .owned (some i)
  | 12 => if r.base < Reg.ACQ_GBW_WEST then .owned (s.rcOwner i) else .global
  | 13 =>
    if r.base = Reg.EVL_LCTRL 0 then .shared (some i)
    else if r.base < Reg.EVL_KCTRL then .owned (some i) else .global
  | 15 =>
    if r.base < Reg.PBX_GPCFG 0 then .global
    else if r.base < Reg.PBX_GSCFG 0 then .owned (s.pbxOwner (Reg.PBX_GPCFG i) (24 + i))
    else if r.base < Reg.PBX_SVCFG 0 then .owned (s.pbxOwner (Reg.PBX_GSCFG i) (88 + i))
    else if r.base < Reg.PBX_PTX 0 0 then .owned (s.bayOwner (32 + i))
    else .global
  | 16 =>
    if r.base < Reg.FIO_FCOUNT 0 then .owned (s.din i).owner
    else if r.base < Reg.FIO_DOCFG 0 then .owned (s.din (56 + i)).owner
    else if r.base < Reg.FIO_BSTAT 0 then .owned (s.dout i).owner else .global
  | 17 => .own
  | _ => .global

/-- The register a port means by an address: its own copy where each port has one (R19, R191). -/
def ownKey (p : Port) (addr : Nat) : Nat :=
  if blockOf addr = 17 ∨ (Reg.PEL_SIDX ≤ addr ∧ addr < Reg.PEL_NINST) then portKey (portCode p) addr else addr

/-! ### Writes -/

/-- What a write does in SYS, PWR and the field-die blocks; `i`, `j` are the register's indices. -/
def opSysField (r : RegRow) (i j k : Nat) (p : Port) (v : Word) (s : State) : State :=
  let b := r.base
  if b = Reg.SYS_MODE_REQ then wrModeReq p v s
  else if b = Reg.SYS_RESET then wrSysReset p v s
  else if b = Reg.PWR_PACK then wrPwrPack p v s
  else if b = Reg.PWR_REF then wrPwrRef p v s
  else if b = Reg.PWR_TRIAD then wrPwrTriad p v s
  else if b = Reg.AFE_LANE 0 then wrAfeLane i p v s
  else if b = Reg.AFE_INJ 0 then wrAfeInj i p v s
  else if b = Reg.CNV_CTRL 0 then wrCnvCtrl i p v s
  else if b = Reg.CNV_LTRIM 0 0 then wrCnvTrim i j false p v s
  else if b = Reg.CNV_STRIM 0 0 then wrCnvTrim i j true p v s
  else if b = Reg.AUX_CFG ∨ b = Reg.AUX_MASK_LO ∨ b = Reg.AUX_MASK_HI then wrAuxSet k p v s
  else if b = Reg.AUX_CMP then wrAuxCmp p v s
  else if b = Reg.AUX_GO then wrAuxGo v s
  else if b = Reg.AUX_URG then wrAuxUrg v s
  else if b = Reg.FIO_DICFG 0 then wrDicfg i p v s
  else if b = Reg.FIO_DOCFG 0 then wrDocfg i p v s
  else if b = Reg.FIO_FCTL 0 then wrFctl i p v s
  else if b = Reg.FIO_BDROP then wrBdrop p v s
  else s.plain k r.rw r.w1c v

/-- What a write does in DEC, SNF, MSR, PEL, TWV and ENG. -/
def opMeasure (r : RegRow) (i k : Nat) (p : Port) (v : Word) (s : State) : State :=
  let b := r.base
  if b = Reg.DEC_LANE 0 then wrDecLane i p v s
  else if b = Reg.DEC_HI 0 then wrThreshold i false p v s
  else if b = Reg.DEC_HH 0 then wrThreshold i true p v s
  else if b = Reg.SNF_CMD then wrSnfCmd p v s
  else if b = Reg.MSR_CFG 0 then wrMsrCfg i p v s
  else if b = Reg.MSR_SYNC 0 then (s.plain k r.rw r.w1c v).placeHyper k v p
  else if b = Reg.PEL_ICTRL 0 then wrIctrl i v s
  else if b = Reg.PEL_SIDX then wrSidx p v s
  else if b = Reg.PEL_SDATA then wrSdata p v s
  else if b = Reg.PEL_SCOMMIT then wrScommit p v s
  else if b = Reg.TWV_DCMD 0 then wrTwDcmd i p v s
  else if b = Reg.TWV_LCFG 0 ∨ b = Reg.TWV_LCORR 0 ∨ b = Reg.TWV_BCFG 0 ∨ b = Reg.TWV_LEN 0 ∨ b = Reg.TWV_VEL 0
      ∨ b = Reg.TWV_RTHR 0 then wrTwv k p v s
  else if b = Reg.ENG_HEEL then wrHeel p v s
  else s.plain k r.rw r.w1c v

/-- SLX_HVAL: the value reaches the image of frame f + 3 (R213, R263). -/
def wrHval (part i : Nat) (v : Word) (s : State) : State :=
  let t := s.wr (Reg.SLX_HVAL part i) v
  { t with triad := { t.triad with hostVals := t.triad.hostVals ++ [((s.frame + 3) % 2 ^ 32, 7704 + 64 * part + i, v)] } }

/-- What a write does in SLX, ACQ, EVL, TIM, PBX, MEM and SEC. -/
def opService (r : RegRow) (i j k : Nat) (p : Port) (v : Word) (s : State) : State :=
  let b := r.base
  if b = Reg.SLX_FCMD 0 then wrFcmd i p v s
  else if b = Reg.SLX_HVAL 0 0 then wrHval i j v s
  else if b = Reg.ACQ_RCTRL 0 then wrRctrl i v s
  else if b = Reg.ACQ_TEN 0 then wrTen i p v s
  else if b = Reg.EVL_LCTRL 0 then wrStoreCtl (.log ⟨i % 4, Nat.mod_lt _ (by decide)⟩) p v s
  else if b = Reg.EVL_KCTRL then wrStoreCtl .kennel p v s
  else if b = Reg.EVL_LRPTR 0 then wrReadPtr (.log ⟨i % 4, Nat.mod_lt _ (by decide)⟩) v s
  else if b = Reg.EVL_KRPTR then wrReadPtr .kennel v s
  else if b = Reg.TIM_FREQ then wrTimFreq v s
  else if b = Reg.TIM_CMD then wrTimCmd p v s
  else if b = Reg.PBX_PRXCTL 0 then wrPrxctl i v s
  else if b = Reg.PBX_PTXCTL 0 then wrPtxctl i v s
  else if b = Reg.PBX_PTX 0 0 then (s.plain k r.rw r.w1c v).freshWin (winTx i + j) 1
  else if b = Reg.MEM_TCTL then wrTctl v s
  else if b = Reg.SEC_LOADCMD then wrLoadcmd p v s
  else if b = Reg.SEC_FUSECMD then wrFusecmd p v s
  else s.plain k r.rw r.w1c v

/-- The ring whose control register an offset is, and the ring whose window it lies in. -/
def ctlRing (addr : Nat) : Option Ring :=
  ([.cmd, .cpl, .evq, .rcq, .msq] : List Ring).find? (fun q => (ringCtl q).1 == addr)
def winRing (addr : Nat) : Option Ring :=
  ([.cmd, .cpl, .evq, .rcq, .msq] : List Ring).find? (fun q => decide (ringBase q ≤ addr) && decide (addr < ringBase q + 0x20))

/-- What a write does in a port's HQ instance. -/
def opQueue (r : RegRow) (q k : Nat) (addr : Nat) (v : Word) (s : State) : State :=
  match ctlRing addr with
  | some x => wrRingCtl q x v s
  | none => s.plain k r.rw r.w1c v

/-- The action of a write to a register. -/
def regWrite (r : RegRow) (i j : Nat) (p : Port) (addr : Nat) (v : Word) (s : State) : State :=
  let k := ownKey p addr
  match blockOf addr with
  | 0 | 1 | 2 | 3 | 5 | 16 => opSysField r i j k p v s
  | 4 | 6 | 7 | 8 | 9 | 10 => opMeasure r i k p v s
  | 17 => match p with
    | .hp q => opQueue r q.val k addr v s
    | .svc => s
  | _ => opService r i j k p v s

/-- The rsv bits of a register: those of its row, and in virtual lanes more of DEC_LANE and DEC_LSTAT (R116). -/
def rsvAt (r : RegRow) (i : Nat) : Word :=
  if r.base = Reg.DEC_LANE 0 then decLaneRsv i
  else if r.base = Reg.DEC_LSTAT 0 ∧ 256 ≤ i then r.rsv ||| 0x0FFF00FC#32
  else r.rsv

/-- A write to BAR2: doorbells and the MSI-X table, whose vector control unmasks (R369). -/
def barWrite (p : Fin 4) (off : Nat) (v : Word) (s : State) : R :=
  match ([.cmd, .cpl, .evq, .rcq, .msq] : List Ring).find? (fun q => ringBell q == off) with
  | some q => bellRow p q v s
  | none =>
    if 0x2000 ≤ off ∧ off < 0x2200 ∧ s.reaches (.hp p) .engine = true then
      let k := bar2Key p.val off
      if off % 16 = 12 then
        let n := (off - 0x2000) / 16
        let t := s.wr k (v &&& 1#32)
        let pba := bar2Key p.val 0x3000
        if bit v 0 = false ∧ s.flag pba n = true then .next ((t.setFlag pba n false).emit (.msix p n)) else .next t
      else .next (s.wr k v)
    else .next s

/-- Whether an address lies in the window of an enabled ring, outside its control register: changing its base, size or write-back
address then is a host error (R388). -/
def State.liveRing (s : State) (p : Port) (addr : Nat) : Bool :=
  match p, winRing addr with
  | .hp q, some w => s.ringOn q.val w && (ctlRing addr).isNone
  | _, _ => false

/-- A write from a port to an aligned address (R6, R7, R14, R18-R20). -/
def alignedWrite (p : Port) (addr : Nat) (v : Word) (s : State) : R :=
  if 2 ^ 24 ≤ addr then
    (match p with
     | .hp q => barWrite q (addr - 2 ^ 24) v s
     | .svc => .next s)
  else match regRow addr with
    | none => .next s
    | some r =>
      let x := r.index addr
      let rsv := rsvAt r x.1
      let op := regWrite r x.1 x.2 p addr
      if blockOf addr = 17 ∧ p = .svc then .next s
      else if s.liveRing p addr = true ∧ r.rw ≠ 0#32 ∧ s.reaches p .engine = true then .next (s.hostError true false rsv v op)
      else gate s p (addrReach addr) (s.addrScope r x.1) rsv addr v op

/-- The scope of the register an address lies in, if any. -/
def State.scopeAt (s : State) (addr : Nat) : Scope :=
  if 2 ^ 24 ≤ addr then .own
  else match regRow (addr / 4 * 4) with
    | some r => s.addrScope r (r.index (addr / 4 * 4)).1
    | none => .global

/-- A write from a port of `size` bytes to an address. One that is not a single aligned 32-bit access is a host error (R6, R14,
R367): by a free value it is lost, or, in a register that is the port's alone, it acts as an aligned write of a free word
(R15; assumption log 10). -/
def hostWrite (p : Port) (addr : Nat) (v : Word) (size : Nat) (s : State) : R :=
  if addr % 4 = 0 ∧ size = 4 then alignedWrite p addr v s
  else
    let a := s.freeB
    let w := a.2.free
    if (a.1 && s.confined p (s.scopeAt addr) addr) = true then alignedWrite p (addr / 4 * 4) w.1 w.2 else .next w.2

/-- REGISTER_WRITE (R21). -/
def execRegisterWrite (p : Port) (a : Access) (v : Word) (s : State) : R := hostWrite p a.addr v a.size s

/-! ### Reads -/

/-- The pair whose low or high word an offset is: the offset of its low word (R372). -/
def pairLow (addr : Nat) : Option Nat :=
  let los := [Reg.PWR_ODEF_TOT_LO, Reg.ENG_ISIG_LO, Reg.SEC_DEVID_LO] ++ (List.range 16).map Reg.ACQ_SLOST_LO
  los.find? (fun a => addr == a || addr == a + 4)

/-- A port's high-word shadow. -/
def State.shadow (s : State) (p : Port) : Shadow := nth none s.hq.shadows (portCode p)
def State.setShadow (s : State) (p : Port) (x : Shadow) : State :=
  { s with hq := { s.hq with shadows := modAt s.hq.shadows (portCode p) (fun _ => x) } }

/-- The word of a pair that a read returns (R372). -/
def State.readPair (s : State) (p : Port) (lo addr : Nat) : State × Word :=
  if addr = lo then (s.setShadow p (some (lo, s.rd (lo + 4))), s.rd lo)
  else match s.shadow p with
    | some (a, w) => if a = lo then (s.setShadow p none, w) else (s, s.rd addr)
    | none => (s, s.rd addr)

/-- TIM_NS is read: the counters go to the port's shadow (R316). -/
def State.latchTime (s : State) (p : Port) : State × Word :=
  let c := portCode p
  let t := ((s.wr (portKey c Reg.TIM_NSEC) (BitVec.ofNat 32 s.time.nsec)).wr (portKey c Reg.TIM_SECLO)
    (BitVec.ofNat 32 s.time.sec)).wr (portKey c Reg.TIM_SECHI) (BitVec.ofNat 32 (s.time.sec / 2 ^ 32 % 2 ^ 16))
  (t.wr (portKey c Reg.TIM_WRAP) (BitVec.ofNat 32 s.time.wrap), BitVec.ofNat 32 s.time.tbNs)

/-- The first register of a capture is read: `n` words after it go to the port's shadow (R316). -/
def State.latchCapture (s : State) (p : Port) (first n : Nat) : State × Word :=
  ((List.range n).foldl (fun t i => t.wr (portKey (portCode p) (first + 4 * (i + 1))) (s.rd (first + 4 * (i + 1)))) s, s.rd first)

/-- The first registers of the captures with the number of words they latch. -/
def captures : List (Nat × Nat) := (Reg.TIM_PPSIN_NS, 3) :: (List.range 4).map (fun i => (Reg.TIM_PEG_NS i, 4))

/-- Offsets that a port reads from its shadow of TIM (R316). -/
def timShadowed (addr : Nat) : Bool :=
  (decide (Reg.TIM_NSEC ≤ addr) && decide (addr ≤ Reg.TIM_WRAP))
    || captures.any (fun c => decide (c.1 < addr) && decide (addr ≤ c.1 + 4 * c.2))

/-- The value of a register to a port, and what the read itself does. -/
def State.regRead (s : State) (r : RegRow) (i : Nat) (p : Port) (addr : Nat) : State × Word :=
  let c := portCode p
  if r.base = Reg.TIM_NS then s.latchTime p
  else if captures.any (fun x => x.1 == addr) then
    (match captures.find? (fun x => x.1 == addr) with
     | some x => s.latchCapture p x.1 x.2
     | none => (s, 0#32))
  else if timShadowed addr then (s, s.rd (portKey c addr))
  else match pairLow addr with
    | some lo => s.readPair p lo addr
    | none =>
      if r.base = Reg.MSR_FRAME 0 then
        let base := Reg.MSR_CFG i
        (shadowOffsets.foldl (fun t o => t.wr (portKey c (base + o)) (s.rd (base + o))) s, s.rd addr)
      else if blockOf addr = 7 ∧ 0x0C ≤ addr % 1024 ∧ addr % 1024 ≤ 0x13C then (s, s.rd (portKey c addr))
      else if r.base = Reg.PEL_SDATA then (s, s.sdata p)
      else if r.base = Reg.SLX_VDATA 0 then (s, (s.varData i).2)
      else if r.base = Reg.SLX_VIDX 0 then (s, setBit (s.rd addr) 30 (s.varData i).1)
      else if r.base = Reg.SEC_DEVPUBHASH 0 then
        (s, nth 0#32 (wordsOf 16 (sha512 ((List.range 512).map Config.devPub))) i)
      else (s, s.rd (ownKey p addr))

/-- The word of the window SRAM behind register (i, j) of a row, as a port finds it (R396). -/
def State.winWord (s : State) (r : RegRow) (i j : Nat) (p : Port) : Option Nat :=
  let b := r.base
  if b = Reg.EVL_LRWIN 0 0 then some (64 * i + j)
  else if b = Reg.EVL_KRWIN 0 then some (winStore .kennel + i)
  else if b = Reg.PBX_PTX 0 0 then some (winTx i + j)
  else if b = Reg.PBX_PRX 0 0 then some (winRx i + j)
  else if b = Reg.SNF_REC 0 then some (winRec + i)
  else if b = Reg.ENG_SLOTLOAD 0 then some (winSlot + i)
  else if b = Reg.DEC_ACOEF 0 then some (winCoef + i)
  else if b = Reg.PEL_SDATA then some (winSet (portCode p) + s.fld (winKey p Reg.PEL_SIDX) 6 0)
  else none

/-- A read of a register that the port may see. A word of the window SRAM reads zero until its zeroing is complete (R401), and is a
Completer Abort where it is not plausible data (R408). -/
def State.readOpen (s : State) (r : RegRow) (i j : Nat) (p : Port) (addr : Nat) : State × Option Word :=
  let hide := if r.base = Reg.FIO_BDROP then 0#32 else (r.wo &&& ~~~r.rw) ||| rsvAt r i
  let go := fun (s : State) =>
    let e := s.regRead r i p addr
    (e.1, some (e.2 &&& ~~~hide))
  match s.winWord r i j p with
  | none => go s
  | some w =>
    if s.mst.sramDone = false then (s, some 0#32)
    else if (s.rdMem 7 w).2 then (s.noteRead 7 w 2, none)
    else go (s.noteRead 7 w 2)

/-- The supervisor registers that the service port finds at the HQ offset (R395). -/
def State.svReg (s : State) (off : Nat) : Word :=
  match off with
  | 0 => 0x82561F7A#32
  | 4 => BitVec.ofNat 32 (field (s.rd (portKey 4 0x110004)) 31 16 * 65536 + b2n (s.phase != .running) * 32
      + b2n s.link.field.up * 16 + b2n (s.flag Reg.SYS_STAT 4) * 8 + b2n s.slx.forcedN * 4)
  | 8 => BitVec.ofNat 32 s.sup.svLast
  | _ => 0#32

/-- A read from a port at an aligned address: the state after it and the data, none for a Completer Abort (R18-R20, R408).
Addresses from 2^24 on stand for BAR2, from 2^25 on for the configuration space (assumption log 65). -/
def State.alignedRead (s : State) (p : Port) (addr : Nat) : State × Option Word :=
  if 2 ^ 25 ≤ addr then
    (s, if s.reaches p .engine then (match p with
      | .hp q => some (s.pciWord q.val (addr - 2 ^ 25))
      | .svc => some 0#32) else none)
  else if 2 ^ 24 ≤ addr then
    (s, if s.reaches p .engine then (match p with
      | .hp q => some (s.rd (bar2Key q.val (addr - 2 ^ 24)))
      | .svc => some 0#32) else none)
  else if blockOf addr = 17 ∧ p = .svc then (s, some (s.svReg (addr % 65536)))
  else if s.reaches p (addrReach addr) = false then (s, none)
  else match regRow addr with
    | none => (s, some 0#32)
    | some r =>
      let x := r.index addr
      if s.right p (s.addrScope r x.1) = 0 then (s, some 0#32)
      else s.readOpen r x.1 x.2 p addr

/-- A read from a port of `size` bytes: one that is not a single aligned 32-bit access is a host error (R6, R14, R367); it returns a
free word and changes nothing else (R15; assumption log 10). -/
def State.hostRead (s : State) (p : Port) (addr size : Nat) : State × Option Word :=
  if addr % 4 = 0 ∧ size = 4 then s.alignedRead p addr else (s.free.2, some s.free.1)

/-- A read with its data shown. -/
def readRow (p : Port) (addr size : Nat) (s : State) : R :=
  let e := s.hostRead p addr size
  .next { e.1 with rdata := e.2 }

/-- LOW_WORD_READ (R372). -/
def execLowWordRead (p : Port) (a : Access) (s : State) : R := readRow p a.addr a.size s

/-- HIGH_WORD_READ (R372). -/
def execHighWordRead (p : Port) (a : Access) (s : State) : R := readRow p a.addr a.size s

/-- TIM_NS_READ (R316). -/
def execTimNsRead (p : Port) (s : State) : R := readRow p Reg.TIM_NS 4 s

/-- CAPTURE_FIRST_READ: of PPS_IN (0) or of port `src` - 1's egress stamp (R316). -/
def execCaptureFirstRead (p : Port) (src : Fin 5) (s : State) : R :=
  readRow p (if src.val = 0 then Reg.TIM_PPSIN_NS else Reg.TIM_PEG_NS (src.val - 1)) 4 s

/-! ### The service port (R391-R393) -/

/-- Bits 4 and 5 of the status byte. -/
def State.svcState (s : State) : Nat := b2n s.link.field.up * 16 + b2n (s.phase != .running) * 32

/-- A transaction ends: the next status byte reports it; a CRC error is counted (R392, R395). -/
def State.svcEnds (s : State) (code : Nat) (crcError : Bool) : State :=
  let t := { s with hq := { s.hq with svcLast := code } }
  if crcError then t.satFld (portKey 4 0x110004) 31 16 1 else t

/-- The service port answers: the status of the transaction before, then what follows it. -/
def State.svcAnswer (s : State) (rest : List Byte) : State := s.emit (.svc (bytesLE 1 (s.hq.svcLast + s.svcState) ++ rest))

/-- Whether an address is reached by the service port (R393). -/
def State.svcReaches (s : State) (addr : Nat) : Bool := blockOf addr == 17 || s.reaches .svc (addrReach addr)

/-- SVC_WRITE: opcode, address, data and CRC are checked; the write is performed (R392, R393). -/
def execSvcWrite (bytes : List Byte) (s : State) : R :=
  if s.sup.running = false ∨ u8 bytes 0 ≠ 2 then .next s
  else
    let t := s.svcAnswer (List.replicate (bytes.length - 1) 0#8)
    let addr := leAt bytes 1 3 / 4 * 4
    if bytes.length < 10 then .next (t.svcEnds 2 false)
    else if leAt bytes 8 2 ≠ (crc16 (bytes.take 8)).toNat then .next (t.svcEnds 2 true)
    else if t.svcReaches addr = false then .next (t.svcEnds 8 false)
    else hostWrite .svc addr (BitVec.ofNat 32 (leAt bytes 4 4)) 4 (t.svcEnds 1 false)

/-- SVC_READ: opcode, address and CRC are checked; the data follow a mark and STAT, with a CRC. `bytes` is what the host clocks out, the
fill among it: a read whose SVC_CS_N rises before the last byte of the answer is not performed (R392, R393). -/
def execSvcRead (bytes : List Byte) (s : State) : R :=
  if s.sup.running = false ∨ u8 bytes 0 ≠ 3 then .next s
  else
    let fill := List.replicate 5 0xFF#8
    let addr := leAt bytes 1 3 / 4 * 4
    if bytes.length < 6 then .next ((s.svcAnswer (fill.take (bytes.length - 1))).svcEnds 2 false)
    else if leAt bytes 4 2 ≠ (crc16 (bytes.take 4)).toNat then
      .next ((s.svcAnswer (List.replicate (bytes.length - 1) 0xFF#8)).svcEnds 2 true)
    else
      let e := if s.svcReaches addr then s.hostRead .svc addr 4 else (s, none)
      let code := if e.2.isSome then 1 else 8
      let body := bytesLE 1 (code + s.svcState) ++ wordBytes (e.2.getD 0#32)
      let answer := fill ++ [0xA5#8] ++ body ++ bytesLE 2 (crc16 body).toNat
      let t := s.svcAnswer (answer.take (bytes.length - 1))
      if bytes.length ≤ answer.length then .next (t.svcEnds 2 false)
      else .next ({ e.1 with sent := t.sent, rdata := e.2 }.svcEnds code false)

/-- SVC_UNKNOWN_OPCODE: the transaction is not performed (R392). -/
def execSvcUnknownOpcode (bytes : List Byte) (s : State) : R :=
  if s.sup.running = false ∨ u8 bytes 0 = 2 ∨ u8 bytes 0 = 3 then .next s
  else .next ((s.svcAnswer (List.replicate (bytes.length - 1) 0#8)).svcEnds 4 false)

/-! ### Register accesses across the link (R20, R27) -/

/-- Whether the field die serves an address. -/
def onFieldDie (addr : Nat) : Bool :=
  match addrReach addr with
  | .field | .superv => true
  | _ => false

/-- REGISTER_ACCESS_FLIT: the field die performs the read or the posted write of a flit; the data of a read return in a response
flit. The payload: 0 or 1 for a read or a write, the port's code, the address in bytes 7:4, the data in bytes 11:8. -/
def execRegisterAccessFlit (bytes : List Byte) (s : State) : R :=
  let e := s.receive .field bytes
  let q := flitPayload bytes
  let p := portOf (u8 q 1)
  let addr := leAt q 4 4
  if e.2 = false ∨ flitType bytes ≠ 4 ∨ onFieldDie addr = false then .next e.1
  else if u8 q 0 = 1 then hostWrite p addr (BitVec.ofNat 32 (leAt q 8 4)) 4 e.1
  else
    let x := e.1.hostRead p addr 4
    let t := { x.1 with link := { x.1.link with reads := x.1.link.reads ++ [(p, addr)] } }
    .next (t.sendFlit .field 5 0 0 (bytesLE 1 (b2n x.2.isSome) ++ slice q 1 7 ++ wordBytes (x.2.getD 0#32)))

/-- REGISTER_RESPONSE_FLIT: the data of the oldest read that waits reach the engine die; byte 0 of the payload is 0 for a read that
is answered without data. -/
def execRegisterResponseFlit (bytes : List Byte) (s : State) : R :=
  let e := s.receive .engine bytes
  let q := flitPayload bytes
  if e.2 = false ∨ flitType bytes ≠ 5 then .next e.1
  else
    .next { e.1 with
      link := { e.1.link with reads := e.1.link.reads.drop 1 }
      rdata := if u8 q 0 = 1 then some (BitVec.ofNat 32 (leAt q 8 4)) else none }

end Sys2Proof.Machine
end

