-- ==== Sys2Proof/Machine/Dispatch.lean ====
section
/-!
DEFINITION. Sys2Proof/Machine/Dispatch.lean: one arm per command, each one call of its meaning.
-/
namespace Sys2Proof.Machine

def exec (i : Instr) (s : State) : Host.Outcome State Fault Refusal :=
  match i with
  | .powerOn retained => Sys2Proof.Machine.execPowerOn retained s
  | .resetNAssert widthNs => Sys2Proof.Machine.execResetNAssert widthNs s
  | .resetNRelease bootSrc => Sys2Proof.Machine.execResetNRelease bootSrc s
  | .sysResetKey p v => Sys2Proof.Machine.execSysResetKey p v s
  | .fillComplete west east => Sys2Proof.Machine.execFillComplete west east s
  | .rawFlitSend pack strobe conv => Sys2Proof.Machine.execRawFlitSend pack strobe conv s
  | .rawFlitReceive bytes => Sys2Proof.Machine.execRawFlitReceive bytes s
  | .frameStrobeReceive bytes => Sys2Proof.Machine.execFrameStrobeReceive bytes s
  | .statusFlitReceive bytes => Sys2Proof.Machine.execStatusFlitReceive bytes s
  | .outputCommand bytes lateNs => Sys2Proof.Machine.execOutputCommand bytes lateNs s
  | .registerAccessFlit bytes => Sys2Proof.Machine.execRegisterAccessFlit bytes s
  | .registerResponseFlit bytes => Sys2Proof.Machine.execRegisterResponseFlit bytes s
  | .kennelWriteFlit bytes => Sys2Proof.Machine.execKennelWriteFlit bytes s
  | .idleFlitReceive die bytes => Sys2Proof.Machine.execIdleFlitReceive die bytes s
  | .replayRequest die seq => Sys2Proof.Machine.execReplayRequest die seq s
  | .stageAFlitCheck pack strobe => Sys2Proof.Machine.execStageAFlitCheck pack strobe s
  | .linkWatchdogExpiry die => Sys2Proof.Machine.execLinkWatchdogExpiry die s
  | .registerWrite p a v => Sys2Proof.Machine.execRegisterWrite p a v s
  | .lowWordRead p a => Sys2Proof.Machine.execLowWordRead p a s
  | .highWordRead p a => Sys2Proof.Machine.execHighWordRead p a s
  | .ingressAgreement first second cycle => Sys2Proof.Machine.execIngressAgreement first second cycle s
  | .voterSelfTest wrong cycle => Sys2Proof.Machine.execVoterSelfTest wrong cycle s
  | .elementInstanceRun idx reads v => Sys2Proof.Machine.execElementInstanceRun idx reads v s
  | .zoneRun z reads v => Sys2Proof.Machine.execZoneRun z reads v s
  | .schemeTaskRun part task reads v => Sys2Proof.Machine.execSchemeTaskRun part task reads v s
  | .frameClosureJob v w x => Sys2Proof.Machine.execFrameClosureJob v w x s
  | .latentDivergenceSweep first cycle => Sys2Proof.Machine.execLatentDivergenceSweep first cycle s
  | .modeRequest p v => Sys2Proof.Machine.execModeRequest p v s
  | .pwrPackWrite p v => Sys2Proof.Machine.execPwrPackWrite p v s
  | .packStopComplete pack => Sys2Proof.Machine.execPackStopComplete pack s
  | .pwrRefWrite p v => Sys2Proof.Machine.execPwrRefWrite p v s
  | .pwrTriadWrite p v => Sys2Proof.Machine.execPwrTriadWrite p v s
  | .afeLaneWrite p lane v => Sys2Proof.Machine.execAfeLaneWrite p lane v s
  | .laneSettingsApply lane => Sys2Proof.Machine.execLaneSettingsApply lane s
  | .afeInjWrite p lane v => Sys2Proof.Machine.execAfeInjWrite p lane v s
  | .injectionApply lane => Sys2Proof.Machine.execInjectionApply lane s
  | .cnvTrimWrite p bay k skew v => Sys2Proof.Machine.execCnvTrimWrite p bay k skew v s
  | .trimApply bay => Sys2Proof.Machine.execTrimApply bay s
  | .cnvRestore p bay v => Sys2Proof.Machine.execCnvRestore p bay v s
  | .cnvCtrlWrite p bay v => Sys2Proof.Machine.execCnvCtrlWrite p bay v s
  | .offsetWindowEnd bay est => Sys2Proof.Machine.execOffsetWindowEnd bay est s
  | .gainWindowEnd bay even odd => Sys2Proof.Machine.execGainWindowEnd bay even odd s
  | .dllLock bay => Sys2Proof.Machine.execDllLock bay s
  | .skewMeasure lane => Sys2Proof.Machine.execSkewMeasure lane s
  | .dcLevelResult lane => Sys2Proof.Machine.execDcLevelResult lane s
  | .integratorSettled lane => Sys2Proof.Machine.execIntegratorSettled lane s
  | .decLaneWrite p lane v => Sys2Proof.Machine.execDecLaneWrite p lane v s
  | .decLaneApply lane => Sys2Proof.Machine.execDecLaneApply lane s
  | .thresholdWrite p lane hh v => Sys2Proof.Machine.execThresholdWrite p lane hh v s
  | .thresholdApply lane => Sys2Proof.Machine.execThresholdApply lane s
  | .auxGo p v => Sys2Proof.Machine.execAuxGo p v s
  | .auxCmpArm p v => Sys2Proof.Machine.execAuxCmpArm p v s
  | .auxConversionDone code => Sys2Proof.Machine.execAuxConversionDone code s
  | .auxUrgentRequest p v => Sys2Proof.Machine.execAuxUrgentRequest p v s
  | .supplyWindow codes => Sys2Proof.Machine.execSupplyWindow codes s
  | .surveyCommand p v => Sys2Proof.Machine.execSurveyCommand p v s
  | .sniffMeasurementStep d => Sys2Proof.Machine.execSniffMeasurementStep d s
  | .pdelayRespReceive port dst src tags typ msg trailer => Sys2Proof.Machine.execPdelayRespReceive port dst src tags typ msg trailer s
  | .pdelayTimeout port => Sys2Proof.Machine.execPdelayTimeout port s
  | .msrCfgWrite p bay v => Sys2Proof.Machine.execMsrCfgWrite p bay v s
  | .msrCfgApply bay => Sys2Proof.Machine.execMsrCfgApply bay s
  | .msrFrameRead p bay => Sys2Proof.Machine.execMsrFrameRead p bay s
  | .harmonicAnalysis bay => Sys2Proof.Machine.execHarmonicAnalysis bay s
  | .synchrophasorReport bay => Sys2Proof.Machine.execSynchrophasorReport bay s
  | .pelSidxWrite p v => Sys2Proof.Machine.execPelSidxWrite p v s
  | .pelSdataWrite p v => Sys2Proof.Machine.execPelSdataWrite p v s
  | .settingCommit p v => Sys2Proof.Machine.execSettingCommit p v s
  | .settingCommitCheck p => Sys2Proof.Machine.execSettingCommitCheck p s
  | .pelHostBlock p idx v => Sys2Proof.Machine.execPelHostBlock p idx v s
  | .pelInstanceReset p idx v => Sys2Proof.Machine.execPelInstanceReset p idx v s
  | .rfloCaptureComplete run => Sys2Proof.Machine.execRfloCaptureComplete run s
  | .twDetection lane => Sys2Proof.Machine.execTwDetection lane s
  | .twBayRearm bay => Sys2Proof.Machine.execTwBayRearm bay s
  | .twArrivalRecord bay => Sys2Proof.Machine.execTwArrivalRecord bay s
  | .twCaptureComplete buf => Sys2Proof.Machine.execTwCaptureComplete buf s
  | .twDoubleEndedGo p bay v => Sys2Proof.Machine.execTwDoubleEndedGo p bay v s
  | .twDoubleEndedCheck bay => Sys2Proof.Machine.execTwDoubleEndedCheck bay s
  | .heelRequest p v => Sys2Proof.Machine.execHeelRequest p v s
  | .heelProbationEnd matched cycle => Sys2Proof.Machine.execHeelProbationEnd matched cycle s
  | .ld o => Sys2Proof.Machine.execLd o s
  | .ldn o => Sys2Proof.Machine.execLdn o s
  | .and o => Sys2Proof.Machine.execAnd o s
  | .andn o => Sys2Proof.Machine.execAndn o s
  | .or o => Sys2Proof.Machine.execOr o s
  | .orn o => Sys2Proof.Machine.execOrn o s
  | .xor o => Sys2Proof.Machine.execXor o s
  | .st o => Sys2Proof.Machine.execSt o s
  | .stn o => Sys2Proof.Machine.execStn o s
  | .set o => Sys2Proof.Machine.execSet o s
  | .rst o => Sys2Proof.Machine.execRst o s
  | .rise o => Sys2Proof.Machine.execRise o s
  | .fall o => Sys2Proof.Machine.execFall o s
  | .ton o => Sys2Proof.Machine.execTon o s
  | .tof o => Sys2Proof.Machine.execTof o s
  | .tp o => Sys2Proof.Machine.execTp o s
  | .trst o => Sys2Proof.Machine.execTrst o s
  | .ctu o => Sys2Proof.Machine.execCtu o s
  | .ctd o => Sys2Proof.Machine.execCtd o s
  | .crs o => Sys2Proof.Machine.execCrs o s
  | .spt o => Sys2Proof.Machine.execSpt o s
  | .spv o => Sys2Proof.Machine.execSpv o s
  | .letT o => Sys2Proof.Machine.execLetT o s
  | .lcv o => Sys2Proof.Machine.execLcv o s
  | .ldf o => Sys2Proof.Machine.execLdf o s
  | .stf o => Sys2Proof.Machine.execStf o s
  | .addf o => Sys2Proof.Machine.execAddf o s
  | .subf o => Sys2Proof.Machine.execSubf o s
  | .mulf o => Sys2Proof.Machine.execMulf o s
  | .divf o => Sys2Proof.Machine.execDivf o s
  | .minf o => Sys2Proof.Machine.execMinf o s
  | .maxf o => Sys2Proof.Machine.execMaxf o s
  | .gtf o => Sys2Proof.Machine.execGtf o s
  | .gef o => Sys2Proof.Machine.execGef o s
  | .ltf o => Sys2Proof.Machine.execLtf o s
  | .lef o => Sys2Proof.Machine.execLef o s
  | .self o => Sys2Proof.Machine.execSelf o s
  | .ldk o => Sys2Proof.Machine.execLdk o s
  | .stk o => Sys2Proof.Machine.execStk o s
  | .addk o => Sys2Proof.Machine.execAddk o s
  | .subk o => Sys2Proof.Machine.execSubk o s
  | .mulk o => Sys2Proof.Machine.execMulk o s
  | .andk o => Sys2Proof.Machine.execAndk o s
  | .ork o => Sys2Proof.Machine.execOrk o s
  | .xork o => Sys2Proof.Machine.execXork o s
  | .gtk o => Sys2Proof.Machine.execGtk o s
  | .eqk o => Sys2Proof.Machine.execEqk o s
  | .ltk o => Sys2Proof.Machine.execLtk o s
  | .jmp off => Sys2Proof.Machine.execJmp off s
  | .jt off => Sys2Proof.Machine.execJt off s
  | .jf off => Sys2Proof.Machine.execJf off s
  | .forceSet p part v => Sys2Proof.Machine.execForceSet p part v s
  | .forceRelease p part v => Sys2Proof.Machine.execForceRelease p part v s
  | .forceReleaseAll p part v => Sys2Proof.Machine.execForceReleaseAll p part v s
  | .forceCommandCheck part => Sys2Proof.Machine.execForceCommandCheck part s
  | .schemeSwap part => Sys2Proof.Machine.execSchemeSwap part s
  | .schemeCarryOver part => Sys2Proof.Machine.execSchemeCarryOver part s
  | .recorderEnable p r v => Sys2Proof.Machine.execRecorderEnable p r v s
  | .recorderArm p r v => Sys2Proof.Machine.execRecorderArm p r v s
  | .recorderStop p r v => Sys2Proof.Machine.execRecorderStop p r v s
  | .hostTrigger p r v => Sys2Proof.Machine.execHostTrigger p r v s
  | .recorderCommandEffect r => Sys2Proof.Machine.execRecorderCommandEffect r s
  | .triggerEdgeTenWrite p r v => Sys2Proof.Machine.execTriggerEdgeTenWrite p r v s
  | .recorderRowWrite r => Sys2Proof.Machine.execRecorderRowWrite r s
  | .recordingClose r => Sys2Proof.Machine.execRecordingClose r s
  | .segmentCopyDone r => Sys2Proof.Machine.execSegmentCopyDone r s
  | .recorderStopComplete r => Sys2Proof.Machine.execRecorderStopComplete r s
  | .runDelivered r => Sys2Proof.Machine.execRunDelivered r s
  | .trendCompressionSlice r => Sys2Proof.Machine.execTrendCompressionSlice r s
  | .logRecordWrite p => Sys2Proof.Machine.execLogRecordWrite p s
  | .storeFreeze st => Sys2Proof.Machine.execStoreFreeze st s
  | .storeUnfreeze st => Sys2Proof.Machine.execStoreUnfreeze st s
  | .freezeTimeout st => Sys2Proof.Machine.execFreezeTimeout st s
  | .storeClear st => Sys2Proof.Machine.execStoreClear st s
  | .readWindowLoad p st v => Sys2Proof.Machine.execReadWindowLoad p st v s
  | .readWindowReady st => Sys2Proof.Machine.execReadWindowReady st s
  | .timFreqWrite p v => Sys2Proof.Machine.execTimFreqWrite p v s
  | .timNsRead p => Sys2Proof.Machine.execTimNsRead p s
  | .captureFirstRead p src => Sys2Proof.Machine.execCaptureFirstRead p src s
  | .phaseStep p v => Sys2Proof.Machine.execPhaseStep p v s
  | .slew p v => Sys2Proof.Machine.execSlew p v s
  | .secondsLoad p v => Sys2Proof.Machine.execSecondsLoad p v s
  | .ppsInEdge falling => Sys2Proof.Machine.execPpsInEdge falling s
  | .ethernetFrameReceive port bytes fcsOk => Sys2Proof.Machine.execEthernetFrameReceive port bytes fcsOk s
  | .ptpFifoPop p port v => Sys2Proof.Machine.execPtpFifoPop p port v s
  | .ptpTransmit p port v => Sys2Proof.Machine.execPtpTransmit p port v s
  | .ptpTransmitDone port => Sys2Proof.Machine.execPtpTransmitDone port s
  | .pbLinkChange port up => Sys2Proof.Machine.execPbLinkChange port up s
  | .prpDiscardExpiry pair => Sys2Proof.Machine.execPrpDiscardExpiry pair s
  | .gooseRetransmit block => Sys2Proof.Machine.execGooseRetransmit block s
  | .gooseSubscriptionExpiry sub => Sys2Proof.Machine.execGooseSubscriptionExpiry sub s
  | .svStreamLoss stream => Sys2Proof.Machine.execSvStreamLoss stream s
  | .svStreamRestore stream => Sys2Proof.Machine.execSvStreamRestore stream s
  | .bankStateChange bank millivolts => Sys2Proof.Machine.execBankStateChange bank millivolts s
  | .driverUndervoltage bank millivolts => Sys2Proof.Machine.execDriverUndervoltage bank millivolts s
  | .diDebouncedChange n samples => Sys2Proof.Machine.execDiDebouncedChange n samples s
  | .fastInputEdge m millivolts cycles => Sys2Proof.Machine.execFastInputEdge m millivolts cycles s
  | .fastInputPeriodOverflow span => Sys2Proof.Machine.execFastInputPeriodOverflow span s
  | .fastInputClear p m v => Sys2Proof.Machine.execFastInputClear p m v s
  | .outputThermalShutdown n celsius => Sys2Proof.Machine.execOutputThermalShutdown n celsius s
  | .outputCurrentLimit n active microseconds => Sys2Proof.Machine.execOutputCurrentLimit n active microseconds s
  | .outputFaultChange n v0 v1 milliamps dropMv => Sys2Proof.Machine.execOutputFaultChange n v0 v1 milliamps dropMv s
  | .outputBlankingEnd n => Sys2Proof.Machine.execOutputBlankingEnd n s
  | .bankOvercurrent bank above frame => Sys2Proof.Machine.execBankOvercurrent bank above frame s
  | .bankDrop p v => Sys2Proof.Machine.execBankDrop p v s
  | .bankRelease p v => Sys2Proof.Machine.execBankRelease p v s
  | .commandDoorbell p v => Sys2Proof.Machine.execCommandDoorbell p v s
  | .commandFetch p entry => Sys2Proof.Machine.execCommandFetch p entry s
  | .nop p => Sys2Proof.Machine.execNop p s
  | .pedigreeLoad p => Sys2Proof.Machine.execPedigreeLoad p s
  | .deltaLoad p => Sys2Proof.Machine.execDeltaLoad p s
  | .attest p => Sys2Proof.Machine.execAttest p s
  | .unusedOpcode p => Sys2Proof.Machine.execUnusedOpcode p s
  | .completionDoorbell p v => Sys2Proof.Machine.execCompletionDoorbell p v s
  | .recordQueueDoorbell p q v => Sys2Proof.Machine.execRecordQueueDoorbell p q v s
  | .queueEnable p q v => Sys2Proof.Machine.execQueueEnable p q v s
  | .queueDisable p q v => Sys2Proof.Machine.execQueueDisable p q v s
  | .dmaReadError p => Sys2Proof.Machine.execDmaReadError p s
  | .portReset p cause => Sys2Proof.Machine.execPortReset p cause s
  | .portLinkUp p speed width setup => Sys2Proof.Machine.execPortLinkUp p speed width setup s
  | .svcWrite bytes => Sys2Proof.Machine.execSvcWrite bytes s
  | .svcRead bytes => Sys2Proof.Machine.execSvcRead bytes s
  | .correctionWriteBack region addr upset => Sys2Proof.Machine.execCorrectionWriteBack region addr upset s
  | .scrubStep region upsets => Sys2Proof.Machine.execScrubStep region upsets s
  | .rowRetireComplete region => Sys2Proof.Machine.execRowRetireComplete region s
  | .bucketLeak region => Sys2Proof.Machine.execBucketLeak region s
  | .mergeBufferFlush region => Sys2Proof.Machine.execMergeBufferFlush region s
  | .checkerTestWrite p v => Sys2Proof.Machine.execCheckerTestWrite p v s
  | .checkerTestRead p v => Sys2Proof.Machine.execCheckerTestRead p v s
  | .qspiLoadCommand p v => Sys2Proof.Machine.execQspiLoadCommand p v s
  | .pedigreeReadDone image headers ok => Sys2Proof.Machine.execPedigreeReadDone image headers ok s
  | .fuseProgramSlot p v => Sys2Proof.Machine.execFuseProgramSlot p v s
  | .fuseRevokeSlot p v => Sys2Proof.Machine.execFuseRevokeSlot p v s
  | .fuseAdvanceCounter p v => Sys2Proof.Machine.execFuseAdvanceCounter p v s
  | .fuseOperationDone blown verified => Sys2Proof.Machine.execFuseOperationDone blown verified s
  | .svcUnknownOpcode bytes => Sys2Proof.Machine.execSvcUnknownOpcode bytes s
  | .supplyBelowThreshold => Sys2Proof.Machine.execSupplyBelowThreshold s
  | .clockStartComplete => Sys2Proof.Machine.execClockStartComplete s
  | .supervisorPowerUp retained => Sys2Proof.Machine.execSupervisorPowerUp retained s
  | .vddAoWarning => Sys2Proof.Machine.execVddAoWarning s
  | .frameBoundary => Sys2Proof.Machine.execFrameBoundary s
  | .commitUnit => Sys2Proof.Machine.execCommitUnit s
  | .budgetFlagChange => Sys2Proof.Machine.execBudgetFlagChange s
  | .gJobDeadlineMiss => Sys2Proof.Machine.execGJobDeadlineMiss s
  | .linkRetrainComplete => Sys2Proof.Machine.execLinkRetrainComplete s
  | .admissionComplete => Sys2Proof.Machine.execAdmissionComplete s
  | .planSwap => Sys2Proof.Machine.execPlanSwap s
  | .queueService => Sys2Proof.Machine.execQueueService s
  | .modeRequestEffect => Sys2Proof.Machine.execModeRequestEffect s
  | .standbyEntry => Sys2Proof.Machine.execStandbyEntry s
  | .packEnEffect => Sys2Proof.Machine.execPackEnEffect s
  | .triadGateEffect => Sys2Proof.Machine.execTriadGateEffect s
  | .triadGateStop => Sys2Proof.Machine.execTriadGateStop s
  | .triadRestart => Sys2Proof.Machine.execTriadRestart s
  | .stageAOutput => Sys2Proof.Machine.execStageAOutput s
  | .auxFrameTrigger => Sys2Proof.Machine.execAuxFrameTrigger s
  | .auxCompareFire => Sys2Proof.Machine.execAuxCompareFire s
  | .auxConfigApply => Sys2Proof.Machine.execAuxConfigApply s
  | .surveyCommandEffect => Sys2Proof.Machine.execSurveyCommandEffect s
  | .surveyItemEnd => Sys2Proof.Machine.execSurveyItemEnd s
  | .cableStepStart => Sys2Proof.Machine.execCableStepStart s
  | .cableStepEnd bay => Sys2Proof.Machine.execCableStepEnd bay s
  | .cableWaitTimeout => Sys2Proof.Machine.execCableWaitTimeout s
  | .surveyEnd => Sys2Proof.Machine.execSurveyEnd s
  | .settingsApply => Sys2Proof.Machine.execSettingsApply s
  | .twLocationSlice => Sys2Proof.Machine.execTwLocationSlice s
  | .twvConfigApply => Sys2Proof.Machine.execTwvConfigApply s
  | .heelCheck => Sys2Proof.Machine.execHeelCheck s
  | .heelCopyDone => Sys2Proof.Machine.execHeelCopyDone s
  | .mEnd => Sys2Proof.Machine.execMEnd s
  | .not => Sys2Proof.Machine.execNot s
  | .push => Sys2Proof.Machine.execPush s
  | .andp => Sys2Proof.Machine.execAndp s
  | .orp => Sys2Proof.Machine.execOrp s
  | .absf => Sys2Proof.Machine.execAbsf s
  | .negf => Sys2Proof.Machine.execNegf s
  | .sqrtf => Sys2Proof.Machine.execSqrtf s
  | .itof => Sys2Proof.Machine.execItof s
  | .ftoi => Sys2Proof.Machine.execFtoi s
  | .comtradeFormattingSlice => Sys2Proof.Machine.execComtradeFormattingSlice s
  | .eventSequence => Sys2Proof.Machine.execEventSequence s
  | .repeatRunTimeout => Sys2Proof.Machine.execRepeatRunTimeout s
  | .kennelRecordWrite => Sys2Proof.Machine.execKennelRecordWrite s
  | .phaseStepApply => Sys2Proof.Machine.execPhaseStepApply s
  | .slewStart => Sys2Proof.Machine.execSlewStart s
  | .slewComplete => Sys2Proof.Machine.execSlewComplete s
  | .secondsLoadArm => Sys2Proof.Machine.execSecondsLoadArm s
  | .realignComplete => Sys2Proof.Machine.execRealignComplete s
  | .secondRollover => Sys2Proof.Machine.execSecondRollover s
  | .tbNsWrap => Sys2Proof.Machine.execTbNsWrap s
  | .ppsOutPulse => Sys2Proof.Machine.execPpsOutPulse s
  | .ppsInLoss => Sys2Proof.Machine.execPpsInLoss s
  | .prpSupervisionTimer => Sys2Proof.Machine.execPrpSupervisionTimer s
  | .fioConfigApply => Sys2Proof.Machine.execFioConfigApply s
  | .pedigreeVerifyDone => Sys2Proof.Machine.execPedigreeVerifyDone s
  | .stagingComplete => Sys2Proof.Machine.execStagingComplete s
  | .loadRefused => Sys2Proof.Machine.execLoadRefused s
  | .fuseCommandCheck => Sys2Proof.Machine.execFuseCommandCheck s
  | .attestReportDone => Sys2Proof.Machine.execAttestReportDone s
  | .supplyAboveThreshold => Sys2Proof.Machine.execSupplyAboveThreshold s
  | .supervisorStop => Sys2Proof.Machine.execSupervisorStop s
  | .vddAoWarningClear => Sys2Proof.Machine.execVddAoWarningClear s
  | .ppsOutPulseEnd => Sys2Proof.Machine.execPpsOutPulseEnd s
  | .sramZeroingComplete => Sys2Proof.Machine.execSramZeroingComplete s

end Sys2Proof.Machine
end

