-- ==== Sys2Proof/Safety.lean ====
section
/-!
DEFINITION. Sys2Proof/Safety.lean: the terms in which claims about runs are stated: a command that answers a next state, what
it leaves alone, the canonical form of a state, and the bounds the manual sets to its queues.
-/
namespace Sys2Proof.Machine

/-- The command answers a next state, of which P holds. -/
def Answers (i : Instr) (s : State) (P : State → Prop) : Prop := ∃ t, exec i s = .next t ∧ P t

/-- Whether a write from a port reaches a register and may change it (R19, R20, R23, R393). -/
def State.writable (s : State) (p : Port) (rc : Reach) (sc : Scope) : Bool := s.reaches p rc && decide (2 ≤ s.right p sc)

/-- A write of v with its rsv bits zero answers a next state: P holds of it where the write reaches the register and the port may
write it, and it is the state before where not. -/
def WriteAnswers (i : Instr) (s : State) (p : Port) (rc : Reach) (sc : Scope) (rsv v : Word) (P : State → Prop) : Prop :=
  v &&& rsv = 0#32 → Answers i s (fun t => if s.writable p rc sc = true then P t else t = s)

/-- A die that judges the link up receives an undamaged flit in its turn, while no replay is awaited or once it has begun: one that
consumes no sequence number, or the next one in order (R29). -/
def State.takesFlit (s : State) (d : Die) (bs : List Byte) : Bool :=
  let x := s.linkEnd d
  x.up && flitOk bs && (!x.waiting || x.resent) && (flitUnsequenced bs || flitSeq bs == (x.rxLast + 1) % 4096)

/-- Every register but those of a list is unchanged. -/
def RegsBut (ks : List Nat) (s t : State) : Prop := ∀ k, k ∉ ks → t.rd k = s.rd k

/-- The waiting requests of every register but those of a list are unchanged. -/
def ReqsBut (ks : List Nat) (s t : State) : Prop := ∀ k, k ∉ ks → t.waiting k = s.waiting k

/-- Only the registers of a list have changed. -/
def OnlyRegs (ks : List Nat) (s t : State) : Prop := t = { s with regs := t.regs } ∧ RegsBut ks s t

/-- Only the registers of a list and what waits for them have changed. -/
def OnlyRequests (ks : List Nat) (s t : State) : Prop :=
  t = { s with regs := t.regs, reqs := t.reqs } ∧ RegsBut ks s t ∧ ReqsBut ks s t

/-- Every byte of memory outside some cells reads as before. -/
def MemBut (cells : List Nat) (s t : State) : Prop := ∀ a, a ∉ cells → Memory.get t.mem a = Memory.get s.mem a

/-- The cells of one word of a region: four of data and one of check bits. -/
def wordCells (region w : Nat) : List Nat := (List.range 5).map (cellAddr region w)

/-- The cells of n words of the window SRAM (R396). -/
def winCells (w n : Nat) : List Nat := (List.range n).flatMap (fun i => wordCells 7 (w + i))

/-- Every byte of memory outside the window SRAM reads as before. -/
def MemButWindows (s t : State) : Prop := ∀ a, a / 2 ^ 36 ≠ 7 → Memory.get t.mem a = Memory.get s.mem a

/-- The three finite maps of a state are in canonical form: keys rising, no entry equal to what an unlisted key reads as. -/
def State.Canonical (s : State) : Prop :=
  Memory.wf s.mem ∧ swf regReset s.regs = true ∧ swf (fun _ => ([] : List Req)) s.reqs = true

/-- What a step may do to the rest of the machine: the queue it was given stays, and what has been sent stays sent. -/
def Keeps (s t : State) : Prop := t.pending = s.pending ∧ s.sent <+: t.sent

/-- A run is safe as long as no step of it stops: `n` steps from s answer a next state each. -/
def RunsSafely : Nat → State → Prop
  | 0, _ => True
  | n + 1, s => ∃ t, step s = .next t ∧ RunsSafely n t

/-! ### What the families of commands leave -/

/-- What every reset leaves (R68, R74): FILL at frame 0, packs, references and triad off, the kennel's bytes and pointer words, the fuses
and the commands that wait as they were. -/
def AfterReset (s t : State) : Prop :=
  t.mode = mFILL ∧ t.frame = 0 ∧ (∀ p, p < 8 → t.pack p = 0) ∧ t.rd Reg.PWR_REF = 0#32 ∧ t.rd Reg.PWR_TRIAD = 0#32 ∧
  (∀ a, a / 2 ^ 36 = 6 → Memory.get t.mem a = Memory.get s.mem a) ∧
  t.evl.kfend = s.evl.kfend ∧ t.evl.kwptr = s.evl.kwptr ∧ t.evl.kold = s.evl.kold ∧ t.evl.kfull = s.evl.kfull ∧
  t.sec.anchors = s.sec.anchors ∧ t.sec.revoked = s.sec.revoked ∧ t.sec.damaged = s.sec.damaged ∧ t.sec.counter = s.sec.counter ∧
  t.pending = s.pending

/-- Exactly one request waits on a register: for the start of frame f + 3. -/
def WaitsOn (k : Nat) (v : Word) (p : Port) (s t : State) : Prop := t.waiting k = [⟨(s.frame + 3) % 2 ^ 32, v, p⟩]

/-- A scan trigger (R120, R121): missed and counted while a scan runs, else the scan counter advances and the enabled channels, the
first 32 of them, are taken. -/
def AuxTriggered (s t : State) : Prop :=
  if s.flag Reg.AUX_STAT 0 = true then
    OnlyRegs [Reg.AUX_STAT] s t ∧ t.fld Reg.AUX_STAT 31 24 = min 255 (s.fld Reg.AUX_STAT 31 24 + 1)
  else
    t = { s with regs := t.regs, aux := t.aux } ∧ RegsBut [Reg.AUX_STAT] s t ∧
    t.fld Reg.AUX_STAT 15 8 = (s.fld Reg.AUX_STAT 15 8 + 1) % 256 ∧
    (auxChannels s.aux.maskLo s.aux.maskHi ≠ [] →
      t.flag Reg.AUX_STAT 0 = true ∧ t.aux.entries = (auxChannels s.aux.maskLo s.aux.maskHi).take 32 ∧
      t.aux.idx = 0 ∧ t.aux.cnt = 0 ∧ t.aux.sum = 0)

/-- An instruction of a program's run that its budget covers: it counts its cycles, moves one position on, acts on the run by `f`, and
leaves everything else. -/
def RunStep (i : Instr) (s : State) (cyc : Nat) (f : RunCtx → RunCtx) : Prop :=
  s.overruns s.ctx cyc = false →
    Answers i s (fun t => t = { s with slx := { s.slx with
      run := f { s.ctx with cycles := s.ctx.cycles + cyc, pc := s.ctx.pc + 1 } } })

/-- The completion entry of a command joins those that its port holds, where the ring takes none. -/
def Posts (s t : State) (p : Nat) (c : Cmd) (final : Bool) (status : Nat) (result : Nat := 0) : Prop :=
  s.ringOn p .cpl = false → (∀ d, d ∈ (s.port p).cmds → d.tag = c.tag → d = c) → p < s.hq.ports.length →
    (t.port p).held = (s.port p).held ++ [⟨c.tag, c.cid, c.opcode, final, status, s.frame, result⟩]

end Sys2Proof.Machine

namespace Sys2Proof

/-! ### Which commands may change a part of the state -/

/-- The commands that may store to a memory of R396. -/
def Instr.storesMemory : Instr → Bool
  | .powerOn _ | .resetNAssert _ | .supplyBelowThreshold | .sysResetKey _ _ | .fillComplete _ _ | .supervisorPowerUp _
  | .frameBoundary | .registerAccessFlit _ | .registerWrite _ _ _ | .recorderRowWrite _ | .recordingClose _
  | .segmentCopyDone _ | .eventSequence | .logRecordWrite _ | .kennelRecordWrite | .storeClear _ | .svcWrite _
  | .correctionWriteBack _ _ _ | .scrubStep _ _ | .rowRetireComplete _ | .mergeBufferFlush _ | .checkerTestWrite _ _
  | .checkerTestRead _ _ | .stagingComplete | .sramZeroingComplete => true
  | _ => false

/-- The commands that may write a window array of region 7 afresh, and store to no other memory (R396, R401). -/
def Instr.storesWindow : Instr → Bool
  | .ethernetFrameReceive _ _ _ | .ptpFifoPop _ _ _ | .pelSidxWrite _ _ | .pelSdataWrite _ _ | .readWindowLoad _ _ _
  | .readWindowReady _ | .planSwap | .standbyEntry | .surveyCommandEffect | .surveyItemEnd | .surveyEnd => true
  | _ => false

/-- The commands that may change the time base. -/
def Instr.changesTime : Instr → Bool
  | .powerOn _ | .resetNAssert _ | .supplyBelowThreshold | .sysResetKey _ _ | .frameBoundary | .registerAccessFlit _
  | .registerWrite _ _ _ | .phaseStepApply | .slewStart | .slewComplete | .secondsLoadArm | .secondRollover
  | .tbNsWrap | .ppsOutPulse | .ppsInEdge _ | .svcWrite _ | .ppsOutPulseEnd | .phaseStep _ _ | .slew _ _
  | .secondsLoad _ _ => true
  | _ => false

/-- The commands that may change loads, fuses or attestation. -/
def Instr.changesSecurity : Instr → Bool
  | .powerOn _ | .resetNAssert _ | .supplyBelowThreshold | .sysResetKey _ _ | .fillComplete _ _ | .frameBoundary
  | .registerAccessFlit _ | .registerWrite _ _ _ | .admissionComplete | .standbyEntry | .pedigreeLoad _
  | .deltaLoad _ | .attest _ | .dmaReadError _ | .portReset _ _ | .svcWrite _ | .pedigreeReadDone _ _ _
  | .pedigreeVerifyDone | .stagingComplete | .loadRefused | .fuseCommandCheck | .fuseOperationDone _ _
  | .attestReportDone | .fuseProgramSlot _ _ | .fuseRevokeSlot _ _ | .fuseAdvanceCounter _ _ => true
  | _ => false

/-- The commands that may change what the supervisor holds: among them those in which time goes on, since it counts the time from its
last status flit. -/
def Instr.changesSupervisor : Instr → Bool
  | .powerOn _ | .resetNAssert _ | .supplyBelowThreshold | .sysResetKey _ _ | .frameBoundary | .registerAccessFlit _
  | .registerWrite _ _ _ | .supervisorPowerUp _ | .vddAoWarning | .statusFlitReceive _ | .supervisorStop | .vddAoWarningClear
  | .secondRollover | .tbNsWrap | .ppsOutPulse | .ppsOutPulseEnd | .svcWrite _ => true
  | _ => false

/-- The commands that may change where the device stands between reset and run. -/
def Instr.changesPhase : Instr → Bool
  | .powerOn _ | .resetNAssert _ | .resetNRelease _ | .supplyBelowThreshold | .sysResetKey _ _ | .clockStartComplete
  | .registerAccessFlit _ | .registerWrite _ _ _ | .svcWrite _ | .supplyAboveThreshold => true
  | _ => false

/-- The commands that may change the auxiliary converter. -/
def Instr.changesAux : Instr → Bool
  | .powerOn _ | .resetNAssert _ | .supplyBelowThreshold | .sysResetKey _ _ | .frameBoundary | .registerAccessFlit _
  | .registerWrite _ _ _ | .auxGo _ _ | .auxFrameTrigger | .auxCompareFire | .auxConversionDone _ | .auxConfigApply
  | .auxUrgentRequest _ _ | .supplyWindow _ | .phaseStepApply | .svcWrite _ => true
  | _ => false

/-- The commands that may change field inputs, outputs or banks. -/
def Instr.changesFieldIo : Instr → Bool
  | .powerOn _ | .resetNAssert _ | .supplyBelowThreshold | .sysResetKey _ _ | .fillComplete _ _ | .frameBoundary
  | .outputCommand _ _ | .registerAccessFlit _ | .linkRetrainComplete | .registerWrite _ _ _ | .frameClosureJob _ _ _
  | .standbyEntry | .bankStateChange _ _ | .driverUndervoltage _ _ | .diDebouncedChange _ _ | .fastInputEdge _ _ _
  | .fioConfigApply
  | .outputThermalShutdown _ _ | .outputCurrentLimit _ _ _ | .outputFaultChange _ _ _ _ _ | .outputBlankingEnd _
  | .bankDrop _ _ | .bankRelease _ _ | .svcWrite _ | .stagingComplete => true
  | _ => false

/-- The commands that may change the process-bus ports. -/
def Instr.changesProcessBus : Instr → Bool
  | .powerOn _ | .resetNAssert _ | .supplyBelowThreshold | .sysResetKey _ _ | .frameBoundary | .registerAccessFlit _
  | .registerWrite _ _ _ | .frameClosureJob _ _ _ | .ethernetFrameReceive _ _ _ | .ptpFifoPop _ _ _
  | .ptpTransmit _ _ _ | .ptpTransmitDone _ | .prpSupervisionTimer | .prpDiscardExpiry _ | .gooseRetransmit _
  | .gooseSubscriptionExpiry _ | .surveyCommandEffect | .surveyItemEnd | .pdelayTimeout _ | .svcWrite _
  | .stagingComplete => true
  | _ => false

/-- The commands that may change protection elements, zones or their settings. -/
def Instr.changesProtection : Instr → Bool
  | .powerOn _ | .resetNAssert _ | .supplyBelowThreshold | .sysResetKey _ _ | .frameBoundary | .registerAccessFlit _
  | .registerWrite _ _ _ | .elementInstanceRun _ _ _ | .zoneRun _ _ _ | .triadRestart | .pelSidxWrite _ _
  | .pelSdataWrite _ _ | .settingCommit _ _ | .settingCommitCheck _ | .settingsApply | .pelHostBlock _ _ _
  | .pelInstanceReset _ _ _ | .rfloCaptureComplete _ | .svcWrite _ | .stagingComplete | .sramZeroingComplete => true
  | _ => false

/-- The commands that may change the traveling-wave unit. -/
def Instr.changesWaves : Instr → Bool
  | .powerOn _ | .resetNAssert _ | .supplyBelowThreshold | .sysResetKey _ _ | .fillComplete _ _ | .frameBoundary
  | .registerAccessFlit _ | .registerWrite _ _ _ | .modeRequestEffect | .standbyEntry | .triadGateEffect
  | .triadGateStop | .triadRestart | .stageAOutput | .twDetection _ | .twBayRearm _ | .twArrivalRecord _
  | .twCaptureComplete _ | .twLocationSlice | .twDoubleEndedCheck _ | .twvConfigApply | .pedigreeLoad _ | .svcWrite _
  | .stagingComplete | .loadRefused | .harmonicAnalysis _ => true
  | _ => false

/-- The commands that may change the recorders. -/
def Instr.changesRecorders : Instr → Bool
  | .powerOn _ | .resetNAssert _ | .supplyBelowThreshold | .sysResetKey _ _ | .fillComplete _ _ | .frameBoundary
  | .registerAccessFlit _ | .registerWrite _ _ _ | .frameClosureJob _ _ _ | .standbyEntry | .stageAOutput
  | .recorderEnable _ _ _ | .recorderArm _ _ _ | .recorderStop _ _ _ | .hostTrigger _ _ _ | .recorderCommandEffect _
  | .recorderRowWrite _ | .recordingClose _ | .segmentCopyDone _ | .recorderStopComplete _ | .runDelivered _
  | .comtradeFormattingSlice | .trendCompressionSlice _ | .pedigreeLoad _ | .svcWrite _ | .stagingComplete
  | .loadRefused | .harmonicAnalysis _ => true
  | _ => false

/-- The commands that may change what a bay measures with. -/
def Instr.changesBays : Instr → Bool
  | .powerOn _ | .resetNAssert _ | .supplyBelowThreshold | .sysResetKey _ _ | .frameBoundary | .registerAccessFlit _
  | .registerWrite _ _ _ | .standbyEntry | .trimApply _ | .stageAOutput | .msrCfgApply _ | .synchrophasorReport _
  | .svcWrite _ | .stagingComplete | .packEnEffect | .packStopComplete _ | .offsetWindowEnd _ _ | .gainWindowEnd _ _ _
  | .harmonicAnalysis _ => true
  | _ => false

end Sys2Proof
end

