-- ==== Sys2Proof/Certificates/Slice0/Obligations.lean ====
section
/-!
DEFINITION. Sys2Proof/Certificates/Slice0/Obligations.lean: the statements for the provers. Each covers some rows of the
opcode table and says that they complete, what they leave and what they leave alone. Values the manual leaves open stand in
them only as the model's free values, never as numbers.
-/
open Sys2Proof Sys2Proof.Machine

/-- A step runs the command at the front of the queue on the state with the queue's rest. The queue is the model's record of what waits
(assumption log 5). -/
def Obligations.StepRunsFront : Prop :=
  ∀ (s : State) (c : Instr) (rest : List Instr), s.pending = c :: rest → step s = exec c { s with pending := rest }

/-- With nothing waiting the block goes on by itself, by one TCLK edge, as long as the edge stays inside the frame (assumption log 8):
the time base gains what the edge gives (R315, R319), the link's time 4 ns, and where an idle flit's slot ends each die that judges the
link up sends one (R28). Only the time base, the registers and events of a rollover or wrap, the supervisor's count since its last
status flit, and what is sent may change. -/
def Obligations.IdleStep : Prop :=
  ∀ s : State, s.pending = [] →
    ∃ t, step s = .next t ∧
      t = { s with
        regs := t.regs, time := t.time, evl := t.evl, causes := t.causes, sup := { s.sup with since := t.sup.since }
        link := { s.link with slotNs := t.link.slotNs }, sent := t.sent } ∧
      t.frame = s.frame ∧ t.mode = s.mode ∧
      (s.phase ≠ .running ∨ s.toBoundary ≤ s.edgeUnits + s.slewStep → t = s) ∧
      (s.phase = .running → s.edgeUnits + s.slewStep < s.toBoundary →
        let g := min s.slewStep s.time.slewRem.natAbs
        let d := if s.time.slewRem < 0 then s.edgeUnits - g else s.edgeUnits + g
        let idle := fun (x : LinkEnd) (die : Die) =>
          if x.up = true then [Out.flit die (flitBytes 0 0 x.lastSeq x.rxLast 0 [])] else []
        t.time.elapsed = s.time.elapsed + d ∧ t.time.slewRem.natAbs = s.time.slewRem.natAbs - g ∧
        (d < s.toWrap → s.time.tbNs < 2 ^ 32 → t.time.tbNs * nsUnit + t.time.frac = s.time.tbNs * nsUnit + s.time.frac + d) ∧
        t.sup.since = s.sup.since.map (fun n => n + 4) ∧ t.link.slotNs = (s.link.slotNs + 4) % 25 ∧
        t.sent = s.sent ++ (if s.link.slotNs + 4 < 25 then [] else idle s.link.engine .engine ++ idle s.link.field .field))

/-- Memory, registers and waiting requests keep their canonical form through every step, whatever command it runs. The form is the
model's, and what an unlisted byte reads as is its choice (log 6). -/
def Obligations.StepKeepsCanonical : Prop :=
  ∀ s t : State, s.Canonical → step s = .next t → t.Canonical

/-- The state after reset is in canonical form. The form is the model's (log 6). -/
def Obligations.ResetCanonical : Prop :=
  State.reset.Canonical

/-- A step takes exactly the front command off the queue and never takes back what the device has sent. The queue and the record of what
was sent are the model's own (assumption log 5): no rule of the manual speaks of them. -/
def Obligations.StepKeepsQueueAndOutputs : Prop :=
  ∀ s t : State, step s = .next t → t.pending = s.pending.tail ∧ s.sent <+: t.sent

/-- Only the commands that store to memory change a byte of it, or write a window array of region 7 afresh (assumption log 66): those
that only write windows leave every byte outside region 7, and every other one leaves all of memory, in every region. -/
def Obligations.MemoryFrame : Prop :=
  ∀ (c : Instr) (s t : State), c.storesMemory = false → exec c s = .next t →
    (c.storesWindow = false → t.mem = s.mem) ∧ MemButWindows s t

/-- Each part of the machine is changed only by the commands that belong to it, by the frame boundary, by resets and register writes,
and by the taking of a pedigree: every other command leaves it whole. The parts are the model's own division of its state (assumption
log 5), and what FRAME_BOUNDARY carries is its choice (log 13); each frame follows from the chapter of its unit. -/
def Obligations.UnitFrames : Prop :=
  ∀ (c : Instr) (s t : State), exec c s = .next t →
    (c.changesTime = false → t.time = s.time) ∧ (c.changesSecurity = false → t.sec = s.sec) ∧
    (c.changesSupervisor = false → t.sup = s.sup) ∧ (c.changesPhase = false → t.phase = s.phase) ∧
    (c.changesAux = false → t.aux = s.aux) ∧ (c.changesFieldIo = false → t.fio = s.fio) ∧
    (c.changesProcessBus = false → t.pbx = s.pbx) ∧ (c.changesProtection = false → t.pel = s.pel) ∧
    (c.changesWaves = false → t.tw = s.tw) ∧ (c.changesRecorders = false → t.acq = s.acq) ∧
    (c.changesBays = false → t.bays = s.bays)
/-- After reset: FILL, frame 0, FAULT_N asserted, every pack OFF, every reference disabled, the triad gated; every word of every region
reads zero without error; each lane has the role of its place in the bay; the identification register and the registers with a non-zero
reset value (R6, R8, R13, R39, R60, R68, R69, R74, R401). That memory reads zero before FILL completes is the model's choice (log 6),
and so are the hidden values, roles and releases among them (log 7). -/
def Obligations.ResetValues : Prop :=
  let s := State.reset
  s.mode = mFILL ∧ s.frame = 0 ∧ s.rd Reg.SYS_ID = 0x82561F7A#32 ∧ s.flag Reg.SYS_STAT 4 = true ∧ s.cust = 0 ∧
  (∀ p, p < 8 → s.pack p = 0) ∧ s.rd Reg.PWR_REF = 0#32 ∧ s.rd Reg.PWR_TRIAD = 0#32 ∧
  s.rd Reg.TWV_GDLY = 1107#32 ∧ s.rd Reg.SNF_BAYS = 0xFFFFFFFF#32 ∧ s.rd Reg.SNF_DOMASK = 0xFFFFFFFF#32 ∧
  s.rd Reg.ENG_TSTAT = 0x77#32 ∧ (∀ l, l < 384 → s.rd (Reg.DEC_LANE l) = 0#32 ∧ (s.lane l).role = l % 8) ∧
  (∀ r w, s.rdMem r w = (0#32, false)) ∧ s.pending = [] ∧ s.fio.released = 0#32

/-- What every reset leaves, from any state: FILL at frame 0 with packs, references and triad off; the kennel's bytes and pointer words
and the fuses as they were (R68, R74). RESET_N resets from 1 us on, not below 200 ns, and between as the device does (R443); a write of
the key resets, any other value does not; clock start begins only with the supplies valid and RESET_N released (R75). A power-on without
VKEEP loses the pointer words (R304). That packs, references and triad clear at once (log 15), and what survives in the kennel and the
fuses (log 16), is the model's choice; the verdict on a short pulse is a constant without a body (log 1). -/
def Obligations.ResetsLeave : Prop :=
  ∀ s : State,
    Answers .supplyBelowThreshold s (fun t => AfterReset s t ∧ t.phase = .off ∧ t.pins = { s.pins with supplies := false }) ∧
    (∀ w, Answers (.resetNAssert w) s (fun t =>
      if 1000 ≤ w ∨ (200 ≤ w ∧ Config.resetPulse w = true) then
        AfterReset s t ∧ t.pins = { s.pins with resetN := false } ∧ t.phase = (if s.pins.supplies = true then .held else .off)
      else t = s)) ∧
    (∀ kept, Answers (.powerOn kept) s (fun t =>
      t.phase = .held ∧ t.pins = { resetN := false } ∧ t.sup.running = false ∧
      (if kept = true then AfterReset s t
       else t.mode = mFILL ∧ t.frame = 0 ∧ t.evl.kfend = 0#32 ∧ t.evl.kwptr = 0#32 ∧ t.evl.kold = 0#32 ∧ t.evl.kfull = 0#32 ∧
         t.sec.anchors = s.sec.anchors ∧ t.sec.counter = s.sec.counter ∧ t.pending = s.pending))) ∧
    (∀ p v, WriteAnswers (.sysResetKey p v) s p .always .global 0xFFFF0000#32 v
      (fun t => if v = 0xA5C3#32 then AfterReset s t ∧ t.pins = s.pins ∧ t.phase = s.startPhase else t = s))

/-- The way from reset to FILL: RESET_N_RELEASE samples BOOT_SRC and starts the clocks where the supplies are valid, the supplies'
return starts them where RESET_N is released, and clock start enters the first frame and judges the field banks (R75, R76, R347, R437);
each has no effect where its level or phase is already past. The end of FILL: SRAM is zero when its zeroing completes, the hosts'
transmit buffers with it (R401), and the kennel keeps its bytes; then the link is trained, the DRAM densities and FILLDONE are shown
(R414), every memory but the kennel is zero and the device is in LOAD with FAULT_N asserted. Outside FILL neither has an effect. The
model's choices: BOOT_SRC sampled with the supplies down, clocks that start with their return, a link still in training that
FILL_COMPLETE brings up (log 15), and banks judged afresh as from GOOD (log 63). -/
def Obligations.StartUp : Prop :=
  (∀ s : State,
    (∀ b, Answers (.resetNRelease b) s (fun t =>
      if s.pins.resetN = true then t = s
      else
        t = { s with
          pins := { s.pins with resetN := true }, run := { s.run with bootPin := b }, regs := t.regs
          phase := if s.pins.supplies = true then .clockStart else .off } ∧
        RegsBut [Reg.SYS_STAT] s t ∧ t.flag Reg.SYS_STAT 7 = b)) ∧
    Answers .supplyAboveThreshold s (fun t =>
      if s.pins.supplies = true then t = s
      else t = { s with
        pins := { s.pins with supplies := true }, phase := if s.pins.resetN = true then .clockStart else .held }) ∧
    Answers .clockStartComplete s (fun t =>
      if s.phase = .clockStart then
        t = { s with phase := .running, regs := t.regs, evl := t.evl } ∧
        (∀ m, m < 4 →
          let v := nth 0 s.fio.mv m
          t.bankState m = (if 19200 ≤ v then 0 else if 15000 ≤ v then 1 else 2) ∧ t.flag (Reg.FIO_BSTAT m) 4 = decide (v < 8000))
      else t = s)) ∧
  (∀ s : State,
    Answers .sramZeroingComplete s (fun t =>
      if s.phase = .running ∧ s.mode = mFILL then
        t = { s with
          mem := t.mem, mst := { s.mst with sramDone := true }, regs := t.regs, pel := { s.pel with wins := t.pel.wins } } ∧
        RegsBut ((List.range 4).flatMap (fun p => (List.range 64).map (fun i => Reg.PBX_PTX p i))) s t ∧
        (∀ p i, p < 4 → i < 64 → t.rd (Reg.PBX_PTX p i) = 0#32) ∧
        (∀ a, a / 2 ^ 36 ∈ [4, 5, 6] → Memory.get t.mem a = Memory.get s.mem a) ∧
        (∀ a, a / 2 ^ 36 ∉ [4, 5, 6] → Memory.get t.mem a = 0#8)
      else t = s) ∧
    (∀ west east, Answers (.fillComplete west east) s (fun t =>
      if s.phase = .running ∧ s.mode = mFILL then
        t.mode = mLOAD ∧ t.flag Reg.SYS_STAT 4 = true ∧ t.mst.sramDone = true ∧
        (s.link.training = true → t.linkUp = true ∧ t.link.field.up = true ∧ t.link.engine.up = true) ∧
        t.fld Reg.MEM_CFG 7 0 = gibOf west ∧ t.fld Reg.MEM_CFG 15 8 = gibOf east ∧ t.flag Reg.MEM_CFG 31 = true ∧
        (∀ a, a / 2 ^ 36 = 6 → Memory.get t.mem a = Memory.get s.mem a) ∧
        (∀ a, a / 2 ^ 36 ≠ 6 → Memory.get t.mem a = 0#8)
      else t = s)))

/-- The supervisor: a warning and its end (R438); a stop that releases every bank drop and loses what is staged for the kennel (R307,
R364, R437); and a power-up that leaves the kennel's bytes where VKEEP held and its pointer words are whole, and zeroes it, with a CLEAR
record, where not; the RESET record follows (R304). That lost pointer words fail their check, and what a stop loses, is log 16; whether
VKEEP held is the operand (log 5). -/
def Obligations.Supervisor : Prop :=
  ∀ s : State,
    Answers .vddAoWarning s (fun t => t = { s with sup := { s.sup with warning := true } }) ∧
    Answers .vddAoWarningClear s (fun t => t = { s with sup := { s.sup with warning := false } }) ∧
    Answers .supervisorStop s (fun t =>
      t = { s with sup := { running := false, warning := s.sup.warning }, hq := t.hq, regs := t.regs, evl := t.evl } ∧
      t.evl.kennel.staged = [] ∧ t.evl.kennel.lost = none ∧ t.hq.svcLast = 0 ∧ t.fld Reg.FIO_BDROP 3 0 = 0) ∧
    (∀ kept, Answers (.supervisorPowerUp kept) s (fun t =>
      if s.sup.running = true then t = s
      else
        let whole := kept && ptrOk s.evl.kfend && ptrOk s.evl.kwptr && ptrOk s.evl.kold && ptrOk s.evl.kfull
        t = { s with sup := { stood := true }, mem := t.mem, regs := t.regs, evl := t.evl, freeIx := t.freeIx } ∧
        (∀ a, a / 2 ^ 36 ≠ 6 → Memory.get t.mem a = Memory.get s.mem a) ∧
        (∀ a, a / 2 ^ 36 = 6 → Memory.get t.mem a = if whole = true then Memory.get s.mem a else 0#8) ∧
        (whole = true → s.evl.kennel.staged.length < 64 → s.evl.kennel.lost = none →
          ∃ r : Rec, r.typ = 5 ∧ t.evl.kennel.staged = s.evl.kennel.staged ++ [r]) ∧
        (whole = false → t.flag Reg.EVL_KSTAT 27 = true ∧
          ∃ c r : Rec, c.typ = 4 ∧ c.src = srcOf 12 4 ∧ r.typ = 5 ∧ t.evl.kennel.staged = [c, r])))

/-- A mode request waits for the start of frame f + 3 and replaces one that waits (R61). A mode request at its boundary:
SYS_MODE_RES names the requester, the mode asked for and the code of R62 to R66; a refused one leaves the mode; an accepted one
changes MODE, or PRIOR in DEGRADED, and SAFE is left for STANDBY only. -/
def Obligations.ModeRequests : Prop :=
  (∀ (s : State) (p : Port) (v : Word),
    WriteAnswers (.modeRequest p v) s p .engine .global 0x7FFFFFF8#32 v (fun t =>
      OnlyRequests [Reg.SYS_MODE_REQ] s t ∧ t.waiting Reg.SYS_MODE_REQ = [⟨(s.frame + 3) % 2 ^ 32, v, p⟩] ∧
      t.fld Reg.SYS_MODE_REQ 2 0 = field v 2 0 ∧ t.flag Reg.SYS_MODE_REQ 31 = true)) ∧
  (∀ s : State, Answers .modeRequestEffect s (fun t =>
    match s.due Reg.SYS_MODE_REQ with
    | none => t = s
    | some r =>
      let v := field r.value 2 0
      let c := s.modeCode v
      t.rd Reg.SYS_MODE_RES = BitVec.ofNat 32 (portCode r.port * 2 ^ 29 + v * 16 + c) ∧
      (let b := if s.mode = mDEGRADED then s.fld Reg.SYS_MODE 6 4 else s.mode
       c = if v < 2 ∨ 5 < v then 4
         else if b = mCOMMISSION ∨ b = mSERVICE ∨ b = mTEST then 0
         else if b = mSTANDBY ∧ v ≠ mSTANDBY then (if s.flag Reg.PWR_TRIAD 8 = true then 0 else 2)
         else if b = mSAFE ∧ v = mSTANDBY then
           (if s.flag Reg.SYS_STAT 5 = false ∨ (∃ f, s.triad.vfail = some f ∧ (s.frame + 2 ^ 32 - f) % 2 ^ 32 ≤ 256) then 3 else 0)
         else 1) ∧
      t.flag Reg.SYS_MODE_REQ 31 = false ∧ t.frame = s.frame ∧ t.time = s.time ∧
      t.mode = (if c ≠ 0 ∨ s.mode = mDEGRADED then s.mode else if s.mode = mSAFE then mSTANDBY else v) ∧
      (c = 0 → s.mode = mDEGRADED → t.fld Reg.SYS_MODE 6 4 = v) ∧
      (c = 0 → s.mode = mSAFE → s.run.triadEn = true → t.run.faultHold = true ∧ t.flag Reg.PWR_TRIAD 9 = true) ∧
      (c = 0 → s.mode = mSAFE → s.run.triadEn = false → t.flag Reg.SYS_STAT 4 = false)))

/-- Writes of PWR_PACK, PWR_REF and PWR_TRIAD have no effect until the first pedigree has been admitted; from then on each waits for the
start of frame f + 3 beside those that wait (R7, R21), and only the custodian and the SVC can write them (R69). A pack's way through
OFF, ON and STOPPING: a stopping pack enters OFF at the start of frame g + 4, or ON where it was enabled again meanwhile; until then,
and in any other state, nothing happens. An enabling that is due turns an OFF pack ON, a disabling an ON pack STOPPING, and a stopping
pack keeps whether it is enabled; with no write due nothing happens (R70). That each write waits for its own boundary is log 40. -/
def Obligations.Packs : Prop :=
  (∀ (s : State) (p : Port) (v : Word),
    (∀ i k rw rsv, (i, k, rw, rsv) ∈
        [(Instr.pwrPackWrite p v, Reg.PWR_PACK, 0xFF#32, 0xFFFFFF00#32),
         (Instr.pwrRefWrite p v, Reg.PWR_REF, 7#32, 0xFFFFFFF8#32),
         (Instr.pwrTriadWrite p v, Reg.PWR_TRIAD, 1#32, 0xFFFEFCFE#32)] →
      WriteAnswers i s p .engine .global rsv v (fun t =>
        if s.ped = false then t = s
        else OnlyRequests [k] s t ∧ t.rd k = ((s.rd k &&& ~~~rw) ||| (v &&& rw)) ∧
          t.waiting k = s.waiting k ++ [⟨(s.frame + 3) % 2 ^ 32, v, p⟩])) ∧
    (s.isCust p = false → s.writable p .engine .global = false)) ∧
  (∀ (s : State) (k : Fin 8),
    Answers (.packStopComplete k) s (fun t =>
      if s.pack k.val = 2 ∧ frameReached s.frame (((nth {} s.run.packs k.val).stopAt + 4) % 2 ^ 32) = true then
        t = { s with regs := t.regs, evl := t.evl, lanes := t.lanes, bays := t.bays } ∧
        t.pack k.val = (if s.flag Reg.PWR_PACKSTAT (4 * k.val + 2) then 1 else 0) ∧
        (∀ j, j < 8 → j ≠ k.val → t.pack j = s.pack j)
      else t = s) ∧
    Answers .packEnEffect s (fun t =>
      t = { s with reqs := t.reqs, sniff := t.sniff, regs := t.regs, evl := t.evl, run := t.run, lanes := t.lanes, bays := t.bays } ∧
      ReqsBut [Reg.PWR_PACK] s t ∧
      (s.waiting Reg.PWR_PACK = [] → t.regs = s.regs ∧ t.lanes = s.lanes) ∧
      ∀ r, s.waiting Reg.PWR_PACK = [r] → frameReached s.frame r.due = true →
        t.waiting Reg.PWR_PACK = [] ∧
        (s.pack k.val = 0 → t.pack k.val = if bit r.value k.val then 1 else 0) ∧
        (s.pack k.val = 1 → t.pack k.val = if bit r.value k.val then 1 else 2) ∧
        (s.pack k.val = 1 → bit r.value k.val = false → (nth {} t.run.packs k.val).stopAt = r.due ∨ s.run.packs.length ≤ k.val) ∧
        (s.pack k.val = 2 → t.pack k.val = 2 ∧ t.flag Reg.PWR_PACKSTAT (4 * k.val + 2) = bit r.value k.val)))

/-- Gating of the triad: an EN = 1 that is due ungates it: PEND reads 1, and outside LOAD the restart falls on the first hyperperiod
boundary at least 32 frames later (R67); while EN is 1 already it triggers nothing, which is the model's choice (log 60). An EN = 0 that
is due outside STANDBY is refused, EN reads what it was and REFUSED is set; in STANDBY it is honoured, and what becomes of a restart
that is pending is the model's choice (log 60), as is that the plan stops at the trigger (log 41). The plan stops at the hyperperiod
boundary noted, and RUN clears (R73); at a restart's boundary it starts. -/
def Obligations.TriadGating : Prop :=
  ∀ s : State,
    Answers .triadGateEffect s (fun t =>
      t.mem = s.mem ∧ t.mode = s.mode ∧ ReqsBut [Reg.PWR_TRIAD, Reg.ENG_HEEL] s t ∧
      (s.waiting Reg.PWR_TRIAD = [] → t.regs = s.regs ∧ t.run = s.run) ∧
      ∀ r, s.waiting Reg.PWR_TRIAD = [r] → frameReached s.frame r.due = true →
        t.waiting Reg.PWR_TRIAD = [] ∧
        if bit r.value 0 = true then
          t.run.triadEn = true ∧ (bit r.value 16 = true → t.flag Reg.PWR_TRIAD 16 = false) ∧
          (s.run.triadEn = true → t.run = s.run ∧ t.flag Reg.PWR_TRIAD 9 = s.flag Reg.PWR_TRIAD 9) ∧
          (s.run.triadEn = false → t.flag Reg.PWR_TRIAD 9 = true ∧
            t.run.restartAt = (if s.mode = mLOAD ∨ s.mode = mFILL then s.run.restartAt
              else some ((r.due + 287) / 256 * 256 % 2 ^ 32)))
        else if s.mode = mSTANDBY then
          t.run.triadEn = false ∧ t.flag Reg.PWR_TRIAD 9 = false ∧ t.run.restartAt = none ∧
          (s.planRuns = true → s.run.gateStop = none → t.run.gateStop = some ((r.due / 256 + 1) * 256 % 2 ^ 32))
        else t.run = s.run ∧ t.flag Reg.PWR_TRIAD 16 = true ∧ t.flag Reg.PWR_TRIAD 0 = s.run.triadEn) ∧
    Answers .triadGateStop s (fun t =>
      match s.run.gateStop with
      | none => t = s
      | some g =>
        if frameReached s.frame g = true then t.flag Reg.PWR_TRIAD 8 = false ∧ t.mem = s.mem ∧ t.mode = s.mode else t = s) ∧
    Answers .triadRestart s (fun t =>
      match s.run.restartAt with
      | none => t = s
      | some g =>
        if frameReached s.frame g = true then
          t.flag Reg.PWR_TRIAD 8 = true ∧ t.flag Reg.PWR_TRIAD 9 = false ∧ t.run.restartAt = none ∧ t.mem = s.mem ∧
          t.mode = s.mode ∧ t.time = s.time ∧ t.run.faultHold = false
        else t = s)

/-- A write of TIM_FREQ stores it, and CLAMP says whether it lies beyond 500 ppm (R315); the three commands of TIM_CMD wait for
the start of frame f + 3 with the amounts that stand as they are written, which is the model's choice (log 57; R317, R319,
R320). -/
def Obligations.TimeWrites : Prop :=
  ∀ (s : State) (p : Port) (v : Word),
    WriteAnswers (.timFreqWrite p v) s p .engine .global 0#32 v (fun t =>
      OnlyRegs [Reg.TIM_FREQ, Reg.TIM_STAT] s t ∧ t.rd Reg.TIM_FREQ = v ∧
      t.flag Reg.TIM_STAT 0 = (decide (v.toInt < -2147483) || decide (2147483 < v.toInt))) ∧
    (∀ i b, (i, b) ∈ [(Instr.phaseStep p v, 1#32), (Instr.slew p v, 2#32), (Instr.secondsLoad p v, 4#32)] →
      WriteAnswers i s p .engine .global 0x7FFFFFF8#32 (v ||| b) (fun t =>
        t = { s with regs := t.regs, reqs := t.reqs, time := t.time } ∧ RegsBut [Reg.TIM_CMD] s t ∧
        ReqsBut [Reg.TIM_CMD] s t ∧ t.flag Reg.TIM_CMD 31 = true ∧
        t.time = { s.time with
          stepArg := (s.rd Reg.TIM_STEP).toInt, slewArg := (s.rd Reg.TIM_SLEW).toInt
          secArg := (s.rd Reg.TIM_SETSECLO).toNat + 2 ^ 32 * s.fld Reg.TIM_SETSECHI 15 0 } ∧
        t.waiting Reg.TIM_CMD = [⟨(s.frame + 3) % 2 ^ 32, (v ||| b) &&& 7#32, p⟩]))

/-- A phase step at its boundary changes TB_NS and the full time by the same signed amount, begins a new epoch and leaves NSEC below one
second; a slew's amount replaces the remainder, its rate is TIM_SLEWR's (0 acts as 1, above 500 as 500) and SLEWING reads whether it
runs (both amounts are those of the write, and the rate that of the start, which is the model's choice, log 57); a seconds value is
armed, or taken at once at a rollover that falls on the boundary (R317 to R321). -/
def Obligations.TimeCommandsApply : Prop :=
  ∀ s : State,
    Answers .phaseStepApply s (fun t =>
      match s.due Reg.TIM_CMD with
      | none => t = s
      | some r =>
        if bit r.value 0 = true then
          let a := s.time.stepArg
          ((t.time.tbNs : Int) = ((s.time.tbNs : Int) + a) % 2 ^ 32) ∧
          ((t.time.sec * 1000000000 + t.time.nsec : Int)
            = ((s.time.sec * 1000000000 + s.time.nsec : Int) + a) % (2 ^ 48 * 1000000000)) ∧
          t.time.nsec < 1000000000 ∧ t.time.wrap = (s.time.wrap + 1) % 256 ∧ t.time.slewRem = s.time.slewRem ∧
          t.mem = s.mem
        else t = s) ∧
    Answers .slewStart s (fun t =>
      match s.due Reg.TIM_CMD with
      | none => t = s
      | some r =>
        if bit r.value 1 = true ∧ bit r.value 0 = false then
          t.time.slewRem = s.time.slewArg * 2 ^ 32 ∧ t.time.slewRate = max 1 (min 500 (s.fld Reg.TIM_SLEWR 8 0)) ∧
          t.flag Reg.TIM_STAT 2 = decide (s.time.slewArg ≠ 0) ∧ t.time.tbNs = s.time.tbNs
        else t = s) ∧
    Answers .slewComplete s (fun t =>
      if s.flag Reg.TIM_STAT 2 = true ∧ s.time.slewRem = 0 then
        t.flag Reg.TIM_STAT 2 = false ∧ t.rd Reg.TIM_SLEWREM = 0#32 ∧ t.time = s.time
      else t = s) ∧
    Answers .secondsLoadArm s (fun t =>
      match s.due Reg.TIM_CMD with
      | none => t = s
      | some r =>
        if bit r.value 2 = true ∧ bit r.value 1 = false ∧ bit r.value 0 = false then
          let v := s.time.secArg
          if s.time.rollAtStart = true ∧ r.due = s.frame then t.time.sec = v % 2 ^ 48 ∧ t.flag Reg.TIM_STAT 3 = false
          else t.time = { s.time with armed := some v } ∧ t.flag Reg.TIM_STAT 3 = true
        else t = s) ∧
    Answers .realignComplete s (fun t =>
      if s.flag Reg.TIM_STAT 1 = true ∧ s.time.align = 0 then
        OnlyRegs [Reg.TIM_STAT] s t ∧ t.flag Reg.TIM_STAT 1 = false ∧ t.fld Reg.TIM_STAT 31 16 = 0
      else t = s)
/-- Time goes on: at a rollover of the second NSEC reads 0 and SEC is one more, or the armed value; a wrap of TB_NS leaves it 0 in the
next epoch. PPS_OUT rises where NSEC passes the pulse point and falls when its width has passed, one outside 1 to 500 ms as it stands,
which is the model's choice (log 52). Each needs the counters to be in range, and comes no later than the frame boundary. An edge of the
selected sense at PPS_IN captures TB_NS, NSEC, SEC and the wrap count, sets VALID, counts, and sets OVR where VALID was still set;
without one for 1.1 s LOST sets. An edge of the other sense changes nothing (R314, R321, R322, R323). -/
def Obligations.TimeGoesOn : Prop :=
  (∀ s : State, s.time.nsec < 1000000000 → s.time.tbNs < 2 ^ 32 → s.time.frac < 2 ^ 32 → s.phase = .running →
    (s.toRollover ≤ s.toBoundary → Answers .secondRollover s (fun t =>
      t.time.nsec = 0 ∧ t.time.frac = 0 ∧
      t.time.sec = (match s.time.armed with
        | some v => v % 2 ^ 48
        | none => (s.time.sec + 1) % 2 ^ 48) ∧ t.time.armed = none ∧ t.mem = s.mem ∧ t.frame = s.frame)) ∧
    (s.toWrap ≤ s.toBoundary → s.toWrap < s.toRollover → Answers .tbNsWrap s (fun t =>
      t.time.tbNs = 0 ∧ t.time.frac = 0 ∧ t.time.wrap = (s.time.wrap + 1) % 256 ∧ t.time.sec = s.time.sec ∧
      t.mem = s.mem ∧ t.frame = s.frame)) ∧
    (s.toBoundary < s.toRollover → Answers .secondRollover s (fun t => t = s)) ∧
    (s.toBoundary < s.toWrap → Answers .tbNsWrap s (fun t => t = s)) ∧
    Answers .ppsOutPulse s (fun t =>
      if s.flag Reg.TIM_PPSOUT 31 = true ∧ s.toPulse ≤ s.toBoundary then
        t.time.ppsOut = decide (0 < s.fld Reg.TIM_PPSOUT 15 0) ∧
        t.time.ppsLeft = s.fld Reg.TIM_PPSOUT 15 0 * 1000000 * nsUnit ∧
        t.time.nsec = (1000000000 - s.fld Reg.TIM_PPSADV 16 0) % 1000000000 ∧ t.time.frac = 0 ∧ t.mem = s.mem ∧ t.frame = s.frame
      else t = s) ∧
    Answers .ppsOutPulseEnd s (fun t =>
      if s.time.ppsOut = true ∧ s.time.ppsLeft ≤ s.toBoundary then
        (s.flag Reg.TIM_PPSOUT 31 = false ∨ s.time.ppsLeft < s.toPulse → t.time.ppsOut = false ∧ t.time.ppsLeft = 0) ∧
        t.mem = s.mem ∧ t.frame = s.frame
      else t = s)) ∧
  (∀ s : State,
    (∀ falling, Answers (.ppsInEdge falling) s (fun t =>
      if s.phase = .running ∧ s.flag Reg.TIM_PPSIN_CFG 0 = true ∧ s.flag Reg.TIM_PPSIN_CFG 1 = falling then
        RegsBut [Reg.TIM_PPSIN_NS, Reg.TIM_PPSIN_NSEC, Reg.TIM_PPSIN_SECLO, Reg.TIM_PPSIN_SECHI, Reg.TIM_PPSIN_STAT] s t ∧
        t = { s with regs := t.regs, evl := t.evl, causes := t.causes, time := { s.time with ppsLast := some s.time.elapsed } } ∧
        t.rd Reg.TIM_PPSIN_NS = BitVec.ofNat 32 s.time.tbNs ∧ t.rd Reg.TIM_PPSIN_NSEC = BitVec.ofNat 32 s.time.nsec ∧
        t.rd Reg.TIM_PPSIN_SECLO = BitVec.ofNat 32 s.time.sec ∧
        t.rd Reg.TIM_PPSIN_SECHI = BitVec.ofNat 32 (s.time.sec / 2 ^ 32 + 65536 * s.time.wrap) ∧
        t.flag Reg.TIM_PPSIN_STAT 31 = true ∧ t.flag Reg.TIM_PPSIN_STAT 29 = false ∧
        t.flag Reg.TIM_PPSIN_STAT 30 = (s.flag Reg.TIM_PPSIN_STAT 31 || s.flag Reg.TIM_PPSIN_STAT 30) ∧
        t.fld Reg.TIM_PPSIN_STAT 15 0 = (s.fld Reg.TIM_PPSIN_STAT 15 0 + 1) % 65536
      else t = s)) ∧
    Answers .ppsInLoss s (fun t =>
      (∀ e, s.phase = .running → s.flag Reg.TIM_PPSIN_CFG 0 = true → s.flag Reg.TIM_PPSIN_STAT 29 = false →
        s.time.ppsLast = some e → e + 1100000000 * nsUnit ≤ s.time.elapsed →
        t = { s with regs := t.regs, evl := t.evl, causes := t.causes } ∧ RegsBut [Reg.TIM_PPSIN_STAT] s t ∧
        t.flag Reg.TIM_PPSIN_STAT 29 = true ∧
        ∃ e : Event, e.typ = 0x23 ∧ t.evl.posted = s.evl.posted ++ [e]) ∧
      (s.flag Reg.TIM_PPSIN_CFG 0 = false ∨ s.flag Reg.TIM_PPSIN_STAT 29 = true ∨ s.time.ppsLast = none → t = s)))

/-- What a die's receiver does with a flit of 80 bytes: nothing while it judges the link down; after a CRC error or a gap it delivers
nothing, leaves the last SEQ in order and requests replay; a flit in its turn is delivered, releases what its ACK covers, and its SEQ
becomes the last one; while a replay is awaited and has not begun every flit is dropped, its ACK with it; one received before is dropped
too, which is the model's choice (log 58). The flits a die receives in their turn: a raw flit that comes before its strobe's check joins
stage A's queue; a frame strobe sets the loop by its frame, and after a CRC error the loop coasts; a status flit leaves its four values
with the supervisor, which counts the time from its arrival; a kennel-write flit's bytes are collected until the record is whole, and
then it is staged; an idle flit changes only what the receiver does; the pieces of a kennel record, whole at LEN bytes and dropped while
the supervisor stands, are log 25, and the strobe's frame in bytes 15 to 12 is log 58 (R29, R31, R32, R306, R456). -/
def Obligations.FlitsReceived : Prop :=
  (∀ (s : State) (d : Die) (bs : List Byte),
    let x := s.linkEnd d
    let r := s.receive d bs
    let y := { x with replay := unacked (flitAck bs) x.replay }
    (x.up = false → r = (s, false)) ∧
    (x.up = true → flitOk bs = false → r.2 = false ∧ (r.1.linkEnd d).rxLast = x.rxLast ∧
      ((r.1.linkEnd d).waiting = true ∨ (r.1.linkEnd d).up = false)) ∧
    (s.takesFlit d bs = true → flitUnsequenced bs = true → r = (s.setEnd d y, true)) ∧
    (s.takesFlit d bs = true → flitUnsequenced bs = false →
      r = (s.setEnd d { y with rxLast := flitSeq bs, waiting := false, resent := false }, true)) ∧
    (x.up = true → flitOk bs = true → s.takesFlit d bs = false →
      r.2 = false ∧ (r.1.linkEnd d).rxLast = x.rxLast ∧
      (if x.waiting = true ∧ x.resent = false then r.1 = s
       else if flitOld x.rxLast (flitSeq bs) = true then r.1 = s.setEnd d y
       else (r.1.linkEnd d).waiting = true ∨ (r.1.linkEnd d).up = false))) ∧
  (∀ (s : State) (bs : List Byte),
    Answers (.rawFlitReceive bs) s (fun t =>
      let key := 128 * flitSrc bs + flitStrobe bs % 128
      let fr := flitStrobe bs / 256
      (s.takesFlit .engine bs = true → flitType bs = 1 → sget (fun _ => 0) s.link.checked key ≠ fr + 1 →
        t = { s with link := { s.link with engine := t.link.engine, rawQ := s.link.rawQ ++ [(key, fr, rawCodes bs)] } }) ∧
      (s.takesFlit .engine bs = true → flitType bs = 1 → sget (fun _ => 0) s.link.checked key = fr + 1 →
        t = { s with link := { s.link with engine := t.link.engine } }) ∧
      (flitType bs ≠ 1 → t = (s.receive .engine bs).1)) ∧
    Answers (.frameStrobeReceive bs) s (fun t =>
      (s.takesFlit .field bs = true → flitType bs = 2 →
        t = { s with link := { s.link with field := t.link.field, coasting := false, strobeFrame := leAt bs 12 4 } }) ∧
      (s.takesFlit .field bs = true → flitType bs ≠ 2 → t = (s.receive .field bs).1) ∧
      (s.link.field.up = true → flitOk bs = false → t.link.coasting = true ∧ t.link.strobeFrame = s.link.strobeFrame)) ∧
    Answers (.statusFlitReceive bs) s (fun t =>
      (s.takesFlit .field bs = true → flitType bs = 6 →
        t = { s with
          link := { s.link with field := t.link.field }
          sup := { s.sup with
            stFrame := leAt bs 12 4, svLast := leAt bs 12 4, stTb := leAt bs 16 4, stWrap := leAt bs 20 1, stMode := leAt bs 21 1
            since := some 0, stood := false } }) ∧
      (s.takesFlit .field bs = false → t = (s.receive .field bs).1)) ∧
    (∀ d, Answers (.idleFlitReceive d bs) s (fun t => t = (s.receive d bs).1)) ∧
    Answers (.kennelWriteFlit bs) s (fun t =>
      let got := s.evl.arriving ++ flitPayload bs
      t.mem = s.mem ∧
      (s.takesFlit .field bs = false ∨ flitType bs ≠ 7 ∨ s.sup.running = false → t = (s.receive .field bs).1) ∧
      (s.takesFlit .field bs = true → flitType bs = 7 → s.sup.running = true → got.length < leAt got 0 2 →
        t = { s with link := { s.link with field := t.link.field }, evl := { s.evl with arriving := got } }) ∧
      (s.takesFlit .field bs = true → flitType bs = 7 → s.sup.running = true → leAt got 0 2 ≤ got.length →
        t.evl.arriving = [] ∧ t.evl.flight = s.evl.flight.drop 1 ∧
        (s.evl.kennel.frozen = false → s.evl.kennel.lost = none → s.evl.kennel.staged.length < 64 → s.evl.flight = [] →
          t.evl.kennel.staged = s.evl.kennel.staged ++ [recOfBytes got]))))

/-- A replay request sends again, in order, every flit that is not yet acknowledged, and what its receiver awaits begins; the eighth in
a row for one SEQ takes the link down; a watchdog's expiry takes it down; retraining ends with both dies up again, their sequence
numbers afresh (log 24). A die that judges the link down asserts FAULT_N, and the engine die decides SAFE with cause 6 (R29, R33, R34,
R225). -/
def Obligations.LinkFaults : Prop :=
  ∀ s : State,
    (∀ d seq, Answers (.replayRequest d seq) s (fun t =>
      let x := s.linkEnd d
      if x.up = false then t = s
      else
        let keep := unacked ((seq.val + 4095) % 4096) x.replay
        let n := if x.gotSame = 0 then 1 else sameCount seq.val x.gotSeq x.gotSame
        (∃ more, t.sent = s.sent ++ keep.map (Out.flit d) ++ more) ∧ (t.linkEnd d).replay = keep ∧
        (t.linkEnd d).up = decide (n < 8) ∧
        (n < 8 → t = { s with link := t.link, sent := s.sent ++ keep.map (Out.flit d) } ∧
          (t.linkEnd (otherDie d)).resent = ((s.linkEnd (otherDie d)).resent || (s.linkEnd (otherDie d)).waiting)))) ∧
    (∀ d, Answers (.linkWatchdogExpiry d) s (fun t =>
      if (s.linkEnd d).up = false then t = s
      else (t.linkEnd d).up = false ∧ t.linkEnd (otherDie d) = s.linkEnd (otherDie d) ∧ t.link.training = true ∧
        t.flag Reg.SYS_STAT 4 = true ∧ t.mem = s.mem)) ∧
    Answers (.linkWatchdogExpiry .engine) s (fun t =>
      s.link.engine.up = true → mSTANDBY ≤ s.mode → s.mode ≠ mSAFE →
        t.flag Reg.SYS_STAT 5 = false ∧ t.run.safeNext = some (s.run.safeNext.getD 6)) ∧
    Answers .linkRetrainComplete s (fun t =>
      if s.link.training = true ∧ s.phase = .running ∧ s.mode ≠ mFILL then
        t.link = { s.link with field := { up := true }, engine := { up := true }, training := false, rawQ := [] } ∧
        t.flag Reg.SYS_STAT 5 = true ∧ t.fio.lastFrame = none ∧ t.mem = s.mem ∧ t.mode = s.mode
      else t = s)

/-- Stage A's check of a pack that is not OFF: every lane of the pack takes the code of the flit that arrived, or keeps its last one and
notes the strobe as replaced; lanes of other packs are unchanged; a later flit for that strobe will be discarded (R32). RAW_FLIT_SEND:
one flit carries the 32 codes of the strobe and names it by its frame, of strobe 127 the frame before; a pack that is not ON, or a
device that does not run, sends nothing; while the link is down the flit is discarded (R25, R27, R33). A disabled lane's code is zero; a
common-mode overrange is marked by the sign at the pins; a result in range, with no excursion before it, is the code (R82, R86, R87).
The voltages at the pins and the deviations of the converters are operands (log 5). -/
def Obligations.RawSamples : Prop :=
  (∀ (s : State) (k : Fin 8) (n : Fin 128),
    Answers (.stageAFlitCheck k n) s (fun t =>
      (s.pack k.val = 0 → t = s) ∧
      t = { s with link := t.link, lanes := t.lanes } ∧
      (∀ l, l / 32 ≠ k.val → t.lane l = s.lane l) ∧
      (s.pack k.val ≠ 0 → s.lanes.length = 384 →
        let fr := (if n.val < 112 then s.frame else s.frame + 255) % 256
        let hit := s.link.rawQ.find? (fun e => e.1 == 128 * k.val + n.val && e.2.1 == fr)
        sget (fun _ => 0) t.link.checked (128 * k.val + n.val) = fr + 1 ∧
        ∀ l, l < 384 → l / 32 = k.val →
          let x := s.lane l
          let y := t.lane l
          let c := match hit with
            | some h => nth 0#16 h.2.2 (l % 32)
            | none => x.last
          y.last = c ∧
          (n.val < 112 → x.now.length = 128 → x.nowRep.length = 128 →
            nth 0#16 y.now n.val = c ∧ nth false y.nowRep n.val = hit.isNone ∧ y.old = x.old) ∧
          (112 ≤ n.val → x.old.length = 128 → x.oldRep.length = 128 →
            nth 0#16 y.old n.val = c ∧ nth false y.oldRep n.val = hit.isNone ∧ y.now = x.now)))) ∧
  (∀ (s : State) (k : Fin 8) (n : Fin 128) (conv : List Conv),
    Answers (.rawFlitSend k n conv) s (fun t =>
      (s.sends k.val n.val = false → t = s) ∧
      t = { s with link := { s.link with field := t.link.field }, lanes := t.lanes, regs := t.regs, sent := t.sent } ∧
      RegsBut ((List.range 32).flatMap (fun i => [Reg.AFE_LSTAT (32 * k.val + i), Reg.AFE_OVRCNT (32 * k.val + i)])) s t ∧
      (s.link.field.up = false → t.sent = s.sent) ∧
      (s.sends k.val n.val = true → s.link.field.up = true →
        ∃ f, t.sent = s.sent ++ [.flit .field f] ∧ flitType f = 1 ∧ flitSrc f = k.val ∧
          flitSeq f = (s.link.field.lastSeq + 1) % 4096 ∧
          flitStrobe f = n.val + 256 * ((if n.val = 127 then s.frame + 255 else s.frame) % 256) ∧
          ∀ i, i < 32 → nth 0#16 (rawCodes f) i =
            (s.convert (s.sendForm (32 * k.val + i) n.val) (32 * k.val + i) n.val (nth { pins := 0 } conv i)).1))) ∧
  (∀ (s : State) (f : LaneForm) (l n : Nat) (c : Conv),
    let r := (s.convert f l n c).1
    let y := nearest (s.corrected f l (laneSignal f l n c.pins + mkRat c.err 256))
    (f.typ = 0 → r = 0#16) ∧
    (f.typ ≠ 0 → c.cm = true → r = if c.pins < 0 then 0x8000#16 else 0x7FFF#16) ∧
    (f.typ ≠ 0 → c.cm = false → c.ovr = false → (s.lane l).exc = none → -32767 ≤ y → y ≤ 32766 → r = BitVec.ofInt 16 y) ∧
    (f.inj = 1 → f.level = 1 → laneSignal f l n c.pins = 16384) ∧ (f.inj = 0 → laneSignal f l n c.pins = mkRat c.pins 256))

/-- EVENT_SEQUENCE takes the oldest posted event: a repeat of the one before it raises the coalesced count and not the sequence number;
any other takes the next number, from 1, wrapping to 1 (R299, R305), and is staged in each log that it names and that is neither frozen
nor full. A store that is frozen takes no record but the supervisor's; a full one counts what it discards; any other stages the record
last (R306, R308). Stamps and the supervisor's own queue are log 18. -/
def Obligations.Events : Prop :=
  (∀ s : State, Answers .eventSequence s (fun t =>
    match s.evl.posted with
    | [] => t = s
    | e :: rest =>
      t.evl.posted = rest ∧ t.mode = s.mode ∧ t.frame = s.frame ∧
      (s.coalesces e = false →
        let seq := nextSeq (s.rd Reg.EVL_GSEQ).toNat
        t.rd Reg.EVL_GSEQ = BitVec.ofNat 32 seq ∧ t.evl.prev = some (e, seq) ∧ t.evl.prevRep = 0 ∧
        ∀ p : Fin 4, s.hasLog p.val = true → natBit e.logs p.val = true →
          let x := s.store (.log p)
          x.frozen = false → x.lost = none → x.staged.length < 64 →
            (t.store (.log p)).staged = x.staged ++ [⟨e.typ, e.src, seq, 0, e.tb, e.wrap, e.payload⟩]) ∧
      (s.coalesces e = true → t.rd Reg.EVL_GSEQ = s.rd Reg.EVL_GSEQ ∧
        t.fld Reg.EVL_GCOAL 31 0 = (s.fld Reg.EVL_GCOAL 31 0 + 1) % 2 ^ 32 ∧ t.evl.prevRep = s.evl.prevRep + 1))) ∧
  (∀ (s : State) (st : Store) (r : Rec),
    let x := s.store st
    let y := (s.stage st r).store st
    (x.frozen = true → r.src / 4096 ≠ 8 → y = { x with held := some (countRec x.held r) }) ∧
    (x.frozen = false → x.lost = none → x.staged.length < 64 → y = { x with staged := x.staged ++ [r] }) ∧
    (x.frozen = false → x.lost.isSome = true ∨ 64 ≤ x.staged.length → y = { x with lost := some (countRec x.lost r) }) ∧
    ∀ st', st' ≠ st → (s.stage st r).store st' = s.store st')

/-- Freezing, thawing and clearing when the write is due: FREEZE stops the store at this frame; its end stages the FREEZE record last; a
clear, of the kennel once its words can be written (R303, log 25), leaves the pointers at their first values and FULL clear, and its
CLEAR record first; PENDING clears in each with the last write that waits, since each waits for its own boundary (log 40); and a freeze
that has lasted its limit ends, which TIMEOUT shows (R308, R309). -/
def Obligations.StoreControl : Prop :=
  ∀ (s : State) (st : Store),
    let more := decide (2 ≤ (s.waiting (storeCtl st)).length)
    Answers (.storeFreeze st) s (fun t =>
      match s.due (storeCtl st) with
      | none => t = s
      | some r => if bit r.value 0 = true ∧ bit r.value 1 = false then
          t.waiting (storeCtl st) = (s.waiting (storeCtl st)).drop 1 ∧
          (t.store st).frozen = true ∧ t.flag (storeCtl st) 31 = more ∧ t.mem = s.mem ∧
          ((s.store st).frozen = false → (t.store st).frameOn = s.frame ∧ (t.store st).staged = (s.store st).staged)
        else t = s) ∧
    Answers (.storeUnfreeze st) s (fun t =>
      match s.due (storeCtl st) with
      | none => t = s
      | some r => if bit r.value 0 = false ∧ bit r.value 1 = false then
          t.waiting (storeCtl st) = (s.waiting (storeCtl st)).drop 1 ∧
          (t.store st).frozen = false ∧ t.flag (storeCtl st) 31 = more ∧ t.mem = s.mem ∧
          ((s.store st).frozen = true → (t.store st).staged = (s.store st).staged ++ [s.freezeRec st (s.store st) 0])
        else t = s) ∧
    Answers (.storeClear st) s (fun t =>
      match s.due (storeCtl st) with
      | none => t = s
      | some r => if bit r.value 1 = true ∧ s.storeWrites st = true then
          t.waiting (storeCtl st) = (s.waiting (storeCtl st)).drop 1 ∧
          t.storePtrs st = (0, (s.storeArea st).2.2.1, (s.storeArea st).2.2.1, false) ∧
          (t.store st).frozen = bit r.value 0 ∧ t.flag (storeCtl st) 31 = more ∧
          ∃ c rest, c.typ = 4 ∧ (t.store st).staged = c :: rest
        else t = s) ∧
    Answers (.freezeTimeout st) s (fun t =>
      let x := s.store st
      if x.frozen = true ∧ freezeLimit st ≤ (s.frame + 2 ^ 32 - x.frameOn) % 2 ^ 32 then
        (t.store st).frozen = false ∧ (t.store st).staged = x.staged ++ [s.freezeRec st x 1] ∧
        t.flag (storeStat st) 30 = true ∧ t.mem = s.mem
      else t = s)

/-- Writing to the stores: the oldest staged record leaves the queue and the store's count of records is one more, unless the store is
frozen; nothing is written without a log or while the supervisor's supply is below its warning; an open repeat run closes once 256
frames have passed (R302, R303, R305). A read window: the write of its pointer clears READY and the window and starts the copy; when the
copy is complete READY sets and the window holds the store's words, zero where one was read poisoned, with its mark, or past the end
(R310, R400). What a kennel below the warning does with a repeat count is log 25; the words of a window stand in region 7 by log 66. -/
def Obligations.Stores : Prop :=
  (∀ s : State,
    (∀ p : Fin 4, Answers (.logRecordWrite p) s (fun t =>
      (s.hasLog p.val = false → t = s) ∧ ((s.store (.log p)).staged = [] → t = s) ∧
      ∀ r rest, s.hasLog p.val = true → (s.store (.log p)).frozen = false → (s.store (.log p)).staged = r :: rest →
        (s.store (.log p)).lost = none →
        (t.store (.log p)).staged = rest ∧
        t.fld (Reg.EVL_LRECS p.val) 31 0 = (s.fld (Reg.EVL_LRECS p.val) 31 0 + 1) % 2 ^ 32)) ∧
    Answers .kennelRecordWrite s (fun t =>
      (s.sup.running = false ∨ s.sup.warning = true → t = s) ∧
      ∀ r rest, s.sup.running = true → s.sup.warning = false → s.evl.kennel.frozen = false →
        s.evl.kennel.staged = r :: rest → s.evl.kennel.lost = none →
        t.evl.kennel.staged = rest ∧ t.fld Reg.EVL_KRECS 31 0 = (s.fld Reg.EVL_KRECS 31 0 + 1) % 2 ^ 32) ∧
    Answers .repeatRunTimeout s (fun t =>
      if s.evl.prev.isSome = true ∧ s.evl.prevClosed = false ∧ 256 < (s.frame + 2 ^ 32 - s.evl.prevFrame) % 2 ^ 32 then
        t.evl.prevClosed = true ∧ t.mem = s.mem
      else t = s)) ∧
  (∀ (s : State) (st : Store),
    (∀ p v, WriteAnswers (.readWindowLoad p st v) s p (storeReach st) (storeScope st) 0#32 v (fun t =>
      (match st with
        | .log q => s.hasLog q.val
        | .kennel => true) = true →
        t.rd (storeWin st).1 = v ∧ t.flag (storeWin st).2.1 31 = false ∧ (t.store st).loading = true ∧
        MemBut (winCells (winStore st) 64) s t ∧
        ∀ i, i < 64 → t.rd ((storeWin st).2.2 + 4 * i) = 0#32 ∧ t.rdMem 7 (winStore st + i) = (0#32, false))) ∧
    Answers (.readWindowReady st) s (fun t =>
      if (s.store st).loading = true then
        (t.store st).loading = false ∧ t.flag (storeWin st).2.1 31 = true ∧ MemBut (winCells (winStore st) 64) s t ∧
        ∀ i, i < 64 →
          let e := nth (0#32, false) (s.windowWords st) i
          t.rd ((storeWin st).2.2 + 4 * i) = (if e.2 = true then 0#32 else e.1) ∧ t.rdMem 7 (winStore st + i) = (0#32, e.2)
      else t = s))

/-- A word written reads back without error, and every other word reads as before: in the nine regions, for every word value
(R397, R399). -/
def Obligations.MemoryReadAfterWrite : Prop :=
  ∀ (s : State) (r w : Nat) (v : Word),
    (s.wrMem r w v).rdMem r w = (v, false) ∧
    (∀ r' w', w < 2 ^ 33 → w' < 2 ^ 33 → (r', w') ≠ (r, w) → (s.wrMem r w v).rdMem r' w' = s.rdMem r' w') ∧
    MemBut (wordCells r w) s (s.wrMem r w v)

/-- The syndrome is the stored check bits XOR the check bits computed from the stored data, and it decides every read: 0 no
error; one bit set, a check bit in error, data unchanged, corrected; equal to the column of data bit i, that bit inverted,
corrected; 16#7F, the poison mark; any other, uncorrectable. A column is the set of masks the bit lies in (R399). -/
def Obligations.SyndromeDecides : Prop :=
  (∀ (d : Word) (c : Nat),
    let y := syndrome d c
    let e := eccDecode d c
    y = (c ^^^ checkBits d) % 128 ∧
    (y = 0 → e = (.clean, d)) ∧
    (∀ r, r < 7 → y = 2 ^ r → e = (.fixed, d)) ∧
    (∀ i, i < 32 → y = eccColumn i → e = (.fixed, d ^^^ BitVec.ofNat 32 (2 ^ i))) ∧
    (y = 127 → e = (.poison, d)) ∧
    (y ≠ 0 → y ≠ 127 → (∀ r, r < 7 → y ≠ 2 ^ r) → (∀ i, i < 32 → y ≠ eccColumn i) → e = (.bad, d))) ∧
  (∀ i r, i < 32 → r < 7 → natBit (eccColumn i) r = natBit (nth 0 eccMasks r) i) ∧
  ∀ (s : State) (r w : Nat),
    let e := eccDecode (s.rawData r w) (s.rawCheck r w)
    s.rdMem r w = (e.2, e.1 == .bad || e.1 == .poison)

/-- The code corrects every single flip and detects every double flip of the 39 bits of a word written by the device (R398,
R399). -/
def Obligations.SingleErrorsCorrected : Prop :=
  ∀ v : Word,
    (∀ i, i < 32 → eccDecode (v ^^^ BitVec.ofNat 32 (2 ^ i)) (checkBits v) = (.fixed, v)) ∧
    (∀ r, r < 7 → eccDecode v (checkBits v ^^^ 2 ^ r) = (.fixed, v)) ∧
    (∀ i j, i < j → j < 32 →
      (eccDecode (v ^^^ BitVec.ofNat 32 (2 ^ i) ^^^ BitVec.ofNat 32 (2 ^ j)) (checkBits v)).1 = .bad) ∧
    (∀ i r, i < 32 → r < 7 → (eccDecode (v ^^^ BitVec.ofNat 32 (2 ^ i)) (checkBits v ^^^ 2 ^ r)).1 = .bad) ∧
    (∀ r q, r < q → q < 7 → (eccDecode v (checkBits v ^^^ 2 ^ r ^^^ 2 ^ q)).1 = .bad) ∧
    (eccDecode v (checkBits v ^^^ 127)).1 = .poison

/-- On each counted correction CE and L are one more, L not beyond 65 535; where LIMIT is above 0 and L reaches it, OVF sets, L
is 0 and a MEMORY record of kind 2 is posted with the count of corrections since the last overflow; without an overflow nothing
is posted and no vector has a cause. Once LEAK ms have passed since the bucket last leaked, which is where the model counts from (log
64), L is one less, not below 0, and the next leak is LEAK ms later; before that, and with LEAK = 0, there is no leak (R406). -/
def Obligations.LeakyBucket : Prop :=
  ∀ (s : State) (r w y flags : Nat),
    s.mst.wb.any (fun b => b.region == r && b.addr == w && b.syn == y) = false → r < 9 → s.mst.since.length = 9 →
    let t := s.countCorrection r w y flags
    let l := min (s.fld (Reg.MEM_RBKT r) 15 0 + 1) 65535
    let limit := s.fld (Reg.MEM_RBKTCFG r) 15 0
    t.fld (Reg.MEM_RCE r) 31 0 = (s.fld (Reg.MEM_RCE r) 31 0 + 1) % 2 ^ 32 ∧
    t.fld (Reg.MEM_RBKT r) 15 0 = (if 0 < limit ∧ limit ≤ l then 0 else l) ∧
    (0 < limit ∧ limit ≤ l →
      t.flag (Reg.MEM_RFLAG r) 0 = true ∧ nth 0 t.mst.since r = 0 ∧
      ∃ e, t.evl.posted = s.evl.posted ++ [e] ∧ e.typ = 0x20 ∧ leAt e.payload 0 1 = 2 ∧
        leAt e.payload 12 4 = (nth 0 s.mst.since r + 1) % 2 ^ 32) ∧
    (¬ (0 < limit ∧ limit ≤ l) →
      t.evl = s.evl ∧ t.causes = s.causes ∧ nth 0 t.mst.since r = nth 0 s.mst.since r + 1 ∧
      t.flag (Reg.MEM_RFLAG r) 0 = s.flag (Reg.MEM_RFLAG r) 0) ∧
    (∀ g : Fin 9, Answers (.bucketLeak g) s (fun u =>
      let leak := s.fld (Reg.MEM_RBKTCFG g.val) 31 16
      let last := nth 0 s.mst.leakAt g.val
      if leak ≠ 0 ∧ last + leak * 1000000 * nsUnit ≤ s.time.elapsed then
        u = { s with regs := u.regs, mst := { s.mst with leakAt := u.mst.leakAt } } ∧ RegsBut [Reg.MEM_RBKT g.val] s u ∧
        u.fld (Reg.MEM_RBKT g.val) 15 0 = s.fld (Reg.MEM_RBKT g.val) 15 0 - 1 ∧
        (s.mst.leakAt.length = 9 → nth 0 u.mst.leakAt g.val = last + leak * 1000000 * nsUnit)
      else u = s))

/-- Repairs: a write-back that is due stores the word as the read corrected it, with its check bits and leaves every other word's bytes,
whatever the verifying read then finds; a merge entry is flushed out of its buffer, its bytes over those of the word that stands; a row
whose move completes counts one spare more; a scrub step moves the region's position on and touches no word but its own; none of them
acts without its cause (R402, R403, R405, R407). The checker test: a write stores data and check bits as they are given, without
encoding, in the test word; a read shows the word as stored and its syndrome; where the code is not 0 nothing else happens (R411). The
spare counted at completion, the operand as the verifying read, and the order of the test codes are log 30; the addresses of the words
are the model's own expressions (log 6, log 30). -/
def Obligations.MemoryService : Prop :=
  (∀ (s : State) (g : Fin 9),
    (∀ w u, Answers (.correctionWriteBack g w u) s (fun t =>
      match s.mst.wb.find? (fun b => b.region == g.val && b.addr == w) with
      | none => t = s
      | some b => (u = 0#39 → t.rdMem g.val w = (b.data, false)) ∧ MemBut (wordCells g.val w) s t ∧
          t.mst.wb = s.mst.wb.filter (fun x => !(x.region == g.val && x.addr == w)) ∧ t.frame = s.frame ∧ t.mode = s.mode)) ∧
    Answers (.mergeBufferFlush g) s (fun t =>
      match s.mst.merge.find? (fun e => e.region == g.val) with
      | none => t = s
      | some e => e ∉ t.mst.merge ∧ MemBut (wordCells e.region e.addr) s t ∧
          ((s.rdMem e.region e.addr).2 = false →
            t.rdMem e.region e.addr = (mergeBytes (s.rdMem e.region e.addr).1 e.data e.mask, false))) ∧
    Answers (.rowRetireComplete g) s (fun t =>
      match s.mst.retiring.find? (fun e => e.1 == g.val) with
      | none => t = s
      | some e => e ∉ t.mst.retiring ∧ t.mst.retired = s.mst.retired ++ [e] ∧
          MemBut ((List.range 64).flatMap (fun i => wordCells g.val (64 * e.2.1 + i))) s t ∧
          t.fld (Reg.MEM_RSPARE g.val) 15 8 = (s.fld (Reg.MEM_RSPARE g.val) 15 8 + 1) % 256) ∧
    (∀ u, Answers (.scrubStep g u) s (fun t =>
      (s.flag Reg.MEM_CFG 31 = false → t = s) ∧ t.rd Reg.ENG_FRAME = s.rd Reg.ENG_FRAME ∧
      MemBut ((List.range (scrubWords g.val)).flatMap (fun i => wordCells g.val (nth 0 s.mst.scrub g.val + i))) s t ∧
      (s.flag Reg.MEM_CFG 31 = true → 0 < s.regionWords g.val → s.mst.scrub.length = 9 →
        nth 0 t.mst.scrub g.val =
          (if nth 0 s.mst.scrub g.val + scrubWords g.val < s.regionWords g.val
           then nth 0 s.mst.scrub g.val + scrubWords g.val else 0))))) ∧
  (∀ (s : State) (p : Port) (v : Word),
    WriteAnswers (.checkerTestWrite p v) s p .engine .global 0x70FFFFFC#32 (v ||| 1#32) (fun t =>
      t.fld Reg.MEM_TCTL 27 24 = s.testCode ∧
      (s.testCode ≠ 0 → OnlyRegs [Reg.MEM_TCTL] s t) ∧
      (s.testCode = 0 →
        t.rawData (s.fld Reg.MEM_TREG 3 0) (s.rd Reg.MEM_TADDR).toNat = s.rd Reg.MEM_TDATA ∧
        t.rawCheck (s.fld Reg.MEM_TREG 3 0) (s.rd Reg.MEM_TADDR).toNat = s.fld Reg.MEM_TCHK 6 0 ∧
        MemBut (wordCells (s.fld Reg.MEM_TREG 3 0) (s.rd Reg.MEM_TADDR).toNat) s t)) ∧
    WriteAnswers (.checkerTestRead p v) s p .engine .global 0x70FFFFFC#32 (v ||| 2#32) (fun t =>
      t.fld Reg.MEM_TCTL 27 24 = s.testCode ∧
      (s.testCode ≠ 0 → OnlyRegs [Reg.MEM_TCTL] s t) ∧
      (s.testCode = 0 → bit v 0 = false → t.mem = s.mem ∧
        t.rd Reg.MEM_TRDATA = s.rawData (s.fld Reg.MEM_TREG 3 0) (s.rd Reg.MEM_TADDR).toNat ∧
        t.fld Reg.MEM_TRSTAT 6 0 = syndrome (s.rawData (s.fld Reg.MEM_TREG 3 0) (s.rd Reg.MEM_TADDR).toNat)
          (s.rawCheck (s.fld Reg.MEM_TREG 3 0) (s.rd Reg.MEM_TADDR).toNat))))

/-- The writes of a lane's and a bay's settings wait for the start of frame f + 3, those of the thresholds for the first hyperperiod
boundary from there on (R115), and replace one that waits; an injection waits for its own boundary and replaces those that wait for the
same frame (log 40), and while sniff has the lane it is held and HELD reads 1 (R94); each answers for its owner and for none whose
rights do not reach it (R19, R80, R91, R92, R103). -/
def Obligations.LaneWrites : Prop :=
  ∀ (s : State) (p : Port) (v : Word),
    (∀ lane : Fin 256,
      WriteAnswers (.afeLaneWrite p lane v) s p .field (.owned (s.laneOwner lane.val)) 0x7FFFFFCC#32 v (fun t =>
        let k := Reg.AFE_LANE lane.val
        OnlyRequests [k] s t ∧ WaitsOn k v p s t ∧
        t.fld k 5 4 = field v 5 4 ∧ t.fld k 1 0 = field v 1 0 ∧ t.flag k 31 = true) ∧
      WriteAnswers (.afeInjWrite p lane v) s p .field (.owned (s.laneOwner lane.val)) 0x3FFFFF8C#32 v (fun t =>
        let k := Reg.AFE_INJ lane.val
        let g := (s.frame + 3) % 2 ^ 32
        t.fld k 6 4 = field v 6 4 ∧ t.fld k 1 0 = field v 1 0 ∧ t.flag k 31 = true ∧
        if s.flag (Reg.AFE_LSTAT lane.val) 12 = true then
          t = { s with regs := t.regs, lanes := t.lanes, reqs := t.reqs } ∧ RegsBut [k] s t ∧ ReqsBut [k] s t ∧
          t.flag k 30 = true ∧ t.waiting k = [] ∧
          (s.lanes.length = 384 → (t.lane lane.val).injHeld = some v)
        else OnlyRequests [k] s t ∧ t.waiting k = (s.waiting k).filter (fun r => r.due != g) ++ [⟨g, v, p⟩])) ∧
    (∀ (bay : Fin 32) (k : Fin 8),
      WriteAnswers (.cnvTrimWrite p bay k true v) s p .field (.owned (s.bayOwner bay.val)) 0x0080FF00#32 v (fun t =>
        OnlyRequests [Reg.CNV_STRIM bay.val k.val] s t ∧ WaitsOn (Reg.CNV_STRIM bay.val k.val) v p s t ∧
        t.fld (Reg.CNV_STRIM bay.val k.val) 7 0 = field v 7 0) ∧
      WriteAnswers (.cnvTrimWrite p bay k false v) s p .field (.owned (s.bayOwner bay.val)) 0#32 v (fun t =>
        OnlyRequests [Reg.CNV_LTRIM bay.val k.val] s t ∧ WaitsOn (Reg.CNV_LTRIM bay.val k.val) v p s t ∧
        t.rd (Reg.CNV_LTRIM bay.val k.val) = v)) ∧
    (∀ (bay : Fin 32) (i : Instr) (w : Word), (i, w) ∈ [(Instr.cnvCtrlWrite p bay v, v), (Instr.cnvRestore p bay v, v ||| 2#32)] →
      WriteAnswers i s p .field (.owned (s.bayOwner bay.val)) 0xFFFFFF0C#32 w (fun t =>
        OnlyRequests [Reg.CNV_CTRL bay.val] s t ∧ WaitsOn (Reg.CNV_CTRL bay.val) w p s t ∧
        t.rd (Reg.CNV_CTRL bay.val) = w &&& 0xF1#32)) ∧
    (∀ lane : Fin 384,
      WriteAnswers (.decLaneWrite p lane v) s p .engine (.owned (s.laneOwner lane.val)) (decLaneRsv lane.val) v (fun t =>
        let k := Reg.DEC_LANE lane.val
        OnlyRequests [k] s t ∧ WaitsOn k v p s t ∧ t.flag k 31 = true ∧ t.fld k 23 16 = field v 23 16 ∧ t.fld k 1 0 = field v 1 0) ∧
      ∀ hh, WriteAnswers (.thresholdWrite p lane hh v) s p .engine (.owned (s.laneOwner lane.val)) 0#32 v (fun t =>
        let k := thrReg lane.val hh
        OnlyRequests [k, Reg.DEC_TSTAT lane.val] s t ∧ t.waiting k = [⟨s.hyper3, v, p⟩] ∧ t.rd k = v ∧
        t.flag (Reg.DEC_TSTAT lane.val) 5 = true))

/-- A lane's write at its boundary: outside a mode that permits it, it is refused and REJ sets with gain and type as they were; with the
pack ON gain and type take hold, and a lane that is enabled marks its unsettled outputs; with the pack OFF they are stored. An injection
is held while sniff has the lane, else it applies, and mode 3 or a mode that does not permit it leaves none (R80, R92, R93, R94, R110).
What becomes of a stored injection when the mode stops permitting it is log 61. -/
def Obligations.LaneEffects : Prop :=
  ∀ (s : State) (lane : Fin 256), s.lanes.length = 384 →
    let l := lane.val
    Answers (.laneSettingsApply lane) s (fun t =>
      match s.due (Reg.AFE_LANE l) with
      | none => t = s
      | some r =>
        t.flag (Reg.AFE_LANE l) 31 = false ∧ t = { s with regs := t.regs, reqs := t.reqs, lanes := t.lanes } ∧
        (s.permits = false → t.flag (Reg.AFE_LSTAT l) 15 = true ∧ t.gainSet l = s.gainSet l ∧ t.typ l = s.typ l ∧ t.lanes = s.lanes) ∧
        (s.permits = true → s.packOn l = true →
          t.gainSet l = field r.value 1 0 ∧ t.typ l = field r.value 5 4 ∧
          (s.typ l = 0 → field r.value 5 4 ≠ 0 → s.nA l ≤ t.fld (Reg.DEC_LSTAT l) 7 4)) ∧
        (s.permits = true → s.packOn l = false →
          t.gainSet l = s.gainSet l ∧ t.typ l = s.typ l ∧ (t.lane l).stored = some r.value)) ∧
    Answers (.injectionApply lane) s (fun t =>
      let k := Reg.AFE_INJ l
      let sniff := s.flag (Reg.AFE_LSTAT l) 12
      (s.waiting k = [] → RegsBut [k] s t ∧ t.lanes = s.lanes ∧ t.flag k 31 = (s.lane l).injHeld.isSome) ∧
      ∀ r, s.waiting k = [r] → frameReached s.frame r.due = true →
        t.waiting k = [] ∧ t = { s with regs := t.regs, reqs := t.reqs, lanes := t.lanes } ∧
        (sniff = true → t.flag k 30 = true ∧ t.flag k 31 = true ∧ (t.lane l).injHeld = some r.value ∧
          (t.lane l).inj = (s.lane l).inj) ∧
        (sniff = false →
          let w := if field r.value 1 0 = 3 ∨ s.permits = false then 0#32 else r.value
          (t.lane l).inj = w ∧ t.flag k 31 = (s.lane l).injHeld.isSome ∧
          t.injection l = if s.packOn l = true ∧ s.typ l ≠ 0 then field w 1 0 else 0))

/-- Trims and coefficients of a slice: CODE is FACT + TRIM held within 0 to 127, LTRIM and CNV_CTRL take hold, RESTORE reloads the
production coefficients; a background window that is complete (512 or 2,048 frames with the pack ON and the correction not held) writes
the eight offsets, or the two gains; a lock writes the loop codes, which lie from 32 to 224 and otherwise are free, unless FREEZE keeps
them (R84, R89 to R91, R99). Measurements of a slice under injection: without it nothing; at the AVG-th crossing the mean skew is
written with its valid bit and the accumulation starts anew; the level when enough frames are summed (R96, R97). The loop codes at lock
are free values within their range (log 2, log 49). -/
def Obligations.Slices : Prop :=
  (∀ (s : State) (bay : Fin 32),
    let b := bay.val
    Answers (.trimApply bay) s (fun t =>
      t.mem = s.mem ∧
      ((∀ k, k < 8 → s.waiting (Reg.CNV_STRIM b k) = [] ∧ s.waiting (Reg.CNV_LTRIM b k) = []) → s.waiting (Reg.CNV_CTRL b) = [] →
        t.regs = s.regs ∧ t.lanes = s.lanes ∧ t.bays = s.bays) ∧
      (∀ k r, k < 8 → s.waiting (Reg.CNV_STRIM b k) = [r] → frameReached s.frame r.due = true →
        t.fld (Reg.CNV_STRIM b k) 30 24 =
          (clampInt 0 127 ((s.fld (Reg.CNV_STRIM b k) 22 16 : Int) + sext 8 (field r.value 7 0))).toNat) ∧
      (∀ k r, k < 8 → s.waiting (Reg.CNV_LTRIM b k) = [r] → frameReached s.frame r.due = true → s.lanes.length = 384 →
        (t.lane (8 * b + k)).ltrim = r.value) ∧
      (∀ r, s.waiting (Reg.CNV_CTRL b) = [r] → frameReached s.frame r.due = true → s.bays.length = 48 →
        t.flag (Reg.CNV_STAT b) 0 = bit r.value 0 ∧ t.avg b = 2 ^ min 8 (field r.value 7 4) ∧
        (bit r.value 1 = true → t.rd (Reg.CNV_SUBGAIN b) = Config.subgain b ∧ t.fld (Reg.CNV_STAT b) 2 1 = 0))) ∧
    (∀ est, Answers (.offsetWindowEnd bay est) s (fun t =>
      if s.offsetEnds b = true then
        t = { s with regs := t.regs, bays := t.bays } ∧ (∀ k, k < 8 → t.rd (Reg.CNV_LOFS b k) = (nth 0#16 est k).setWidth 32) ∧
        t.flag (Reg.CNV_STAT b) 1 = true ∧ (s.bays.length = 48 → (t.bay b).offWin = (s.bay b).offWin - 512)
      else t = s)) ∧
    (∀ e o, Answers (.gainWindowEnd bay e o) s (fun t =>
      if s.gainEnds b = true then
        t = { s with regs := t.regs, bays := t.bays } ∧ RegsBut [Reg.CNV_SUBGAIN b, Reg.CNV_STAT b] s t ∧
        t.rd (Reg.CNV_SUBGAIN b) = BitVec.ofNat 32 (e.toNat + 65536 * o.toNat) ∧ t.flag (Reg.CNV_STAT b) 2 = true
      else t = s)) ∧
    Answers (.dllLock bay) s (fun t =>
      if s.pack (b / 4) = 1 then
        t = { s with regs := t.regs, freeIx := t.freeIx } ∧ RegsBut [Reg.CNV_TREE b, Reg.CNV_STAT b] s t ∧
        t.flag (Reg.CNV_STAT b) 3 = true ∧
        (s.flag (Reg.CNV_STAT b) 0 = true → t.rd (Reg.CNV_TREE b) = s.rd (Reg.CNV_TREE b)) ∧
        (s.flag (Reg.CNV_STAT b) 0 = false →
          32 ≤ t.fld (Reg.CNV_TREE b) 7 0 ∧ t.fld (Reg.CNV_TREE b) 7 0 ≤ 224 ∧
          32 ≤ t.fld (Reg.CNV_TREE b) 15 8 ∧ t.fld (Reg.CNV_TREE b) 15 8 ≤ 224)
      else t = s)) ∧
  (∀ (s : State) (lane : Fin 256), s.lanes.length = 384 →
    let l := lane.val
    Answers (.skewMeasure lane) s (fun t =>
      let k := Reg.CNV_SKEW (l / 8) (l % 8)
      let x := s.lane l
      (s.injection l ≠ 2 ∨ x.meas = true ∨ s.typ l = 0 → t = s) ∧
      t = { s with regs := t.regs, lanes := t.lanes } ∧ RegsBut [k] s t ∧
      (s.injection l = 2 → x.meas = false → s.typ l ≠ 0 → (t.lane l).meas = true ∧
        (crossing x.codes = none → t.regs = s.regs ∧ (t.lane l).skCnt = x.skCnt) ∧
        ∀ n a b, crossing x.codes = some (n, a, b) →
          let acc := x.skAcc + (mkRat 37 2 - (n + mkRat (-a) (b - a).toNat))
          if x.skCnt + 1 = s.avg (l / 8) then
            t.rd k = BitVec.ofNat 32 (toTwos 16 (nearest (acc / ((x.skCnt + 1 : Nat) : Rat) * mkRat 15625 2)) + 2 ^ 31) ∧
            (t.lane l).skCnt = 0 ∧ (t.lane l).skAcc = 0
          else t.regs = s.regs ∧ (t.lane l).skCnt = x.skCnt + 1 ∧ (t.lane l).skAcc = acc)) ∧
    Answers (.dcLevelResult lane) s (fun t =>
      if s.injection l = 1 ∧ s.typ l ≠ 0 ∧ s.avg (l / 8) ≤ (s.lane l).dcCnt then
        t = { s with regs := t.regs, lanes := t.lanes } ∧ RegsBut [Reg.CNV_DCMEAS (l / 8) (l % 8)] s t ∧
        t.rd (Reg.CNV_DCMEAS (l / 8) (l % 8)) =
          BitVec.ofNat 32 (toTwos 24 (nearest (mkRat ((s.lane l).dcAcc * 2) (s.lane l).dcCnt)) + 2 ^ 31) ∧
        (t.lane l).dcCnt = 0 ∧ (t.lane l).dcAcc = 0
      else t = s))

/-- Stage A forms the frame's outputs once: the word of a pack that is not ON, the word of a disabled lane, or the clamped sum of R100
over the lane's codes (R71, R82, R100); an integrator's mean is subtracted when its 640 outputs are complete; a DEC_LANE that is due
takes hold in a mode that permits it and sets REJ otherwise; thresholds take hold at their boundary and PENDING clears with the last
(R103, R107, R108, R115). The coefficients are constants without a body (log 1); the words before the path's start are those of a pack
that is OFF (log 20). -/
def Obligations.FilterChain : Prop :=
  ∀ s : State, s.lanes.length = 384 →
    Answers .stageAOutput s (fun t =>
      if s.run.formed = true then t = s
      else
        t = { s with
          acq := t.acq, triad := t.triad, tw := t.tw, regs := t.regs, run := t.run, lanes := t.lanes, bays := t.bays } ∧
        t.run.formed = true ∧ t.frame = s.frame ∧ t.mode = s.mode ∧
        ∀ l, l < 256 →
          let x := s.lane l
          let p := presetOf x.form.dec
          let sum := stageASum (coefBase p (bit x.form.dec 4)) (taps p) (x.old.reverse ++ x.raw)
          (x.form.on = false → (t.lane l).aOut = wordOffT x.form.t) ∧
          (x.form.on = true → x.form.typ = 0 → (t.lane l).aOut = wordDisabled x.form.t) ∧
          (x.form.on = true → x.form.typ ≠ 0 →
            wordVal (t.lane l).aOut = (clampVal (roundEven sum (2 ^ 22))).1 ∧ wordT (t.lane l).aOut = x.form.t)) ∧
    (∀ lane : Fin 256, Answers (.integratorSettled lane) s (fun t =>
      t = { s with lanes := t.lanes } ∧ (∀ j, j ≠ lane.val → t.lane j = s.lane j) ∧
      ((s.lane lane.val).intPend = true →
        (t.lane lane.val).y = (s.lane lane.val).y - (s.lane lane.val).ySum / 640 ∧ (t.lane lane.val).intPend = false) ∧
      ((s.lane lane.val).intPend = false → t = s))) ∧
    (∀ lane : Fin 384, Answers (.decLaneApply lane) s (fun t =>
      match s.due (Reg.DEC_LANE lane.val) with
      | none => t = s
      | some r =>
        t.flag (Reg.DEC_LANE lane.val) 31 = false ∧ t = { s with regs := t.regs, reqs := t.reqs, lanes := t.lanes } ∧
        (s.permits = false → t.lanes = s.lanes ∧ t.flag (Reg.DEC_LSTAT lane.val) 31 = true) ∧
        (s.permits = true → (t.lane lane.val).dec = r.value &&& 0x00FF0713#32))) ∧
    (∀ lane : Fin 384, Answers (.thresholdApply lane) s (fun t =>
      t = { s with regs := t.regs, reqs := t.reqs, lanes := t.lanes } ∧ RegsBut [Reg.DEC_TSTAT lane.val] s t ∧
      (∀ r, s.waiting (Reg.DEC_HI lane.val) = [r] → s.waiting (Reg.DEC_HH lane.val) = [] → frameReached s.frame r.due = true →
        (t.lane lane.val).hi = r.value ∧ (t.lane lane.val).hh = (s.lane lane.val).hh ∧ t.flag (Reg.DEC_TSTAT lane.val) 5 = false) ∧
      (∀ r, s.waiting (Reg.DEC_HH lane.val) = [r] → s.waiting (Reg.DEC_HI lane.val) = [] → frameReached s.frame r.due = true →
        (t.lane lane.val).hh = r.value ∧ (t.lane lane.val).hi = (s.lane lane.val).hi ∧ t.flag (Reg.DEC_TSTAT lane.val) 5 = false)))

/-- Scans start by command, by frame or by comparison, as START says; a trigger that meets a running scan is missed and counted (R119 to
R122); the compare fires once TB_NS has equalled the armed value, and disarms; TRUNC reads whether more than 32 channels are enabled
(R119). Conversions: an urgent one is delivered in AUX_URGRES with its valid bit and channel and clears BUSY; in a scan a code is added
until the averaging count is full, then its sum shifted by SHIFT stands in AUX_RES; with neither running nothing happens. An urgent
request is taken only where none runs, and one for a channel beyond 47 not at all (R122, R123). That the comparison acts by a row of its
own is log 51. -/
def Obligations.AuxConverter : Prop :=
  (∀ s : State,
    (∀ p v, WriteAnswers (.auxGo p v) s p .field .global 0xFFFFFFFE#32 (v ||| 1#32) (fun t =>
      if s.auxStart = 0 then AuxTriggered s t else t = s)) ∧
    Answers .auxFrameTrigger s (fun t =>
      if s.auxStart = 1 ∧ s.frame % 2 ^ min 8 (field s.aux.cfg 11 8) = 0 ∧ s.phase = .running then AuxTriggered s t else t = s) ∧
    (∀ p v, WriteAnswers (.auxCmpArm p v) s p .field .global 0#32 v (fun t =>
      OnlyRequests [Reg.AUX_CMP] s t ∧ t.rd Reg.AUX_CMP = v ∧
      (⟨(s.frame + 3) % 2 ^ 32, v, p⟩ : Req) ∈ t.waiting Reg.AUX_CMP)) ∧
    Answers .auxCompareFire s (fun t => t.mem = s.mem ∧ ReqsBut [Reg.AUX_CMP] s t ∧
      (s.waiting Reg.AUX_CMP = [] →
        if s.flag Reg.AUX_STAT 3 = true ∧ s.auxReached = true then
          t.flag Reg.AUX_STAT 3 = false ∧
          (s.auxStart ≠ 2 → t.aux = s.aux ∧ RegsBut [Reg.AUX_STAT] s t) ∧
          (s.auxStart = 2 → ∃ u, u.aux = s.aux ∧ u.regs = (s.setFlag Reg.AUX_STAT 3 false).regs ∧ AuxTriggered u t)
        else t.regs = s.regs ∧ t.aux = s.aux)) ∧
    Answers .auxConfigApply s (fun t => t.mem = s.mem ∧ RegsBut [Reg.AUX_STAT] s t ∧
      t.flag Reg.AUX_STAT 1 = decide (32 < (auxChannels t.aux.maskLo t.aux.maskHi).length) ∧
      (s.waiting Reg.AUX_CFG = [] → t.aux.cfg = s.aux.cfg) ∧ (s.waiting Reg.AUX_MASK_LO = [] → t.aux.maskLo = s.aux.maskLo) ∧
      (∀ r, s.waiting Reg.AUX_CFG = [r] → frameReached s.frame r.due = true → t.aux.cfg = r.value) ∧
      (∀ r, s.waiting Reg.AUX_MASK_LO = [r] → frameReached s.frame r.due = true → t.aux.maskLo = r.value) ∧
      (∀ r, s.waiting Reg.AUX_MASK_HI = [r] → frameReached s.frame r.due = true → t.aux.maskHi = r.value) ∧
      (∀ r, s.waiting Reg.AUX_CMP = [r] → frameReached s.frame r.due = true →
        t.aux.cmp = r.value ∧ t.flag Reg.AUX_STAT 3 = true))) ∧
  (∀ s : State,
    (∀ code : Fin 65536, Answers (.auxConversionDone code) s (fun t =>
      match s.aux.urg with
      | some c => t.aux.urg = none ∧ t.flag Reg.AUX_URG 31 = false ∧
          t.rd Reg.AUX_URGRES = BitVec.ofNat 32 (2 ^ 31 + c * 65536 + code.val) ∧ RegsBut [Reg.AUX_URG, Reg.AUX_URGRES] s t
      | none =>
        (s.flag Reg.AUX_STAT 0 = false → t = s) ∧
        (s.flag Reg.AUX_STAT 0 = true → s.aux.cnt + 1 < 2 ^ min 8 (field s.aux.scfg 27 24) →
          t = { s with aux := { s.aux with sum := s.aux.sum + code.val, cnt := s.aux.cnt + 1 } }) ∧
        (s.flag Reg.AUX_STAT 0 = true → 2 ^ min 8 (field s.aux.scfg 27 24) ≤ s.aux.cnt + 1 → s.aux.idx < 32 →
          t.rd (Reg.AUX_RES s.aux.idx) = BitVec.ofNat 32 (s.aux.scan * 2 ^ 24 +
            (s.aux.sum + code.val) / 2 ^ min 8 (field s.aux.scfg 31 28) % 2 ^ 24) ∧
          t.aux.idx = s.aux.idx + 1 ∧ (s.aux.entries.length ≤ s.aux.idx + 1 → t.flag Reg.AUX_STAT 0 = false)))) ∧
    (∀ p v, WriteAnswers (.auxUrgentRequest p v) s p .field .global 0x7FFFFFC0#32 v (fun t =>
      RegsBut [Reg.AUX_URG, Reg.AUX_URGRES, Reg.AUX_STAT] s t ∧ (s.aux.urg = none → t.flag Reg.AUX_URGRES 31 = false) ∧
      (s.aux.urg.isSome = true → t.aux = s.aux ∧ t.flag Reg.AUX_STAT 2 = true ∧ t.fld Reg.AUX_URG 5 0 = s.fld Reg.AUX_URG 5 0) ∧
      (s.aux.urg = none → 48 ≤ field v 5 0 → t.aux = s.aux) ∧
      (s.aux.urg = none → field v 5 0 < 48 → t.aux.urg = some (field v 5 0) ∧ t.flag Reg.AUX_URG 31 = true))) ∧
    (∀ codes : List (Fin 65536), Answers (.supplyWindow codes) s (fun t =>
      (s.windowRuns = false ∨ codes.length ≠ s.windowChannels.length → t = s) ∧
      (s.windowRuns = true → codes.length = s.windowChannels.length →
        t.aux.win = true ∧ t.aux.fresh = s.windowChannels ∧ t.mem = s.mem ∧
        ∀ i, i < codes.length → t.fld (Reg.SNF_INT (nth 0 s.windowChannels i - 16)) 15 0 = (codes[i]?.getD 0).val))))

/-- A survey command waits for the start of frame f + 3; at that boundary CODE 1 meets a running survey, an empty command aborts it with
code 4, and CODE 2 answers where no plan runs; nothing is due, nothing happens (R126). The rows of a running survey: a step takes one
granted run and keeps what it measures; an item ends after its frames, once its steps and its own condition are done, and DONE shows it
unless its data are too few; a cable step starts when no lane is under host injection, takes its lanes, and after 16 frames gives each
lane its entry and leaves it; lanes that wait for 256 frames are given up; a response and its follow-up complete an exchange, a timeout
sends the next request or finishes the port; the end writes the code, clears BUSY and raises its event. Without a running survey nothing
of it happens (R127 to R135). The octets of the messages are those of the standard (log 32, PRESUMED), an exchange is timed by its
stamps alone (log 61), commands queue on SNF_CMD each for its boundary (log 40), and the end takes no run of its own (log 51). -/
def Obligations.Surveys : Prop :=
  (∀ s : State,
    (∀ p v, WriteAnswers (.surveyCommand p v) s p .engine .global 0x3FFFFFC0#32 v (fun t =>
      OnlyRequests [Reg.SNF_CMD] s t ∧ t.waiting Reg.SNF_CMD = s.waiting Reg.SNF_CMD ++ [⟨(s.frame + 3) % 2 ^ 32, v, p⟩] ∧
      t.fld Reg.SNF_CMD 5 0 = field v 5 0 ∧ t.flag Reg.SNF_CMD 31 = true)) ∧
    Answers .surveyCommandEffect s (fun t =>
      (s.waiting Reg.SNF_CMD = [] → t.regs = s.regs ∧ t.sniff = s.sniff) ∧
      ∀ r, s.waiting Reg.SNF_CMD = [r] → frameReached s.frame r.due = true →
        t.flag Reg.SNF_CMD 31 = false ∧ MemBut (winCells winRec 436) s t ∧
        (s.surveyRuns = true → field r.value 5 0 ≠ 0 → t.sniff = s.sniff ∧ t.fld Reg.SNF_STAT 31 28 = 1) ∧
        (s.surveyRuns = true → field r.value 5 0 = 0 → s.sniff.closing = false → t.sniff.closing = true ∧ t.sniff.code = 4) ∧
        (s.surveyRuns = false → field r.value 5 0 = 0 → t.sniff = s.sniff) ∧
        (s.surveyRuns = false → field r.value 5 0 ≠ 0 → s.planRuns = false → t.sniff = s.sniff ∧ t.fld Reg.SNF_STAT 31 28 = 2) ∧
        (s.surveyRuns = false → field r.value 5 0 ≠ 0 → s.planRuns = true →
          t.surveyRuns = true ∧ t.fld Reg.SNF_STAT 15 0 = (s.fld Reg.SNF_STAT 15 0 + 1) % 65536 ∧ t.sniff.req = portCode r.port))) ∧
  (∀ s : State,
    (s.surveyRuns = false →
      (∀ d, Answers (.sniffMeasurementStep d) s (fun t => t = s)) ∧ Answers .surveyItemEnd s (fun t => t = s) ∧
      Answers .cableStepStart s (fun t => t = s) ∧ Answers .cableWaitTimeout s (fun t => t = s) ∧
      (∀ y, Answers (.cableStepEnd y) s (fun t => t = s)) ∧ Answers .surveyEnd s (fun t => t = s) ∧
      (∀ q dst src tags typ msg trailer, Answers (.pdelayRespReceive q dst src tags typ msg trailer) s (fun t => t = s)) ∧
      (∀ q, Answers (.pdelayTimeout q) s (fun t => t = s))) ∧
    (∀ d, Answers (.sniffMeasurementStep d) s (fun t =>
      t.mem = s.mem ∧
      (s.surveyRuns = true → s.sniff.left ≠ 0 → s.canRun 6 0 = true →
        t.ojobs = (s.takeRun 6 0).ojobs ∧ t.sniff.left = s.sniff.left - 1 ∧
        (s.sniff.items.head? ≠ some 4 → s.sniff.items.head? ≠ some 5 → t.sniff.vals = d.vals) ∧
        (s.sniff.items.head? = some 4 → t.sniff.found.length = s.sniff.found.length + 4) ∧
        (s.sniff.items.head? = some 5 → s.sniff.ports.length = 4 → s.sniff.left ≤ 4 →
          (nth {} s.sniff.ports (4 - s.sniff.left)).linked = true →
          (nth {} t.sniff.ports (4 - s.sniff.left)).waiting = true ∧ (nth {} t.sniff.ports (4 - s.sniff.left)).left = 2)))) ∧
    Answers .surveyItemEnd s (fun t =>
      MemBut (winCells winRec 436) s t ∧ ∀ i rest, s.surveyRuns = true → s.sniff.items = i :: rest → s.sniff.left = 0 →
        itemFrames i ≤ s.sniff.frames → (i = 1 → s.sniff.bay = none) → (i = 5 → s.sniff.ports.all (fun x => x.done) = true) →
        t.sniff.items = rest ∧ (rest = [] → t.sniff.closing = true) ∧
        t.fld Reg.SNF_STAT 21 16 =
          (if i = 0 ∧ s.sniff.counted < 128 then s.fld Reg.SNF_STAT 21 16 else (s.fld Reg.SNF_STAT 21 16 ||| 2 ^ i) % 64) ∧
        (i = 3 → ∀ n, n < 64 →
          let st := field (t.rd (recKey (1280 + 4 * n))) 31 29
          ((nth {} s.fio.di n).supervised = false → st = 5) ∧
          ((nth {} s.fio.di n).supervised = true → natBit s.sniff.diSeen n = true → st = 4)) ∧
        (i = 2 → ∀ n, n < 32 → bit s.sniff.doMask n = true →
          let st := field (t.rd (recKey (1152 + 4 * n))) 31 30
          st = (if bit s.sniff.onSeen n = true ∨ s.bankState (n / 8) = 2 ∨ (s.dout n).tsd = true then 3
            else if 12000 ≤ nth 0 s.sniff.vals n then 2 else 1))) ∧
    Answers .cableStepStart s (fun t =>
      s.surveyRuns = true → s.sniff.items.head? = some 1 → s.sniff.bay.isSome = true → s.sniff.stepAt = none → s.sniff.left = 0 →
        (s.sniff.lanes.any s.hostInjects = false →
          t.sniff.stepAt = some s.frame ∧ ∀ l, l ∈ s.sniff.lanes → t.flag (Reg.AFE_LSTAT l) 12 = true) ∧
        (s.sniff.lanes.any s.hostInjects = true → t = s)) ∧
    Answers .cableWaitTimeout s (fun t =>
      (s.sniff.wait < 256 → t = s) ∧
      (s.surveyRuns = true → s.sniff.items.head? = some 1 → s.cableWaits = true → 256 ≤ s.sniff.wait →
        t = { s with sniff := t.sniff } ∧ t.sniff.lanes = s.sniff.lanes.filter (fun l => !s.hostInjects l))) ∧
    (∀ y : Fin 32, Answers (.cableStepEnd y) s (fun t =>
      (s.sniff.stepAt = none ∨ s.sniff.bay ≠ some y.val → t = s) ∧
      ∀ g, s.sniff.stepAt = some g → s.sniff.bay = some y.val → s.surveyRuns = true → 16 ≤ (s.frame + 2 ^ 32 - g) % 2 ^ 32 →
        t.sniff.stepAt = none ∧ t.mem = s.mem ∧ t.sniff.found.length = s.sniff.found.length + s.sniff.lanes.length ∧
        ∀ l, l ∈ s.sniff.lanes → t.flag (Reg.AFE_LSTAT l) 12 = false)) ∧
    (∀ q dst src tags typ msg trailer, Answers (.pdelayRespReceive q dst src tags typ msg trailer) s (fun t =>
      let bs := etherOctets dst src tags typ msg trailer
      let x := nth {} s.sniff.ports q.val
      let y := nth {} t.sniff.ports q.val
      let o := etypeOff bs + 2
      let stamp : Int := (beAt bs (o + 34) 6 * 1000000000 + beAt bs (o + 40) 4 : Nat)
      t = { s with sniff := { s.sniff with ports := t.sniff.ports } } ∧ (sniffPtp q.val bs = false → t = s) ∧
      (sniffPtp q.val bs = true → s.surveyRuns = true → s.sniff.items.head? = some 5 → s.sniff.ports.length = 4 →
        x.waiting = true → beAt bs (o + 30) 2 + x.left = 2 →
        (beAt bs o 1 % 16 = 3 →
          y = { x with
            resp := some (stamp, (s.fullNs : Int) - (s.rd (Reg.TIM_PRXLAT q.val)).toNat)
            mac := slice bs 6 6, clock := slice bs (o + 20) 8 }) ∧
        (beAt bs o 1 % 16 ≠ 3 → ∀ t2 t4, x.resp = some (t2, t4) →
          y = { x with
            waiting := false, resp := none, count := x.count + 1, sum2 := x.sum2 + ((t4 - x.t1) - (stamp - t2)) })))) ∧
    (∀ q, Answers (.pdelayTimeout q) s (fun t =>
      let x := nth {} s.sniff.ports q.val
      let y := nth {} t.sniff.ports q.val
      t.mem = s.mem ∧ (x.done = true → t = s) ∧
      (s.surveyRuns = true → s.sniff.items.head? = some 5 → s.sniff.ports.length = 4 → x.linked = true → x.done = false →
        s.sniff.left + q.val < 4 → 1600 ≤ (s.frame + 2 ^ 32 - x.sent) % 2 ^ 32 →
        (x.left = 0 → y = { x with waiting := false, done := true }) ∧
        (x.left ≠ 0 → y.left = x.left - 1 ∧ y.waiting = true ∧ y.sent = s.frame)))) ∧
    Answers .surveyEnd s (fun t =>
      s.surveyRuns = true → s.sniff.closing = true →
        t.surveyRuns = false ∧ t.sniff = { s.sniff with closing := false } ∧
        t.fld Reg.SNF_STAT 31 28 = s.sniff.code % 16 ∧ t.rd (recKey 16) = s.rd Reg.ENG_FRAME ∧ MemBut (winCells winRec 436) s t ∧
        ∃ e : Event, e.typ = 0x0C ∧ t.evl.posted = s.evl.posted ++ [e]))

/-- MSR_CFG waits for its hyperperiod boundary and takes hold there; a read of MSR_FRAME copies the bay's result words to the port's own
copy and returns the frame; without a granted run neither service does anything; a run of the harmonic service follows the words of the
frame before, is taken and its frame noted; a run of the report service empties the bay's slots (R26, R44, R151, R155, R156, R158). A
harmonic run of a bay with EN = 0 writes nothing, which is the model's choice (log 50). -/
def Obligations.Measurement : Prop :=
  ∀ (s : State) (bay : Fin 48),
    let b := bay.val
    (∀ p v, WriteAnswers (.msrCfgWrite p bay v) s p .engine (.owned (s.bayOwner b)) 0x000008C8#32 v (fun t =>
      OnlyRequests [Reg.MSR_CFG b, Reg.MSR_FSTAT b] s t ∧ t.rd (Reg.MSR_CFG b) = v ∧
      t.waiting (Reg.MSR_CFG b) = [⟨s.hyper3, v, p⟩] ∧ t.flag (Reg.MSR_FSTAT b) 31 = true)) ∧
    Answers (.msrCfgApply bay) s (fun t =>
      t = { s with regs := t.regs, reqs := t.reqs, bays := t.bays } ∧ RegsBut [Reg.MSR_FSTAT b] s t ∧
      ∀ r, s.waiting (Reg.MSR_CFG b) = [r] → s.waiting (Reg.MSR_SYNC b) = [] → frameReached s.frame r.due = true →
        s.bays.length = 48 → (t.bay b).cfg = r.value ∧ t.flag (Reg.MSR_FSTAT b) 31 = false) ∧
    (∀ p, Answers (.msrFrameRead p bay) s (fun t =>
      t = { s with regs := t.regs, rdata := t.rdata } ∧
      (s.reaches p .engine = false → t.rdata = none ∧ t.regs = s.regs) ∧
      (s.reaches p .engine = true → s.right p (.owned (s.bayOwner b)) = 0 → t.rdata = some 0#32 ∧ t.regs = s.regs) ∧
      (s.reaches p .engine = true → s.right p (.owned (s.bayOwner b)) ≠ 0 →
        t.rdata = some (s.rd (Reg.MSR_FRAME b)) ∧
        ∀ o, o ∈ shadowOffsets → t.rd (portKey (portCode p) (Reg.MSR_CFG b + o)) = s.rd (Reg.MSR_CFG b + o)))) ∧
    Answers (.harmonicAnalysis bay) s (fun t =>
      if s.canRun 1 b = false then t = s
      else
        t.run.formed = true ∧ t.frame = s.frame ∧ t.mem = s.mem ∧ t.ojobs = (s.takeRun 1 b).ojobs ∧
        (s.run.formed = true → bit (s.bay b).cfg 0 = false → t = s.takeRun 1 b) ∧
        (s.run.formed = true → t.lanes = s.lanes ∧ t.bays = s.bays ∧ t.tw = s.tw ∧ t.acq = s.acq) ∧
        (s.run.formed = true → bit (s.bay b).cfg 0 = true →
          t.rd (Reg.MSR_HFRAME b) = BitVec.ofNat 32 ((s.frame + 2 ^ 32 - 1) % 2 ^ 32))) ∧
    Answers (.synchrophasorReport bay) s (fun t =>
      if s.canRun 2 b = false then t = s
      else t.fld (Reg.MSR_SYNC b) 15 12 = 0 ∧ (s.bays.length = 48 → (t.bay b).reports = []) ∧ t.mem = s.mem ∧
        t.ojobs = (s.takeRun 2 b).ojobs ∧ t.frame = s.frame ∧ t.lanes = s.lanes)

/-- The setting window of a port: PEL_SIDX loads the shadow of the item it names, PEL_SDATA writes the word it points to and nothing in
force, a commit is submitted for the check of frame f + 3 (R171). A commit at its check: its code and word are shown; a refused one
changes no setting; an accepted one waits for the hyperperiod boundary and takes the place of the settings there, all words at once;
other instances keep theirs (R171, R172). Host blocking and resets of an instance that is defined reach the image three frames later;
they change no setting and no status at once (R167, R191, R193, R213). A command given out of its moment leaves the state (log 9). -/
def Obligations.Settings : Prop :=
  (∀ (s : State) (p : Port) (v : Word), s.pel.wins.length = 5 →
    WriteAnswers (.pelSidxWrite p v) s p .engine .own 0xF800FF80#32 v (fun t =>
      t = { s with regs := t.regs, pel := t.pel, mem := t.mem, mst := t.mst } ∧ MemBut (winCells (winSet (portCode p)) 128) s t ∧
      RegsBut [winKey p Reg.PEL_SIDX] s t ∧ t.rd (winKey p Reg.PEL_SIDX) = v ∧ (t.win p).loaded = true ∧ t.pel.insts = s.pel.insts ∧ t.pel.zones = s.pel.zones ∧
      ((s.win p).loaded = true → field v 26 16 = s.fld (winKey p Reg.PEL_SIDX) 26 16 → t.pel = s.pel ∧ t.mem = s.mem)) ∧
    WriteAnswers (.pelSdataWrite p v) s p .engine .own 0#32 v (fun t =>
      t = { s with pel := t.pel, mem := t.mem, mst := t.mst } ∧ t.pel.insts = s.pel.insts ∧ t.pel.zones = s.pel.zones ∧
      MemBut (wordCells 7 (winSet (portCode p) + s.fld (winKey p Reg.PEL_SIDX) 6 0)) s t ∧
      ((s.win p).loaded = false → t = s) ∧
      ((s.win p).loaded = true → s.fld (winKey p Reg.PEL_SIDX) 6 0 < (s.win p).shadow.length →
        nth 0#32 (t.win p).shadow (s.fld (winKey p Reg.PEL_SIDX) 6 0) = v)) ∧
    WriteAnswers (.settingCommit p v) s p .engine .own 0xFFFFFFFE#32 (v ||| 1#32) (fun t =>
      ((s.win p).loaded = false → t = s) ∧
      ((s.win p).loaded = true →
        let ws := (s.takeWin (winSet (portCode p)) (s.win p).shadow).2
        (t.win p).subs = (s.win p).subs ++ [((s.frame + 3) % 2 ^ 32, s.fld (winKey p Reg.PEL_SIDX) 26 16, ws)] ∧
        (∀ i, i < 128 → nth 0#32 ws i =
          if (s.rdMem 7 (winSet (portCode p) + i)).2 = true then 0#32 else nth 0#32 (s.win p).shadow i) ∧
        t.flag (winKey p Reg.PEL_SSTAT) 30 = true ∧ t.pel.insts = s.pel.insts ∧ t.mem = s.mem))) ∧
  (∀ s : State,
    (∀ p, Answers (.settingCommitCheck p) s (fun t =>
      match (s.win p).subs with
      | [] => t = s
      | (due, i, ws) :: rest =>
        if frameReached s.frame due = false then t = s
        else
          (s.pel.wins.length = 5 → (t.win p).subs = rest) ∧ t.mem = s.mem ∧
          t.fld (winKey p Reg.PEL_SSTAT) 3 0 = (s.commitCode p i ws).1 % 16 ∧
          (∀ j, (s.elem j).words = (t.elem j).words) ∧
          ((s.commitCode p i ws).1 ≠ 0 → t.pel.insts = s.pel.insts ∧ t.pel.zones = s.pel.zones))) ∧
    Answers .settingsApply s (fun t =>
      t = { s with regs := t.regs, pel := t.pel } ∧
      ∀ j, j < s.pel.insts.length → match (s.elem j).commit with
        | none => t.elem j = s.elem j
        | some (due, ws, _) =>
          if frameReached s.frame due = true then (t.elem j).words = ws ∧ (t.elem j).commit = none else t.elem j = s.elem j)) ∧
  (∀ (s : State) (p : Port) (i : Fin 1024) (v : Word) (c : Instr) (w : Word),
    (c, w) ∈ [(Instr.pelHostBlock p i v, v), (Instr.pelInstanceReset p i v, v ||| 2#32)] →
    WriteAnswers c s p .engine (.owned (s.settingOwner i.val)) 0xFFFFFFFC#32 w (fun t =>
      if s.idef i.val = false then t = s
      else
        t = { s with regs := t.regs, pel := { s.pel with ctrl := s.pel.ctrl ++ [((s.frame + 3) % 2 ^ 32, i.val, w)] } } ∧
        RegsBut [Reg.PEL_ICTRL i.val] s t ∧ t.flag (Reg.PEL_ICTRL i.val) 0 = bit w 0))

/-- An element runs at its turn in the frame, once, and changes the state of no other element and of no zone; its run is noted. Poison
among its inputs or its state fails it safe (R168): bits 27 and 23 of its status, as blocking does without 27 (R167). A trip element
that is neither poisoned nor blocked holds TRIP while its input, its pulse or its latch does (R189). A fault-location capture is
evaluated once its last phasors stand in the image, and is then free again, with the distance its only register (R185). A zone runs at
its turn in the frame, once, changes no element and no other zone, and fails safe on poison (R160, R168, R187). The frame-closure job
runs last in the frame, once. The set it forms holds, for every output, SAFE_PATTERN where no partition owns it, else the value of its
force, else the scheme's command or a TRIP that drives it (R43, R189, R251, R356). A set on which the voters agree is the one released
at the frame's end; without a majority none is (R217, R223, R355). The order of the frame's work as turns is log 54, the verdicts of the
voters as operands log 48, the words a run reads as an operand log 66, and the moment at which a capture is read log 37. -/
def Obligations.Jobs : Prop :=
  (∀ (s : State) (i : Fin 1024) (reads : JobReads) (v : Voting),
    let x := (s.agreed (s.jobPoison reads) v).1
    Answers (.elementInstanceRun i reads v) s (fun t =>
      let w := (t.elem i.val).status
      if s.idef i.val = false ∨ s.jobTurn i.val = false then t = s
      else
        t = { s with
          pel := t.pel, triad := t.triad, causes := t.causes, regs := t.regs, evl := t.evl, run := t.run, freeIx := t.freeIx
          mst := t.mst } ∧
        t.run.jobs = i.val :: s.run.jobs ∧ t.pel.zones = s.pel.zones ∧ (∀ j, j ≠ i.val → t.elem j = s.elem j) ∧
        (i.val < s.pel.insts.length →
          (t.elem i.val).words = (s.elem i.val).words ∧ bit w 27 = decide (x ≠ .clean) ∧
          (x ≠ .clean → bit w 23 = true ∧ bit w 24 = false ∧ bit w 28 = false) ∧
          (x = .clean → s.iblocked i.val = true → bit w 23 = true ∧ bit w 0 = false ∧ bit w 5 = false) ∧
          (x = .clean → s.iblocked i.val = false → s.icls i.val = 17 →
            let e := s.elem i.val
            bit w 5 = (s.tripInput i.val || (e.prevTrip && decide (e.pulse < framesOf (s.setW i.val 18))) ||
              (s.setN i.val 19 == 1 && e.latch && !s.latchOff i.val (s.iresets i.val) e)))))) ∧
  (∀ (s : State) (i : Fin 1024) (v : Voting),
    Answers (.rfloCaptureComplete ⟨i, v⟩) s (fun t =>
      t = { s with
        pel := t.pel, triad := t.triad, causes := t.causes, regs := t.regs, evl := t.evl, run := t.run, freeIx := t.freeIx } ∧
      t.run.jobs = s.run.jobs ∧ t.pel.zones = s.pel.zones ∧ (∀ j, j ≠ i.val → t.elem j = s.elem j) ∧
      ((s.elem i.val).cap = none → t = s) ∧
      ∀ c, (s.elem i.val).cap = some c → i.val < s.pel.insts.length →
        (v = {} → RegsBut [Reg.PEL_IVAL i.val] s t) ∧
        if s.jobPlace i.val = true ∧ s.icls i.val = 14 ∧ frameReached s.frame ((c.frame + c.rw + 2) % 2 ^ 32) = true then
          (t.elem i.val).cap = none ∧ (t.elem i.val).status = (s.elem i.val).status
        else t = s)) ∧
  (∀ (s : State) (z : Fin 8) (reads : JobReads) (v : Voting),
    let x := (s.agreed (fun m => decide (s.jobPoison reads m ≠ .clean)) v).1
    Answers (.zoneRun z reads v) s (fun t =>
      let w := (t.zone z.val).status
      if s.zdef z.val = false ∨ s.jobTurn (1024 + z.val) = false then t = s
      else
        t = { s with
          pel := t.pel, triad := t.triad, causes := t.causes, regs := t.regs, evl := t.evl, run := t.run, freeIx := t.freeIx
          mst := t.mst } ∧
        t.run.jobs = (1024 + z.val) :: s.run.jobs ∧ t.pel.insts = s.pel.insts ∧ (∀ y, y ≠ z.val → t.zone y = s.zone y) ∧
        (z.val < s.pel.zones.length →
          (t.zone z.val).words = (s.zone z.val).words ∧ bit w 27 = x ∧
          (x = true → bit w 23 = true ∧ bit w 5 = false ∧ bit w 0 = false) ∧
          (x = false → s.schemeBit (some (s.zpart z.val)) (field (s.zsetW z.val 0) 15 0) = true →
            bit w 23 = true ∧ bit w 5 = false)))) ∧
  (∀ (s : State) (v w x : Voting),
    Answers (.frameClosureJob v w x) s (fun t =>
      if s.jobTurn 4096 = false then t = s
      else
        t.run.jobs = 4096 :: s.run.jobs ∧ t.triad.turn = 3 ∧ t.frame = s.frame ∧ t.pel = s.pel ∧ t.slx = s.slx ∧ t.mem = s.mem ∧
        t.lanes = s.lanes ∧ t.bays = s.bays ∧
        (v = {} → t.fio.voted = some s.commandSet) ∧ (v.noMaj = true → t.fio.voted = s.fio.voted) ∧
        (t.fio.voted ≠ s.fio.voted → t.fio.voted = some s.commandSet))) ∧
  (∀ (s : State) (n : Fin 32),
    bit s.commandSet n.val = s.doCommand n.val ∧
    ((s.dout n.val).owner = none → s.doCommand n.val = bit s.safePattern n.val) ∧
    ∀ p, (s.dout n.val).owner = some p →
      (∀ x, s.forced 4 n.val = some x → s.doCommand n.val = bit x 0) ∧
      (s.forced 4 n.val = none → s.doCommand n.val = (bit (s.part p).vars.o n.val || s.trips p n.val)))

/-- A lane's detection has the frame's detections of every bay evaluated, once in a frame and only after the words of the frame before
are formed: a bay that no armed detection opens lists no new event, any other at most one. A disarmed bay arms again HOLD frames after
the frame its event opened in. The oldest listed event's number and instant are shown and it leaves the list. A setting of a lane or bay
takes effect at the boundary it waits for (R197 to R201, R203, R208). A capture is complete once its buffer holds 2 048 strobes: it is
queued for four slices. An admitted run does one slice of the oldest request; the last one answers it: the request leaves the queue, its
buffer is free, and TWV_LOC_STAT shows event, method and status; a double-ended request takes one slice. Without a granted run no slice
is done. A double-ended GO waits for the start of frame f + 3, each for its own; there CODE says why it is refused or that it is queued,
and PENDING stays while more wait (R203 to R207). That one command evaluates the detections of a whole frame, and the rounding of
instants, is log 38; each GO for its own boundary is log 40. -/
def Obligations.TravelingWaves : Prop :=
  (∀ s : State,
    (∀ lane : Fin 256, Answers (.twDetection lane) s (fun t =>
      if s.run.formed = false ∨ (s.twBay (lane.val / 8)).seen = some s.frame then t = s
      else
        t = { s with tw := t.tw, regs := t.regs } ∧ t.tw.queue = s.tw.queue ∧
        (s.tw.bays.length = 32 → ∀ b, b < 32 →
          (t.twBay b).seen = some s.frame ∧ (t.twBay b).set = (s.twBay b).set ∧
          (t.twBay b).events.length ≤ (s.twBay b).events.length + 1 ∧
          (s.twOpens b = none → (t.twBay b).events = (s.twBay b).events ∧ (t.twBay b).rearm = (s.twBay b).rearm)) ∧
        ∀ i, (nth none s.tw.bufs i).isSome = true → nth none t.tw.bufs i = nth none s.tw.bufs i)) ∧
    (∀ bay : Fin 32, Answers (.twBayRearm bay) s (fun t =>
      t = { s with tw := t.tw } ∧
      match (s.twBay bay.val).rearm with
      | none => t = s
      | some r => if frameReached s.frame ((r + 2) % 2 ^ 32) = true then
          (s.tw.bays.length = 32 → (t.twBay bay.val).rearm = none) ∧ (∀ c, c ≠ bay.val → t.twBay c = s.twBay c)
        else t = s)) ∧
    (∀ bay : Fin 32, Answers (.twArrivalRecord bay) s (fun t =>
      match (s.twBay bay.val).events with
      | [] => t = s
      | e :: rest =>
        (s.tw.bays.length = 32 → (t.twBay bay.val).events = rest) ∧ t.rd (Reg.TWV_BLAST_EV bay.val) = e.evno ∧
        t.rd (Reg.TWV_BLAST_NS bay.val) = BitVec.ofNat 32 e.nsec ∧ t.rd (Reg.TWV_BLAST_SECLO bay.val) = BitVec.ofNat 32 e.sec ∧
        t.rd (Reg.TWV_BLAST_SECHI bay.val) = BitVec.ofNat 32 (e.sec / 2 ^ 32) ∧
        t.mem = s.mem ∧ t.tw.bufs = s.tw.bufs ∧ t.tw.queue = s.tw.queue)) ∧
    Answers .twvConfigApply s (fun t =>
      t = { s with reqs := t.reqs, tw := t.tw } ∧
      (∀ l r, l < 256 → s.tw.lanes.length = 256 → s.waiting (Reg.TWV_LCFG l) = [r] → s.waiting (Reg.TWV_LCORR l) = [] →
        frameReached s.frame r.due = true → (nth {} t.tw.lanes l).cfg = r.value) ∧
      ∀ b r, b < 32 → s.tw.bays.length = 32 → s.waiting (Reg.TWV_BCFG b) = [r] → frameReached s.frame r.due = true →
        (t.twBay b).set.cfg = r.value)) ∧
  (∀ s : State,
    (∀ buf : Fin 8, Answers (.twCaptureComplete buf) s (fun t =>
      match nth none s.tw.bufs buf.val with
      | none => t = s
      | some u => if u.queued = true ∨ u.fl.length < 2048 then t = s
        else
          t = { s with tw := t.tw, regs := t.regs, ojobs := t.ojobs } ∧ RegsBut [Reg.TWV_GSTAT] s t ∧
          t.tw.queue = s.tw.queue ++ [{ bay := u.bay, ev := u.ev, buf := some buf.val }] ∧
          nth none t.tw.bufs buf.val = some { u with queued := true })) ∧
    Answers .twLocationSlice s (fun t =>
      let loc := fun (r : TwReq) (method status : Nat) => t.rd (Reg.TWV_LOC_STAT r.bay) =
        BitVec.ofNat 32 (r.ev.evno.toNat % 65536 * 65536 + method * 256 + status)
      if s.canRun 3 0 = false then t = s
      else
        t.ojobs = (s.takeRun 3 0).ojobs ∧ t.mem = s.mem ∧ t.lanes = s.lanes ∧ t.tw.bays = s.tw.bays ∧
        match s.tw.queue with
        | [] => t = s.takeRun 3 0
        | r :: rest => match r.buf with
          | none => t.tw.queue = rest ∧ t.tw.bufs = s.tw.bufs ∧ loc r 2 (locateDouble r).status
          | some i =>
            if r.done + 1 < 4 then
              t.tw.queue = { r with done := r.done + 1 } :: rest ∧ t.tw.bufs = s.tw.bufs ∧ t.regs = s.regs
            else match nth none s.tw.bufs i with
              | none => t.tw.queue = rest ∧ t.tw.bufs = s.tw.bufs
              | some u => t.tw.queue = rest ∧ nth none t.tw.bufs i = none ∧
                (∀ k, k ≠ i → nth none t.tw.bufs k = nth none s.tw.bufs k) ∧
                loc r 1 ((s.takeRun 3 0).locateSingle u).status)) ∧
  (∀ s : State,
    (∀ p (bay : Fin 32) v, WriteAnswers (.twDoubleEndedGo p bay v) s p .engine (.owned (s.bayOwner bay.val)) 0x70FFFFFE#32 (v ||| 1#32)
      (fun t => OnlyRequests [Reg.TWV_DCMD bay.val] s t ∧
        t.waiting (Reg.TWV_DCMD bay.val) =
          s.waiting (Reg.TWV_DCMD bay.val) ++ [⟨(s.frame + 3) % 2 ^ 32, v ||| 1#32, p⟩] ∧
        t.flag (Reg.TWV_DCMD bay.val) 31 = true)) ∧
    (∀ bay : Fin 32, Answers (.twDoubleEndedCheck bay) s (fun t =>
      (s.due (Reg.TWV_DCMD bay.val) = none → t = s) ∧
      ∀ r, s.waiting (Reg.TWV_DCMD bay.val) = [r] → frameReached s.frame r.due = true →
        t.flag (Reg.TWV_DCMD bay.val) 31 = false ∧ t.mem = s.mem ∧ t.tw.bays = s.tw.bays ∧ t.tw.bufs = s.tw.bufs ∧
        ((s.twBay bay.val).last = none → t.fld (Reg.TWV_DCMD bay.val) 27 24 = 1 ∧ t.tw = s.tw) ∧
        ∀ e, (s.twBay bay.val).last = some e →
          (s.rd (Reg.TWV_DEVNO bay.val) ≠ e.evno → t.fld (Reg.TWV_DCMD bay.val) 27 24 = 1 ∧ t.tw = s.tw) ∧
          (s.rd (Reg.TWV_DEVNO bay.val) = e.evno → bit (s.twBay bay.val).set.cfg 14 = false →
            t.fld (Reg.TWV_DCMD bay.val) 27 24 = 2 ∧ t.tw = s.tw) ∧
          (s.rd (Reg.TWV_DEVNO bay.val) = e.evno → bit (s.twBay bay.val).set.cfg 14 = true →
            if s.tw.queue.any (fun r => r.bay == bay.val && r.buf.isNone) = true then
              t.fld (Reg.TWV_DCMD bay.val) 27 24 = 3 ∧ t.tw = s.tw
            else t.fld (Reg.TWV_DCMD bay.val) 27 24 = 0 ∧ t.tw.queue.length = s.tw.queue.length + 1))))

/-- Each check of the triad has its turn in a frame, once, and does nothing outside it (R44). The oldest delivered unit is committed to
the open image (R214). The frame's O jobs are considered with the agreement (R53, R57, log 13). Where the members' signatures agree the
image is released with its signature and nothing else is raised; where three differ pairwise before and after the recopy none is
released (R216). The voters' self-test shows the mask of voters that at least two checkers found wrong; a pass changes nothing else
(R221). The sweep shows its slice and hands on the turn; with an even verdict nothing else of the triad changes (R222). The turns are
log 54, the members' copies as operands log 5 and 48, and an image without a majority log 21. -/
def Obligations.TriadChecks : Prop :=
  ∀ s : State,
    Answers .commitUnit s (fun t =>
      match s.triad.units with
      | [] => t = s
      | u :: rest => t = { s with triad := { s.triad with next := imgPut s.triad.next u.1 u.2, units := rest } }) ∧
    (∀ a b c, Answers (.ingressAgreement a b c) s (fun t =>
      let u := s.considerO
      if s.planRuns = false ∨ s.triad.turn ≠ 0 then t = s
      else
        t.triad.turn = (if s.triad.tested = true then 2 else 1) ∧ t.mem = s.mem ∧ t.pel = s.pel ∧ t.slx = u.slx ∧
        t.ojobs = u.ojobs ∧ t.budget = u.budget ∧ (s.swapNow = false → u.budget.seen = some s.time.frames) ∧
        (allSame (s.members.map (fun m => (m, s.imgSig ^^^ nth 0#64 a m))) = true →
          OnlyRegs [Reg.ENG_ISIG_LO, Reg.ENG_ISIG_HI] u { t with triad := u.triad } ∧
          t.triad = { s.triad with turn := if s.triad.tested = true then 2 else 1 } ∧
          ∀ m rest, s.members = m :: rest → nth 0#64 a m = 0#64 →
            t.rd Reg.ENG_ISIG_LO = s.imgSig.setWidth 32 ∧ t.rd Reg.ENG_ISIG_HI = (s.imgSig >>> 32).setWidth 32) ∧
        (s.members = [0, 1, 2] → [nth 0#64 a 0, nth 0#64 a 1, nth 0#64 a 2].Nodup → [nth 0#64 b 0, nth 0#64 b 1, nth 0#64 b 2].Nodup →
          t.triad.held = true ∧ t.rd Reg.ENG_ISIG_LO = s.rd Reg.ENG_ISIG_LO))) ∧
    (∀ w c, Answers (.voterSelfTest w c) s (fun t =>
      let wrong := fun (y : Nat) => decide (2 ≤ (w.filter (fun l => nth false l y)).length)
      if s.triad.tested = true ∨ (if s.planRuns = true then s.triad.turn ≠ 1 else s.mode ≠ mSAFE) then t = s
      else
        t.triad.tested = true ∧ (s.planRuns = true → t.triad.turn = 2) ∧ t.mem = s.mem ∧
        (∀ y, y < 3 → t.flag Reg.ENG_VTEST y = wrong y) ∧
        (∀ y, y < 3 → wrong y = true → t.flag Reg.ENG_VTEST 31 = true ∧ t.triad.vfail = some s.frame) ∧
        ((∀ y, y < 3 → wrong y = false) → OnlyRegs [Reg.ENG_VTEST] s { t with triad := s.triad }))) ∧
    (∀ a c, Answers (.latentDivergenceSweep a c) s (fun t =>
      let ms := s.members.filter s.sweeps
      if s.planRuns = false ∨ (s.triad.turn ≠ 3 ∧ (s.triad.turn ≠ 2 ∨ s.triad.held = false)) then t = s
      else
        t.triad.turn = 4 ∧ t.triad.swept = true ∧ t.fld Reg.ENG_SWEEP 7 0 = s.slot ∧ t.flag Reg.ENG_SWEEP 8 = true ∧ t.mem = s.mem ∧
        (s.slot = 255 → t.fld Reg.ENG_SWEEP 31 16 = (s.fld Reg.ENG_SWEEP 31 16 + 1) % 65536) ∧
        (latentVerdict (ms.map (fun m => (m, s.sliceHash m ^^^ nth 0#64 a m))) (ms.filter s.sliceBad) = none →
          t.rd Reg.ENG_TSTAT = s.rd Reg.ENG_TSTAT ∧ t.rd Reg.ENG_XCNT = s.rd Reg.ENG_XCNT)))

/-- Heeling: a request waits for the start of frame f + 3, each for its own; its check shows the code of R226, of which the order is the
model's choice (log 22), and code 0 begins the copy, which ends at frame g + 64 with probation; probation ends readmitted at the next
boundary, or failed with code 5 (R226 to R228). Each request for its own boundary is log 40. -/
def Obligations.Heeling : Prop :=
  ∀ s : State,
    (∀ p v, WriteAnswers (.heelRequest p v) s p .engine .global 0x3000FFCE#32 (v ||| 1#32) (fun t =>
      OnlyRequests [Reg.ENG_HEEL] s t ∧
      t.waiting Reg.ENG_HEEL = s.waiting Reg.ENG_HEEL ++ [⟨(s.frame + 3) % 2 ^ 32, v ||| 1#32, p⟩] ∧
      t.fld Reg.ENG_HEEL 5 4 = field v 5 4 ∧
      t.flag Reg.ENG_HEEL 31 = true)) ∧
    Answers .heelCheck s (fun t =>
      match s.due Reg.ENG_HEEL with
      | none => t = s
      | some r =>
        t.flag Reg.ENG_HEEL 31 = !(t.waiting Reg.ENG_HEEL).isEmpty ∧ t.fld Reg.ENG_HEEL 27 24 = s.heelCode (field r.value 5 4) ∧ t.mem = s.mem ∧
        (let m := field r.value 5 4
         let voters := s.fld Reg.ENG_TSTAT 6 4
         s.heelCode m = if s.mode ≠ mDEGRADED then 1 else if m = 0 then 2 else if voters ≠ 7 then 3
           else if s.flag Reg.ENG_TSTAT (m - 1) = true then 2 else if s.flag Reg.ENG_HEEL 30 = true then 4 else 0) ∧
        (s.heelCode (field r.value 5 4) = 0 →
          t.flag Reg.ENG_HEEL 30 = true ∧ t.flag Reg.ENG_TSTAT 8 = true ∧ t.triad.heelM = field r.value 5 4 ∧ t.triad.heelFrom = r.due) ∧
        (s.heelCode (field r.value 5 4) ≠ 0 → t.triad = s.triad)) ∧
    Answers .heelCopyDone s (fun t =>
      if s.flag Reg.ENG_TSTAT 8 = true ∧ 64 ≤ (s.frame + 2 ^ 32 - s.triad.heelFrom) % 2 ^ 32 then
        t.flag Reg.ENG_TSTAT 8 = false ∧ t.flag Reg.ENG_TSTAT 9 = true ∧ t.fld Reg.ENG_HEEL 23 16 = 64 ∧
        RegsBut [Reg.ENG_HEEL, Reg.ENG_TSTAT] s t
      else t = s) ∧
    (∀ m c, Answers (.heelProbationEnd m c) s (fun t =>
      if s.flag Reg.ENG_TSTAT 9 = false then t = s
      else if m = true then t = { s with run := { s.run with healedNext := true } }
      else t.flag Reg.ENG_TSTAT 9 = false ∧ t.flag Reg.ENG_HEEL 30 = false ∧ t.fld Reg.ENG_HEEL 27 24 = 5 ∧
        RegsBut [Reg.ENG_HEEL, Reg.ENG_TSTAT] s t))

/-- The verdict table: what each verdict leads to with three members and three voters, with a member excluded, with a voter failed,
under either policy; an entry to SAFE is decided with its cause and FAULT_N asserted, an exclusion clears the member's or voter's bit
and decides DEGRADED; in SAFE a verdict changes no mode (R223, R224). That FILL and LOAD know no way to SAFE is log 17, and a later
verdict of the frame log 21. -/
def Obligations.VerdictTable : Prop :=
  ∀ (s : State) (k c d : Nat), s.run.safeNext = none →
    (s.mode = mSAFE → ∀ v, s.consequence v = .counted ∧ (s.verdict v k c d).run = s.run) ∧
    (s.mode ≠ mSAFE → s.isM2 = false → s.isV2 = false →
      (∀ x, s.consequence (.member x) = if s.strict = true then .safe 2 else .excludeMember x) ∧
      (∀ x, s.consequence (.latent x) = if s.strict = true then .safe 4 else .excludeMember x) ∧
      (∀ y, s.consequence (.voter y) = .excludeVoter y) ∧
      s.consequence .noMaj = .safe (if s.strict = true then 2 else 1) ∧ s.consequence .latentNoMaj = .safe 4 ∧
      (∀ y z, s.consequence (.voters y z) = .safe 3)) ∧
    (s.mode ≠ mSAFE → s.isM2 = true →
      (∀ x, s.consequence (.member x) = .safe 1 ∧ s.consequence (.latent x) = .safe 4 ∧ s.consequence (.voter x) = .safe 1) ∧
      s.consequence .noMaj = .safe 1 ∧ s.consequence .latentNoMaj = .safe 4) ∧
    (s.mode ≠ mSAFE → s.isM2 = false → s.isV2 = true →
      (∀ x, s.consequence (.member x) = .safe (if s.strict = true then 2 else 1) ∧ s.consequence (.latent x) = .safe 4 ∧
        s.consequence (.voter x) = .safe 3) ∧
      s.consequence .noMaj = .safe (if s.strict = true then 2 else 1) ∧ s.consequence .latentNoMaj = .safe 4) ∧
    (mSTANDBY ≤ s.mode → s.mode ≠ mSAFE → ∀ v,
      (∀ n, s.consequence v = .safe n →
        (s.verdict v k c d).run.safeNext = some n ∧ (s.verdict v k c d).flag Reg.SYS_STAT 4 = true) ∧
      (∀ x, s.consequence v = .excludeMember x → x < 3 →
        (s.verdict v k c d).flag Reg.ENG_TSTAT x = false ∧ (s.verdict v k c d).run.degradedNext = true) ∧
      (∀ y, s.consequence v = .excludeVoter y → y < 3 →
        (s.verdict v k c d).flag Reg.ENG_TSTAT (4 + y) = false ∧ (s.verdict v k c d).run.degradedNext = true))

/-- The bit instructions: BACC and the operand's bit (R240, R241). NOT and the stack of four: PUSH keeps the newest four, ANDP and ORP
take the newest and find 0 on an empty stack; the stack never grows beyond four (R240, R241). The bit stores: ST and STN always, SET and
RST only with BACC = 1; the target bit of B takes the value unless it is forced, an output bit of Q always (R241, R251). Edges: RISE and
FALL compare BACC with the instance's P, take P := BACC, and report 0 while the instance is primed (R245). That a row acts on the run in
progress, or begins one, is log 33. -/
def Obligations.BitInstructions : Prop :=
  (∀ (s : State) (o : Opnd), opndOk bitRead true o = true →
    let b := s.bitOp
    let n := bitCycles o
    RunStep (.ld o) s n (fun r => { r with bacc := b r o }) ∧ RunStep (.ldn o) s n (fun r => { r with bacc := !b r o }) ∧
    RunStep (.and o) s n (fun r => { r with bacc := r.bacc && b r o }) ∧
    RunStep (.andn o) s n (fun r => { r with bacc := r.bacc && !b r o }) ∧
    RunStep (.or o) s n (fun r => { r with bacc := r.bacc || b r o }) ∧
    RunStep (.orn o) s n (fun r => { r with bacc := r.bacc || !b r o }) ∧
    RunStep (.xor o) s n (fun r => { r with bacc := r.bacc ^^ b r o })) ∧
  (∀ s : State,
    RunStep .not s 1 (fun r => { r with bacc := !r.bacc }) ∧
    RunStep .push s 1 (fun r => { r with stack := (r.bacc :: r.stack).take 4 }) ∧
    RunStep .andp s 1 (fun r => { r with bacc := r.bacc && r.stack.headD false, stack := r.stack.tail }) ∧
    RunStep .orp s 1 (fun r => { r with bacc := r.bacc || r.stack.headD false, stack := r.stack.tail }) ∧
    (∀ i, i ∈ [Instr.push, .andp, .orp, .not] → s.ctx.stack.length ≤ 4 →
      Answers i s (fun t => t.slx.run.stack.length ≤ 4))) ∧
  (∀ (s : State) (o : Opnd), opndOk bitWrite true o = true →
    (o.space = 9 → (s.dout o.index).owner = some s.ctx.part) →
    RunStep (.st o) s 3 (fun r => s.putBit r o r.bacc) ∧ RunStep (.stn o) s 3 (fun r => s.putBit r o (!r.bacc)) ∧
    RunStep (.set o) s 3 (fun r => if r.bacc = true then s.putBit r o true else r) ∧
    RunStep (.rst o) s 3 (fun r => if r.bacc = true then s.putBit r o false else r) ∧
    (∀ r x, o.space = 0 → s.isForced r.part 0 o.index = false → (s.putBit r o x).vars.bit o.index = x) ∧
    (∀ r x, o.space = 0 → s.isForced r.part 0 o.index = true → s.putBit r o x = r) ∧
    (∀ r x, o.space = 9 → Sys2Proof.bit (s.putBit r o x).vars.o o.index = x) ∧
    (∀ r x j, o.space = 0 → j ≠ o.index → (s.putBit r o x).vars.bit j = r.vars.bit j)) ∧
  (∀ (s : State) (o : Opnd), opndOk [5] false o = true →
    RunStep (.rise o) s 4 (fun r =>
      { r with bacc := r.bacc && !(r.vars.edge o.index).p && !(r.vars.edge o.index).prime
               vars := r.vars.setEdge o.index { p := r.bacc, prime := false } }) ∧
    RunStep (.fall o) s 4 (fun r =>
      { r with bacc := !r.bacc && (r.vars.edge o.index).p && !(r.vars.edge o.index).prime
               vars := r.vars.setEdge o.index { p := r.bacc, prime := false } }))

/-- Timers: after TON, TOF or TP the run's BACC is the timer's Q, PIN is BACC as it was and LF is this frame, and Q and ET follow the
rule of the kind, a TP whose pulse expires as its input rises starting its next pulse at once; TRST clears with BACC = 1; SPT and LET
move PT and ET (R241, R243). That a row acts on the run in progress, or begins one, is log 33. -/
def Obligations.TimerInstructions : Prop :=
  ∀ (s : State) (o : Opnd), opndOk [3] false o = true → s.overruns s.ctx 8 = false →
    let r := s.ctx
    let x := r.vars.timer o.index
    let e := elapsed x s.frame
    Answers (.ton o) s (fun t =>
      let y := t.slx.run.vars.timer o.index
      t.slx.run.bacc = y.q ∧ y.pin = r.bacc ∧ y.lf = some s.frame ∧ y.pt = x.pt ∧
      y.et = (if r.bacc = false then 0 else if x.pin = true then min (2 ^ 31 - 1) (x.et + e) else 0) ∧
      y.q = (r.bacc && decide (x.pt ≤ y.et))) ∧
    Answers (.tof o) s (fun t =>
      let y := t.slx.run.vars.timer o.index
      t.slx.run.bacc = y.q ∧ y.pin = r.bacc ∧ y.lf = some s.frame ∧ y.pt = x.pt ∧
      (r.bacc = true → y.q = true ∧ y.et = 0) ∧
      (r.bacc = false → y.et = (if x.pin = true then 0 else min (2 ^ 31 - 1) (x.et + e)) ∧ y.q = (x.q && decide (y.et < x.pt)))) ∧
    Answers (.tp o) s (fun t =>
      let y := t.slx.run.vars.timer o.index
      t.slx.run.bacc = y.q ∧ y.pin = r.bacc ∧ y.lf = some s.frame ∧ y.pt = x.pt ∧
      (let et := min (2 ^ 31 - 1) (x.et + e)
       let still := x.q && decide (et < x.pt)
       let starts := r.bacc && !x.pin && !still
       y.q = (still || starts) ∧ y.et = (if starts = true then 0 else if x.q = true then et else x.et))) ∧
    RunStep (.trst o) s 4 (fun r => if r.bacc = true
      then { r with vars := r.vars.setTimer o.index { r.vars.timer o.index with et := 0, q := false, pin := false } } else r) ∧
    RunStep (.spt o) s 3 (fun r => { r with vars := r.vars.setTimer o.index { r.vars.timer o.index with pt := r.kacc.toInt.toNat } }) ∧
    RunStep (.letT o) s 3 (fun r => { r with kacc := BitVec.ofNat 32 (r.vars.timer o.index).et })

/-- Counters: CTU counts a rise of BACC up to 2^31 - 1 and BACC is CV ≥ PV, CTD counts one down to -2^31 and BACC is CV ≤ 0, each with
its own previous input; Q, which bit reads of space C and SLX_VIDX with FIELD = 2 return, is the value CTU or CTD gave BACC; CRS, SPV
and LCV leave it; it is 0 in initial values (R244). CRS clears CV with BACC = 1; SPV and LCV move PV and CV (R241). That a row acts on
the run in progress, or begins one, is log 33. -/
def Obligations.CounterInstructions : Prop :=
  (∀ (s : State) (o : Opnd), opndOk [4] false o = true → s.overruns s.ctx 6 = false →
    let r := s.ctx
    let x := r.vars.counter o.index
    Answers (.ctu o) s (fun t =>
      let y := t.slx.run.vars.counter o.index
      y.cv = (if r.bacc = true ∧ x.up = false then min (x.cv + 1) (2 ^ 31 - 1) else x.cv) ∧ y.up = r.bacc ∧ y.dn = x.dn ∧
      y.q = decide (x.pv ≤ y.cv) ∧ t.slx.run.bacc = y.q ∧ y.pv = x.pv) ∧
    Answers (.ctd o) s (fun t =>
      let y := t.slx.run.vars.counter o.index
      y.cv = (if r.bacc = true ∧ x.dn = false then max (x.cv - 1) (-2 ^ 31) else x.cv) ∧ y.dn = r.bacc ∧ y.up = x.up ∧
      y.q = decide (y.cv ≤ 0) ∧ t.slx.run.bacc = y.q ∧ y.pv = x.pv) ∧
    RunStep (.crs o) s 4 (fun r => if r.bacc = true
      then { r with vars := r.vars.setCounter o.index { r.vars.counter o.index with cv := 0 } } else r) ∧
    RunStep (.spv o) s 3 (fun r => { r with vars := r.vars.setCounter o.index { r.vars.counter o.index with pv := r.kacc.toInt } }) ∧
    RunStep (.lcv o) s 3 (fun r => { r with kacc := BitVec.ofInt 32 (r.vars.counter o.index).cv })) ∧
  (∀ (s : State) (r : RunCtx) (j : Nat), s.bitOp r ⟨4, j⟩ = (r.vars.counter j).q) ∧
  (∀ (s : State) (p : Nat), bit (s.rd (Reg.SLX_VIDX p)) 31 = false → s.fld (Reg.SLX_VIDX p) 25 22 = 4 → s.fld (Reg.SLX_VIDX p) 29 28 = 2 →
    s.varData p = (false, if ((s.part p).vars.counter (s.fld (Reg.SLX_VIDX p) 21 0)).q = true then 1#32 else 0#32)) ∧
  ∀ v o j, ((blkInit v o).counter j).q = false

/-- The floating-point instructions act on FACC and the operand with the operations of R242; comparisons leave their result in BACC; STF
leaves a forced value (R241, R242, R251). The integer instructions act on KACC modulo 2^32; comparisons are signed; STK leaves a forced
value (R241, R251). A subnormal operand counts as the zero of its sign and no result is subnormal; a comparison with a NaN is 0, MINF
and MAXF give the operand that is none; a number divided by zero is an infinity, 0/0 and the root of a negative value NaN; FTOI gives
the nearest integer, saturates, and gives 0 for NaN (R241, R242). That a row acts on the run in progress is log 33; NaN patterns and the
choice among zeros are constants without a body (log 2), and the flush by MINF, MAXF, ABSF and NEGF is log 31. -/
def Obligations.WordInstructions : Prop :=
  (∀ (s : State) (o : Opnd),
    (opndOk fpRead false o = true →
      let w := s.wordOp
      RunStep (.ldf o) s 3 (fun r => { r with facc := fpFlush (w r o) }) ∧ RunStep (.addf o) s 4 (fun r => { r with facc := fpAdd r.facc (w r o) }) ∧
      RunStep (.subf o) s 4 (fun r => { r with facc := fpSub r.facc (w r o) }) ∧
      RunStep (.mulf o) s 4 (fun r => { r with facc := fpMul r.facc (w r o) }) ∧
      RunStep (.divf o) s 12 (fun r => { r with facc := fpDiv r.facc (w r o) }) ∧
      RunStep (.minf o) s 3 (fun r => { r with facc := mMin r.facc (w r o) }) ∧
      RunStep (.maxf o) s 3 (fun r => { r with facc := mMax r.facc (w r o) }) ∧
      RunStep (.gtf o) s 3 (fun r => { r with bacc := fpLt (w r o) r.facc }) ∧
      RunStep (.gef o) s 3 (fun r => { r with bacc := fpLe (w r o) r.facc }) ∧
      RunStep (.ltf o) s 3 (fun r => { r with bacc := fpLt r.facc (w r o) }) ∧
      RunStep (.lef o) s 3 (fun r => { r with bacc := fpLe r.facc (w r o) }) ∧
      RunStep (.self o) s 3 (fun r => if r.bacc = true then { r with facc := fpFlush (w r o) } else r)) ∧
    (opndOk [1] false o = true → RunStep (.stf o) s 3 (fun r =>
      if s.isForced r.part 1 o.index = true then r else { r with vars := r.vars.setFp o.index r.facc })) ∧
    RunStep .absf s 1 mAbsf ∧ RunStep .negf s 1 mNegf ∧ RunStep .sqrtf s 14 mSqrtf ∧ RunStep .itof s 3 mItof ∧ RunStep .ftoi s 3 mFtoi) ∧
  (∀ (s : State) (o : Opnd),
    (opndOk intRead false o = true →
      let w := s.wordOp
      RunStep (.ldk o) s 3 (fun r => { r with kacc := w r o }) ∧ RunStep (.addk o) s 2 (fun r => { r with kacc := r.kacc + w r o }) ∧
      RunStep (.subk o) s 2 (fun r => { r with kacc := r.kacc - w r o }) ∧ RunStep (.mulk o) s 4 (fun r => { r with kacc := r.kacc * w r o }) ∧
      RunStep (.andk o) s 2 (fun r => { r with kacc := r.kacc &&& w r o }) ∧
      RunStep (.ork o) s 2 (fun r => { r with kacc := r.kacc ||| w r o }) ∧
      RunStep (.xork o) s 2 (fun r => { r with kacc := r.kacc ^^^ w r o }) ∧
      RunStep (.gtk o) s 2 (fun r => { r with bacc := decide ((w r o).toInt < r.kacc.toInt) }) ∧
      RunStep (.eqk o) s 2 (fun r => { r with bacc := decide (r.kacc = w r o) }) ∧
      RunStep (.ltk o) s 2 (fun r => { r with bacc := decide (r.kacc.toInt < (w r o).toInt) })) ∧
    (opndOk [2] false o = true → RunStep (.stk o) s 3 (fun r =>
      if s.isForced r.part 2 o.index = true then r else { r with vars := r.vars.setInt o.index r.kacc }))) ∧
  (∀ a b : Word,
    (∀ f, f ∈ [fpAdd, fpSub, fpMul, fpDiv] → fpDec (f (fpFlush a) (fpFlush b)) = fpDec (f a b) ∧ fpFlush (f a b) = f a b ∧
      (isNaN a = true ∨ isNaN b = true → isNaN (f a b) = true)) ∧
    (isNaN a = true ∨ isNaN b = true → fpLt a b = false ∧ fpLe a b = false) ∧
    (isNaN a = false → isNaN b = false → fpLe (mMin a b) a = true ∧ fpLe (mMin a b) b = true ∧ fpLe a (mMax a b) = true ∧
      fpLe b (mMax a b) = true ∧ mMin a b ∈ [fpFlush a, fpFlush b] ∧ mMax a b ∈ [fpFlush a, fpFlush b]) ∧
    (isNaN a = true → isNaN b = false → mMin a b = fpFlush b ∧ mMax a b = fpFlush b) ∧
    (isNaN a = false → isNaN b = true → mMin a b = fpFlush a ∧ mMax a b = fpFlush a) ∧
    (isNaN a = true → isNaN b = true → isNaN (mMin a b) = true ∧ isNaN (mMax a b) = true) ∧
    (∀ n, fpDec b = .zero n → (∀ y, fpDec a = .zero y → isNaN (fpDiv a b) = true) ∧
      ∀ y m e, fpDec a = .fin y m e → fpDiv a b = fpInf (y != n)) ∧
    (fpLt a 0#32 = true → isNaN (fpSqrt a) = true) ∧ fpFlush (fpSqrt a) = fpSqrt a ∧
    (isNaN a = true → fpToInt a = 0) ∧
    (fpLe 0x4F000000#32 a = true → fpToInt a = 2 ^ 31 - 1) ∧ (fpLe a 0xCF000000#32 = true → fpToInt a = -2 ^ 31) ∧
    (fpLt 0xCF000000#32 a = true → fpLt a 0x4F000000#32 = true →
      2 * (fpToInt a : Rat) ≤ 2 * fpRat a + 1 ∧ 2 * fpRat a ≤ 2 * (fpToInt a : Rat) + 1))

/-- Branches go to the position after theirs plus OFFSET, JT with BACC = 1 and JF with BACC = 0 only; END commits the run's variables,
counts its cycles and those of the exit, and ends it; an instruction that a B-tier budget does not cover is not executed: the run ends
with nothing committed, OVR sets and the next activation is skipped (R237, R239, R249, R262). A scheme task runs at its turn in the
frames of its period and phase, or, of the B tier, when a run of its job was granted; the run is noted or taken. It changes no other
partition, no element, zone, field point or recorder, and no memory. A run of code without a backward branch, whose members meet no
poison, reaches an END and commits its variables; one whose first word is poisoned commits nothing and says so (R231, R232, R237, R246,
R250, R257). Begun runs are log 33, turns log 54, activations before a swap log 35, and the words a run reads log 66. -/
def Obligations.ControlFlow : Prop :=
  (∀ (s : State) (off : BitVec 26),
    let goto := fun (r : RunCtx) => { r with pc := ((r.pc : Int) + off.toInt).toNat }
    RunStep (.jmp off) s 2 goto ∧
    RunStep (.jt off) s 2 (fun r => if r.bacc = true then goto r else r) ∧
    RunStep (.jf off) s 2 (fun r => if r.bacc = false then goto r else r) ∧
    (s.ctx.part < 4 → s.overruns s.ctx 1 = false → s.ctx.cycles < 60000 →
      Answers .mEnd s (fun t =>
        t = { s with slx := t.slx, regs := t.regs } ∧ RegsBut [Reg.SLX_TSTAT s.ctx.part s.ctx.task] s t ∧
        (t.part s.ctx.part).vars = s.ctx.vars ∧ t.slx.run.active = false ∧ t.slx.run.ended = true ∧
        t.fld (Reg.SLX_TSTAT s.ctx.part s.ctx.task) 31 16 = s.ctx.cycles + 41 ∧
        ∀ q, q < 4 → q ≠ s.ctx.part → t.part q = s.part q)) ∧
    ∀ i n, (i, n) ∈ [(Instr.jmp off, 2), (.jt off, 2), (.jf off, 2), (.mEnd, 1), (.sqrtf, 14)] → s.overruns s.ctx n = true →
      s.ctx.part < 4 → s.ctx.task < 8 →
      Answers i s (fun t =>
        (t.part s.ctx.part).vars = (s.part s.ctx.part).vars ∧ t.slx.run.active = false ∧
        t.flag (Reg.SLX_TSTAT s.ctx.part s.ctx.task) 4 = true ∧
        ((s.part s.ctx.part).tasks.length = 8 → (nth {} (t.part s.ctx.part).tasks s.ctx.task).skip = true) ∧ t.mem = s.mem)) ∧
  (∀ (s : State) (p : Fin 4) (k : Fin 8) (reads : List (Nat × JobReads)) (v : Voting),
    let x := s.taskOf p.val k.val
    let j := 2048 + 8 * p.val + k.val
    let code := s.taskCode p.val k.val
    -- what the members agree on: the positions whose instruction or operand is poisoned
    let pois := s.agreed (fun m => (reads.filter (fun e => decide (s.jobPoison e.2 m ≠ .clean))).map Prod.fst) v
    Answers (.schemeTaskRun p k reads v) s (fun t =>
      (x.valid = false → t = s) ∧
      (x.tierB = false → s.frame % 2 ^ x.n ≠ x.phase → t = s) ∧
      (x.tierB = false → s.jobTurn j = false → t = s) ∧
      (x.tierB = true → s.canRun 7 (8 * p.val + k.val) = false ∨ s.swapsNext p.val = true → t = s) ∧
      t = { s with
        slx := t.slx, run := t.run, ojobs := t.ojobs, triad := t.triad, causes := t.causes, regs := t.regs, evl := t.evl
        mst := t.mst } ∧
      (∀ q, q < 4 → q ≠ p.val → t.part q = s.part q) ∧
      (x.valid = true → x.tierB = true → s.canRun 7 (8 * p.val + k.val) = true → s.swapsNext p.val = false →
        t.run.jobs = s.run.jobs ∧ t.ojobs = (s.takeRun 7 (8 * p.val + k.val)).ojobs) ∧
      (x.valid = true → x.tierB = false → s.frame % 2 ^ x.n = x.phase → s.jobTurn j = true →
        t.run.jobs = j :: s.run.jobs ∧ t.ojobs = s.ojobs ∧
        (pois = ([], {}) → hasLoop code = false →
          -- what R246 lets into a program: words that run, branches into the code, END last
          (∀ w, w ∈ code → ∀ u : State, u.fio = s.fio → u.slx.run.active = true → u.slx.run.part = p.val → ∃ y, runWord w u = .next y) →
          (∀ n w, code[n]? = some w → 0x3D ≤ field w 31 26 → n + 1 + field w 24 0 < code.length) →
          (code.getLast?.map (fun w => field w 31 26) = some 0) →
          t.slx.run.ended = true ∧ (t.part p.val).vars = t.slx.run.vars ∧ t.slx.run.cycles ≤ 61 + 14 * code.length ∧
          t.fld (Reg.SLX_TSTAT p.val k.val) 31 16 = (t.slx.run.cycles + 40) % 65536) ∧
        (pois.2 = {} → 0 ∈ pois.1 → code ≠ [] →
          (t.part p.val).vars = (s.part p.val).vars ∧ t.flag (Reg.SLX_TSTAT p.val k.val) 5 = true))))

/-- Force commands wait for the start of frame f + 3 with the operands as they stand, a later one in the place of one that waits. At the
check, which follows a swap of that boundary, CODE shows the outcome: setting outside COMMISSION and TEST is refused with code 1 and
changes no force; a kind beyond 5, an index out of range or of another partition, and a lane's VAL of 16#80_0000 with code 2, a full
table with 3, a name that does not resolve with 4; a force set holds its value, a release takes it off the table, releasing all leaves
none; other partitions keep theirs (R251, R252, R258). The carry-over forms the new variables in the frame before the swap, after its
last G job where a plan runs; the swap takes the shadow program into force with them at its boundary and counts the change; not due,
neither happens; another partition keeps its program (R255 to R259). That a force command takes its operands when it is written is log
34. -/
def Obligations.ForcesAndSwaps : Prop :=
  (∀ (s : State) (part : Fin 4),
    let q := part.val
    (∀ p v i n, (i, n) ∈ [(Instr.forceSet p part v, 1), (Instr.forceRelease p part v, 2), (Instr.forceReleaseAll p part v, 3)] →
      WriteAnswers i s p .engine (.shared (some q)) 0x70FFFFFC#32 (setField v 1 0 n) (fun t =>
        OnlyRequests [Reg.SLX_FCMD q, Reg.SLX_FIDX q, Reg.SLX_FVAL q, Reg.SLX_FVID q] s t ∧
        WaitsOn (Reg.SLX_FCMD q) (setField v 1 0 n) p s t ∧ WaitsOn (Reg.SLX_FIDX q) (s.rd (Reg.SLX_FIDX q)) p s t ∧
        WaitsOn (Reg.SLX_FVAL q) (s.rd (Reg.SLX_FVAL q)) p s t ∧ WaitsOn (Reg.SLX_FVID q) (s.rd (Reg.SLX_FVID q)) p s t ∧
        t.flag (Reg.SLX_FCMD q) 31 = true)) ∧
    Answers (.forceCommandCheck part) s (fun t =>
      match s.due (Reg.SLX_FCMD q) with
      | none => t = s
      | some r =>
        if s.swapOpen q = true then t = s
        else
          let op := field r.value 1 0
          let fidx := ((s.req (Reg.SLX_FIDX q)).map Req.value).getD 0#32
          let fval := ((s.req (Reg.SLX_FVAL q)).map Req.value).getD 0#32
          let fvid := ((s.req (Reg.SLX_FVID q)).map Req.value).getD 0#32
          let allowed := s.behaved = mCOMMISSION ∨ s.behaved = mTEST
          t.flag (Reg.SLX_FCMD q) 31 = false ∧ t.mem = s.mem ∧ (∀ p, p < 4 → p ≠ q → t.part p = s.part p) ∧
          (op = 1 → ¬allowed → t.fld (Reg.SLX_FCMD q) 27 24 = 1 ∧ t.slx = s.slx) ∧
          (op = 3 → t.fld (Reg.SLX_FCMD q) 27 24 = 0 ∧ (t.part q).forces = []) ∧
          (op = 1 ∨ op = 2 → (op = 1 → allowed) →
            (let kind := field fidx 18 16
             let byId := bit fidx 31 = true ∧ kind ≤ 2
             let i := field fidx 12 0
             let refused := fun (c : Nat) => t.slx = s.slx ∧ t.fld (Reg.SLX_FCMD q) 27 24 = c
             (6 ≤ kind → refused 2) ∧
             (kind < 6 → ¬byId → nth 0 [8192, 2048, 512, 64, 32, 384] kind ≤ i ∨ (3 ≤ kind ∧ s.targetOwner kind i ≠ some q) → refused 2) ∧
             (byId → (∀ j, (s.part q).prog.slotOf fvid.toNat ≠ some (kind, j)) → refused 4) ∧
             (op = 1 → kind = 5 → field fval 23 0 = 0x800000 → refused 2) ∧
             (op = 1 → kind < 6 → ¬byId → kind ≠ 5 ∨ field fval 23 0 ≠ 0x800000 → i < nth 0 [8192, 2048, 512, 64, 32, 384] kind →
               kind < 3 ∨ s.targetOwner kind i = some q → (s.part q).forces.any (fun f => f.kind == kind && f.index == i) = false →
               256 ≤ (s.part q).forces.length → refused 3)) ∧
            match s.forceTarget q fidx fvid with
            | .error c => t.slx = s.slx ∧ t.fld (Reg.SLX_FCMD q) 27 24 = c % 16
            | .ok (kind, i) =>
              let there := (s.part q).forces.any (fun f => f.kind == kind && f.index == i)
              (op = 2 → there = false → t.fld (Reg.SLX_FCMD q) 27 24 = 5 ∧ t.slx = s.slx) ∧
              (op = 2 → there = true → t.fld (Reg.SLX_FCMD q) 27 24 = 0 ∧
                (t.part q).forces.any (fun f => f.kind == kind && f.index == i) = false) ∧
              (op = 1 → kind ≠ 5 → there = true ∨ (s.part q).forces.length < 256 →
                t.fld (Reg.SLX_FCMD q) 27 24 = 0 ∧
                (t.part q).forces.any (fun f => f.kind == kind && f.index == i && f.value == forceValue kind fval) = true)))) ∧
  (∀ (s : State) (part : Fin 4),
    let q := part.val
    Answers (.schemeCarryOver part) s (fun t =>
      if s.run.swapDue.any (fun e => e.1 == q && (s.frame + 1) % 2 ^ 32 == e.2) = true ∧ (s.planRuns = false ∨ s.jobsDone = true) then
        (t.part q).carried = some (s.carryOver q) ∧ (t.part q).prog = (s.part q).prog ∧ (t.part q).vars = (s.part q).vars ∧
        t = { s with slx := t.slx } ∧ ∀ p, p < 4 → p ≠ q → t.part p = s.part p
      else t = s) ∧
    Answers (.schemeSwap part) s (fun t =>
      match s.run.swapDue.find? (fun e => e.1 == q) with
      | none => t = s
      | some e =>
        if frameReached s.frame e.2 = true then
          (t.part q).prog = (s.part q).shadow ∧ (t.part q).shadow = {} ∧ (t.part q).carried = none ∧
          t.rd (Reg.SLX_SWAP q) = BitVec.ofNat 32 e.2 ∧
          t.fld (Reg.SLX_CHGCNT q) 15 0 = (s.fld (Reg.SLX_CHGCNT q) 15 0 + 1) % 65536 ∧
          t.fld (Reg.SLX_PSTAT q) 31 30 = 0 ∧ t.flag (Reg.SLX_PSTAT q) 29 = !s.flag (Reg.SLX_PSTAT q) 29 ∧
          t.mem = s.mem ∧ (∀ a, a ∈ t.run.swapDue → a.1 ≠ q) ∧
          (∀ p, p < 4 → p ≠ q → (t.part p).prog = (s.part p).prog ∧ (t.part p).vars = (s.part p).vars)
        else t = s))

/-- Recorder commands wait for the start of frame f + 3 in the order written, PENDING set; ACQ_TEN waits likewise (R276, R291).
Recorders at their boundaries: commands that are due leave the queue and PENDING shows whether more wait; in FILL and LOAD they have no
effect; EN starts a recorder that is OFF, ARM one that is HELD, STOP holds an armed one, and a host trigger joins the frame's edges.
Rows are written only after the frame's outputs are formed, once a frame; a stop that is complete leaves OFF, or starts again where EN
was set again; a delivered run leaves WAIT (R276 to R283). The order of the bits of one command and its EN are log 46; each write for
its own boundary is log 40. -/
def Obligations.RecorderCommands : Prop :=
  (∀ (s : State) (r : Fin 16) (p : Port) (v : Word), s.acq.recs.length = 16 →
    (∀ i w, (i, w) ∈ [(Instr.recorderEnable p r v, v), (Instr.recorderArm p r v, v ||| 2#32), (Instr.hostTrigger p r v, v ||| 4#32),
        (Instr.recorderStop p r v, v ||| 8#32)] →
      WriteAnswers i s p .engine (.owned (s.rcOwner r.val)) 0x7FFFFFF0#32 w (fun t =>
        t = { s with regs := t.regs, acq := t.acq } ∧ RegsBut [Reg.ACQ_RCTRL r.val] s t ∧
        t.flag (Reg.ACQ_RCTRL r.val) 0 = bit w 0 ∧ t.flag (Reg.ACQ_RCTRL r.val) 31 = true ∧
        (t.recorder r.val).cmds = (s.recorder r.val).cmds.map (fun c => (c.1, c.2.1, false)) ++ [((s.frame + 3) % 2 ^ 32, w, true)] ∧
        ∀ j, j ≠ r.val → t.recorder j = s.recorder j)) ∧
    WriteAnswers (.triggerEdgeTenWrite p r v) s p .engine (.owned (s.rcOwner r.val)) 0xFFFF0000#32 v (fun t =>
      OnlyRequests [Reg.ACQ_TEN r.val] s t ∧ t.rd (Reg.ACQ_TEN r.val) = v ∧
      (⟨(s.frame + 3) % 2 ^ 32, v, p⟩ : Req) ∈ t.waiting (Reg.ACQ_TEN r.val))) ∧
  (∀ (s : State) (r : Fin 16),
    let n := r.val
    let started := fun (t : State) => t.rcState n = (if s.rcMode n = 2 then rTREND
      else if s.rcMode n = 1 ∧ (s.recorder n).busy = true then rWAIT else rARMED)
    Answers (.recorderCommandEffect r) s (fun t =>
      let x := s.recorder n
      let later := x.cmds.filter (fun c => !frameReached s.frame c.1)
      (s.acq.recs.length = 16 → (t.recorder n).cmds = later) ∧ t.flag (Reg.ACQ_RCTRL n) 31 = !later.isEmpty ∧
      t.mem = s.mem ∧ t.acq.queue = s.acq.queue ∧ (∀ j, j ≠ n → t.recorder j = s.recorder j) ∧
      (s.mode = mLOAD ∨ s.mode = mFILL ∨ s.rcValid n = false ∨ x.cmds = later → t.rcState n = s.rcState n) ∧
      (s.acq.recs.length = 16 → s.mode ≠ mLOAD → s.mode ≠ mFILL → s.rcValid n = true →
        match x.cmds with
        | [(g, v, en)] =>
          frameReached s.frame g = true →
            (v = 1#32 → en = true → s.rcState n = rOFF → started t) ∧
            (v = 0#32 → en = true → s.rcState n = rARMED ∨ s.rcState n = rPOST ∨ s.rcState n = rHELD → t.rcState n = rSTOPPING) ∧
            (v = 3#32 → en = true → s.rcState n = rHELD → started t) ∧
            (v = 9#32 → en = true → s.rcState n = rARMED → t.rcState n = rHELD) ∧
            (v = 5#32 → en = true → s.rcState n = rARMED ∨ s.rcState n = rPOST ∨ s.rcState n = rTREND →
              (t.recorder n).edges = x.edges ++ [s.trigAt 0 0 16 false] ∧ t.rcState n = s.rcState n)
        | [(g, v, false), (h, _, true)] =>
          -- a later write waits: the EN of the first is replaced, its commands act (R276)
          frameReached s.frame g = true → frameReached s.frame h = false →
            (v = 2#32 ∨ v = 3#32 → s.rcState n = rHELD → started t) ∧
            (v = 8#32 ∨ v = 9#32 → s.rcState n = rARMED → t.rcState n = rHELD) ∧
            (v = 4#32 ∨ v = 5#32 → (t.recorder n).edges = x.edges ++ [s.trigAt 0 0 16 false] ∧ t.rcState n = s.rcState n) ∧
            (v = 0#32 ∨ v = 1#32 → t.rcState n = s.rcState n)
        | _ => True)) ∧
    Answers (.recorderRowWrite r) s (fun t =>
      if s.run.formed = false ∨ s.writesRows n = false then t = s
      else
        t.frame = s.frame ∧ t.lanes = s.lanes ∧ (∀ j, j ≠ n → t.recorder j = s.recorder j) ∧
        (s.acq.recs.length = 16 → (t.recorder n).rowF = some s.time.frames ∧
          (s.rcMode n = 2 → (t.recorder n).wrN = (s.recorder n).wrN + (s.newRows n).length))) ∧
    Answers (.recorderStopComplete r) s (fun t =>
      match (s.recorder n).stopAt with
      | none => t = s
      | some f =>
        if s.rcState n = rSTOPPING ∧ f ≤ s.time.frames then
          (s.acq.recs.length = 16 → (t.recorder n).stopAt = none) ∧ t.mem = s.mem ∧
          (if s.flag (Reg.ACQ_RSTAT n) 28 = true then started t else t.rcState n = rOFF)
        else t = s) ∧
    Answers (.runDelivered r) s (fun t =>
      if s.rcState n = rWAIT ∧ (s.recorder n).busy = false then t.rcState n = (if s.rcMode n = 2 then rTREND else rARMED)
      else t = s))

/-- Delivery: a recording closes once the frame after its last row has ended, takes the next number and joins the delivery queue; its
segments are copied to the store, word for word, and nothing else is. An admitted formatting run serves the oldest recording: without an
enabled queue it is lost; else the first slice opens it, and each further one sends up to 256 KiB of its rows, where the ring has room,
the last one ending it. An admitted compression run takes 8 lanes of the oldest block; the last of its slices ends the block. Without a
granted run neither happens (R278, R281 to R285). The addresses of rows and segments are the model's own layout (log 39); the numbering
of recordings is log 46. -/
def Obligations.RecorderDelivery : Prop :=
  ∀ (s : State),
    (∀ r : Fin 16, Answers (.recordingClose r) s (fun t =>
      match (s.recorder r.val).closing with
      | [] => t = s
      | d :: rest =>
        if s.time.frames < d.due then t = s
        else
          let no := ((s.recorder r.val).recno + 1) % 2 ^ 32
          (s.acq.recs.length = 16 → (t.recorder r.val).closing = rest ∧ (t.recorder r.val).recno = no) ∧
          t.acq.queue = s.acq.queue ++ [{ d with recno := no }] ∧
          t.fld (Reg.ACQ_RCNT r.val) 31 16 = (s.fld (Reg.ACQ_RCNT r.val) 31 16 + 1) % 65536)) ∧
    (∀ r : Fin 16, Answers (.segmentCopyDone r) s (fun t =>
      let n := r.val
      let words := (s.recorder n).copies.flatMap (fun c =>
        (List.range (c.2.n * s.rcLanes n)).map (fun k => s.storeAt n + c.1 * s.rcLanes n + k))
      (s.acq.recs.length = 16 → (t.recorder n).copies = []) ∧ ((s.recorder n).copies = [] → t = s) ∧
      t.acq.queue = s.acq.queue ∧ t.frame = s.frame ∧ t.mode = s.mode ∧ MemBut (words.flatMap (wordCells (s.rcRegion n))) s t ∧
      -- each word of a segment is the ring's, its poison with it; the segments lie apart, behind the ring
      (s.rcLanes n ≤ s.fld (Reg.ACQ_BUFSZ n) 31 16 * 16384 →
        (s.recorder n).copies.Pairwise (fun a b => a.1 + a.2.n ≤ b.1) →
        ∀ c, c ∈ (s.recorder n).copies → ∀ i j, i < c.2.n → j < s.rcLanes n →
          s.storeAt n + (c.1 + i) * s.rcLanes n + j < 2 ^ 33 →
          t.rdMem (s.rcRegion n) (s.storeAt n + (c.1 + i) * s.rcLanes n + j) =
            s.readWord (s.rcRegion n) (s.ringAt n + (c.2.first + i) % s.ringRows n * s.rcLanes n + j)))) ∧
    Answers .comtradeFormattingSlice s (fun t =>
      if s.canRun 4 0 = false then t = s
      else
        t.mem = s.mem ∧ t.lanes = s.lanes ∧ t.frame = s.frame ∧
        match s.acq.queue with
        | [] => t.acq = s.acq
        | d :: rest =>
          let p := s.rcPart d.who
          let total := d.rows * s.rowLen d.who
          let n := min 262144 (total - d.sent)
          let sent := fun (u : State) => u.acq.queue.head?.map Done.sent
          (s.ringOn p .rcq = false → d ∉ t.acq.queue) ∧
          (s.ringOn p .rcq = true → d.begun = false → t.acq.queue = s.acq.queue ∨ (t.acq.queue.head?.map Done.begun) = some true) ∧
          (s.ringOn p .rcq = true → d.begun = true → 19 ≤ s.fld (hqKey p (ringBase .rcq) + 8) 4 0 →
            s.rd (bar2Key p (ringBell .rcq)) = s.rd (hqKey p (ringBase .rcq) + 0x18) →
            (total ≤ d.sent + n → d ∉ t.acq.queue) ∧
            (d.sent + n < total → sent t = some (d.sent + n) ∧ t.acq.queue.tail = rest))) ∧
    (∀ r : Fin 16, Answers (.trendCompressionSlice r) s (fun t =>
      match (s.recorder r.val).blocks with
      | [] => t = s
      | b :: rest =>
        if s.canRun 5 0 = false then t = s
        else
          t.mem = s.mem ∧ t.lanes = s.lanes ∧ t.frame = s.frame ∧ t.acq.queue = s.acq.queue ∧
          (s.acq.recs.length = 16 →
            (8 * (b.done + 1) < s.rcLanes r.val → (t.recorder r.val).blocks.map TrendBlk.done = (b.done + 1) :: rest.map TrendBlk.done) ∧
            (s.rcLanes r.val ≤ 8 * (b.done + 1) → s.ringOn (s.rcPart r.val) .rcq = false → (t.recorder r.val).blocks = rest))))

/-- FRAME_BOUNDARY, while the device runs: the frame's work is open again and its data not yet formed, one frame more has passed, and
ENG_FRAME takes the next value; a G job of the plan that has not completed brings SAFE, where no load from the flash is due as well
(R38, R44, R45). The counting step of it takes ENG_FRAME to the next value modulo 2^32 and ENG_FSEC modulo 16 000 (R38, R39). A deadline
miss lets no further job of its frame run and decides SAFE with cause 7 where the mode allows it (R45); a change of OVER or HOT that is
due takes place, with its sticky bit where it sets (R56). The order of the steps within the boundary is log 13, and a G job that has not
completed as a missed deadline log 54. -/
def Obligations.FrameBoundary : Prop :=
  ∀ s : State,
    Answers .frameBoundary s (fun t =>
      if s.phase ≠ .running then t = s
      else
        t.time.frames = s.time.frames + 1 ∧ t.frame = (s.frame + 1) % 2 ^ 32 ∧ t.run.jobs = [] ∧ t.run.formed = false ∧
        t.triad.turn = 0 ∧ t.triad.held = false ∧ t.triad.tested = false ∧
        t.phase = .running ∧ t.sup = { s.sup with since := t.sup.since } ∧ t.rdata = s.rdata ∧
        (s.planRuns = true → s.jobsDone = false → mSTANDBY ≤ s.mode → s.waiting Reg.SEC_LOADCMD = [] → t.mode = mSAFE)) ∧
    (s.countFrame.frame = (s.frame + 1) % 2 ^ 32 ∧
      s.countFrame.fld Reg.ENG_FSEC 13 0 = (s.fld Reg.ENG_FSEC 13 0 + 1) % 16000 ∧
      RegsBut [Reg.ENG_FRAME, Reg.ENG_FSEC, Reg.TIM_STAT] s s.countFrame) ∧
    Answers .gJobDeadlineMiss s (fun t =>
      if s.planRuns = true ∧ s.jobsDone = false then
        t.triad.held = true ∧ t.mode = s.mode ∧ t.run.jobs = s.run.jobs ∧ RegsBut [Reg.SYS_STAT] s t ∧
        (mSTANDBY ≤ s.mode → s.mode ≠ mSAFE →
          t.flag Reg.SYS_STAT 4 = true ∧ t.run.safeNext = some (s.run.safeNext.getD 7) ∧ t.triad.safeOut = true)
      else t = s) ∧
    Answers .budgetFlagChange s (fun t =>
      match s.budget.flags with
      | [] => t = s
      | (i, on) :: rest =>
        t.budget = { s.budget with flags := rest } ∧ RegsBut [Reg.PWR_BSTAT] s t ∧
        t.evl.posted.length = s.evl.posted.length + 1 ∧
        (i < 2 → t.flag Reg.PWR_BSTAT i = on ∧ (on = true → t.flag Reg.PWR_BSTAT (2 + i) = true)))

/-- Reception and the PTP mailbox: a port that is off or down, or before the end of FILL, takes nothing; a frame with a bad FCS or over
1 528 octets is only counted; a PTP frame joins the FIFO of eight or is dropped and counted, one that nobody takes is only counted; POP
removes the head; GO sends LEN octets once the port is not busy, zero for a word that cannot be read (R408); when they are sent BUSY
clears, DONE sets and a PTP message has its egress stamp, and the frames of classes 3 and 4 that waited behind them follow in their
order (R324 to R328, R330). The octets of PTP frames are log 32, and flag bit 2 of a FIFO entry log 63. -/
def Obligations.EthernetPorts : Prop :=
  ∀ (s : State) (port : Fin 4),
    let p := port.val
    let on := s.phase = .running ∧ s.mode ≠ mFILL ∧ s.flag (Reg.PBX_PCFG p) 31 = true ∧ s.flag (Reg.PBX_PSTAT p) 31 = true
    (∀ bytes ok, Answers (.ethernetFrameReceive port bytes ok) s (fun t =>
      (¬ on → t = s) ∧
      (on → ok = false ∨ 1524 < bytes.length →
        OnlyRegs [Reg.PBX_RXERR p] s t ∧
        t.fld (Reg.PBX_RXERR p) 31 0 = min (2 ^ 32 - 1) (s.fld (Reg.PBX_RXERR p) 31 0 + 1)) ∧
      (on → ok = true → 60 ≤ bytes.length → bytes.length ≤ 1524 → etype bytes = etPTP → sniffPtp p bytes = false →
        t.fld (Reg.PBX_RXFRM p) 31 0 = (s.fld (Reg.PBX_RXFRM p) 31 0 + 1) % 2 ^ 32 ∧
        MemBut (winCells (winRx p) 68) s t ∧
        (8 ≤ (s.pb p).rx.length → t.pbx = s.pbx ∧
          t.fld (Reg.PBX_PRXSTAT p) 31 16 = min 65535 (s.fld (Reg.PBX_PRXSTAT p) 31 16 + 1)) ∧
        ((s.pb p).rx.length < 8 → s.pbx.ports.length = 4 → (t.pb p).rx.dropLast = (s.pb p).rx ∧
          (t.pb p).rx.length = (s.pb p).rx.length + 1 ∧ t.fld (Reg.PBX_PRXSTAT p) 3 0 = (s.pb p).rx.length + 1)))) ∧
    (∀ bytes, Answers (.ethernetFrameReceive port bytes true) s (fun t =>
      on → 60 ≤ bytes.length → bytes.length ≤ 1524 → etype bytes ∉ [etPTP, etGOOSE, etSV, etPRP] → s.paired p = false →
        OnlyRegs [Reg.PBX_RXFRM p, Reg.PBX_RXDROP p] s t ∧
        t.fld (Reg.PBX_RXDROP p) 31 0 = (s.fld (Reg.PBX_RXDROP p) 31 0 + 1) % 2 ^ 32)) ∧
    (∀ q v, WriteAnswers (.ptpFifoPop q port v) s q .engine .global 0xFFFFFFFE#32 (v ||| 1#32) (fun t =>
      t = { s with regs := t.regs, pbx := t.pbx, mem := t.mem, mst := t.mst } ∧ MemBut (winCells (winRx p) 68) s t ∧
      (t.pb p).rx = (s.pb p).rx.drop 1 ∧ (∀ j, j ≠ p → t.pb j = s.pb j) ∧
      t.fld (Reg.PBX_PRXSTAT p) 3 0 = ((s.pb p).rx.length - 1) % 16)) ∧
    (∀ q v, WriteAnswers (.ptpTransmit q port v) s q .engine .global 0x3FFF7E00#32 (v ||| 0x8000#32) (fun t =>
      t.mem = s.mem ∧ (∀ j, j ≠ p → t.pb j = s.pb j) ∧
      (s.mem.any (fun c => c.1 / 2 ^ 36 == 7) = false →
        t = { s with regs := t.regs, pbx := t.pbx } ∧ RegsBut [Reg.PBX_PTXCTL p, Reg.TIM_PEG_ID p] s t) ∧
      (s.flag (Reg.PBX_PTXCTL p) 31 = true → t.pbx = s.pbx) ∧
      (s.flag (Reg.PBX_PTXCTL p) 31 = false →
        t.flag (Reg.PBX_PTXCTL p) 31 = true ∧ t.flag (Reg.TIM_PEG_ID p) 31 = false ∧
        (s.pbx.ports.length = 4 →
          (t.pb p).tx = some (((List.range 64).flatMap (fun i => wordBytes
            (if (s.rdMem 7 (winTx p + i)).2 = true then 0#32 else s.rd (Reg.PBX_PTX p i)))).take (max 14 (min 256 (field v 8 0)))))))) ∧
    Answers (.ptpTransmitDone port) s (fun t =>
      match (s.pb p).tx with
      | none => t = s
      | some bs =>
        (t.pb p).tx = none ∧ t.flag (Reg.PBX_PTXCTL p) 31 = false ∧ t.flag (Reg.PBX_PTXCTL p) 30 = true ∧
        (let q := (s.pb p).queue
         let out := fun (e : Nat × List Byte) => Out.eth port e.1 (e.2 ++ List.replicate (60 - e.2.length) 0#8)
         t.sent = s.sent ++ [out (2, bs)] ++ (q.filter (fun e => e.1 == 3)).map out ++ (q.filter (fun e => e.1 != 3)).map out) ∧
        (t.pb p).queue = [] ∧
        (etype bs = etPTP → t.flag (Reg.TIM_PEG_ID p) 31 = true)) ∧
    (∀ up, Answers (.pbLinkChange port up) s (fun t =>
      if s.phase = .running ∧ s.flag (Reg.PBX_PCFG p) 31 = true ∧ s.flag (Reg.PBX_PSTAT p) 31 ≠ up then
        RegsBut [Reg.PBX_PSTAT p] s t ∧ t.flag (Reg.PBX_PSTAT p) 31 = up ∧ t.flag (Reg.PBX_PSTAT p) 30 = up ∧
        t.fld (Reg.PBX_PSTAT p) 15 0 = min 65535 (s.fld (Reg.PBX_PSTAT p) 15 0 + 1) ∧
        t.evl.posted.length = s.evl.posted.length + 1
      else t = s))

/-- PRP, GOOSE and sampled values by their timers: each paired pair whose 2 000 ms have passed sends its supervision frame, which takes
the next two numbers, entries 400 ms old leave the duplicate table; a retransmission that is due counts sqNum on, from 2^32 - 1 to 1,
under the same stNum and dataset; a message that has expired is shown, counted and recorded; a stream is lost after 16 frames without a
sample and restored after 4 with (R329, R332, R337, R342). The octets of the frames, and the first supervision frame, are log 32. -/
def Obligations.BusTimers : Prop :=
  ∀ s : State,
    Answers .prpSupervisionTimer s (fun t =>
      (s.phase ≠ .running → t = s) ∧
      (s.phase = .running → s.pbx.pairs.length = 2 → ∀ q, q < 2 →
        let due := (s.pair q).supDue
        if s.paired (2 * q) = true ∧ due ≤ s.runNs then
          (t.pair q).sup = ((s.pair q).sup + 1) % 65536 ∧ (t.pair q).seq = ((s.pair q).seq + 1) % 65536 ∧
          (t.pair q).supDue = (if s.runNs < due + 2000000000 then due else s.runNs) + 2000000000
        else t.pair q = s.pair q)) ∧
    (∀ q : Fin 2, Answers (.prpDiscardExpiry q) s (fun t =>
      t = { s with pbx := t.pbx } ∧ (∀ j, j ≠ q.val → t.pair j = s.pair j) ∧
      (t.pair q.val).table = (s.pair q.val).table.filter (fun e => decide (s.runNs < e.2.2 + 400000000)))) ∧
    (∀ c : Fin 64, Answers (.gooseRetransmit c) s (fun t =>
      ((s.gpb c.val).last = none ∨ (s.gpb c.val).due = none → t = s) ∧
      ∀ d f, (s.gpb c.val).last = some d → (s.gpb c.val).due = some f →
        if frameReached s.frame f = true then
          t.rd (Reg.PBX_GPSQ c.val) = BitVec.ofNat 32 (wrapOne (s.rd (Reg.PBX_GPSQ c.val)).toNat) ∧
          t.rd (Reg.PBX_GPST c.val) = s.rd (Reg.PBX_GPST c.val) ∧ (t.gpb c.val).last = some d
        else t = s)) ∧
    (∀ i : Fin 256, Answers (.gooseSubscriptionExpiry i) s (fun t =>
      match (s.gsub i.val).expiry with
      | none => t = s
      | some e =>
        if e ≤ s.runNs then
          RegsBut [Reg.PBX_GSSTAT i.val] s t ∧ (t.gsub i.val).expiry = none ∧
          t.flag (Reg.PBX_GSSTAT i.val) 31 = true ∧ t.flag (Reg.PBX_GSSTAT i.val) 30 = false ∧
          t.fld (Reg.PBX_GSSTAT i.val) 15 0 = min 65535 (s.fld (Reg.PBX_GSSTAT i.val) 15 0 + 1) ∧
          t.evl.posted.length = s.evl.posted.length + 1
        else t = s)) ∧
    (∀ i : Fin 16, Answers (.svStreamLoss i) s (fun t =>
      let k := Reg.PBX_SVSTAT i.val
      if s.flag (Reg.PBX_SVCFG i.val) 31 = true ∧ s.flag k 31 = false ∧ 16 ≤ (s.str i.val).idle then
        RegsBut [k, Reg.PBX_SVCNT i.val] s t ∧ t.flag k 31 = true ∧ t.flag k 30 = false ∧
        t.fld (Reg.PBX_SVCNT i.val) 31 16 = min 65535 (s.fld (Reg.PBX_SVCNT i.val) 31 16 + 1) ∧
        t.evl.posted.length = s.evl.posted.length + 1
      else t = s)) ∧
    (∀ i : Fin 16, Answers (.svStreamRestore i) s (fun t =>
      let k := Reg.PBX_SVSTAT i.val
      if s.flag (Reg.PBX_SVCFG i.val) 31 = true ∧ s.flag k 31 = true ∧ 4 ≤ (s.str i.val).run then
        RegsBut [k] s t ∧ t.flag k 31 = false ∧ t.flag k 30 = true ∧ t.evl.posted.length = s.evl.posted.length + 1
      else t = s))

/-- Binary and fast inputs: the pad's voltage gives on or off by its TYPE, and either in the undefined band (R349; there the reading is
the model's free value, log 2); samples that differ for N + 1 in a row change the debounced state with the tag of their first, fewer of
them show only the raw state, one alike restarts the count, and the 2 after a change of TYPE do not count; a fast input's edge that EDGE
selects counts and leaves its period; 2^32 - 1 cycles without one overflow; clears and settings take effect at their strobe 0, a run in
progress going on under the new N (R132, R350 to R352). -/
def Obligations.FieldInputs : Prop :=
  ∀ s : State,
    (∀ (cfg : Word) (mv : Int),
      (bit cfg 8 = false → 15000 ≤ mv → mv ≤ 30000 → inputBand cfg mv = some true) ∧
      (bit cfg 8 = true → 11000 ≤ mv → mv ≤ 30000 → inputBand cfg mv = some true) ∧
      (-3000 ≤ mv → mv ≤ 5000 → inputBand cfg mv = some false) ∧
      (5000 < mv → mv < 11000 → inputBand cfg mv = none) ∧ (bit cfg 8 = false → mv < 15000 → inputBand cfg mv ≠ some true) ∧
      ∀ b, inputBand cfg mv = some b → s.readInput cfg mv = (b, s)) ∧
    (∀ (n : Fin 56) (samples : DiSamples), s.fio.di.length = 64 → Answers (.diDebouncedChange n samples) s (fun t =>
      let k := Reg.FIO_DISTAT n.val
      let x := s.din n.val
      let y := t.din n.val
      let level := (s.readInput x.cfg samples.millivolts).1
      let u := { s with fio := t.fio, freeIx := t.freeIx }
      (∀ j, j ≠ n.val → t.din j = s.din j) ∧ y.cfg = x.cfg ∧ y.skip = x.skip - samples.stamps.length ∧
      match samples.stamps.drop x.skip with
      | [] => t = u ∧ y.diff = x.diff ∧ y.firstTb = x.firstTb
      | tb :: rest =>
        let diff := x.diff + rest.length + 1
        let first := if x.diff = 0 then tb else x.firstTb
        t.flag k 1 = level ∧
        (s.flag k 0 = level → OnlyRegs [k] u t ∧ t.flag k 0 = level ∧ y.diff = 0) ∧
        (s.flag k 0 ≠ level → diff < debounceCount x.cfg + 1 →
          OnlyRegs [k] u t ∧ t.flag k 0 = s.flag k 0 ∧ y.diff = diff ∧ y.firstTb = first) ∧
        (s.flag k 0 ≠ level → debounceCount x.cfg + 1 ≤ diff →
          OnlyRegs [k, Reg.FIO_DILAST n.val] { u with sniff := t.sniff } t ∧
          t.sniff = { s.sniff with diSeen := t.sniff.diSeen } ∧ t.flag k 0 = level ∧ y.diff = 0 ∧
          t.fld k 31 16 = (s.fld k 31 16 + 1) % 65536 ∧ t.rd (Reg.FIO_DILAST n.val) = first - 4000#32))) ∧
    (∀ (m : Fin 8) mv cycles, Answers (.fastInputEdge m mv cycles) s (fun t =>
      let n := 56 + m.val
      let level := (s.readInput (s.din n).cfg mv).1
      let edge := decide (s.flag (Reg.FIO_DISTAT n) 0 ≠ level)
      t = { s with regs := t.regs, fio := t.fio, sniff := { s.sniff with diSeen := t.sniff.diSeen }, freeIx := t.freeIx } ∧
      RegsBut [Reg.FIO_DISTAT n, Reg.FIO_DILAST n, Reg.FIO_FCOUNT m.val, Reg.FIO_FPERIOD m.val, Reg.FIO_FSTAT m.val] s t ∧
      t.flag (Reg.FIO_DISTAT n) 0 = level ∧ (edge = false → t.regs = s.regs ∧ t.sniff = s.sniff) ∧
      (edge = true → t.rd (Reg.FIO_DILAST n) = BitVec.ofNat 32 s.time.tbNs - 4000#32) ∧
      (edge = true → edgeCounts (s.din n).cfg level = false →
        t.rd (Reg.FIO_FCOUNT m.val) = s.rd (Reg.FIO_FCOUNT m.val) ∧ t.rd (Reg.FIO_FPERIOD m.val) = s.rd (Reg.FIO_FPERIOD m.val)) ∧
      (edge = true → edgeCounts (s.din n).cfg level = true →
        t.rd (Reg.FIO_FCOUNT m.val) = s.rd (Reg.FIO_FCOUNT m.val) + 1#32 ∧
        t.rd (Reg.FIO_FPERIOD m.val) = BitVec.ofNat 32 (min (2 ^ 32 - 1) ((s.din n).acc + cycles)) ∧
        t.flag (Reg.FIO_FSTAT m.val) 30 = false ∧ ((s.din n).counted = true → t.flag (Reg.FIO_FSTAT m.val) 31 = true)))) ∧
    (∀ (m : Fin 8) cycles, Answers (.fastInputPeriodOverflow ⟨m, cycles⟩) s (fun t =>
      if (s.din (56 + m.val)).acc + cycles < 2 ^ 32 - 1 then t = s
      else
        OnlyRegs [Reg.FIO_FPERIOD m.val, Reg.FIO_FSTAT m.val] s t ∧ t.rd (Reg.FIO_FPERIOD m.val) = 0xFFFFFFFF#32 ∧
        t.flag (Reg.FIO_FSTAT m.val) 30 = true)) ∧
    (∀ p (m : Fin 8) v, WriteAnswers (.fastInputClear p m v) s p .field (.owned (s.din (56 + m.val)).owner) 0xFFFFFFFE#32 v
      (fun t => t = { s with reqs := t.reqs } ∧ ReqsBut [Reg.FIO_FCTL m.val] s t ∧
        (⟨(s.frame + 3) % 2 ^ 32, v ||| 1#32, p⟩ : Req) ∈ t.waiting (Reg.FIO_FCTL m.val))) ∧
    Answers .fioConfigApply s (fun t =>
      t.frame = s.frame ∧
      (∀ n r, n < 64 → s.fio.di.length = 64 → s.waiting (Reg.FIO_DICFG n) = [r] → frameReached s.frame r.due = true →
        (t.din n).cfg = r.value ∧ t.waiting (Reg.FIO_DICFG n) = [] ∧ (t.din n).diff = (s.din n).diff ∧
        (bit (s.din n).cfg 8 ≠ bit r.value 8 → (t.din n).skip = 2)) ∧
      (∀ n r, n < 32 → s.fio.dos.length = 32 → s.waiting (Reg.FIO_DOCFG n) = [r] → frameReached s.frame r.due = true →
        (t.dout n).cfg = r.value) ∧
      (∀ m r, m < 8 → s.waiting (Reg.FIO_FCTL m) = [r] → frameReached s.frame r.due = true →
        t.rd (Reg.FIO_FCOUNT m) = 0#32 ∧ t.fld (Reg.FIO_FSTAT m) 31 30 = 0))

/-- Banks: a supply that crosses a threshold changes the bank's state by one step, counts it and marks its inputs while LOST; below 8.0
V its outputs are off; an overload is shown once the sum of currents has been above 2.0 A for 16 000 frames, until it has been below 1.9
A for as many; a drop, from the service port with the key only, holds every output of the bank off; a release lifts it at once without a
link, else with the next set applied (R347, R348, R353, R361, R364). A bank named in both masks is dropped (log 27); how a first
judgement falls is log 63. -/
def Obligations.Banks : Prop :=
  ∀ (s : State) (bank : Fin 4),
    let m := bank.val
    let k := Reg.FIO_BSTAT m
    (∀ mv, Answers (.bankStateChange bank mv) s (fun t =>
      t.bankState m = nextBank (s.bankState m) mv ∧
      (nextBank (s.bankState m) mv = s.bankState m → t = { s with fio := t.fio } ∧ t.fio.dos = s.fio.dos) ∧
      (nextBank (s.bankState m) mv ≠ s.bankState m →
        t.fld k 31 16 = min 65535 (s.fld k 31 16 + 1) ∧
        ∀ i, i < 16 → t.flag (Reg.FIO_DISTAT (16 * m + i)) 2 = (nextBank (s.bankState m) mv == 2)))) ∧
    (∀ mv, Answers (.driverUndervoltage bank mv) s (fun t =>
      (mv < 8000 → t.bankUv m = true ∧ t.flag (Reg.FIO_BFLAG m) 3 = true ∧ ∀ i, i < 8 → t.doOn (8 * m + i) = false) ∧
      (8500 < mv → t.bankUv m = false) ∧
      (8000 ≤ mv → mv ≤ 8500 → t = { s with fio := t.fio } ∧ t.fio.dos = s.fio.dos))) ∧
    (∀ above frame, Answers (.bankOvercurrent bank above frame) s (fun t =>
      if frame.toNat = s.frame ∧ above = true ∧ s.flag k 3 = false ∧ 16000 ≤ nth 0 s.fio.overN m then
        RegsBut [k, Reg.FIO_BFLAG m] s t ∧ t.flag k 3 = true ∧ t.flag (Reg.FIO_BFLAG m) 2 = true ∧ t.fio = s.fio
      else if frame.toNat = s.frame ∧ above = false ∧ s.flag k 3 = true ∧ 16000 ≤ nth 0 s.fio.underN m then
        RegsBut [k] s t ∧ t.flag k 3 = false ∧ t.fio = s.fio
      else t = s)) ∧
    (∀ i p v, i ∈ [Instr.bankDrop p v, .bankRelease p v] →
      WriteAnswers i s p .superv .global 0x00FFFF00#32 v (fun t =>
        (p ≠ .svc ∨ field v 31 24 ≠ 0xA7 → t = s) ∧
        (p = .svc → field v 31 24 = 0xA7 →
          t.mem = s.mem ∧ t.mode = s.mode ∧ t.fio.dos = s.fio.dos ∧
          (natBit (field v 3 0) m = true → t.bankDropped m = true ∧ ∀ i, i < 8 → t.doOn (8 * m + i) = false) ∧
          (natBit (field v 3 0) m = false → natBit (field v 7 4) m = true →
            if s.link.field.up = true then t.bankDropped m = s.bankDropped m ∧ natBit t.fio.releasing m = true
            else t.bankDropped m = false) ∧
          (natBit (field v 3 0) m = false → natBit (field v 7 4) m = false → t.bankDropped m = s.bankDropped m))))

/-- Outputs: a channel above 175 degrees shuts down, counted, and restarts below 160; the current limit shows after 50 us and leaves
after 1 ms; a frame's readings reach DOSTAT; the checks start again 32 frames after a switch-off; two matching copies of a later command
set apply it to all 32 outputs (R353, R354, R357, R358). What DOCNT counts is log 29, and the order of codes on a LOST bank log 63. -/
def Obligations.Outputs : Prop :=
  ∀ s : State, s.fio.dos.length = 32 →
    (∀ (n : Fin 32) c, Answers (.outputThermalShutdown n c) s (fun t =>
      (∀ j, j ≠ n.val → t.dout j = s.dout j) ∧
      (175 < c → s.doOn n.val = true → (t.dout n.val).tsd = true ∧ t.doOn n.val = false ∧
        t.fld (Reg.FIO_DOCNT n.val) 31 16 = min 65535 (s.fld (Reg.FIO_DOCNT n.val) 31 16 + 1)) ∧
      (c < 160 → (t.dout n.val).tsd = false) ∧
      (160 ≤ c → c ≤ 175 → t = s))) ∧
    (∀ (n : Fin 32) a us, Answers (.outputCurrentLimit n a us) s (fun t =>
      (∀ j, j ≠ n.val → t.dout j = s.dout j) ∧
      (t.dout n.val).lim = (if a = true ∧ 50 ≤ us then true else if a = false ∧ 1000 ≤ us then false else (s.dout n.val).lim))) ∧
    (∀ (n : Fin 32) v0 v1 ma d, Answers (.outputFaultChange n v0 v1 ma d) s (fun t =>
      (∀ j, j ≠ n.val → t.dout j = s.dout j) ∧
      (t.dout n.val).ma = ma ∧ (t.dout n.val).drop = d ∧ (t.dout n.val).cmd = (s.dout n.val).cmd ∧
      t.fld (Reg.FIO_DOSTAT n.val) 15 0 = min ma 65535)) ∧
    (∀ n : Fin 32, Answers (.outputBlankingEnd n) s (fun t =>
      (∀ j, j ≠ n.val → t.dout j = s.dout j) ∧
      match (s.dout n.val).blank with
      | none => t = s
      | some f => if 32 ≤ (s.frame + 2 ^ 32 - f) % 2 ^ 32 then (t.dout n.val).blank = none else t = s)) ∧
    (∀ bs late, Answers (.outputCommand bs late) s (fun t =>
      let r := s.receive .field bs
      let u := r.1
      let y := flitSrc bs - 1
      let q := flitPayload bs
      (r.2 = false ∨ flitType bs ≠ 3 ∨ flitSrc bs = 0 ∨ 3 < flitSrc bs → t = u) ∧
      ∀ z, r.2 = true → flitType bs = 3 → 1 ≤ flitSrc bs → flitSrc bs ≤ 3 → u.voterOn y = true → u.fio.matched ≠ some q →
        u.laterSet (leAt q 4 4) = true → u.fio.copies.length = 3 → z < 3 → z ≠ y → nth none u.fio.copies z = some q →
        t.rd Reg.FIO_CMDFRM = BitVec.ofNat 32 (leAt q 4 4) ∧
        ∀ n, n < 32 → (t.dout n).cmd = bit (BitVec.ofNat 32 (leAt q 0 4)) n))

/-- Doorbells and commands: a command doorbell notes its tail and frame; a fetch takes the entry at HEAD while the ring is enabled,
entries wait and fewer than 128 are in flight; NOP and an unused opcode complete with STATUS 0 and 1, ATTEST, PEDIGREE_LOAD and
DELTA_LOAD with the first refusal of R376 that applies or an interim entry; none of them acts out of its port's turn, the lowest port's
due command coming first (R369, R374 to R377, R380, R381, R422). The turn of several ports' commands is log 54, and the frame of a
command found between doorbells log 26. -/
def Obligations.HostCommands : Prop :=
  ∀ (s : State) (p : Fin 4),
    let q := p.val
    (∀ v, WriteAnswers (.commandDoorbell p v) s (.hp p) .engine .own 0xFFFFF000#32 v (fun t =>
        RegsBut [bar2Key q HQ_DB_CMD] s t ∧ t.rd (bar2Key q HQ_DB_CMD) = v ∧ (t.port q).cmds = (s.port q).cmds ∧
        (s.hq.ports.length = 4 → (t.port q).bells = (s.port q).bells ++ [(field v 11 0, s.frame)])) ∧
      WriteAnswers (.completionDoorbell p v) s (.hp p) .engine .own 0xFFFFE000#32 v (fun t =>
        t.rd (bar2Key q HQ_DB_CPL) = v ∧ ((s.port q).held = [] → t.sent = s.sent)) ∧
      ∀ r, r ∈ [Ring.evq, .rcq, .msq] → WriteAnswers (.recordQueueDoorbell p r v) s (.hp p) .engine .own 0#32 v (fun t =>
        OnlyRegs [bar2Key q (ringBell r)] s t ∧ t.rd (bar2Key q (ringBell r)) = v)) ∧
    (∀ e, Answers (.commandFetch p e) s (fun t =>
      let k := hqKey q Reg.HQ_CMDSTAT
      if s.ringOn q .cmd = false ∨ s.mode = mFILL ∨ s.fld k 11 0 = field (s.rd (bar2Key q HQ_DB_CMD)) 11 0
        ∨ 128 ≤ (s.port q).cmds.length then t = s
      else
        RegsBut [k] s t ∧ t.fld k 11 0 = (s.fld k 11 0 + 1) % 2 ^ s.fld (hqKey q Reg.HQ_CMDSIZE) 3 0 % 4096 ∧
        t.fld k 19 12 = (s.port q).cmds.length + 1 ∧
        (s.hq.ports.length = 4 → ∃ c, (t.port q).cmds = (s.port q).cmds ++ [c] ∧ c.cid = u16 e 0 ∧ c.opcode = u8 e 2 ∧
          c.param = e.drop 8 ∧ c.started = false))) ∧
    (∀ i, i ∈ [Instr.nop p, .unusedOpcode p, .attest p, .pedigreeLoad p, .deltaLoad p] → s.turnCmd q = none →
      Answers i s (fun t => t = s)) ∧
    (∀ c, s.turnCmd q = some c →
      Answers (.nop p) s (fun t => if c.opcode = 0 then Posts s t q c true 0 else t = s) ∧
      Answers (.unusedOpcode p) s (fun t => if 4 ≤ c.opcode then Posts s t q c true 1 else t = s) ∧
      Answers (.attest p) s (fun t =>
        if c.opcode ≠ 3 then t = s
        else if s.mode = mFILL then Posts s t q c true 3
        else if c.arg 8 8 % 64 ≠ 0 ∨ c.arg 16 4 < 1024 then Posts s t q c true 4
        else Posts s t q c false 0 ∧ t.flag Reg.SEC_STAT 29 = true ∧
          ∃ r, t.sec.reports = s.sec.reports ++ [(q, c.tag, c.arg 8 8, r)]) ∧
      Answers (.pedigreeLoad p) s (fun t =>
        if c.opcode ≠ 1 then t = s
        else s.waiting Reg.SEC_LOADCMD = [] →
          if s.isCust (.hp p) = false then Posts s t q c true 2
          else if s.mayLoad = false then Posts s t q c true 3
          else if c.arg 8 8 % 4 ≠ 0 ∨ c.arg 16 4 < 64 ∨ maxImage false < c.arg 16 4 then Posts s t q c true 4
          else t.mode = mLOAD ∧ t.sec.load = { src := q, port := q, cmd := some (q, c.tag), stage := 1 }) ∧
      Answers (.deltaLoad p) s (fun t =>
        if c.opcode ≠ 2 then t = s
        else if c.arg 20 1 ≠ q ∧ s.isCust (.hp p) = false then Posts s t q c true 2
        else if (s.beganCmd q c.tag).wholeHere = true then Posts s t q c true 6
        else if s.mode < mSTANDBY ∨ mTEST < s.mode then Posts s t q c true 3
        else if c.arg 8 8 % 4 ≠ 0 ∨ c.arg 16 4 < 64 ∨ maxImage true < c.arg 16 4 ∨ 4 ≤ c.arg 20 1 then Posts s t q c true 4
        else Posts s t q c false 0 ∧
          (if s.sec.load.stage = 0 then t.sec.load.stage = 1 ∧ t.sec.load.delta = true ∧ t.sec.load.part = c.arg 20 1
           else t.sec.load = s.sec.load ∧ t.sec.waiting.length = s.sec.waiting.length + 1)))

/-- Rings and ports: EN = 1 activates a ring whose size and base are in range and shows ERR for any other, EN = 0 clears both; held
entries go on by the rings, after the sweep slice where a plan runs, as far as there is room; a DMA read error sets DMARD and ends a
whole load that is being read; a port reset leaves PRST, no ring active, no command and no held entry; a data link that is active shows
its rate and width (R44, R373, R380, R388, R389, R394). Corners of enabling and of resets are log 26 and log 56, and the operand of
PORT_LINK_UP log 65. -/
def Obligations.RingsAndPorts : Prop :=
  ∀ (s : State) (p : Fin 4),
    let q := p.val
    (∀ r v,
      WriteAnswers (.queueEnable p r v) s (.hp p) .engine .own (ringCtl r).2.1 (setBit v 0 true) (fun t =>
        if s.ringFits q r = true then t.ringOn q r = true ∧ t.flag (hqKey q (ringStat r)) 31 = false
        else t.ringOn q r = s.ringOn q r ∧ t.flag (hqKey q (ringStat r)) 31 = true ∧ t.sent = s.sent) ∧
      WriteAnswers (.queueDisable p r v) s (.hp p) .engine .own (ringCtl r).2.1 (setBit v 0 false) (fun t =>
        OnlyRegs [hqKey q (ringCtl r).1, hqKey q (ringStat r)] s t ∧
        t.ringOn q r = false ∧ t.flag (hqKey q (ringStat r)) 31 = false)) ∧
    Answers .queueService s (fun t =>
      let due := s.planRuns = false ∨ s.triad.turn = 4
      (¬ due → t = s) ∧
      (due →
        t.triad = { s.triad with turn := if s.planRuns = true then 5 else s.triad.turn } ∧ s.sent <+: t.sent ∧ t.mem = s.mem ∧
        ((∀ j, j < 4 → (s.port j).held = []) → t = { s with triad := t.triad }) ∧
        (s.hq.ports.length = 4 → ∀ j, j < 4 →
          (s.ringOn j .cpl = false → (t.port j).held = (s.port j).held) ∧
          (s.ringOn j .cpl = true → (s.port j).out + (s.port j).held.length ≤ 2 ^ s.fld (hqKey j Reg.HQ_CPLSIZE) 3 0 →
            (t.port j).held = [])))) ∧
    Answers (.dmaReadError p) s (fun t =>
      t.flag (hqKey q Reg.HQ_PERR) 0 = true ∧
      (s.readingOf q = false → t.sec = s.sec) ∧
      (s.readingOf q = true → s.sec.load.delta = false → s.sec.load.fallback = none → t.sec.load.stage = 6)) ∧
    (∀ cause, Answers (.portReset p cause) s (fun t =>
      if cause = 0 then t = s
      else
        t.flag (hqKey q Reg.HQ_PERR) 4 = true ∧ (∀ r, t.ringOn q r = false) ∧
        (t.port q).cmds = [] ∧ (t.port q).held = [])) ∧
    (∀ speed width setup, Answers (.portLinkUp p speed width setup) s (fun t =>
      let k := hqKey q Reg.HQ_PSTAT
      (s.hq.ports.length = 4 → (t.port q).setup = setup) ∧
      RegsBut [k] s t ∧ t.flag k 31 = true ∧ t.fld k 3 0 = speed.val ∧ t.fld k 7 4 = width.val ∧
      t.evl.posted.length = s.evl.posted.length + (if s.flag k 31 = true then 0 else 1)))

/-- Accesses by address: what is not defined reads 0 and ignores writes, and a write always lets the machine go on; TIM_NS and the first
word of a capture latch the rest for the port; a pair's low word latches its high word; without the link a register of the field die
reads as a Completer Abort; across the link a flit that is not delivered does nothing; a transaction of the service port with a bad CRC
or an unknown opcode is not performed (R18, R20, R316, R372, R392). A host error stops nothing (R15): an access that is not a single
aligned 32-bit one returns free data or, as a write to what is not the port's alone, does nothing; a write of a non-zero rsv field
leaves all but its own register as it was, here of SYS_MODE_REQ (R6, R7, R14; what the error may do to the offender's registers is the
model's choice, log 10). That accesses across the link act at once is log 12, and the bytes of the service port's answers log 28. -/
def Obligations.RegisterAccess : Prop :=
  (∀ (s : State) (p : Port),
    (∀ addr v size, ∃ t, exec (.registerWrite p ⟨addr, size⟩ v) s = .next t) ∧
    (∀ addr v, addr < 2 ^ 24 → addr % 4 = 0 → regRow addr = none → Answers (.registerWrite p ⟨addr, 4⟩ v) s (fun t => t = s)) ∧
    (∀ v, WriteAnswers (.registerWrite p ⟨Reg.SYS_TESTPAT, 4⟩ v) s p .engine .global 0#32 v (fun t =>
      OnlyRegs [Reg.SYS_TESTPAT] s t ∧ t.rd Reg.SYS_TESTPAT = v)) ∧
    (∀ i addr, i ∈ [Instr.lowWordRead p ⟨addr, 4⟩, .highWordRead p ⟨addr, 4⟩] → addr < 2 ^ 24 → addr % 4 = 0 → blockOf addr ≠ 17 →
      (s.reaches p (addrReach addr) = false → Answers i s (fun t => t = { s with rdata := none })) ∧
      (s.reaches p (addrReach addr) = true → regRow addr = none → Answers i s (fun t => t = { s with rdata := some 0#32 }))) ∧
    (s.reaches p .engine = true → s.hq.shadows.length = 5 →
      Answers (.lowWordRead p ⟨Reg.PWR_ODEF_TOT_LO, 4⟩) s (fun t =>
        t = { s with rdata := some (s.rd Reg.PWR_ODEF_TOT_LO), hq := t.hq } ∧
        ∀ v, Answers (.highWordRead p ⟨Reg.PWR_ODEF_TOT_HI, 4⟩) (t.wr Reg.PWR_ODEF_TOT_HI v) (fun u =>
          u.rdata = some (s.rd Reg.PWR_ODEF_TOT_HI))) ∧
      Answers (.timNsRead p) s (fun t =>
        t.rdata = some (BitVec.ofNat 32 s.time.tbNs) ∧ t.time = s.time ∧
        t.rd (portKey (portCode p) Reg.TIM_NSEC) = BitVec.ofNat 32 s.time.nsec ∧
        t.rd (portKey (portCode p) Reg.TIM_SECLO) = BitVec.ofNat 32 s.time.sec ∧
        t.rd (portKey (portCode p) Reg.TIM_WRAP) = BitVec.ofNat 32 s.time.wrap) ∧
      Answers (.captureFirstRead p 0) s (fun t =>
        t.rdata = some (s.rd Reg.TIM_PPSIN_NS) ∧
        ∀ i, i < 3 → t.rd (portKey (portCode p) (Reg.TIM_PPSIN_NS + 4 * (i + 1))) = s.rd (Reg.TIM_PPSIN_NS + 4 * (i + 1)))) ∧
    (∀ src, Answers (.captureFirstRead p src) s (fun t => t = { s with regs := t.regs, rdata := t.rdata })) ∧
    (∀ bs, s.takesFlit .field bs = false ∨ flitType bs ≠ 4 → Answers (.registerAccessFlit bs) s (fun t => t = (s.receive .field bs).1)) ∧
    (∀ bs, s.takesFlit .field bs = true → flitType bs = 4 → leAt (flitPayload bs) 4 4 = Reg.FIO_DICFG 0 → u8 (flitPayload bs) 0 = 1 →
      leAt (flitPayload bs) 8 4 &&& 0xFFFCFE00 = 0 → Answers (.registerAccessFlit bs) s (fun t =>
        let u := (s.receive .field bs).1
        if u.writable (portOf (u8 (flitPayload bs) 1)) .field (.owned (u.din 0).owner) = true then
          OnlyRequests [Reg.FIO_DICFG 0] u t ∧ t.rd (Reg.FIO_DICFG 0) = BitVec.ofNat 32 (leAt (flitPayload bs) 8 4)
        else t = u)) ∧
    (∀ bs, s.takesFlit .field bs = true → flitType bs = 4 → onFieldDie (leAt (flitPayload bs) 4 4) = true →
      u8 (flitPayload bs) 0 = 0 → Answers (.registerAccessFlit bs) s (fun t =>
        t.link.reads = (s.receive .field bs).1.link.reads ++ [(portOf (u8 (flitPayload bs) 1), leAt (flitPayload bs) 4 4)])) ∧
    (∀ bs, Answers (.registerResponseFlit bs) s (fun t =>
      let r := s.receive .engine bs
      if s.takesFlit .engine bs = true ∧ flitType bs = 5 then
        t.link.reads = r.1.link.reads.drop 1 ∧ t.regs = r.1.regs ∧
        t.rdata = (if u8 (flitPayload bs) 0 = 1 then some (BitVec.ofNat 32 (leAt (flitPayload bs) 8 4)) else none)
      else t = r.1)) ∧
    (∀ bs i, i ∈ [Instr.svcWrite bs, .svcRead bs, .svcUnknownOpcode bs] → s.sup.running = false → Answers i s (fun t => t = s)) ∧
    (∀ bs, s.sup.running = true →
      (u8 bs 0 = 2 → 10 ≤ bs.length → leAt bs 8 2 ≠ (crc16 (bs.take 8)).toNat → Answers (.svcWrite bs) s (fun t =>
        t = { s with regs := t.regs, sent := t.sent, hq := t.hq } ∧ RegsBut [portKey 4 0x110004] s t ∧ t.hq.svcLast = 2)) ∧
      (u8 bs 0 = 2 → 10 ≤ bs.length → leAt bs 8 2 = (crc16 (bs.take 8)).toNat → leAt bs 1 3 / 4 * 4 = Reg.SYS_TESTPAT →
        s.reaches .svc .engine = true → Answers (.svcWrite bs) s (fun t =>
          t.rd Reg.SYS_TESTPAT = BitVec.ofNat 32 (leAt bs 4 4) ∧ t.hq.svcLast = 1)) ∧
      (u8 bs 0 = 3 → 6 ≤ bs.length → Answers (.svcRead bs) s (fun t =>
        if leAt bs 4 2 = (crc16 (bs.take 4)).toNat ∧ 14 ≤ bs.length then t.hq.svcLast = 1 ∨ t.hq.svcLast = 8
        else t.hq.svcLast = 2 ∧ RegsBut [portKey 4 0x110004] s t)) ∧
      (u8 bs 0 = 3 → 14 ≤ bs.length → leAt bs 4 2 = (crc16 (bs.take 4)).toNat → leAt bs 1 3 / 4 * 4 = Reg.SYS_TESTPAT →
        s.reaches .svc .engine = true → Answers (.svcRead bs) s (fun t =>
          t.rdata = some (s.rd Reg.SYS_TESTPAT) ∧ t.hq.svcLast = 1 ∧ t.regs = s.regs)) ∧
      (u8 bs 0 ≠ 2 → u8 bs 0 ≠ 3 → Answers (.svcUnknownOpcode bs) s (fun t =>
        t = { s with sent := t.sent, hq := t.hq } ∧ t.hq.svcLast = 4)))) ∧
  (∀ (s : State) (p : Port),
    (∀ addr size i, i ∈ [Instr.lowWordRead p ⟨addr, size⟩, .highWordRead p ⟨addr, size⟩] → addr % 4 ≠ 0 ∨ size ≠ 4 →
      Answers i s (fun t => t = { s with rdata := t.rdata, freeIx := t.freeIx } ∧ t.rdata.isSome = true)) ∧
    (∀ addr v size, addr % 4 ≠ 0 ∨ size ≠ 4 → s.confined p (s.scopeAt addr) addr = false →
      Answers (.registerWrite p ⟨addr, size⟩ v) s (fun t => t = { s with freeIx := t.freeIx })) ∧
    (∀ v, v &&& 0x7FFFFFF8#32 ≠ 0#32 → Answers (.modeRequest p v) s (fun t =>
      OnlyRequests [Reg.SYS_MODE_REQ] s { t with freeIx := s.freeIx } ∧
      (s.writable p .engine .global = false → t = s))))

/-- A load's way: the command waits for the start of its own frame f + 3; each stage acts only in its turn; a header that fails is shown
with its code, and one from the flash with another slot to try only begins that slot's read; a whole image that passes goes to
admission, a delta into its shadow bank first; a whole load's admission ends in staging with PED set, or in a refusal; a delta's in a
swap that waits for its hyperperiod boundary, with its DSEQ and its final entry, or in an empty shadow bank; staging puts the pedigree
in force and notes the hyperperiod boundary of STANDBY, whose entry releases FAULT_N; a refusal leaves for the mode before; a
hyperperiod boundary shows the slot loads of the plan (R47, R48, R51, R255, R422 to R426, R428). The order of loads and the corners of
deltas are log 44, the causes of MODE records log 17. -/
def Obligations.Loads : Prop :=
  ∀ s : State,
    let l := s.sec.load
    -- the next waiting delta begins, if there is one (R47)
    let next := fun (t : State) => t.sec.load = (match s.sec.waiting with
      | m :: _ => { m with stage := 1 }
      | [] => {}) ∧ t.sec.waiting = s.sec.waiting.tail
    (∀ p v, WriteAnswers (.qspiLoadCommand p v) s p .engine .global 0x70FFFFF8#32 (v ||| 1#32) (fun t =>
      OnlyRequests [Reg.SEC_LOADCMD] s t ∧
      t.waiting Reg.SEC_LOADCMD = s.waiting Reg.SEC_LOADCMD ++ [⟨(s.frame + 3) % 2 ^ 32, v ||| 1#32, p⟩] ∧
      t.fld Reg.SEC_LOADCMD 2 1 = field v 2 1 ∧ t.flag Reg.SEC_LOADCMD 31 = true)) ∧
    (∀ image headers ok, Answers (.pedigreeReadDone image headers ok) s (fun t =>
      if l.stage ≠ 1 then t = s
      else
        t = { s with regs := t.regs, sec := t.sec } ∧ RegsBut [Reg.SEC_STAT, Reg.SEC_VRES] s t ∧
        t.sec.load.stage = 2 ∧ t.flag Reg.SEC_VRES 31 = true ∧
        (l.choose = false → l.readErr = false → l.src < 5 → ok = true → t.sec.load = { l with stage := 2, image := image }))) ∧
    Answers .pedigreeVerifyDone s (fun t =>
      if l.stage ≠ 2 then t = s
      else
        let c := if l.readErr = true then 16 else s.headerCode l.delta l.part l.image
        (c ≠ 0 → c < 256 → l.fallback = none → t.fld Reg.SEC_VRES 7 0 = c ∧ t.flag Reg.SEC_VRES 31 = false ∧
          (l.delta = false → t.sec.load.stage = 6) ∧ (l.delta = true → next t) ∧
          ∀ q d, l.cmd = some (q, d.tag) → d ∈ (s.port q).cmds → Posts s t q d true 7 c) ∧
        (c ≠ 0 → ∀ k, l.fallback = some k → t.rd Reg.SEC_VRES = s.rd Reg.SEC_VRES ∧ t.sec.load.stage = 1 ∧ t.sec.load.src = 5 + k) ∧
        (c = 0 → l.delta = false → (s.checkWhole l.image).1.code = 0 →
          t.sec.load.stage = 3 ∧ t.sec.load.image = l.image ∧ t.flag Reg.ENG_ADM_STAT 31 = true) ∧
        (c = 0 → l.delta = true → l.part < 4 →
          match s.checkDelta l.image l.part with
          | (r, _, none) => l.fallback = none → r.code < 256 →
            t.fld Reg.SEC_VRES 7 0 = r.code ∧ t.fld Reg.SEC_VRES 17 16 = 2 ∧ t.flag Reg.SEC_VRES 31 = false ∧ next t
          | (_, _, some (x, jobs)) =>
            (t.part l.part).shadow = x.prog ∧ (t.part l.part).shadowJobs = jobs ∧ (t.part l.part).prog = (s.part l.part).prog ∧
            t.fld (Reg.SLX_PSTAT l.part) 31 30 = 1 ∧ t.sec.load.stage = 3 ∧ t.flag Reg.ENG_ADM_STAT 31 = true)) ∧
    Answers .admissionComplete s (fun t =>
      if l.stage ≠ 3 then t = s
      else
        (l.delta = false → l.adm = 0 → t.sec.load = { l with stage := 4 } ∧ t.flag Reg.SYS_STAT 6 = true) ∧
        (l.delta = false → l.adm ≠ 0 → l.fallback = none → t.sec.load.stage = 6 ∧ t.mode = s.mode) ∧
        (l.delta = true → l.part < 4 → l.adm = 0 →
          t.fld (Reg.SLX_PSTAT l.part) 31 30 = 2 ∧ t.rd (Reg.SEC_DSEQ l.part) = BitVec.ofNat 32 (pedDseq l.image) ∧
          t.run.swapDue = s.run.swapDue ++ [(l.part, (s.frame / 256 + 1) * 256 % 2 ^ 32)] ∧ next t ∧ t.mode = s.mode ∧
          ∀ q d, l.cmd = some (q, d.tag) → d ∈ (s.port q).cmds → Posts s t q d true 0) ∧
        (l.delta = true → l.part < 4 → l.adm ≠ 0 → l.adm < 16 → l.fallback = none →
          t.fld (Reg.SLX_PSTAT l.part) 31 30 = 0 ∧ (t.part l.part).shadow = {} ∧ t.fld Reg.SEC_VRES 11 8 = l.adm ∧
          t.run.swapDue = s.run.swapDue ∧ next t ∧ t.mode = s.mode ∧
          ∀ q d, l.cmd = some (q, d.tag) → d ∈ (s.port q).cmds → Posts s t q d true 7 (256 * l.adm))) ∧
    Answers .stagingComplete s (fun t =>
      if l.stage ≠ 4 then t = s
      else t.sec.inForce = true ∧ t.sec.hash = pedHash l.image ∧ t.sec.build = pedBuild l.image ∧ t.sec.load.stage = 5 ∧
        t.run.standbyNext = some ((s.frame / 256 + 1) * 256 % 2 ^ 32) ∧ t.mode = s.mode) ∧
    Answers .loadRefused s (fun t =>
      if l.stage ≠ 6 ∨ frameReached s.frame l.due = false then t = s
      else t.sec.load = {} ∧ t.sec.hash = s.sec.hash ∧ (s.sec.inForce = false → t.mode = s.mode) ∧
        (s.sec.inForce = true → s.run.loadFrom = mSTANDBY ∨ s.run.loadFrom = mSAFE → t.mode = s.run.loadFrom)) ∧
    Answers .standbyEntry s (fun t =>
      match s.run.standbyNext with
      | none => t = s
      | some g =>
        if frameReached s.frame g = true then
          t.mode = mSTANDBY ∧ t.fld Reg.SYS_MODE 6 4 = mLOAD ∧ t.flag Reg.SYS_STAT 4 = false ∧ t.run.standbyNext = none ∧
          t.sec.load = {}
        else t = s) ∧
    Answers .planSwap s (fun t =>
      t = { s with regs := t.regs, mem := t.mem, mst := t.mst } ∧ (∀ a, a / 2 ^ 36 ≠ 7 → Memory.get t.mem a = Memory.get s.mem a) ∧
      (s.slot ≠ 0 ∨ s.mode < mSTANDBY → t = s) ∧
      (s.slot = 0 → mSTANDBY ≤ s.mode → s.run.swapDue = [] → ∀ k, k < 256 →
        t.rd (Reg.ENG_SLOTLOAD k) = BitVec.ofNat 32 (slotLoad s.elementLoad (gTasks (s.progs false)) k % 65536)))

/-- Fuses and reports: each fuse command waits for its check; the check waits while an operation runs (log 57), else it shows the code
that the key, the operation, the mode, the slot and SEC_FUSEDATA as it stands then give by R429, and changes no fuse, or starts the
operation; its end programs, revokes or advances, shows code 0 or 6, and never clears a revocation; a report leaves its queue when it is
sent (R429, R431). The signature's key is a constant without a body (log 1), and a DANCHOR counts as log 45 says. -/
def Obligations.FusesAndReports : Prop :=
  ∀ s : State,
    (∀ p v i n, (i, n) ∈ [(Instr.fuseProgramSlot p v, 1), (Instr.fuseRevokeSlot p v, 2), (Instr.fuseAdvanceCounter p v, 3)] →
      WriteAnswers i s p .engine .global 0x7000FCF8#32 (setField v 2 0 n) (fun t =>
        OnlyRequests [Reg.SEC_FUSECMD] s t ∧
        t.waiting Reg.SEC_FUSECMD = s.waiting Reg.SEC_FUSECMD ++ [⟨(s.frame + 3) % 2 ^ 32, setField v 2 0 n, p⟩] ∧
        t.fld Reg.SEC_FUSECMD 9 8 = field v 9 8 ∧ t.flag Reg.SEC_FUSECMD 31 = true)) ∧
    Answers .fuseCommandCheck s (fun t =>
      match s.due Reg.SEC_FUSECMD with
      | none => t = s
      | some r =>
        if s.sec.fuse.isSome = true then t = s
        else
          t.sec.anchors = s.sec.anchors ∧ t.sec.revoked = s.sec.revoked ∧ t.sec.counter = s.sec.counter ∧
          t.mem = s.mem ∧
          (let v := r.value
           let op := field v 2 0
           let k := field v 9 8
           let c := s.fuseCode v
           let keyed := field v 23 16 = 0xC9 ∧ 1 ≤ op ∧ op ≤ 3
           let timely := (s.mode = mLOAD ∨ s.mode = mSTANDBY ∨ s.mode = mCOMMISSION) ∧ s.sec.load.stage ≠ 2 ∧ s.sec.load.stage ≠ 3
           (¬keyed → c = 1) ∧ (keyed → ¬timely → c = 2) ∧
           (keyed → timely → op = 1 → c = if s.anchorState k ≠ 0 then 3
             else if (s.rdBytes (Reg.SEC_FUSEDATA 0) 16).all (· == 0#8) = true then 7 else 0) ∧
           (keyed → timely → op = 2 → c = if s.anchorState k = 2 then 3
             else if s.sec.inForce = true ∧ (s.sec.anchor = k ∨ (List.range 4).any (fun p => partByte s.sec.image p 1 == k) = true) then 4 else 0) ∧
           (keyed → timely → op = 3 → c = if s.sec.inForce = false ∨ s.sec.rollback ≤ s.sec.counter then 5 else 0)) ∧
          (s.fuseCode r.value ≠ 0 → t.sec.fuse = none ∧ t.fld Reg.SEC_FUSECMD 27 24 = s.fuseCode r.value ∧
            t.flag Reg.SEC_FUSECMD 31 = !(t.waiting Reg.SEC_FUSECMD).isEmpty) ∧
          (s.fuseCode r.value = 0 → t.flag Reg.SEC_STAT 30 = true ∧
            t.sec.fuse = some (field r.value 2 0, field r.value 9 8, s.rdBytes (Reg.SEC_FUSEDATA 0) 16))) ∧
    (∀ blown ok, Answers (.fuseOperationDone blown ok) s (fun t =>
      (∀ j, nth false s.sec.revoked j = true → nth false t.sec.revoked j = true) ∧
      match s.sec.fuse with
      | none => t = s
      | some (op, k, d) =>
        t.sec.fuse = none ∧ t.flag Reg.SEC_FUSECMD 31 = !(s.waiting Reg.SEC_FUSECMD).isEmpty ∧ t.fld Reg.SEC_FUSECMD 27 24 = (if ok = true then 0 else 6) ∧
        (op = 1 → ok = true → t.sec.anchors = modAt s.sec.anchors k (fun _ => d) ∧ t.sec.counter = s.sec.counter) ∧
        (op = 2 → ok = true → t.sec.revoked = modAt s.sec.revoked k (fun _ => true) ∧ t.sec.anchors = s.sec.anchors) ∧
        (op = 3 → ok = true → t.sec.counter = s.sec.rollback ∧ t.sec.anchors = s.sec.anchors))) ∧
    Answers .attestReportDone s (fun t =>
      match s.sec.reports with
      | [] => t = s
      | (p, _, addr, bs) :: rest =>
        t.sec.reports = rest ∧ t.flag Reg.SEC_STAT 29 = !rest.isEmpty ∧
        ∃ h : p % 4 < 4, Out.dma ⟨p % 4, h⟩ addr (bs ++ s.devSign bs) false ∈ t.sent ∧ (s.devSign bs).length = 512)
end

