-- ==== Sys2Proof/Laws/Sparse.lean ====
section
/-!
SUPPORT. Sys2Proof/Laws/Sparse.lean: the laws of the finite maps of Sparse.lean: read after write, and that a write keeps the
canonical form.
-/
namespace Sys2Proof

variable {α : Type}

theorem sget_sdrop_self (d : Nat → α) (l : List (Nat × α)) (k : Nat) : sget d (sdrop k l) k = d k := by
  induction l with
  | nil => rfl
  | cons e t ih =>
    by_cases h : e.1 = k
    · simpa [sdrop, h] using ih
    · simpa [sdrop, h, sget] using ih

theorem sget_sdrop_other (d : Nat → α) (l : List (Nat × α)) {k j : Nat} (hk : j ≠ k) :
    sget d (sdrop k l) j = sget d l j := by
  induction l with
  | nil => rfl
  | cons e t ih =>
    by_cases h : e.1 = k
    · have : e.1 ≠ j := fun x => hk (x.symm.trans h)
      simpa [sdrop, h, sget, Ne.symm hk] using ih
    · by_cases hj : e.1 = j
      · simp [sdrop, h, sget, hj, hk]
      · simpa [sdrop, h, sget, hj] using ih

theorem sget_sins_other (d : Nat → α) (l : List (Nat × α)) (v : α) {k j : Nat} (hk : j ≠ k) :
    sget d (sins k v l) j = sget d l j := by
  induction l with
  | nil => simp [sins, sget, Ne.symm hk]
  | cons e t ih =>
    simp only [sins]
    split
    · simp [sget, Ne.symm hk]
    · simp only [sget, ih]

theorem sget_sins_self (d : Nat → α) (l : List (Nat × α)) (k : Nat) (v : α) (h : ∀ e ∈ l, e.1 ≠ k) :
    sget d (sins k v l) k = v := by
  induction l with
  | nil => simp [sins, sget]
  | cons e t ih =>
    simp only [sins]
    split
    · simp [sget]
    · have he : e.1 ≠ k := h e (by simp)
      simp only [sget, he, if_false]
      exact ih (fun x hx => h x (by simp [hx]))

theorem mem_sdrop {k : Nat} {l : List (Nat × α)} {e : Nat × α} : e ∈ sdrop k l ↔ e ∈ l ∧ e.1 ≠ k := by
  simp [sdrop]

/-- Read after write. -/
theorem sget_sset [DecidableEq α] (d : Nat → α) (l : List (Nat × α)) (k j : Nat) (v : α) :
    sget d (sset d l k v) j = if j = k then v else sget d l j := by
  unfold sset
  by_cases hj : j = k
  · subst hj
    split
    · rename_i h; simp [sget_sdrop_self, h]
    · rw [sget_sins_self _ _ _ _ (fun e he => (mem_sdrop.1 he).2)]; simp
  · simp only [hj, if_false]
    split
    · exact sget_sdrop_other d l hj
    · rw [sget_sins_other _ _ _ hj, sget_sdrop_other d l hj]

theorem mem_sins {k : Nat} {v : α} {l : List (Nat × α)} {e : Nat × α} : e ∈ sins k v l ↔ e = (k, v) ∨ e ∈ l := by
  induction l with
  | nil => simp [sins]
  | cons x t ih =>
    simp only [sins]
    split
    · simp
    · simp only [List.mem_cons, ih]; tauto

theorem pairwise_sins {k : Nat} {v : α} {l : List (Nat × α)} (h : (l.map Prod.fst).Pairwise (· < ·))
    (hk : ∀ e ∈ l, e.1 ≠ k) : ((sins k v l).map Prod.fst).Pairwise (· < ·) := by
  induction l with
  | nil => simp [sins]
  | cons x t ih =>
    simp only [List.map_cons, List.pairwise_cons] at h
    simp only [sins]
    split
    · rename_i hlt
      simp only [List.map_cons, List.pairwise_cons]
      refine ⟨?_, h⟩
      intro a ha
      rcases List.mem_cons.1 ha with rfl | ha
      · exact hlt
      · exact lt_trans hlt (h.1 a ha)
    · rename_i hlt
      simp only [List.map_cons, List.pairwise_cons]
      refine ⟨?_, ih h.2 (fun e he => hk e (by simp [he]))⟩
      intro a ha
      obtain ⟨e, he, rfl⟩ := List.mem_map.1 ha
      rcases mem_sins.1 he with rfl | he
      · have := hk x (by simp)
        exact lt_of_le_of_ne (not_lt.1 hlt) this
      · exact h.1 _ (List.mem_map.2 ⟨e, he, rfl⟩)

theorem swf_iff [DecidableEq α] (d : Nat → α) (l : List (Nat × α)) :
    swf d l = true ↔ (l.map Prod.fst).Pairwise (· < ·) ∧ ∀ e ∈ l, e.2 ≠ d e.1 := by
  simp [swf]

theorem swf_nil [DecidableEq α] (d : Nat → α) : swf d [] = true := by simp [swf]

/-- Dropping entries keeps the canonical form. -/
theorem swf_filter [DecidableEq α] (d : Nat → α) (l : List (Nat × α)) (p : Nat × α → Bool) (h : swf d l = true) :
    swf d (l.filter p) = true := by
  rw [swf_iff] at h ⊢
  refine ⟨?_, fun e he => h.2 e (List.mem_filter.1 he).1⟩
  exact h.1.sublist (List.filter_sublist.map _)

/-- A write keeps the canonical form. -/
theorem swf_sset [DecidableEq α] (d : Nat → α) (l : List (Nat × α)) (k : Nat) (v : α) (h : swf d l = true) :
    swf d (sset d l k v) = true := by
  unfold sset
  have hd : swf d (sdrop k l) = true := swf_filter d l _ h
  split
  · exact hd
  · rename_i hv
    rw [swf_iff] at hd ⊢
    refine ⟨pairwise_sins hd.1 (fun e he => (mem_sdrop.1 he).2), ?_⟩
    intro e he
    rcases mem_sins.1 he with rfl | he
    · exact hv
    · exact hd.2 e he

end Sys2Proof
end

