-- ==== Sys2Proof/Laws/State.lean ====
section
/-!
SUPPORT. Sys2Proof/Laws/State.lean: what each shared update of the state leaves alone, one lemma a field, true by rfl.
-/
namespace Sys2Proof.Machine

variable (s : State)

/-! ### wr -/

@[simp] theorem State.wr_pending (k : Nat) (v : Word) : (s.wr k v).pending = s.pending := rfl
@[simp] theorem State.wr_mem (k : Nat) (v : Word) : (s.wr k v).mem = s.mem := rfl
@[simp] theorem State.wr_reqs (k : Nat) (v : Word) : (s.wr k v).reqs = s.reqs := rfl
@[simp] theorem State.wr_freeIx (k : Nat) (v : Word) : (s.wr k v).freeIx = s.freeIx := rfl
@[simp] theorem State.wr_sent (k : Nat) (v : Word) : (s.wr k v).sent = s.sent := rfl
@[simp] theorem State.wr_rdata (k : Nat) (v : Word) : (s.wr k v).rdata = s.rdata := rfl
@[simp] theorem State.wr_phase (k : Nat) (v : Word) : (s.wr k v).phase = s.phase := rfl
@[simp] theorem State.wr_pins (k : Nat) (v : Word) : (s.wr k v).pins = s.pins := rfl
@[simp] theorem State.wr_causes (k : Nat) (v : Word) : (s.wr k v).causes = s.causes := rfl
@[simp] theorem State.wr_sup (k : Nat) (v : Word) : (s.wr k v).sup = s.sup := rfl
@[simp] theorem State.wr_link (k : Nat) (v : Word) : (s.wr k v).link = s.link := rfl
@[simp] theorem State.wr_time (k : Nat) (v : Word) : (s.wr k v).time = s.time := rfl
@[simp] theorem State.wr_evl (k : Nat) (v : Word) : (s.wr k v).evl = s.evl := rfl
@[simp] theorem State.wr_mst (k : Nat) (v : Word) : (s.wr k v).mst = s.mst := rfl
@[simp] theorem State.wr_run (k : Nat) (v : Word) : (s.wr k v).run = s.run := rfl
@[simp] theorem State.wr_budget (k : Nat) (v : Word) : (s.wr k v).budget = s.budget := rfl
@[simp] theorem State.wr_ojobs (k : Nat) (v : Word) : (s.wr k v).ojobs = s.ojobs := rfl
@[simp] theorem State.wr_triad (k : Nat) (v : Word) : (s.wr k v).triad = s.triad := rfl
@[simp] theorem State.wr_slx (k : Nat) (v : Word) : (s.wr k v).slx = s.slx := rfl
@[simp] theorem State.wr_sec (k : Nat) (v : Word) : (s.wr k v).sec = s.sec := rfl
@[simp] theorem State.wr_lanes (k : Nat) (v : Word) : (s.wr k v).lanes = s.lanes := rfl
@[simp] theorem State.wr_aux (k : Nat) (v : Word) : (s.wr k v).aux = s.aux := rfl
@[simp] theorem State.wr_sniff (k : Nat) (v : Word) : (s.wr k v).sniff = s.sniff := rfl
@[simp] theorem State.wr_fio (k : Nat) (v : Word) : (s.wr k v).fio = s.fio := rfl
@[simp] theorem State.wr_hq (k : Nat) (v : Word) : (s.wr k v).hq = s.hq := rfl
@[simp] theorem State.wr_pbx (k : Nat) (v : Word) : (s.wr k v).pbx = s.pbx := rfl
@[simp] theorem State.wr_pel (k : Nat) (v : Word) : (s.wr k v).pel = s.pel := rfl
@[simp] theorem State.wr_tw (k : Nat) (v : Word) : (s.wr k v).tw = s.tw := rfl
@[simp] theorem State.wr_acq (k : Nat) (v : Word) : (s.wr k v).acq = s.acq := rfl
@[simp] theorem State.wr_bays (k : Nat) (v : Word) : (s.wr k v).bays = s.bays := rfl

/-! ### setFld -/

@[simp] theorem State.setFld_pending (k hi lo v : Nat) : (s.setFld k hi lo v).pending = s.pending := rfl
@[simp] theorem State.setFld_mem (k hi lo v : Nat) : (s.setFld k hi lo v).mem = s.mem := rfl
@[simp] theorem State.setFld_reqs (k hi lo v : Nat) : (s.setFld k hi lo v).reqs = s.reqs := rfl
@[simp] theorem State.setFld_freeIx (k hi lo v : Nat) : (s.setFld k hi lo v).freeIx = s.freeIx := rfl
@[simp] theorem State.setFld_sent (k hi lo v : Nat) : (s.setFld k hi lo v).sent = s.sent := rfl
@[simp] theorem State.setFld_rdata (k hi lo v : Nat) : (s.setFld k hi lo v).rdata = s.rdata := rfl
@[simp] theorem State.setFld_phase (k hi lo v : Nat) : (s.setFld k hi lo v).phase = s.phase := rfl
@[simp] theorem State.setFld_pins (k hi lo v : Nat) : (s.setFld k hi lo v).pins = s.pins := rfl
@[simp] theorem State.setFld_causes (k hi lo v : Nat) : (s.setFld k hi lo v).causes = s.causes := rfl
@[simp] theorem State.setFld_sup (k hi lo v : Nat) : (s.setFld k hi lo v).sup = s.sup := rfl
@[simp] theorem State.setFld_link (k hi lo v : Nat) : (s.setFld k hi lo v).link = s.link := rfl
@[simp] theorem State.setFld_time (k hi lo v : Nat) : (s.setFld k hi lo v).time = s.time := rfl
@[simp] theorem State.setFld_evl (k hi lo v : Nat) : (s.setFld k hi lo v).evl = s.evl := rfl
@[simp] theorem State.setFld_mst (k hi lo v : Nat) : (s.setFld k hi lo v).mst = s.mst := rfl
@[simp] theorem State.setFld_run (k hi lo v : Nat) : (s.setFld k hi lo v).run = s.run := rfl
@[simp] theorem State.setFld_budget (k hi lo v : Nat) : (s.setFld k hi lo v).budget = s.budget := rfl
@[simp] theorem State.setFld_ojobs (k hi lo v : Nat) : (s.setFld k hi lo v).ojobs = s.ojobs := rfl
@[simp] theorem State.setFld_triad (k hi lo v : Nat) : (s.setFld k hi lo v).triad = s.triad := rfl
@[simp] theorem State.setFld_slx (k hi lo v : Nat) : (s.setFld k hi lo v).slx = s.slx := rfl
@[simp] theorem State.setFld_sec (k hi lo v : Nat) : (s.setFld k hi lo v).sec = s.sec := rfl
@[simp] theorem State.setFld_lanes (k hi lo v : Nat) : (s.setFld k hi lo v).lanes = s.lanes := rfl
@[simp] theorem State.setFld_aux (k hi lo v : Nat) : (s.setFld k hi lo v).aux = s.aux := rfl
@[simp] theorem State.setFld_sniff (k hi lo v : Nat) : (s.setFld k hi lo v).sniff = s.sniff := rfl
@[simp] theorem State.setFld_fio (k hi lo v : Nat) : (s.setFld k hi lo v).fio = s.fio := rfl
@[simp] theorem State.setFld_hq (k hi lo v : Nat) : (s.setFld k hi lo v).hq = s.hq := rfl
@[simp] theorem State.setFld_pbx (k hi lo v : Nat) : (s.setFld k hi lo v).pbx = s.pbx := rfl
@[simp] theorem State.setFld_pel (k hi lo v : Nat) : (s.setFld k hi lo v).pel = s.pel := rfl
@[simp] theorem State.setFld_tw (k hi lo v : Nat) : (s.setFld k hi lo v).tw = s.tw := rfl
@[simp] theorem State.setFld_acq (k hi lo v : Nat) : (s.setFld k hi lo v).acq = s.acq := rfl
@[simp] theorem State.setFld_bays (k hi lo v : Nat) : (s.setFld k hi lo v).bays = s.bays := rfl

/-! ### setFlag -/

@[simp] theorem State.setFlag_pending (k n : Nat) (b : Bool) : (s.setFlag k n b).pending = s.pending := rfl
@[simp] theorem State.setFlag_mem (k n : Nat) (b : Bool) : (s.setFlag k n b).mem = s.mem := rfl
@[simp] theorem State.setFlag_reqs (k n : Nat) (b : Bool) : (s.setFlag k n b).reqs = s.reqs := rfl
@[simp] theorem State.setFlag_freeIx (k n : Nat) (b : Bool) : (s.setFlag k n b).freeIx = s.freeIx := rfl
@[simp] theorem State.setFlag_sent (k n : Nat) (b : Bool) : (s.setFlag k n b).sent = s.sent := rfl
@[simp] theorem State.setFlag_rdata (k n : Nat) (b : Bool) : (s.setFlag k n b).rdata = s.rdata := rfl
@[simp] theorem State.setFlag_phase (k n : Nat) (b : Bool) : (s.setFlag k n b).phase = s.phase := rfl
@[simp] theorem State.setFlag_pins (k n : Nat) (b : Bool) : (s.setFlag k n b).pins = s.pins := rfl
@[simp] theorem State.setFlag_causes (k n : Nat) (b : Bool) : (s.setFlag k n b).causes = s.causes := rfl
@[simp] theorem State.setFlag_sup (k n : Nat) (b : Bool) : (s.setFlag k n b).sup = s.sup := rfl
@[simp] theorem State.setFlag_link (k n : Nat) (b : Bool) : (s.setFlag k n b).link = s.link := rfl
@[simp] theorem State.setFlag_time (k n : Nat) (b : Bool) : (s.setFlag k n b).time = s.time := rfl
@[simp] theorem State.setFlag_evl (k n : Nat) (b : Bool) : (s.setFlag k n b).evl = s.evl := rfl
@[simp] theorem State.setFlag_mst (k n : Nat) (b : Bool) : (s.setFlag k n b).mst = s.mst := rfl
@[simp] theorem State.setFlag_run (k n : Nat) (b : Bool) : (s.setFlag k n b).run = s.run := rfl
@[simp] theorem State.setFlag_budget (k n : Nat) (b : Bool) : (s.setFlag k n b).budget = s.budget := rfl
@[simp] theorem State.setFlag_ojobs (k n : Nat) (b : Bool) : (s.setFlag k n b).ojobs = s.ojobs := rfl
@[simp] theorem State.setFlag_triad (k n : Nat) (b : Bool) : (s.setFlag k n b).triad = s.triad := rfl
@[simp] theorem State.setFlag_slx (k n : Nat) (b : Bool) : (s.setFlag k n b).slx = s.slx := rfl
@[simp] theorem State.setFlag_sec (k n : Nat) (b : Bool) : (s.setFlag k n b).sec = s.sec := rfl
@[simp] theorem State.setFlag_lanes (k n : Nat) (b : Bool) : (s.setFlag k n b).lanes = s.lanes := rfl
@[simp] theorem State.setFlag_aux (k n : Nat) (b : Bool) : (s.setFlag k n b).aux = s.aux := rfl
@[simp] theorem State.setFlag_sniff (k n : Nat) (b : Bool) : (s.setFlag k n b).sniff = s.sniff := rfl
@[simp] theorem State.setFlag_fio (k n : Nat) (b : Bool) : (s.setFlag k n b).fio = s.fio := rfl
@[simp] theorem State.setFlag_hq (k n : Nat) (b : Bool) : (s.setFlag k n b).hq = s.hq := rfl
@[simp] theorem State.setFlag_pbx (k n : Nat) (b : Bool) : (s.setFlag k n b).pbx = s.pbx := rfl
@[simp] theorem State.setFlag_pel (k n : Nat) (b : Bool) : (s.setFlag k n b).pel = s.pel := rfl
@[simp] theorem State.setFlag_tw (k n : Nat) (b : Bool) : (s.setFlag k n b).tw = s.tw := rfl
@[simp] theorem State.setFlag_acq (k n : Nat) (b : Bool) : (s.setFlag k n b).acq = s.acq := rfl
@[simp] theorem State.setFlag_bays (k n : Nat) (b : Bool) : (s.setFlag k n b).bays = s.bays := rfl

/-! ### incFld -/

@[simp] theorem State.incFld_pending (k hi lo : Nat) : (s.incFld k hi lo).pending = s.pending := rfl
@[simp] theorem State.incFld_mem (k hi lo : Nat) : (s.incFld k hi lo).mem = s.mem := rfl
@[simp] theorem State.incFld_reqs (k hi lo : Nat) : (s.incFld k hi lo).reqs = s.reqs := rfl
@[simp] theorem State.incFld_freeIx (k hi lo : Nat) : (s.incFld k hi lo).freeIx = s.freeIx := rfl
@[simp] theorem State.incFld_sent (k hi lo : Nat) : (s.incFld k hi lo).sent = s.sent := rfl
@[simp] theorem State.incFld_rdata (k hi lo : Nat) : (s.incFld k hi lo).rdata = s.rdata := rfl
@[simp] theorem State.incFld_phase (k hi lo : Nat) : (s.incFld k hi lo).phase = s.phase := rfl
@[simp] theorem State.incFld_pins (k hi lo : Nat) : (s.incFld k hi lo).pins = s.pins := rfl
@[simp] theorem State.incFld_causes (k hi lo : Nat) : (s.incFld k hi lo).causes = s.causes := rfl
@[simp] theorem State.incFld_sup (k hi lo : Nat) : (s.incFld k hi lo).sup = s.sup := rfl
@[simp] theorem State.incFld_link (k hi lo : Nat) : (s.incFld k hi lo).link = s.link := rfl
@[simp] theorem State.incFld_time (k hi lo : Nat) : (s.incFld k hi lo).time = s.time := rfl
@[simp] theorem State.incFld_evl (k hi lo : Nat) : (s.incFld k hi lo).evl = s.evl := rfl
@[simp] theorem State.incFld_mst (k hi lo : Nat) : (s.incFld k hi lo).mst = s.mst := rfl
@[simp] theorem State.incFld_run (k hi lo : Nat) : (s.incFld k hi lo).run = s.run := rfl
@[simp] theorem State.incFld_budget (k hi lo : Nat) : (s.incFld k hi lo).budget = s.budget := rfl
@[simp] theorem State.incFld_ojobs (k hi lo : Nat) : (s.incFld k hi lo).ojobs = s.ojobs := rfl
@[simp] theorem State.incFld_triad (k hi lo : Nat) : (s.incFld k hi lo).triad = s.triad := rfl
@[simp] theorem State.incFld_slx (k hi lo : Nat) : (s.incFld k hi lo).slx = s.slx := rfl
@[simp] theorem State.incFld_sec (k hi lo : Nat) : (s.incFld k hi lo).sec = s.sec := rfl
@[simp] theorem State.incFld_lanes (k hi lo : Nat) : (s.incFld k hi lo).lanes = s.lanes := rfl
@[simp] theorem State.incFld_aux (k hi lo : Nat) : (s.incFld k hi lo).aux = s.aux := rfl
@[simp] theorem State.incFld_sniff (k hi lo : Nat) : (s.incFld k hi lo).sniff = s.sniff := rfl
@[simp] theorem State.incFld_fio (k hi lo : Nat) : (s.incFld k hi lo).fio = s.fio := rfl
@[simp] theorem State.incFld_hq (k hi lo : Nat) : (s.incFld k hi lo).hq = s.hq := rfl
@[simp] theorem State.incFld_pbx (k hi lo : Nat) : (s.incFld k hi lo).pbx = s.pbx := rfl
@[simp] theorem State.incFld_pel (k hi lo : Nat) : (s.incFld k hi lo).pel = s.pel := rfl
@[simp] theorem State.incFld_tw (k hi lo : Nat) : (s.incFld k hi lo).tw = s.tw := rfl
@[simp] theorem State.incFld_acq (k hi lo : Nat) : (s.incFld k hi lo).acq = s.acq := rfl
@[simp] theorem State.incFld_bays (k hi lo : Nat) : (s.incFld k hi lo).bays = s.bays := rfl

/-! ### satFld -/

@[simp] theorem State.satFld_pending (k hi lo n : Nat) : (s.satFld k hi lo n).pending = s.pending := rfl
@[simp] theorem State.satFld_mem (k hi lo n : Nat) : (s.satFld k hi lo n).mem = s.mem := rfl
@[simp] theorem State.satFld_reqs (k hi lo n : Nat) : (s.satFld k hi lo n).reqs = s.reqs := rfl
@[simp] theorem State.satFld_freeIx (k hi lo n : Nat) : (s.satFld k hi lo n).freeIx = s.freeIx := rfl
@[simp] theorem State.satFld_sent (k hi lo n : Nat) : (s.satFld k hi lo n).sent = s.sent := rfl
@[simp] theorem State.satFld_rdata (k hi lo n : Nat) : (s.satFld k hi lo n).rdata = s.rdata := rfl
@[simp] theorem State.satFld_phase (k hi lo n : Nat) : (s.satFld k hi lo n).phase = s.phase := rfl
@[simp] theorem State.satFld_pins (k hi lo n : Nat) : (s.satFld k hi lo n).pins = s.pins := rfl
@[simp] theorem State.satFld_causes (k hi lo n : Nat) : (s.satFld k hi lo n).causes = s.causes := rfl
@[simp] theorem State.satFld_sup (k hi lo n : Nat) : (s.satFld k hi lo n).sup = s.sup := rfl
@[simp] theorem State.satFld_link (k hi lo n : Nat) : (s.satFld k hi lo n).link = s.link := rfl
@[simp] theorem State.satFld_time (k hi lo n : Nat) : (s.satFld k hi lo n).time = s.time := rfl
@[simp] theorem State.satFld_evl (k hi lo n : Nat) : (s.satFld k hi lo n).evl = s.evl := rfl
@[simp] theorem State.satFld_mst (k hi lo n : Nat) : (s.satFld k hi lo n).mst = s.mst := rfl
@[simp] theorem State.satFld_run (k hi lo n : Nat) : (s.satFld k hi lo n).run = s.run := rfl
@[simp] theorem State.satFld_budget (k hi lo n : Nat) : (s.satFld k hi lo n).budget = s.budget := rfl
@[simp] theorem State.satFld_ojobs (k hi lo n : Nat) : (s.satFld k hi lo n).ojobs = s.ojobs := rfl
@[simp] theorem State.satFld_triad (k hi lo n : Nat) : (s.satFld k hi lo n).triad = s.triad := rfl
@[simp] theorem State.satFld_slx (k hi lo n : Nat) : (s.satFld k hi lo n).slx = s.slx := rfl
@[simp] theorem State.satFld_sec (k hi lo n : Nat) : (s.satFld k hi lo n).sec = s.sec := rfl
@[simp] theorem State.satFld_lanes (k hi lo n : Nat) : (s.satFld k hi lo n).lanes = s.lanes := rfl
@[simp] theorem State.satFld_aux (k hi lo n : Nat) : (s.satFld k hi lo n).aux = s.aux := rfl
@[simp] theorem State.satFld_sniff (k hi lo n : Nat) : (s.satFld k hi lo n).sniff = s.sniff := rfl
@[simp] theorem State.satFld_fio (k hi lo n : Nat) : (s.satFld k hi lo n).fio = s.fio := rfl
@[simp] theorem State.satFld_hq (k hi lo n : Nat) : (s.satFld k hi lo n).hq = s.hq := rfl
@[simp] theorem State.satFld_pbx (k hi lo n : Nat) : (s.satFld k hi lo n).pbx = s.pbx := rfl
@[simp] theorem State.satFld_pel (k hi lo n : Nat) : (s.satFld k hi lo n).pel = s.pel := rfl
@[simp] theorem State.satFld_tw (k hi lo n : Nat) : (s.satFld k hi lo n).tw = s.tw := rfl
@[simp] theorem State.satFld_acq (k hi lo n : Nat) : (s.satFld k hi lo n).acq = s.acq := rfl
@[simp] theorem State.satFld_bays (k hi lo n : Nat) : (s.satFld k hi lo n).bays = s.bays := rfl

/-! ### setFault -/

@[simp] theorem State.setFault_pending (b : Bool) : (s.setFault b).pending = s.pending := rfl
@[simp] theorem State.setFault_mem (b : Bool) : (s.setFault b).mem = s.mem := rfl
@[simp] theorem State.setFault_reqs (b : Bool) : (s.setFault b).reqs = s.reqs := rfl
@[simp] theorem State.setFault_freeIx (b : Bool) : (s.setFault b).freeIx = s.freeIx := rfl
@[simp] theorem State.setFault_sent (b : Bool) : (s.setFault b).sent = s.sent := rfl
@[simp] theorem State.setFault_rdata (b : Bool) : (s.setFault b).rdata = s.rdata := rfl
@[simp] theorem State.setFault_phase (b : Bool) : (s.setFault b).phase = s.phase := rfl
@[simp] theorem State.setFault_pins (b : Bool) : (s.setFault b).pins = s.pins := rfl
@[simp] theorem State.setFault_causes (b : Bool) : (s.setFault b).causes = s.causes := rfl
@[simp] theorem State.setFault_sup (b : Bool) : (s.setFault b).sup = s.sup := rfl
@[simp] theorem State.setFault_link (b : Bool) : (s.setFault b).link = s.link := rfl
@[simp] theorem State.setFault_time (b : Bool) : (s.setFault b).time = s.time := rfl
@[simp] theorem State.setFault_evl (b : Bool) : (s.setFault b).evl = s.evl := rfl
@[simp] theorem State.setFault_mst (b : Bool) : (s.setFault b).mst = s.mst := rfl
@[simp] theorem State.setFault_run (b : Bool) : (s.setFault b).run = s.run := rfl
@[simp] theorem State.setFault_budget (b : Bool) : (s.setFault b).budget = s.budget := rfl
@[simp] theorem State.setFault_ojobs (b : Bool) : (s.setFault b).ojobs = s.ojobs := rfl
@[simp] theorem State.setFault_triad (b : Bool) : (s.setFault b).triad = s.triad := rfl
@[simp] theorem State.setFault_slx (b : Bool) : (s.setFault b).slx = s.slx := rfl
@[simp] theorem State.setFault_sec (b : Bool) : (s.setFault b).sec = s.sec := rfl
@[simp] theorem State.setFault_lanes (b : Bool) : (s.setFault b).lanes = s.lanes := rfl
@[simp] theorem State.setFault_aux (b : Bool) : (s.setFault b).aux = s.aux := rfl
@[simp] theorem State.setFault_sniff (b : Bool) : (s.setFault b).sniff = s.sniff := rfl
@[simp] theorem State.setFault_fio (b : Bool) : (s.setFault b).fio = s.fio := rfl
@[simp] theorem State.setFault_hq (b : Bool) : (s.setFault b).hq = s.hq := rfl
@[simp] theorem State.setFault_pbx (b : Bool) : (s.setFault b).pbx = s.pbx := rfl
@[simp] theorem State.setFault_pel (b : Bool) : (s.setFault b).pel = s.pel := rfl
@[simp] theorem State.setFault_tw (b : Bool) : (s.setFault b).tw = s.tw := rfl
@[simp] theorem State.setFault_acq (b : Bool) : (s.setFault b).acq = s.acq := rfl
@[simp] theorem State.setFault_bays (b : Bool) : (s.setFault b).bays = s.bays := rfl

/-! ### clearRegs -/

@[simp] theorem State.clearRegs_pending (lo hi : Nat) : (s.clearRegs lo hi).pending = s.pending := rfl
@[simp] theorem State.clearRegs_mem (lo hi : Nat) : (s.clearRegs lo hi).mem = s.mem := rfl
@[simp] theorem State.clearRegs_reqs (lo hi : Nat) : (s.clearRegs lo hi).reqs = s.reqs := rfl
@[simp] theorem State.clearRegs_freeIx (lo hi : Nat) : (s.clearRegs lo hi).freeIx = s.freeIx := rfl
@[simp] theorem State.clearRegs_sent (lo hi : Nat) : (s.clearRegs lo hi).sent = s.sent := rfl
@[simp] theorem State.clearRegs_rdata (lo hi : Nat) : (s.clearRegs lo hi).rdata = s.rdata := rfl
@[simp] theorem State.clearRegs_phase (lo hi : Nat) : (s.clearRegs lo hi).phase = s.phase := rfl
@[simp] theorem State.clearRegs_pins (lo hi : Nat) : (s.clearRegs lo hi).pins = s.pins := rfl
@[simp] theorem State.clearRegs_causes (lo hi : Nat) : (s.clearRegs lo hi).causes = s.causes := rfl
@[simp] theorem State.clearRegs_sup (lo hi : Nat) : (s.clearRegs lo hi).sup = s.sup := rfl
@[simp] theorem State.clearRegs_link (lo hi : Nat) : (s.clearRegs lo hi).link = s.link := rfl
@[simp] theorem State.clearRegs_time (lo hi : Nat) : (s.clearRegs lo hi).time = s.time := rfl
@[simp] theorem State.clearRegs_evl (lo hi : Nat) : (s.clearRegs lo hi).evl = s.evl := rfl
@[simp] theorem State.clearRegs_mst (lo hi : Nat) : (s.clearRegs lo hi).mst = s.mst := rfl
@[simp] theorem State.clearRegs_run (lo hi : Nat) : (s.clearRegs lo hi).run = s.run := rfl
@[simp] theorem State.clearRegs_budget (lo hi : Nat) : (s.clearRegs lo hi).budget = s.budget := rfl
@[simp] theorem State.clearRegs_ojobs (lo hi : Nat) : (s.clearRegs lo hi).ojobs = s.ojobs := rfl
@[simp] theorem State.clearRegs_triad (lo hi : Nat) : (s.clearRegs lo hi).triad = s.triad := rfl
@[simp] theorem State.clearRegs_slx (lo hi : Nat) : (s.clearRegs lo hi).slx = s.slx := rfl
@[simp] theorem State.clearRegs_sec (lo hi : Nat) : (s.clearRegs lo hi).sec = s.sec := rfl
@[simp] theorem State.clearRegs_lanes (lo hi : Nat) : (s.clearRegs lo hi).lanes = s.lanes := rfl
@[simp] theorem State.clearRegs_aux (lo hi : Nat) : (s.clearRegs lo hi).aux = s.aux := rfl
@[simp] theorem State.clearRegs_sniff (lo hi : Nat) : (s.clearRegs lo hi).sniff = s.sniff := rfl
@[simp] theorem State.clearRegs_fio (lo hi : Nat) : (s.clearRegs lo hi).fio = s.fio := rfl
@[simp] theorem State.clearRegs_hq (lo hi : Nat) : (s.clearRegs lo hi).hq = s.hq := rfl
@[simp] theorem State.clearRegs_pbx (lo hi : Nat) : (s.clearRegs lo hi).pbx = s.pbx := rfl
@[simp] theorem State.clearRegs_pel (lo hi : Nat) : (s.clearRegs lo hi).pel = s.pel := rfl
@[simp] theorem State.clearRegs_tw (lo hi : Nat) : (s.clearRegs lo hi).tw = s.tw := rfl
@[simp] theorem State.clearRegs_acq (lo hi : Nat) : (s.clearRegs lo hi).acq = s.acq := rfl
@[simp] theorem State.clearRegs_bays (lo hi : Nat) : (s.clearRegs lo hi).bays = s.bays := rfl

/-! ### emit -/

@[simp] theorem State.emit_pending (o : Out) : (s.emit o).pending = s.pending := rfl
@[simp] theorem State.emit_regs (o : Out) : (s.emit o).regs = s.regs := rfl
@[simp] theorem State.emit_mem (o : Out) : (s.emit o).mem = s.mem := rfl
@[simp] theorem State.emit_reqs (o : Out) : (s.emit o).reqs = s.reqs := rfl
@[simp] theorem State.emit_freeIx (o : Out) : (s.emit o).freeIx = s.freeIx := rfl
@[simp] theorem State.emit_rdata (o : Out) : (s.emit o).rdata = s.rdata := rfl
@[simp] theorem State.emit_phase (o : Out) : (s.emit o).phase = s.phase := rfl
@[simp] theorem State.emit_pins (o : Out) : (s.emit o).pins = s.pins := rfl
@[simp] theorem State.emit_causes (o : Out) : (s.emit o).causes = s.causes := rfl
@[simp] theorem State.emit_sup (o : Out) : (s.emit o).sup = s.sup := rfl
@[simp] theorem State.emit_link (o : Out) : (s.emit o).link = s.link := rfl
@[simp] theorem State.emit_time (o : Out) : (s.emit o).time = s.time := rfl
@[simp] theorem State.emit_evl (o : Out) : (s.emit o).evl = s.evl := rfl
@[simp] theorem State.emit_mst (o : Out) : (s.emit o).mst = s.mst := rfl
@[simp] theorem State.emit_run (o : Out) : (s.emit o).run = s.run := rfl
@[simp] theorem State.emit_budget (o : Out) : (s.emit o).budget = s.budget := rfl
@[simp] theorem State.emit_ojobs (o : Out) : (s.emit o).ojobs = s.ojobs := rfl
@[simp] theorem State.emit_triad (o : Out) : (s.emit o).triad = s.triad := rfl
@[simp] theorem State.emit_slx (o : Out) : (s.emit o).slx = s.slx := rfl
@[simp] theorem State.emit_sec (o : Out) : (s.emit o).sec = s.sec := rfl
@[simp] theorem State.emit_lanes (o : Out) : (s.emit o).lanes = s.lanes := rfl
@[simp] theorem State.emit_aux (o : Out) : (s.emit o).aux = s.aux := rfl
@[simp] theorem State.emit_sniff (o : Out) : (s.emit o).sniff = s.sniff := rfl
@[simp] theorem State.emit_fio (o : Out) : (s.emit o).fio = s.fio := rfl
@[simp] theorem State.emit_hq (o : Out) : (s.emit o).hq = s.hq := rfl
@[simp] theorem State.emit_pbx (o : Out) : (s.emit o).pbx = s.pbx := rfl
@[simp] theorem State.emit_pel (o : Out) : (s.emit o).pel = s.pel := rfl
@[simp] theorem State.emit_tw (o : Out) : (s.emit o).tw = s.tw := rfl
@[simp] theorem State.emit_acq (o : Out) : (s.emit o).acq = s.acq := rfl
@[simp] theorem State.emit_bays (o : Out) : (s.emit o).bays = s.bays := rfl
@[simp] theorem State.emit_rd (o : Out) (j : Nat) : (s.emit o).rd j = s.rd j := by
  simp only [State.rd, State.emit_regs]

/-! ### postAt -/

@[simp] theorem State.postAt_pending (a c : Nat) (pl : List Byte) (l : Nat) (b : Bool) (e w : Nat) : (s.postAt a c pl l b e w).pending = s.pending := rfl
@[simp] theorem State.postAt_regs (a c : Nat) (pl : List Byte) (l : Nat) (b : Bool) (e w : Nat) : (s.postAt a c pl l b e w).regs = s.regs := rfl
@[simp] theorem State.postAt_mem (a c : Nat) (pl : List Byte) (l : Nat) (b : Bool) (e w : Nat) : (s.postAt a c pl l b e w).mem = s.mem := rfl
@[simp] theorem State.postAt_reqs (a c : Nat) (pl : List Byte) (l : Nat) (b : Bool) (e w : Nat) : (s.postAt a c pl l b e w).reqs = s.reqs := rfl
@[simp] theorem State.postAt_freeIx (a c : Nat) (pl : List Byte) (l : Nat) (b : Bool) (e w : Nat) : (s.postAt a c pl l b e w).freeIx = s.freeIx := rfl
@[simp] theorem State.postAt_sent (a c : Nat) (pl : List Byte) (l : Nat) (b : Bool) (e w : Nat) : (s.postAt a c pl l b e w).sent = s.sent := rfl
@[simp] theorem State.postAt_rdata (a c : Nat) (pl : List Byte) (l : Nat) (b : Bool) (e w : Nat) : (s.postAt a c pl l b e w).rdata = s.rdata := rfl
@[simp] theorem State.postAt_phase (a c : Nat) (pl : List Byte) (l : Nat) (b : Bool) (e w : Nat) : (s.postAt a c pl l b e w).phase = s.phase := rfl
@[simp] theorem State.postAt_pins (a c : Nat) (pl : List Byte) (l : Nat) (b : Bool) (e w : Nat) : (s.postAt a c pl l b e w).pins = s.pins := rfl
@[simp] theorem State.postAt_causes (a c : Nat) (pl : List Byte) (l : Nat) (b : Bool) (e w : Nat) : (s.postAt a c pl l b e w).causes = s.causes := rfl
@[simp] theorem State.postAt_sup (a c : Nat) (pl : List Byte) (l : Nat) (b : Bool) (e w : Nat) : (s.postAt a c pl l b e w).sup = s.sup := rfl
@[simp] theorem State.postAt_link (a c : Nat) (pl : List Byte) (l : Nat) (b : Bool) (e w : Nat) : (s.postAt a c pl l b e w).link = s.link := rfl
@[simp] theorem State.postAt_time (a c : Nat) (pl : List Byte) (l : Nat) (b : Bool) (e w : Nat) : (s.postAt a c pl l b e w).time = s.time := rfl
@[simp] theorem State.postAt_mst (a c : Nat) (pl : List Byte) (l : Nat) (b : Bool) (e w : Nat) : (s.postAt a c pl l b e w).mst = s.mst := rfl
@[simp] theorem State.postAt_run (a c : Nat) (pl : List Byte) (l : Nat) (b : Bool) (e w : Nat) : (s.postAt a c pl l b e w).run = s.run := rfl
@[simp] theorem State.postAt_budget (a c : Nat) (pl : List Byte) (l : Nat) (b : Bool) (e w : Nat) : (s.postAt a c pl l b e w).budget = s.budget := rfl
@[simp] theorem State.postAt_ojobs (a c : Nat) (pl : List Byte) (l : Nat) (b : Bool) (e w : Nat) : (s.postAt a c pl l b e w).ojobs = s.ojobs := rfl
@[simp] theorem State.postAt_triad (a c : Nat) (pl : List Byte) (l : Nat) (b : Bool) (e w : Nat) : (s.postAt a c pl l b e w).triad = s.triad := rfl
@[simp] theorem State.postAt_slx (a c : Nat) (pl : List Byte) (l : Nat) (b : Bool) (e w : Nat) : (s.postAt a c pl l b e w).slx = s.slx := rfl
@[simp] theorem State.postAt_sec (a c : Nat) (pl : List Byte) (l : Nat) (b : Bool) (e w : Nat) : (s.postAt a c pl l b e w).sec = s.sec := rfl
@[simp] theorem State.postAt_lanes (a c : Nat) (pl : List Byte) (l : Nat) (b : Bool) (e w : Nat) : (s.postAt a c pl l b e w).lanes = s.lanes := rfl
@[simp] theorem State.postAt_aux (a c : Nat) (pl : List Byte) (l : Nat) (b : Bool) (e w : Nat) : (s.postAt a c pl l b e w).aux = s.aux := rfl
@[simp] theorem State.postAt_sniff (a c : Nat) (pl : List Byte) (l : Nat) (b : Bool) (e w : Nat) : (s.postAt a c pl l b e w).sniff = s.sniff := rfl
@[simp] theorem State.postAt_fio (a c : Nat) (pl : List Byte) (l : Nat) (b : Bool) (e w : Nat) : (s.postAt a c pl l b e w).fio = s.fio := rfl
@[simp] theorem State.postAt_hq (a c : Nat) (pl : List Byte) (l : Nat) (b : Bool) (e w : Nat) : (s.postAt a c pl l b e w).hq = s.hq := rfl
@[simp] theorem State.postAt_pbx (a c : Nat) (pl : List Byte) (l : Nat) (b : Bool) (e w : Nat) : (s.postAt a c pl l b e w).pbx = s.pbx := rfl
@[simp] theorem State.postAt_pel (a c : Nat) (pl : List Byte) (l : Nat) (b : Bool) (e w : Nat) : (s.postAt a c pl l b e w).pel = s.pel := rfl
@[simp] theorem State.postAt_tw (a c : Nat) (pl : List Byte) (l : Nat) (b : Bool) (e w : Nat) : (s.postAt a c pl l b e w).tw = s.tw := rfl
@[simp] theorem State.postAt_acq (a c : Nat) (pl : List Byte) (l : Nat) (b : Bool) (e w : Nat) : (s.postAt a c pl l b e w).acq = s.acq := rfl
@[simp] theorem State.postAt_bays (a c : Nat) (pl : List Byte) (l : Nat) (b : Bool) (e w : Nat) : (s.postAt a c pl l b e w).bays = s.bays := rfl
@[simp] theorem State.postAt_rd (a c : Nat) (pl : List Byte) (l : Nat) (b : Bool) (e w : Nat) (j : Nat) : (s.postAt a c pl l b e w).rd j = s.rd j := by
  simp only [State.rd, State.postAt_regs]

/-! ### post -/

@[simp] theorem State.post_pending (a c : Nat) (pl : List Byte) (l : Nat) (b : Bool) : (s.post a c pl l b).pending = s.pending := rfl
@[simp] theorem State.post_regs (a c : Nat) (pl : List Byte) (l : Nat) (b : Bool) : (s.post a c pl l b).regs = s.regs := rfl
@[simp] theorem State.post_mem (a c : Nat) (pl : List Byte) (l : Nat) (b : Bool) : (s.post a c pl l b).mem = s.mem := rfl
@[simp] theorem State.post_reqs (a c : Nat) (pl : List Byte) (l : Nat) (b : Bool) : (s.post a c pl l b).reqs = s.reqs := rfl
@[simp] theorem State.post_freeIx (a c : Nat) (pl : List Byte) (l : Nat) (b : Bool) : (s.post a c pl l b).freeIx = s.freeIx := rfl
@[simp] theorem State.post_sent (a c : Nat) (pl : List Byte) (l : Nat) (b : Bool) : (s.post a c pl l b).sent = s.sent := rfl
@[simp] theorem State.post_rdata (a c : Nat) (pl : List Byte) (l : Nat) (b : Bool) : (s.post a c pl l b).rdata = s.rdata := rfl
@[simp] theorem State.post_phase (a c : Nat) (pl : List Byte) (l : Nat) (b : Bool) : (s.post a c pl l b).phase = s.phase := rfl
@[simp] theorem State.post_pins (a c : Nat) (pl : List Byte) (l : Nat) (b : Bool) : (s.post a c pl l b).pins = s.pins := rfl
@[simp] theorem State.post_causes (a c : Nat) (pl : List Byte) (l : Nat) (b : Bool) : (s.post a c pl l b).causes = s.causes := rfl
@[simp] theorem State.post_sup (a c : Nat) (pl : List Byte) (l : Nat) (b : Bool) : (s.post a c pl l b).sup = s.sup := rfl
@[simp] theorem State.post_link (a c : Nat) (pl : List Byte) (l : Nat) (b : Bool) : (s.post a c pl l b).link = s.link := rfl
@[simp] theorem State.post_time (a c : Nat) (pl : List Byte) (l : Nat) (b : Bool) : (s.post a c pl l b).time = s.time := rfl
@[simp] theorem State.post_mst (a c : Nat) (pl : List Byte) (l : Nat) (b : Bool) : (s.post a c pl l b).mst = s.mst := rfl
@[simp] theorem State.post_run (a c : Nat) (pl : List Byte) (l : Nat) (b : Bool) : (s.post a c pl l b).run = s.run := rfl
@[simp] theorem State.post_budget (a c : Nat) (pl : List Byte) (l : Nat) (b : Bool) : (s.post a c pl l b).budget = s.budget := rfl
@[simp] theorem State.post_ojobs (a c : Nat) (pl : List Byte) (l : Nat) (b : Bool) : (s.post a c pl l b).ojobs = s.ojobs := rfl
@[simp] theorem State.post_triad (a c : Nat) (pl : List Byte) (l : Nat) (b : Bool) : (s.post a c pl l b).triad = s.triad := rfl
@[simp] theorem State.post_slx (a c : Nat) (pl : List Byte) (l : Nat) (b : Bool) : (s.post a c pl l b).slx = s.slx := rfl
@[simp] theorem State.post_sec (a c : Nat) (pl : List Byte) (l : Nat) (b : Bool) : (s.post a c pl l b).sec = s.sec := rfl
@[simp] theorem State.post_lanes (a c : Nat) (pl : List Byte) (l : Nat) (b : Bool) : (s.post a c pl l b).lanes = s.lanes := rfl
@[simp] theorem State.post_aux (a c : Nat) (pl : List Byte) (l : Nat) (b : Bool) : (s.post a c pl l b).aux = s.aux := rfl
@[simp] theorem State.post_sniff (a c : Nat) (pl : List Byte) (l : Nat) (b : Bool) : (s.post a c pl l b).sniff = s.sniff := rfl
@[simp] theorem State.post_fio (a c : Nat) (pl : List Byte) (l : Nat) (b : Bool) : (s.post a c pl l b).fio = s.fio := rfl
@[simp] theorem State.post_hq (a c : Nat) (pl : List Byte) (l : Nat) (b : Bool) : (s.post a c pl l b).hq = s.hq := rfl
@[simp] theorem State.post_pbx (a c : Nat) (pl : List Byte) (l : Nat) (b : Bool) : (s.post a c pl l b).pbx = s.pbx := rfl
@[simp] theorem State.post_pel (a c : Nat) (pl : List Byte) (l : Nat) (b : Bool) : (s.post a c pl l b).pel = s.pel := rfl
@[simp] theorem State.post_tw (a c : Nat) (pl : List Byte) (l : Nat) (b : Bool) : (s.post a c pl l b).tw = s.tw := rfl
@[simp] theorem State.post_acq (a c : Nat) (pl : List Byte) (l : Nat) (b : Bool) : (s.post a c pl l b).acq = s.acq := rfl
@[simp] theorem State.post_bays (a c : Nat) (pl : List Byte) (l : Nat) (b : Bool) : (s.post a c pl l b).bays = s.bays := rfl
@[simp] theorem State.post_rd (a c : Nat) (pl : List Byte) (l : Nat) (b : Bool) (j : Nat) : (s.post a c pl l b).rd j = s.rd j := by
  simp only [State.rd, State.post_regs]

/-! ### postNow -/

@[simp] theorem State.postNow_pending (a c : Nat) (pl : List Byte) (l : Nat) (b : Bool) : (s.postNow a c pl l b).pending = s.pending := rfl
@[simp] theorem State.postNow_regs (a c : Nat) (pl : List Byte) (l : Nat) (b : Bool) : (s.postNow a c pl l b).regs = s.regs := rfl
@[simp] theorem State.postNow_mem (a c : Nat) (pl : List Byte) (l : Nat) (b : Bool) : (s.postNow a c pl l b).mem = s.mem := rfl
@[simp] theorem State.postNow_reqs (a c : Nat) (pl : List Byte) (l : Nat) (b : Bool) : (s.postNow a c pl l b).reqs = s.reqs := rfl
@[simp] theorem State.postNow_freeIx (a c : Nat) (pl : List Byte) (l : Nat) (b : Bool) : (s.postNow a c pl l b).freeIx = s.freeIx := rfl
@[simp] theorem State.postNow_sent (a c : Nat) (pl : List Byte) (l : Nat) (b : Bool) : (s.postNow a c pl l b).sent = s.sent := rfl
@[simp] theorem State.postNow_rdata (a c : Nat) (pl : List Byte) (l : Nat) (b : Bool) : (s.postNow a c pl l b).rdata = s.rdata := rfl
@[simp] theorem State.postNow_phase (a c : Nat) (pl : List Byte) (l : Nat) (b : Bool) : (s.postNow a c pl l b).phase = s.phase := rfl
@[simp] theorem State.postNow_pins (a c : Nat) (pl : List Byte) (l : Nat) (b : Bool) : (s.postNow a c pl l b).pins = s.pins := rfl
@[simp] theorem State.postNow_causes (a c : Nat) (pl : List Byte) (l : Nat) (b : Bool) : (s.postNow a c pl l b).causes = s.causes := rfl
@[simp] theorem State.postNow_sup (a c : Nat) (pl : List Byte) (l : Nat) (b : Bool) : (s.postNow a c pl l b).sup = s.sup := rfl
@[simp] theorem State.postNow_link (a c : Nat) (pl : List Byte) (l : Nat) (b : Bool) : (s.postNow a c pl l b).link = s.link := rfl
@[simp] theorem State.postNow_time (a c : Nat) (pl : List Byte) (l : Nat) (b : Bool) : (s.postNow a c pl l b).time = s.time := rfl
@[simp] theorem State.postNow_mst (a c : Nat) (pl : List Byte) (l : Nat) (b : Bool) : (s.postNow a c pl l b).mst = s.mst := rfl
@[simp] theorem State.postNow_run (a c : Nat) (pl : List Byte) (l : Nat) (b : Bool) : (s.postNow a c pl l b).run = s.run := rfl
@[simp] theorem State.postNow_budget (a c : Nat) (pl : List Byte) (l : Nat) (b : Bool) : (s.postNow a c pl l b).budget = s.budget := rfl
@[simp] theorem State.postNow_ojobs (a c : Nat) (pl : List Byte) (l : Nat) (b : Bool) : (s.postNow a c pl l b).ojobs = s.ojobs := rfl
@[simp] theorem State.postNow_triad (a c : Nat) (pl : List Byte) (l : Nat) (b : Bool) : (s.postNow a c pl l b).triad = s.triad := rfl
@[simp] theorem State.postNow_slx (a c : Nat) (pl : List Byte) (l : Nat) (b : Bool) : (s.postNow a c pl l b).slx = s.slx := rfl
@[simp] theorem State.postNow_sec (a c : Nat) (pl : List Byte) (l : Nat) (b : Bool) : (s.postNow a c pl l b).sec = s.sec := rfl
@[simp] theorem State.postNow_lanes (a c : Nat) (pl : List Byte) (l : Nat) (b : Bool) : (s.postNow a c pl l b).lanes = s.lanes := rfl
@[simp] theorem State.postNow_aux (a c : Nat) (pl : List Byte) (l : Nat) (b : Bool) : (s.postNow a c pl l b).aux = s.aux := rfl
@[simp] theorem State.postNow_sniff (a c : Nat) (pl : List Byte) (l : Nat) (b : Bool) : (s.postNow a c pl l b).sniff = s.sniff := rfl
@[simp] theorem State.postNow_fio (a c : Nat) (pl : List Byte) (l : Nat) (b : Bool) : (s.postNow a c pl l b).fio = s.fio := rfl
@[simp] theorem State.postNow_hq (a c : Nat) (pl : List Byte) (l : Nat) (b : Bool) : (s.postNow a c pl l b).hq = s.hq := rfl
@[simp] theorem State.postNow_pbx (a c : Nat) (pl : List Byte) (l : Nat) (b : Bool) : (s.postNow a c pl l b).pbx = s.pbx := rfl
@[simp] theorem State.postNow_pel (a c : Nat) (pl : List Byte) (l : Nat) (b : Bool) : (s.postNow a c pl l b).pel = s.pel := rfl
@[simp] theorem State.postNow_tw (a c : Nat) (pl : List Byte) (l : Nat) (b : Bool) : (s.postNow a c pl l b).tw = s.tw := rfl
@[simp] theorem State.postNow_acq (a c : Nat) (pl : List Byte) (l : Nat) (b : Bool) : (s.postNow a c pl l b).acq = s.acq := rfl
@[simp] theorem State.postNow_bays (a c : Nat) (pl : List Byte) (l : Nat) (b : Bool) : (s.postNow a c pl l b).bays = s.bays := rfl
@[simp] theorem State.postNow_rd (a c : Nat) (pl : List Byte) (l : Nat) (b : Bool) (j : Nat) : (s.postNow a c pl l b).rd j = s.rd j := by
  simp only [State.rd, State.postNow_regs]

/-! ### powerRecord -/

@[simp] theorem State.powerRecord_pending (a b c : Nat) : (s.powerRecord a b c).pending = s.pending := rfl
@[simp] theorem State.powerRecord_regs (a b c : Nat) : (s.powerRecord a b c).regs = s.regs := rfl
@[simp] theorem State.powerRecord_mem (a b c : Nat) : (s.powerRecord a b c).mem = s.mem := rfl
@[simp] theorem State.powerRecord_reqs (a b c : Nat) : (s.powerRecord a b c).reqs = s.reqs := rfl
@[simp] theorem State.powerRecord_freeIx (a b c : Nat) : (s.powerRecord a b c).freeIx = s.freeIx := rfl
@[simp] theorem State.powerRecord_sent (a b c : Nat) : (s.powerRecord a b c).sent = s.sent := rfl
@[simp] theorem State.powerRecord_rdata (a b c : Nat) : (s.powerRecord a b c).rdata = s.rdata := rfl
@[simp] theorem State.powerRecord_phase (a b c : Nat) : (s.powerRecord a b c).phase = s.phase := rfl
@[simp] theorem State.powerRecord_pins (a b c : Nat) : (s.powerRecord a b c).pins = s.pins := rfl
@[simp] theorem State.powerRecord_causes (a b c : Nat) : (s.powerRecord a b c).causes = s.causes := rfl
@[simp] theorem State.powerRecord_sup (a b c : Nat) : (s.powerRecord a b c).sup = s.sup := rfl
@[simp] theorem State.powerRecord_link (a b c : Nat) : (s.powerRecord a b c).link = s.link := rfl
@[simp] theorem State.powerRecord_time (a b c : Nat) : (s.powerRecord a b c).time = s.time := rfl
@[simp] theorem State.powerRecord_mst (a b c : Nat) : (s.powerRecord a b c).mst = s.mst := rfl
@[simp] theorem State.powerRecord_run (a b c : Nat) : (s.powerRecord a b c).run = s.run := rfl
@[simp] theorem State.powerRecord_budget (a b c : Nat) : (s.powerRecord a b c).budget = s.budget := rfl
@[simp] theorem State.powerRecord_ojobs (a b c : Nat) : (s.powerRecord a b c).ojobs = s.ojobs := rfl
@[simp] theorem State.powerRecord_triad (a b c : Nat) : (s.powerRecord a b c).triad = s.triad := rfl
@[simp] theorem State.powerRecord_slx (a b c : Nat) : (s.powerRecord a b c).slx = s.slx := rfl
@[simp] theorem State.powerRecord_sec (a b c : Nat) : (s.powerRecord a b c).sec = s.sec := rfl
@[simp] theorem State.powerRecord_lanes (a b c : Nat) : (s.powerRecord a b c).lanes = s.lanes := rfl
@[simp] theorem State.powerRecord_aux (a b c : Nat) : (s.powerRecord a b c).aux = s.aux := rfl
@[simp] theorem State.powerRecord_sniff (a b c : Nat) : (s.powerRecord a b c).sniff = s.sniff := rfl
@[simp] theorem State.powerRecord_fio (a b c : Nat) : (s.powerRecord a b c).fio = s.fio := rfl
@[simp] theorem State.powerRecord_hq (a b c : Nat) : (s.powerRecord a b c).hq = s.hq := rfl
@[simp] theorem State.powerRecord_pbx (a b c : Nat) : (s.powerRecord a b c).pbx = s.pbx := rfl
@[simp] theorem State.powerRecord_pel (a b c : Nat) : (s.powerRecord a b c).pel = s.pel := rfl
@[simp] theorem State.powerRecord_tw (a b c : Nat) : (s.powerRecord a b c).tw = s.tw := rfl
@[simp] theorem State.powerRecord_acq (a b c : Nat) : (s.powerRecord a b c).acq = s.acq := rfl
@[simp] theorem State.powerRecord_bays (a b c : Nat) : (s.powerRecord a b c).bays = s.bays := rfl
@[simp] theorem State.powerRecord_rd (a b c : Nat) (j : Nat) : (s.powerRecord a b c).rd j = s.rd j := by
  simp only [State.rd, State.powerRecord_regs]

/-! ### setReq -/

@[simp] theorem State.setReq_pending (k : Nat) (r : Option Req) : (s.setReq k r).pending = s.pending := rfl
@[simp] theorem State.setReq_regs (k : Nat) (r : Option Req) : (s.setReq k r).regs = s.regs := rfl
@[simp] theorem State.setReq_mem (k : Nat) (r : Option Req) : (s.setReq k r).mem = s.mem := rfl
@[simp] theorem State.setReq_freeIx (k : Nat) (r : Option Req) : (s.setReq k r).freeIx = s.freeIx := rfl
@[simp] theorem State.setReq_sent (k : Nat) (r : Option Req) : (s.setReq k r).sent = s.sent := rfl
@[simp] theorem State.setReq_rdata (k : Nat) (r : Option Req) : (s.setReq k r).rdata = s.rdata := rfl
@[simp] theorem State.setReq_phase (k : Nat) (r : Option Req) : (s.setReq k r).phase = s.phase := rfl
@[simp] theorem State.setReq_pins (k : Nat) (r : Option Req) : (s.setReq k r).pins = s.pins := rfl
@[simp] theorem State.setReq_causes (k : Nat) (r : Option Req) : (s.setReq k r).causes = s.causes := rfl
@[simp] theorem State.setReq_sup (k : Nat) (r : Option Req) : (s.setReq k r).sup = s.sup := rfl
@[simp] theorem State.setReq_link (k : Nat) (r : Option Req) : (s.setReq k r).link = s.link := rfl
@[simp] theorem State.setReq_time (k : Nat) (r : Option Req) : (s.setReq k r).time = s.time := rfl
@[simp] theorem State.setReq_evl (k : Nat) (r : Option Req) : (s.setReq k r).evl = s.evl := rfl
@[simp] theorem State.setReq_mst (k : Nat) (r : Option Req) : (s.setReq k r).mst = s.mst := rfl
@[simp] theorem State.setReq_run (k : Nat) (r : Option Req) : (s.setReq k r).run = s.run := rfl
@[simp] theorem State.setReq_budget (k : Nat) (r : Option Req) : (s.setReq k r).budget = s.budget := rfl
@[simp] theorem State.setReq_ojobs (k : Nat) (r : Option Req) : (s.setReq k r).ojobs = s.ojobs := rfl
@[simp] theorem State.setReq_triad (k : Nat) (r : Option Req) : (s.setReq k r).triad = s.triad := rfl
@[simp] theorem State.setReq_slx (k : Nat) (r : Option Req) : (s.setReq k r).slx = s.slx := rfl
@[simp] theorem State.setReq_sec (k : Nat) (r : Option Req) : (s.setReq k r).sec = s.sec := rfl
@[simp] theorem State.setReq_lanes (k : Nat) (r : Option Req) : (s.setReq k r).lanes = s.lanes := rfl
@[simp] theorem State.setReq_aux (k : Nat) (r : Option Req) : (s.setReq k r).aux = s.aux := rfl
@[simp] theorem State.setReq_sniff (k : Nat) (r : Option Req) : (s.setReq k r).sniff = s.sniff := rfl
@[simp] theorem State.setReq_fio (k : Nat) (r : Option Req) : (s.setReq k r).fio = s.fio := rfl
@[simp] theorem State.setReq_hq (k : Nat) (r : Option Req) : (s.setReq k r).hq = s.hq := rfl
@[simp] theorem State.setReq_pbx (k : Nat) (r : Option Req) : (s.setReq k r).pbx = s.pbx := rfl
@[simp] theorem State.setReq_pel (k : Nat) (r : Option Req) : (s.setReq k r).pel = s.pel := rfl
@[simp] theorem State.setReq_tw (k : Nat) (r : Option Req) : (s.setReq k r).tw = s.tw := rfl
@[simp] theorem State.setReq_acq (k : Nat) (r : Option Req) : (s.setReq k r).acq = s.acq := rfl
@[simp] theorem State.setReq_bays (k : Nat) (r : Option Req) : (s.setReq k r).bays = s.bays := rfl
@[simp] theorem State.setReq_rd (k : Nat) (r : Option Req) (j : Nat) : (s.setReq k r).rd j = s.rd j := by
  simp only [State.rd, State.setReq_regs]

/-! ### place -/

@[simp] theorem State.place_pending (k : Nat) (v : Word) (p : Port) : (s.place k v p).pending = s.pending := rfl
@[simp] theorem State.place_regs (k : Nat) (v : Word) (p : Port) : (s.place k v p).regs = s.regs := rfl
@[simp] theorem State.place_mem (k : Nat) (v : Word) (p : Port) : (s.place k v p).mem = s.mem := rfl
@[simp] theorem State.place_freeIx (k : Nat) (v : Word) (p : Port) : (s.place k v p).freeIx = s.freeIx := rfl
@[simp] theorem State.place_sent (k : Nat) (v : Word) (p : Port) : (s.place k v p).sent = s.sent := rfl
@[simp] theorem State.place_rdata (k : Nat) (v : Word) (p : Port) : (s.place k v p).rdata = s.rdata := rfl
@[simp] theorem State.place_phase (k : Nat) (v : Word) (p : Port) : (s.place k v p).phase = s.phase := rfl
@[simp] theorem State.place_pins (k : Nat) (v : Word) (p : Port) : (s.place k v p).pins = s.pins := rfl
@[simp] theorem State.place_causes (k : Nat) (v : Word) (p : Port) : (s.place k v p).causes = s.causes := rfl
@[simp] theorem State.place_sup (k : Nat) (v : Word) (p : Port) : (s.place k v p).sup = s.sup := rfl
@[simp] theorem State.place_link (k : Nat) (v : Word) (p : Port) : (s.place k v p).link = s.link := rfl
@[simp] theorem State.place_time (k : Nat) (v : Word) (p : Port) : (s.place k v p).time = s.time := rfl
@[simp] theorem State.place_evl (k : Nat) (v : Word) (p : Port) : (s.place k v p).evl = s.evl := rfl
@[simp] theorem State.place_mst (k : Nat) (v : Word) (p : Port) : (s.place k v p).mst = s.mst := rfl
@[simp] theorem State.place_run (k : Nat) (v : Word) (p : Port) : (s.place k v p).run = s.run := rfl
@[simp] theorem State.place_budget (k : Nat) (v : Word) (p : Port) : (s.place k v p).budget = s.budget := rfl
@[simp] theorem State.place_ojobs (k : Nat) (v : Word) (p : Port) : (s.place k v p).ojobs = s.ojobs := rfl
@[simp] theorem State.place_triad (k : Nat) (v : Word) (p : Port) : (s.place k v p).triad = s.triad := rfl
@[simp] theorem State.place_slx (k : Nat) (v : Word) (p : Port) : (s.place k v p).slx = s.slx := rfl
@[simp] theorem State.place_sec (k : Nat) (v : Word) (p : Port) : (s.place k v p).sec = s.sec := rfl
@[simp] theorem State.place_lanes (k : Nat) (v : Word) (p : Port) : (s.place k v p).lanes = s.lanes := rfl
@[simp] theorem State.place_aux (k : Nat) (v : Word) (p : Port) : (s.place k v p).aux = s.aux := rfl
@[simp] theorem State.place_sniff (k : Nat) (v : Word) (p : Port) : (s.place k v p).sniff = s.sniff := rfl
@[simp] theorem State.place_fio (k : Nat) (v : Word) (p : Port) : (s.place k v p).fio = s.fio := rfl
@[simp] theorem State.place_hq (k : Nat) (v : Word) (p : Port) : (s.place k v p).hq = s.hq := rfl
@[simp] theorem State.place_pbx (k : Nat) (v : Word) (p : Port) : (s.place k v p).pbx = s.pbx := rfl
@[simp] theorem State.place_pel (k : Nat) (v : Word) (p : Port) : (s.place k v p).pel = s.pel := rfl
@[simp] theorem State.place_tw (k : Nat) (v : Word) (p : Port) : (s.place k v p).tw = s.tw := rfl
@[simp] theorem State.place_acq (k : Nat) (v : Word) (p : Port) : (s.place k v p).acq = s.acq := rfl
@[simp] theorem State.place_bays (k : Nat) (v : Word) (p : Port) : (s.place k v p).bays = s.bays := rfl
@[simp] theorem State.place_rd (k : Nat) (v : Word) (p : Port) (j : Nat) : (s.place k v p).rd j = s.rd j := by
  simp only [State.rd, State.place_regs]

/-! ### placeEach -/

@[simp] theorem State.placeEach_pending (k : Nat) (v : Word) (p : Port) : (s.placeEach k v p).pending = s.pending := rfl
@[simp] theorem State.placeEach_regs (k : Nat) (v : Word) (p : Port) : (s.placeEach k v p).regs = s.regs := rfl
@[simp] theorem State.placeEach_mem (k : Nat) (v : Word) (p : Port) : (s.placeEach k v p).mem = s.mem := rfl
@[simp] theorem State.placeEach_freeIx (k : Nat) (v : Word) (p : Port) : (s.placeEach k v p).freeIx = s.freeIx := rfl
@[simp] theorem State.placeEach_sent (k : Nat) (v : Word) (p : Port) : (s.placeEach k v p).sent = s.sent := rfl
@[simp] theorem State.placeEach_rdata (k : Nat) (v : Word) (p : Port) : (s.placeEach k v p).rdata = s.rdata := rfl
@[simp] theorem State.placeEach_phase (k : Nat) (v : Word) (p : Port) : (s.placeEach k v p).phase = s.phase := rfl
@[simp] theorem State.placeEach_pins (k : Nat) (v : Word) (p : Port) : (s.placeEach k v p).pins = s.pins := rfl
@[simp] theorem State.placeEach_causes (k : Nat) (v : Word) (p : Port) : (s.placeEach k v p).causes = s.causes := rfl
@[simp] theorem State.placeEach_sup (k : Nat) (v : Word) (p : Port) : (s.placeEach k v p).sup = s.sup := rfl
@[simp] theorem State.placeEach_link (k : Nat) (v : Word) (p : Port) : (s.placeEach k v p).link = s.link := rfl
@[simp] theorem State.placeEach_time (k : Nat) (v : Word) (p : Port) : (s.placeEach k v p).time = s.time := rfl
@[simp] theorem State.placeEach_evl (k : Nat) (v : Word) (p : Port) : (s.placeEach k v p).evl = s.evl := rfl
@[simp] theorem State.placeEach_mst (k : Nat) (v : Word) (p : Port) : (s.placeEach k v p).mst = s.mst := rfl
@[simp] theorem State.placeEach_run (k : Nat) (v : Word) (p : Port) : (s.placeEach k v p).run = s.run := rfl
@[simp] theorem State.placeEach_budget (k : Nat) (v : Word) (p : Port) : (s.placeEach k v p).budget = s.budget := rfl
@[simp] theorem State.placeEach_ojobs (k : Nat) (v : Word) (p : Port) : (s.placeEach k v p).ojobs = s.ojobs := rfl
@[simp] theorem State.placeEach_triad (k : Nat) (v : Word) (p : Port) : (s.placeEach k v p).triad = s.triad := rfl
@[simp] theorem State.placeEach_slx (k : Nat) (v : Word) (p : Port) : (s.placeEach k v p).slx = s.slx := rfl
@[simp] theorem State.placeEach_sec (k : Nat) (v : Word) (p : Port) : (s.placeEach k v p).sec = s.sec := rfl
@[simp] theorem State.placeEach_lanes (k : Nat) (v : Word) (p : Port) : (s.placeEach k v p).lanes = s.lanes := rfl
@[simp] theorem State.placeEach_aux (k : Nat) (v : Word) (p : Port) : (s.placeEach k v p).aux = s.aux := rfl
@[simp] theorem State.placeEach_sniff (k : Nat) (v : Word) (p : Port) : (s.placeEach k v p).sniff = s.sniff := rfl
@[simp] theorem State.placeEach_fio (k : Nat) (v : Word) (p : Port) : (s.placeEach k v p).fio = s.fio := rfl
@[simp] theorem State.placeEach_hq (k : Nat) (v : Word) (p : Port) : (s.placeEach k v p).hq = s.hq := rfl
@[simp] theorem State.placeEach_pbx (k : Nat) (v : Word) (p : Port) : (s.placeEach k v p).pbx = s.pbx := rfl
@[simp] theorem State.placeEach_pel (k : Nat) (v : Word) (p : Port) : (s.placeEach k v p).pel = s.pel := rfl
@[simp] theorem State.placeEach_tw (k : Nat) (v : Word) (p : Port) : (s.placeEach k v p).tw = s.tw := rfl
@[simp] theorem State.placeEach_acq (k : Nat) (v : Word) (p : Port) : (s.placeEach k v p).acq = s.acq := rfl
@[simp] theorem State.placeEach_bays (k : Nat) (v : Word) (p : Port) : (s.placeEach k v p).bays = s.bays := rfl
@[simp] theorem State.placeEach_rd (k : Nat) (v : Word) (p : Port) (j : Nat) : (s.placeEach k v p).rd j = s.rd j := by
  simp only [State.rd, State.placeEach_regs]

/-! ### placeHyper -/

@[simp] theorem State.placeHyper_pending (k : Nat) (v : Word) (p : Port) : (s.placeHyper k v p).pending = s.pending := rfl
@[simp] theorem State.placeHyper_regs (k : Nat) (v : Word) (p : Port) : (s.placeHyper k v p).regs = s.regs := rfl
@[simp] theorem State.placeHyper_mem (k : Nat) (v : Word) (p : Port) : (s.placeHyper k v p).mem = s.mem := rfl
@[simp] theorem State.placeHyper_freeIx (k : Nat) (v : Word) (p : Port) : (s.placeHyper k v p).freeIx = s.freeIx := rfl
@[simp] theorem State.placeHyper_sent (k : Nat) (v : Word) (p : Port) : (s.placeHyper k v p).sent = s.sent := rfl
@[simp] theorem State.placeHyper_rdata (k : Nat) (v : Word) (p : Port) : (s.placeHyper k v p).rdata = s.rdata := rfl
@[simp] theorem State.placeHyper_phase (k : Nat) (v : Word) (p : Port) : (s.placeHyper k v p).phase = s.phase := rfl
@[simp] theorem State.placeHyper_pins (k : Nat) (v : Word) (p : Port) : (s.placeHyper k v p).pins = s.pins := rfl
@[simp] theorem State.placeHyper_causes (k : Nat) (v : Word) (p : Port) : (s.placeHyper k v p).causes = s.causes := rfl
@[simp] theorem State.placeHyper_sup (k : Nat) (v : Word) (p : Port) : (s.placeHyper k v p).sup = s.sup := rfl
@[simp] theorem State.placeHyper_link (k : Nat) (v : Word) (p : Port) : (s.placeHyper k v p).link = s.link := rfl
@[simp] theorem State.placeHyper_time (k : Nat) (v : Word) (p : Port) : (s.placeHyper k v p).time = s.time := rfl
@[simp] theorem State.placeHyper_evl (k : Nat) (v : Word) (p : Port) : (s.placeHyper k v p).evl = s.evl := rfl
@[simp] theorem State.placeHyper_mst (k : Nat) (v : Word) (p : Port) : (s.placeHyper k v p).mst = s.mst := rfl
@[simp] theorem State.placeHyper_run (k : Nat) (v : Word) (p : Port) : (s.placeHyper k v p).run = s.run := rfl
@[simp] theorem State.placeHyper_budget (k : Nat) (v : Word) (p : Port) : (s.placeHyper k v p).budget = s.budget := rfl
@[simp] theorem State.placeHyper_ojobs (k : Nat) (v : Word) (p : Port) : (s.placeHyper k v p).ojobs = s.ojobs := rfl
@[simp] theorem State.placeHyper_triad (k : Nat) (v : Word) (p : Port) : (s.placeHyper k v p).triad = s.triad := rfl
@[simp] theorem State.placeHyper_slx (k : Nat) (v : Word) (p : Port) : (s.placeHyper k v p).slx = s.slx := rfl
@[simp] theorem State.placeHyper_sec (k : Nat) (v : Word) (p : Port) : (s.placeHyper k v p).sec = s.sec := rfl
@[simp] theorem State.placeHyper_lanes (k : Nat) (v : Word) (p : Port) : (s.placeHyper k v p).lanes = s.lanes := rfl
@[simp] theorem State.placeHyper_aux (k : Nat) (v : Word) (p : Port) : (s.placeHyper k v p).aux = s.aux := rfl
@[simp] theorem State.placeHyper_sniff (k : Nat) (v : Word) (p : Port) : (s.placeHyper k v p).sniff = s.sniff := rfl
@[simp] theorem State.placeHyper_fio (k : Nat) (v : Word) (p : Port) : (s.placeHyper k v p).fio = s.fio := rfl
@[simp] theorem State.placeHyper_hq (k : Nat) (v : Word) (p : Port) : (s.placeHyper k v p).hq = s.hq := rfl
@[simp] theorem State.placeHyper_pbx (k : Nat) (v : Word) (p : Port) : (s.placeHyper k v p).pbx = s.pbx := rfl
@[simp] theorem State.placeHyper_pel (k : Nat) (v : Word) (p : Port) : (s.placeHyper k v p).pel = s.pel := rfl
@[simp] theorem State.placeHyper_tw (k : Nat) (v : Word) (p : Port) : (s.placeHyper k v p).tw = s.tw := rfl
@[simp] theorem State.placeHyper_acq (k : Nat) (v : Word) (p : Port) : (s.placeHyper k v p).acq = s.acq := rfl
@[simp] theorem State.placeHyper_bays (k : Nat) (v : Word) (p : Port) : (s.placeHyper k v p).bays = s.bays := rfl
@[simp] theorem State.placeHyper_rd (k : Nat) (v : Word) (p : Port) (j : Nat) : (s.placeHyper k v p).rd j = s.rd j := by
  simp only [State.rd, State.placeHyper_regs]

/-! ### cause -/

@[simp] theorem State.cause_pending (p n : Nat) : (s.cause p n).pending = s.pending := rfl
@[simp] theorem State.cause_regs (p n : Nat) : (s.cause p n).regs = s.regs := rfl
@[simp] theorem State.cause_mem (p n : Nat) : (s.cause p n).mem = s.mem := rfl
@[simp] theorem State.cause_reqs (p n : Nat) : (s.cause p n).reqs = s.reqs := rfl
@[simp] theorem State.cause_freeIx (p n : Nat) : (s.cause p n).freeIx = s.freeIx := rfl
@[simp] theorem State.cause_sent (p n : Nat) : (s.cause p n).sent = s.sent := rfl
@[simp] theorem State.cause_rdata (p n : Nat) : (s.cause p n).rdata = s.rdata := rfl
@[simp] theorem State.cause_phase (p n : Nat) : (s.cause p n).phase = s.phase := rfl
@[simp] theorem State.cause_pins (p n : Nat) : (s.cause p n).pins = s.pins := rfl
@[simp] theorem State.cause_sup (p n : Nat) : (s.cause p n).sup = s.sup := rfl
@[simp] theorem State.cause_link (p n : Nat) : (s.cause p n).link = s.link := rfl
@[simp] theorem State.cause_time (p n : Nat) : (s.cause p n).time = s.time := rfl
@[simp] theorem State.cause_evl (p n : Nat) : (s.cause p n).evl = s.evl := rfl
@[simp] theorem State.cause_mst (p n : Nat) : (s.cause p n).mst = s.mst := rfl
@[simp] theorem State.cause_run (p n : Nat) : (s.cause p n).run = s.run := rfl
@[simp] theorem State.cause_budget (p n : Nat) : (s.cause p n).budget = s.budget := rfl
@[simp] theorem State.cause_ojobs (p n : Nat) : (s.cause p n).ojobs = s.ojobs := rfl
@[simp] theorem State.cause_triad (p n : Nat) : (s.cause p n).triad = s.triad := rfl
@[simp] theorem State.cause_slx (p n : Nat) : (s.cause p n).slx = s.slx := rfl
@[simp] theorem State.cause_sec (p n : Nat) : (s.cause p n).sec = s.sec := rfl
@[simp] theorem State.cause_lanes (p n : Nat) : (s.cause p n).lanes = s.lanes := rfl
@[simp] theorem State.cause_aux (p n : Nat) : (s.cause p n).aux = s.aux := rfl
@[simp] theorem State.cause_sniff (p n : Nat) : (s.cause p n).sniff = s.sniff := rfl
@[simp] theorem State.cause_fio (p n : Nat) : (s.cause p n).fio = s.fio := rfl
@[simp] theorem State.cause_hq (p n : Nat) : (s.cause p n).hq = s.hq := rfl
@[simp] theorem State.cause_pbx (p n : Nat) : (s.cause p n).pbx = s.pbx := rfl
@[simp] theorem State.cause_pel (p n : Nat) : (s.cause p n).pel = s.pel := rfl
@[simp] theorem State.cause_tw (p n : Nat) : (s.cause p n).tw = s.tw := rfl
@[simp] theorem State.cause_acq (p n : Nat) : (s.cause p n).acq = s.acq := rfl
@[simp] theorem State.cause_bays (p n : Nat) : (s.cause p n).bays = s.bays := rfl
@[simp] theorem State.cause_rd (p n : Nat) (j : Nat) : (s.cause p n).rd j = s.rd j := by
  simp only [State.rd, State.cause_regs]

/-! ### causeAll -/

@[simp] theorem State.causeAll_pending (n : Nat) : (s.causeAll n).pending = s.pending := rfl
@[simp] theorem State.causeAll_regs (n : Nat) : (s.causeAll n).regs = s.regs := rfl
@[simp] theorem State.causeAll_mem (n : Nat) : (s.causeAll n).mem = s.mem := rfl
@[simp] theorem State.causeAll_reqs (n : Nat) : (s.causeAll n).reqs = s.reqs := rfl
@[simp] theorem State.causeAll_freeIx (n : Nat) : (s.causeAll n).freeIx = s.freeIx := rfl
@[simp] theorem State.causeAll_sent (n : Nat) : (s.causeAll n).sent = s.sent := rfl
@[simp] theorem State.causeAll_rdata (n : Nat) : (s.causeAll n).rdata = s.rdata := rfl
@[simp] theorem State.causeAll_phase (n : Nat) : (s.causeAll n).phase = s.phase := rfl
@[simp] theorem State.causeAll_pins (n : Nat) : (s.causeAll n).pins = s.pins := rfl
@[simp] theorem State.causeAll_sup (n : Nat) : (s.causeAll n).sup = s.sup := rfl
@[simp] theorem State.causeAll_link (n : Nat) : (s.causeAll n).link = s.link := rfl
@[simp] theorem State.causeAll_time (n : Nat) : (s.causeAll n).time = s.time := rfl
@[simp] theorem State.causeAll_evl (n : Nat) : (s.causeAll n).evl = s.evl := rfl
@[simp] theorem State.causeAll_mst (n : Nat) : (s.causeAll n).mst = s.mst := rfl
@[simp] theorem State.causeAll_run (n : Nat) : (s.causeAll n).run = s.run := rfl
@[simp] theorem State.causeAll_budget (n : Nat) : (s.causeAll n).budget = s.budget := rfl
@[simp] theorem State.causeAll_ojobs (n : Nat) : (s.causeAll n).ojobs = s.ojobs := rfl
@[simp] theorem State.causeAll_triad (n : Nat) : (s.causeAll n).triad = s.triad := rfl
@[simp] theorem State.causeAll_slx (n : Nat) : (s.causeAll n).slx = s.slx := rfl
@[simp] theorem State.causeAll_sec (n : Nat) : (s.causeAll n).sec = s.sec := rfl
@[simp] theorem State.causeAll_lanes (n : Nat) : (s.causeAll n).lanes = s.lanes := rfl
@[simp] theorem State.causeAll_aux (n : Nat) : (s.causeAll n).aux = s.aux := rfl
@[simp] theorem State.causeAll_sniff (n : Nat) : (s.causeAll n).sniff = s.sniff := rfl
@[simp] theorem State.causeAll_fio (n : Nat) : (s.causeAll n).fio = s.fio := rfl
@[simp] theorem State.causeAll_hq (n : Nat) : (s.causeAll n).hq = s.hq := rfl
@[simp] theorem State.causeAll_pbx (n : Nat) : (s.causeAll n).pbx = s.pbx := rfl
@[simp] theorem State.causeAll_pel (n : Nat) : (s.causeAll n).pel = s.pel := rfl
@[simp] theorem State.causeAll_tw (n : Nat) : (s.causeAll n).tw = s.tw := rfl
@[simp] theorem State.causeAll_acq (n : Nat) : (s.causeAll n).acq = s.acq := rfl
@[simp] theorem State.causeAll_bays (n : Nat) : (s.causeAll n).bays = s.bays := rfl
@[simp] theorem State.causeAll_rd (n : Nat) (j : Nat) : (s.causeAll n).rd j = s.rd j := by
  simp only [State.rd, State.causeAll_regs]

/-! ### putRaw -/

@[simp] theorem State.putRaw_pending (r w : Nat) (d : Word) (c : Nat) : (s.putRaw r w d c).pending = s.pending := rfl
@[simp] theorem State.putRaw_regs (r w : Nat) (d : Word) (c : Nat) : (s.putRaw r w d c).regs = s.regs := rfl
@[simp] theorem State.putRaw_reqs (r w : Nat) (d : Word) (c : Nat) : (s.putRaw r w d c).reqs = s.reqs := rfl
@[simp] theorem State.putRaw_freeIx (r w : Nat) (d : Word) (c : Nat) : (s.putRaw r w d c).freeIx = s.freeIx := rfl
@[simp] theorem State.putRaw_sent (r w : Nat) (d : Word) (c : Nat) : (s.putRaw r w d c).sent = s.sent := rfl
@[simp] theorem State.putRaw_rdata (r w : Nat) (d : Word) (c : Nat) : (s.putRaw r w d c).rdata = s.rdata := rfl
@[simp] theorem State.putRaw_phase (r w : Nat) (d : Word) (c : Nat) : (s.putRaw r w d c).phase = s.phase := rfl
@[simp] theorem State.putRaw_pins (r w : Nat) (d : Word) (c : Nat) : (s.putRaw r w d c).pins = s.pins := rfl
@[simp] theorem State.putRaw_causes (r w : Nat) (d : Word) (c : Nat) : (s.putRaw r w d c).causes = s.causes := rfl
@[simp] theorem State.putRaw_sup (r w : Nat) (d : Word) (c : Nat) : (s.putRaw r w d c).sup = s.sup := rfl
@[simp] theorem State.putRaw_link (r w : Nat) (d : Word) (c : Nat) : (s.putRaw r w d c).link = s.link := rfl
@[simp] theorem State.putRaw_time (r w : Nat) (d : Word) (c : Nat) : (s.putRaw r w d c).time = s.time := rfl
@[simp] theorem State.putRaw_evl (r w : Nat) (d : Word) (c : Nat) : (s.putRaw r w d c).evl = s.evl := rfl
@[simp] theorem State.putRaw_mst (r w : Nat) (d : Word) (c : Nat) : (s.putRaw r w d c).mst = s.mst := rfl
@[simp] theorem State.putRaw_run (r w : Nat) (d : Word) (c : Nat) : (s.putRaw r w d c).run = s.run := rfl
@[simp] theorem State.putRaw_budget (r w : Nat) (d : Word) (c : Nat) : (s.putRaw r w d c).budget = s.budget := rfl
@[simp] theorem State.putRaw_ojobs (r w : Nat) (d : Word) (c : Nat) : (s.putRaw r w d c).ojobs = s.ojobs := rfl
@[simp] theorem State.putRaw_triad (r w : Nat) (d : Word) (c : Nat) : (s.putRaw r w d c).triad = s.triad := rfl
@[simp] theorem State.putRaw_slx (r w : Nat) (d : Word) (c : Nat) : (s.putRaw r w d c).slx = s.slx := rfl
@[simp] theorem State.putRaw_sec (r w : Nat) (d : Word) (c : Nat) : (s.putRaw r w d c).sec = s.sec := rfl
@[simp] theorem State.putRaw_lanes (r w : Nat) (d : Word) (c : Nat) : (s.putRaw r w d c).lanes = s.lanes := rfl
@[simp] theorem State.putRaw_aux (r w : Nat) (d : Word) (c : Nat) : (s.putRaw r w d c).aux = s.aux := rfl
@[simp] theorem State.putRaw_sniff (r w : Nat) (d : Word) (c : Nat) : (s.putRaw r w d c).sniff = s.sniff := rfl
@[simp] theorem State.putRaw_fio (r w : Nat) (d : Word) (c : Nat) : (s.putRaw r w d c).fio = s.fio := rfl
@[simp] theorem State.putRaw_hq (r w : Nat) (d : Word) (c : Nat) : (s.putRaw r w d c).hq = s.hq := rfl
@[simp] theorem State.putRaw_pbx (r w : Nat) (d : Word) (c : Nat) : (s.putRaw r w d c).pbx = s.pbx := rfl
@[simp] theorem State.putRaw_pel (r w : Nat) (d : Word) (c : Nat) : (s.putRaw r w d c).pel = s.pel := rfl
@[simp] theorem State.putRaw_tw (r w : Nat) (d : Word) (c : Nat) : (s.putRaw r w d c).tw = s.tw := rfl
@[simp] theorem State.putRaw_acq (r w : Nat) (d : Word) (c : Nat) : (s.putRaw r w d c).acq = s.acq := rfl
@[simp] theorem State.putRaw_bays (r w : Nat) (d : Word) (c : Nat) : (s.putRaw r w d c).bays = s.bays := rfl
@[simp] theorem State.putRaw_rd (r w : Nat) (d : Word) (c : Nat) (j : Nat) : (s.putRaw r w d c).rd j = s.rd j := by
  simp only [State.rd, State.putRaw_regs]

/-! ### wrMem -/

@[simp] theorem State.wrMem_pending (r w : Nat) (v : Word) : (s.wrMem r w v).pending = s.pending := by simp only [State.wrMem, State.putRaw]
@[simp] theorem State.wrMem_regs (r w : Nat) (v : Word) : (s.wrMem r w v).regs = s.regs := by simp only [State.wrMem, State.putRaw]
@[simp] theorem State.wrMem_reqs (r w : Nat) (v : Word) : (s.wrMem r w v).reqs = s.reqs := by simp only [State.wrMem, State.putRaw]
@[simp] theorem State.wrMem_freeIx (r w : Nat) (v : Word) : (s.wrMem r w v).freeIx = s.freeIx := by simp only [State.wrMem, State.putRaw]
@[simp] theorem State.wrMem_sent (r w : Nat) (v : Word) : (s.wrMem r w v).sent = s.sent := by simp only [State.wrMem, State.putRaw]
@[simp] theorem State.wrMem_rdata (r w : Nat) (v : Word) : (s.wrMem r w v).rdata = s.rdata := by simp only [State.wrMem, State.putRaw]
@[simp] theorem State.wrMem_phase (r w : Nat) (v : Word) : (s.wrMem r w v).phase = s.phase := by simp only [State.wrMem, State.putRaw]
@[simp] theorem State.wrMem_pins (r w : Nat) (v : Word) : (s.wrMem r w v).pins = s.pins := by simp only [State.wrMem, State.putRaw]
@[simp] theorem State.wrMem_causes (r w : Nat) (v : Word) : (s.wrMem r w v).causes = s.causes := by simp only [State.wrMem, State.putRaw]
@[simp] theorem State.wrMem_sup (r w : Nat) (v : Word) : (s.wrMem r w v).sup = s.sup := by simp only [State.wrMem, State.putRaw]
@[simp] theorem State.wrMem_link (r w : Nat) (v : Word) : (s.wrMem r w v).link = s.link := by simp only [State.wrMem, State.putRaw]
@[simp] theorem State.wrMem_time (r w : Nat) (v : Word) : (s.wrMem r w v).time = s.time := by simp only [State.wrMem, State.putRaw]
@[simp] theorem State.wrMem_evl (r w : Nat) (v : Word) : (s.wrMem r w v).evl = s.evl := by simp only [State.wrMem, State.putRaw]
@[simp] theorem State.wrMem_run (r w : Nat) (v : Word) : (s.wrMem r w v).run = s.run := by simp only [State.wrMem, State.putRaw]
@[simp] theorem State.wrMem_budget (r w : Nat) (v : Word) : (s.wrMem r w v).budget = s.budget := by simp only [State.wrMem, State.putRaw]
@[simp] theorem State.wrMem_ojobs (r w : Nat) (v : Word) : (s.wrMem r w v).ojobs = s.ojobs := by simp only [State.wrMem, State.putRaw]
@[simp] theorem State.wrMem_triad (r w : Nat) (v : Word) : (s.wrMem r w v).triad = s.triad := by simp only [State.wrMem, State.putRaw]
@[simp] theorem State.wrMem_slx (r w : Nat) (v : Word) : (s.wrMem r w v).slx = s.slx := by simp only [State.wrMem, State.putRaw]
@[simp] theorem State.wrMem_sec (r w : Nat) (v : Word) : (s.wrMem r w v).sec = s.sec := by simp only [State.wrMem, State.putRaw]
@[simp] theorem State.wrMem_lanes (r w : Nat) (v : Word) : (s.wrMem r w v).lanes = s.lanes := by simp only [State.wrMem, State.putRaw]
@[simp] theorem State.wrMem_aux (r w : Nat) (v : Word) : (s.wrMem r w v).aux = s.aux := by simp only [State.wrMem, State.putRaw]
@[simp] theorem State.wrMem_sniff (r w : Nat) (v : Word) : (s.wrMem r w v).sniff = s.sniff := by simp only [State.wrMem, State.putRaw]
@[simp] theorem State.wrMem_fio (r w : Nat) (v : Word) : (s.wrMem r w v).fio = s.fio := by simp only [State.wrMem, State.putRaw]
@[simp] theorem State.wrMem_hq (r w : Nat) (v : Word) : (s.wrMem r w v).hq = s.hq := by simp only [State.wrMem, State.putRaw]
@[simp] theorem State.wrMem_pbx (r w : Nat) (v : Word) : (s.wrMem r w v).pbx = s.pbx := by simp only [State.wrMem, State.putRaw]
@[simp] theorem State.wrMem_pel (r w : Nat) (v : Word) : (s.wrMem r w v).pel = s.pel := by simp only [State.wrMem, State.putRaw]
@[simp] theorem State.wrMem_tw (r w : Nat) (v : Word) : (s.wrMem r w v).tw = s.tw := by simp only [State.wrMem, State.putRaw]
@[simp] theorem State.wrMem_acq (r w : Nat) (v : Word) : (s.wrMem r w v).acq = s.acq := by simp only [State.wrMem, State.putRaw]
@[simp] theorem State.wrMem_bays (r w : Nat) (v : Word) : (s.wrMem r w v).bays = s.bays := by simp only [State.wrMem, State.putRaw]
@[simp] theorem State.wrMem_rd (r w : Nat) (v : Word) (j : Nat) : (s.wrMem r w v).rd j = s.rd j := by
  simp only [State.rd, State.wrMem_regs]

/-! ### poisonMem -/

@[simp] theorem State.poisonMem_pending (r w : Nat) (v : Word) : (s.poisonMem r w v).pending = s.pending := by simp only [State.poisonMem, State.putRaw_pending, State.wrMem_pending]
@[simp] theorem State.poisonMem_regs (r w : Nat) (v : Word) : (s.poisonMem r w v).regs = s.regs := by simp only [State.poisonMem, State.putRaw_regs, State.wrMem_regs]
@[simp] theorem State.poisonMem_reqs (r w : Nat) (v : Word) : (s.poisonMem r w v).reqs = s.reqs := by simp only [State.poisonMem, State.putRaw_reqs, State.wrMem_reqs]
@[simp] theorem State.poisonMem_freeIx (r w : Nat) (v : Word) : (s.poisonMem r w v).freeIx = s.freeIx := by simp only [State.poisonMem, State.putRaw_freeIx, State.wrMem_freeIx]
@[simp] theorem State.poisonMem_sent (r w : Nat) (v : Word) : (s.poisonMem r w v).sent = s.sent := by simp only [State.poisonMem, State.putRaw_sent, State.wrMem_sent]
@[simp] theorem State.poisonMem_rdata (r w : Nat) (v : Word) : (s.poisonMem r w v).rdata = s.rdata := by simp only [State.poisonMem, State.putRaw_rdata, State.wrMem_rdata]
@[simp] theorem State.poisonMem_phase (r w : Nat) (v : Word) : (s.poisonMem r w v).phase = s.phase := by simp only [State.poisonMem, State.putRaw_phase, State.wrMem_phase]
@[simp] theorem State.poisonMem_pins (r w : Nat) (v : Word) : (s.poisonMem r w v).pins = s.pins := by simp only [State.poisonMem, State.putRaw_pins, State.wrMem_pins]
@[simp] theorem State.poisonMem_causes (r w : Nat) (v : Word) : (s.poisonMem r w v).causes = s.causes := by simp only [State.poisonMem, State.putRaw_causes, State.wrMem_causes]
@[simp] theorem State.poisonMem_sup (r w : Nat) (v : Word) : (s.poisonMem r w v).sup = s.sup := by simp only [State.poisonMem, State.putRaw_sup, State.wrMem_sup]
@[simp] theorem State.poisonMem_link (r w : Nat) (v : Word) : (s.poisonMem r w v).link = s.link := by simp only [State.poisonMem, State.putRaw_link, State.wrMem_link]
@[simp] theorem State.poisonMem_time (r w : Nat) (v : Word) : (s.poisonMem r w v).time = s.time := by simp only [State.poisonMem, State.putRaw_time, State.wrMem_time]
@[simp] theorem State.poisonMem_evl (r w : Nat) (v : Word) : (s.poisonMem r w v).evl = s.evl := by simp only [State.poisonMem, State.putRaw_evl, State.wrMem_evl]
@[simp] theorem State.poisonMem_run (r w : Nat) (v : Word) : (s.poisonMem r w v).run = s.run := by simp only [State.poisonMem, State.putRaw_run, State.wrMem_run]
@[simp] theorem State.poisonMem_budget (r w : Nat) (v : Word) : (s.poisonMem r w v).budget = s.budget := by simp only [State.poisonMem, State.putRaw_budget, State.wrMem_budget]
@[simp] theorem State.poisonMem_ojobs (r w : Nat) (v : Word) : (s.poisonMem r w v).ojobs = s.ojobs := by simp only [State.poisonMem, State.putRaw_ojobs, State.wrMem_ojobs]
@[simp] theorem State.poisonMem_triad (r w : Nat) (v : Word) : (s.poisonMem r w v).triad = s.triad := by simp only [State.poisonMem, State.putRaw_triad, State.wrMem_triad]
@[simp] theorem State.poisonMem_slx (r w : Nat) (v : Word) : (s.poisonMem r w v).slx = s.slx := by simp only [State.poisonMem, State.putRaw_slx, State.wrMem_slx]
@[simp] theorem State.poisonMem_sec (r w : Nat) (v : Word) : (s.poisonMem r w v).sec = s.sec := by simp only [State.poisonMem, State.putRaw_sec, State.wrMem_sec]
@[simp] theorem State.poisonMem_lanes (r w : Nat) (v : Word) : (s.poisonMem r w v).lanes = s.lanes := by simp only [State.poisonMem, State.putRaw_lanes, State.wrMem_lanes]
@[simp] theorem State.poisonMem_aux (r w : Nat) (v : Word) : (s.poisonMem r w v).aux = s.aux := by simp only [State.poisonMem, State.putRaw_aux, State.wrMem_aux]
@[simp] theorem State.poisonMem_sniff (r w : Nat) (v : Word) : (s.poisonMem r w v).sniff = s.sniff := by simp only [State.poisonMem, State.putRaw_sniff, State.wrMem_sniff]
@[simp] theorem State.poisonMem_fio (r w : Nat) (v : Word) : (s.poisonMem r w v).fio = s.fio := by simp only [State.poisonMem, State.putRaw_fio, State.wrMem_fio]
@[simp] theorem State.poisonMem_hq (r w : Nat) (v : Word) : (s.poisonMem r w v).hq = s.hq := by simp only [State.poisonMem, State.putRaw_hq, State.wrMem_hq]
@[simp] theorem State.poisonMem_pbx (r w : Nat) (v : Word) : (s.poisonMem r w v).pbx = s.pbx := by simp only [State.poisonMem, State.putRaw_pbx, State.wrMem_pbx]
@[simp] theorem State.poisonMem_pel (r w : Nat) (v : Word) : (s.poisonMem r w v).pel = s.pel := by simp only [State.poisonMem, State.putRaw_pel, State.wrMem_pel]
@[simp] theorem State.poisonMem_tw (r w : Nat) (v : Word) : (s.poisonMem r w v).tw = s.tw := by simp only [State.poisonMem, State.putRaw_tw, State.wrMem_tw]
@[simp] theorem State.poisonMem_acq (r w : Nat) (v : Word) : (s.poisonMem r w v).acq = s.acq := by simp only [State.poisonMem, State.putRaw_acq, State.wrMem_acq]
@[simp] theorem State.poisonMem_bays (r w : Nat) (v : Word) : (s.poisonMem r w v).bays = s.bays := by simp only [State.poisonMem, State.putRaw_bays, State.wrMem_bays]
@[simp] theorem State.poisonMem_rd (r w : Nat) (v : Word) (j : Nat) : (s.poisonMem r w v).rd j = s.rd j := by
  simp only [State.rd, State.poisonMem_regs]

/-! ### modLane -/

@[simp] theorem State.modLane_pending (l : Nat) (f : LaneSt → LaneSt) : (s.modLane l f).pending = s.pending := rfl
@[simp] theorem State.modLane_regs (l : Nat) (f : LaneSt → LaneSt) : (s.modLane l f).regs = s.regs := rfl
@[simp] theorem State.modLane_mem (l : Nat) (f : LaneSt → LaneSt) : (s.modLane l f).mem = s.mem := rfl
@[simp] theorem State.modLane_reqs (l : Nat) (f : LaneSt → LaneSt) : (s.modLane l f).reqs = s.reqs := rfl
@[simp] theorem State.modLane_freeIx (l : Nat) (f : LaneSt → LaneSt) : (s.modLane l f).freeIx = s.freeIx := rfl
@[simp] theorem State.modLane_sent (l : Nat) (f : LaneSt → LaneSt) : (s.modLane l f).sent = s.sent := rfl
@[simp] theorem State.modLane_rdata (l : Nat) (f : LaneSt → LaneSt) : (s.modLane l f).rdata = s.rdata := rfl
@[simp] theorem State.modLane_phase (l : Nat) (f : LaneSt → LaneSt) : (s.modLane l f).phase = s.phase := rfl
@[simp] theorem State.modLane_pins (l : Nat) (f : LaneSt → LaneSt) : (s.modLane l f).pins = s.pins := rfl
@[simp] theorem State.modLane_causes (l : Nat) (f : LaneSt → LaneSt) : (s.modLane l f).causes = s.causes := rfl
@[simp] theorem State.modLane_sup (l : Nat) (f : LaneSt → LaneSt) : (s.modLane l f).sup = s.sup := rfl
@[simp] theorem State.modLane_link (l : Nat) (f : LaneSt → LaneSt) : (s.modLane l f).link = s.link := rfl
@[simp] theorem State.modLane_time (l : Nat) (f : LaneSt → LaneSt) : (s.modLane l f).time = s.time := rfl
@[simp] theorem State.modLane_evl (l : Nat) (f : LaneSt → LaneSt) : (s.modLane l f).evl = s.evl := rfl
@[simp] theorem State.modLane_mst (l : Nat) (f : LaneSt → LaneSt) : (s.modLane l f).mst = s.mst := rfl
@[simp] theorem State.modLane_run (l : Nat) (f : LaneSt → LaneSt) : (s.modLane l f).run = s.run := rfl
@[simp] theorem State.modLane_budget (l : Nat) (f : LaneSt → LaneSt) : (s.modLane l f).budget = s.budget := rfl
@[simp] theorem State.modLane_ojobs (l : Nat) (f : LaneSt → LaneSt) : (s.modLane l f).ojobs = s.ojobs := rfl
@[simp] theorem State.modLane_triad (l : Nat) (f : LaneSt → LaneSt) : (s.modLane l f).triad = s.triad := rfl
@[simp] theorem State.modLane_slx (l : Nat) (f : LaneSt → LaneSt) : (s.modLane l f).slx = s.slx := rfl
@[simp] theorem State.modLane_sec (l : Nat) (f : LaneSt → LaneSt) : (s.modLane l f).sec = s.sec := rfl
@[simp] theorem State.modLane_aux (l : Nat) (f : LaneSt → LaneSt) : (s.modLane l f).aux = s.aux := rfl
@[simp] theorem State.modLane_sniff (l : Nat) (f : LaneSt → LaneSt) : (s.modLane l f).sniff = s.sniff := rfl
@[simp] theorem State.modLane_fio (l : Nat) (f : LaneSt → LaneSt) : (s.modLane l f).fio = s.fio := rfl
@[simp] theorem State.modLane_hq (l : Nat) (f : LaneSt → LaneSt) : (s.modLane l f).hq = s.hq := rfl
@[simp] theorem State.modLane_pbx (l : Nat) (f : LaneSt → LaneSt) : (s.modLane l f).pbx = s.pbx := rfl
@[simp] theorem State.modLane_pel (l : Nat) (f : LaneSt → LaneSt) : (s.modLane l f).pel = s.pel := rfl
@[simp] theorem State.modLane_tw (l : Nat) (f : LaneSt → LaneSt) : (s.modLane l f).tw = s.tw := rfl
@[simp] theorem State.modLane_acq (l : Nat) (f : LaneSt → LaneSt) : (s.modLane l f).acq = s.acq := rfl
@[simp] theorem State.modLane_bays (l : Nat) (f : LaneSt → LaneSt) : (s.modLane l f).bays = s.bays := rfl
@[simp] theorem State.modLane_rd (l : Nat) (f : LaneSt → LaneSt) (j : Nat) : (s.modLane l f).rd j = s.rd j := by
  simp only [State.rd, State.modLane_regs]

/-! ### modBay -/

@[simp] theorem State.modBay_pending (b : Nat) (f : BaySt → BaySt) : (s.modBay b f).pending = s.pending := rfl
@[simp] theorem State.modBay_regs (b : Nat) (f : BaySt → BaySt) : (s.modBay b f).regs = s.regs := rfl
@[simp] theorem State.modBay_mem (b : Nat) (f : BaySt → BaySt) : (s.modBay b f).mem = s.mem := rfl
@[simp] theorem State.modBay_reqs (b : Nat) (f : BaySt → BaySt) : (s.modBay b f).reqs = s.reqs := rfl
@[simp] theorem State.modBay_freeIx (b : Nat) (f : BaySt → BaySt) : (s.modBay b f).freeIx = s.freeIx := rfl
@[simp] theorem State.modBay_sent (b : Nat) (f : BaySt → BaySt) : (s.modBay b f).sent = s.sent := rfl
@[simp] theorem State.modBay_rdata (b : Nat) (f : BaySt → BaySt) : (s.modBay b f).rdata = s.rdata := rfl
@[simp] theorem State.modBay_phase (b : Nat) (f : BaySt → BaySt) : (s.modBay b f).phase = s.phase := rfl
@[simp] theorem State.modBay_pins (b : Nat) (f : BaySt → BaySt) : (s.modBay b f).pins = s.pins := rfl
@[simp] theorem State.modBay_causes (b : Nat) (f : BaySt → BaySt) : (s.modBay b f).causes = s.causes := rfl
@[simp] theorem State.modBay_sup (b : Nat) (f : BaySt → BaySt) : (s.modBay b f).sup = s.sup := rfl
@[simp] theorem State.modBay_link (b : Nat) (f : BaySt → BaySt) : (s.modBay b f).link = s.link := rfl
@[simp] theorem State.modBay_time (b : Nat) (f : BaySt → BaySt) : (s.modBay b f).time = s.time := rfl
@[simp] theorem State.modBay_evl (b : Nat) (f : BaySt → BaySt) : (s.modBay b f).evl = s.evl := rfl
@[simp] theorem State.modBay_mst (b : Nat) (f : BaySt → BaySt) : (s.modBay b f).mst = s.mst := rfl
@[simp] theorem State.modBay_run (b : Nat) (f : BaySt → BaySt) : (s.modBay b f).run = s.run := rfl
@[simp] theorem State.modBay_budget (b : Nat) (f : BaySt → BaySt) : (s.modBay b f).budget = s.budget := rfl
@[simp] theorem State.modBay_ojobs (b : Nat) (f : BaySt → BaySt) : (s.modBay b f).ojobs = s.ojobs := rfl
@[simp] theorem State.modBay_triad (b : Nat) (f : BaySt → BaySt) : (s.modBay b f).triad = s.triad := rfl
@[simp] theorem State.modBay_slx (b : Nat) (f : BaySt → BaySt) : (s.modBay b f).slx = s.slx := rfl
@[simp] theorem State.modBay_sec (b : Nat) (f : BaySt → BaySt) : (s.modBay b f).sec = s.sec := rfl
@[simp] theorem State.modBay_lanes (b : Nat) (f : BaySt → BaySt) : (s.modBay b f).lanes = s.lanes := rfl
@[simp] theorem State.modBay_aux (b : Nat) (f : BaySt → BaySt) : (s.modBay b f).aux = s.aux := rfl
@[simp] theorem State.modBay_sniff (b : Nat) (f : BaySt → BaySt) : (s.modBay b f).sniff = s.sniff := rfl
@[simp] theorem State.modBay_fio (b : Nat) (f : BaySt → BaySt) : (s.modBay b f).fio = s.fio := rfl
@[simp] theorem State.modBay_hq (b : Nat) (f : BaySt → BaySt) : (s.modBay b f).hq = s.hq := rfl
@[simp] theorem State.modBay_pbx (b : Nat) (f : BaySt → BaySt) : (s.modBay b f).pbx = s.pbx := rfl
@[simp] theorem State.modBay_pel (b : Nat) (f : BaySt → BaySt) : (s.modBay b f).pel = s.pel := rfl
@[simp] theorem State.modBay_tw (b : Nat) (f : BaySt → BaySt) : (s.modBay b f).tw = s.tw := rfl
@[simp] theorem State.modBay_acq (b : Nat) (f : BaySt → BaySt) : (s.modBay b f).acq = s.acq := rfl
@[simp] theorem State.modBay_rd (b : Nat) (f : BaySt → BaySt) (j : Nat) : (s.modBay b f).rd j = s.rd j := by
  simp only [State.rd, State.modBay_regs]

/-! ### takeRun -/

@[simp] theorem State.takeRun_pending (k g : Nat) : (s.takeRun k g).pending = s.pending := rfl
@[simp] theorem State.takeRun_regs (k g : Nat) : (s.takeRun k g).regs = s.regs := rfl
@[simp] theorem State.takeRun_mem (k g : Nat) : (s.takeRun k g).mem = s.mem := rfl
@[simp] theorem State.takeRun_reqs (k g : Nat) : (s.takeRun k g).reqs = s.reqs := rfl
@[simp] theorem State.takeRun_freeIx (k g : Nat) : (s.takeRun k g).freeIx = s.freeIx := rfl
@[simp] theorem State.takeRun_sent (k g : Nat) : (s.takeRun k g).sent = s.sent := rfl
@[simp] theorem State.takeRun_rdata (k g : Nat) : (s.takeRun k g).rdata = s.rdata := rfl
@[simp] theorem State.takeRun_phase (k g : Nat) : (s.takeRun k g).phase = s.phase := rfl
@[simp] theorem State.takeRun_pins (k g : Nat) : (s.takeRun k g).pins = s.pins := rfl
@[simp] theorem State.takeRun_causes (k g : Nat) : (s.takeRun k g).causes = s.causes := rfl
@[simp] theorem State.takeRun_sup (k g : Nat) : (s.takeRun k g).sup = s.sup := rfl
@[simp] theorem State.takeRun_link (k g : Nat) : (s.takeRun k g).link = s.link := rfl
@[simp] theorem State.takeRun_time (k g : Nat) : (s.takeRun k g).time = s.time := rfl
@[simp] theorem State.takeRun_evl (k g : Nat) : (s.takeRun k g).evl = s.evl := rfl
@[simp] theorem State.takeRun_mst (k g : Nat) : (s.takeRun k g).mst = s.mst := rfl
@[simp] theorem State.takeRun_run (k g : Nat) : (s.takeRun k g).run = s.run := rfl
@[simp] theorem State.takeRun_budget (k g : Nat) : (s.takeRun k g).budget = s.budget := rfl
@[simp] theorem State.takeRun_triad (k g : Nat) : (s.takeRun k g).triad = s.triad := rfl
@[simp] theorem State.takeRun_slx (k g : Nat) : (s.takeRun k g).slx = s.slx := rfl
@[simp] theorem State.takeRun_sec (k g : Nat) : (s.takeRun k g).sec = s.sec := rfl
@[simp] theorem State.takeRun_lanes (k g : Nat) : (s.takeRun k g).lanes = s.lanes := rfl
@[simp] theorem State.takeRun_aux (k g : Nat) : (s.takeRun k g).aux = s.aux := rfl
@[simp] theorem State.takeRun_sniff (k g : Nat) : (s.takeRun k g).sniff = s.sniff := rfl
@[simp] theorem State.takeRun_fio (k g : Nat) : (s.takeRun k g).fio = s.fio := rfl
@[simp] theorem State.takeRun_hq (k g : Nat) : (s.takeRun k g).hq = s.hq := rfl
@[simp] theorem State.takeRun_pbx (k g : Nat) : (s.takeRun k g).pbx = s.pbx := rfl
@[simp] theorem State.takeRun_pel (k g : Nat) : (s.takeRun k g).pel = s.pel := rfl
@[simp] theorem State.takeRun_tw (k g : Nat) : (s.takeRun k g).tw = s.tw := rfl
@[simp] theorem State.takeRun_acq (k g : Nat) : (s.takeRun k g).acq = s.acq := rfl
@[simp] theorem State.takeRun_bays (k g : Nat) : (s.takeRun k g).bays = s.bays := rfl
@[simp] theorem State.takeRun_rd (k g : Nat) (j : Nat) : (s.takeRun k g).rd j = s.rd j := by
  simp only [State.rd, State.takeRun_regs]

/-! ### queueRun -/

@[simp] theorem State.queueRun_pending (k : Nat) : (s.queueRun k).pending = s.pending := rfl
@[simp] theorem State.queueRun_regs (k : Nat) : (s.queueRun k).regs = s.regs := rfl
@[simp] theorem State.queueRun_mem (k : Nat) : (s.queueRun k).mem = s.mem := rfl
@[simp] theorem State.queueRun_reqs (k : Nat) : (s.queueRun k).reqs = s.reqs := rfl
@[simp] theorem State.queueRun_freeIx (k : Nat) : (s.queueRun k).freeIx = s.freeIx := rfl
@[simp] theorem State.queueRun_sent (k : Nat) : (s.queueRun k).sent = s.sent := rfl
@[simp] theorem State.queueRun_rdata (k : Nat) : (s.queueRun k).rdata = s.rdata := rfl
@[simp] theorem State.queueRun_phase (k : Nat) : (s.queueRun k).phase = s.phase := rfl
@[simp] theorem State.queueRun_pins (k : Nat) : (s.queueRun k).pins = s.pins := rfl
@[simp] theorem State.queueRun_causes (k : Nat) : (s.queueRun k).causes = s.causes := rfl
@[simp] theorem State.queueRun_sup (k : Nat) : (s.queueRun k).sup = s.sup := rfl
@[simp] theorem State.queueRun_link (k : Nat) : (s.queueRun k).link = s.link := rfl
@[simp] theorem State.queueRun_time (k : Nat) : (s.queueRun k).time = s.time := rfl
@[simp] theorem State.queueRun_evl (k : Nat) : (s.queueRun k).evl = s.evl := rfl
@[simp] theorem State.queueRun_mst (k : Nat) : (s.queueRun k).mst = s.mst := rfl
@[simp] theorem State.queueRun_run (k : Nat) : (s.queueRun k).run = s.run := rfl
@[simp] theorem State.queueRun_budget (k : Nat) : (s.queueRun k).budget = s.budget := rfl
@[simp] theorem State.queueRun_triad (k : Nat) : (s.queueRun k).triad = s.triad := rfl
@[simp] theorem State.queueRun_slx (k : Nat) : (s.queueRun k).slx = s.slx := rfl
@[simp] theorem State.queueRun_sec (k : Nat) : (s.queueRun k).sec = s.sec := rfl
@[simp] theorem State.queueRun_lanes (k : Nat) : (s.queueRun k).lanes = s.lanes := rfl
@[simp] theorem State.queueRun_aux (k : Nat) : (s.queueRun k).aux = s.aux := rfl
@[simp] theorem State.queueRun_sniff (k : Nat) : (s.queueRun k).sniff = s.sniff := rfl
@[simp] theorem State.queueRun_fio (k : Nat) : (s.queueRun k).fio = s.fio := rfl
@[simp] theorem State.queueRun_hq (k : Nat) : (s.queueRun k).hq = s.hq := rfl
@[simp] theorem State.queueRun_pbx (k : Nat) : (s.queueRun k).pbx = s.pbx := rfl
@[simp] theorem State.queueRun_pel (k : Nat) : (s.queueRun k).pel = s.pel := rfl
@[simp] theorem State.queueRun_tw (k : Nat) : (s.queueRun k).tw = s.tw := rfl
@[simp] theorem State.queueRun_acq (k : Nat) : (s.queueRun k).acq = s.acq := rfl
@[simp] theorem State.queueRun_bays (k : Nat) : (s.queueRun k).bays = s.bays := rfl
@[simp] theorem State.queueRun_rd (k : Nat) (j : Nat) : (s.queueRun k).rd j = s.rd j := by
  simp only [State.rd, State.queueRun_regs]

/-! ### What they change -/

@[simp] theorem State.emit_sent (o : Out) : (s.emit o).sent = s.sent ++ [o] := rfl
@[simp] theorem State.wr_regs (k : Nat) (v : Word) : (s.wr k v).regs = sset regReset s.regs k v := rfl
@[simp] theorem State.putRaw_mem (r w : Nat) (d : Word) (c : Nat) : (s.putRaw r w d c).mem = Memory.putWord s.mem r w d c := rfl
@[simp] theorem State.wrMem_mem (r w : Nat) (v : Word) : (s.wrMem r w v).mem = Memory.putWord s.mem r w v (checkBits v) := by
  simp only [State.wrMem, State.putRaw]

end Sys2Proof.Machine
end

