-- ==== Sys2Proof/Laws/Memory.lean ====
section
/-!
SUPPORT. Sys2Proof/Laws/Memory.lean: every memory operation keeps the canonical form; a word written raw reads back raw, and
every cell outside its five stays.
-/
namespace Sys2Proof.Machine

theorem Memory.get_set (m : List Host.Cell) (a b : Nat) (v : Byte) :
    Memory.get (Memory.set m a v) b = if b = a then v else Memory.get m b := sget_sset ..

theorem Memory.wf_set (m : List Host.Cell) (a : Nat) (v : Byte) (h : Memory.wf m) : Memory.wf (Memory.set m a v) :=
  swf_sset memDefault m a v h

/-- A word written keeps the canonical form, whatever its data and check bits. -/
theorem Memory.wf_putWord (m : List Host.Cell) (r w : Nat) (d : Word) (c : Nat) (h : Memory.wf m) :
    Memory.wf (Memory.putWord m r w d c) :=
  wf_set _ _ _ (wf_set _ _ _ (wf_set _ _ _ (wf_set _ _ _ (wf_set _ _ _ h))))

/-- So does clearing the bytes of a region. -/
theorem Memory.wf_filter (m : List Host.Cell) (p : Host.Cell → Bool) (h : Memory.wf m) : Memory.wf (m.filter p) :=
  swf_filter memDefault m p h

theorem State.wf_putRaw (s : State) (r w : Nat) (d : Word) (c : Nat) (h : Memory.wf s.mem) : Memory.wf (s.putRaw r w d c).mem :=
  Memory.wf_putWord _ _ _ _ _ h

theorem State.wf_wrMem (s : State) (r w : Nat) (v : Word) (h : Memory.wf s.mem) : Memory.wf (s.wrMem r w v).mem := by
  simp only [State.wrMem]; exact State.wf_putRaw s r w v _ h

theorem State.wf_poisonMem (s : State) (r w : Nat) (v : Word) (h : Memory.wf s.mem) : Memory.wf (s.poisonMem r w v).mem := by
  simp only [State.poisonMem]; exact State.wf_putRaw _ r w v _ (State.wf_wrMem s r w v h)

theorem State.wf_wrMemList (s : State) (r w : Nat) (ws : List Word) (h : Memory.wf s.mem) : Memory.wf (s.wrMemList r w ws).mem := by
  unfold State.wrMemList
  generalize ws.zipIdx = l
  induction l generalizing s with
  | nil => exact h
  | cons e l ih => exact ih _ (State.wf_wrMem s r (w + e.2) e.1 h)

/-- A cell of a word's five reads what was written. -/
theorem Memory.get_putWord (m : List Host.Cell) (r w : Nat) (d : Word) (c a : Nat) :
    Memory.get (Memory.putWord m r w d c) a =
      if a = cellAddr r w 4 then BitVec.ofNat 8 (c % 128) else if a = cellAddr r w 3 then BitVec.ofNat 8 (d.toNat / 16777216)
      else if a = cellAddr r w 2 then BitVec.ofNat 8 (d.toNat / 65536) else if a = cellAddr r w 1 then BitVec.ofNat 8 (d.toNat / 256)
      else if a = cellAddr r w 0 then BitVec.ofNat 8 d.toNat else Memory.get m a := by
  simp only [Memory.putWord, Memory.get_set]

/-- Every other cell stays. -/
theorem Memory.get_putWord_other (m : List Host.Cell) (r w : Nat) (d : Word) (c : Nat) {a : Nat}
    (h : ∀ j, j < 5 → a ≠ cellAddr r w j) : Memory.get (Memory.putWord m r w d c) a = Memory.get m a := by
  rw [Memory.get_putWord, if_neg (h 4 (by omega)), if_neg (h 3 (by omega)), if_neg (h 2 (by omega)), if_neg (h 1 (by omega)),
    if_neg (h 0 (by omega))]

/-- A word's place lies inside its region's span. -/
theorem cellAt_lt (r : Nat) {w j : Nat} (hw : w < 2 ^ 33) (hj : j < 5) : cellAt r w j < 2 ^ 36 := by
  unfold cellAt
  split
  · split <;> omega
  · omega

/-- The cells of a region name their word. -/
theorem cellAt_word {r w w' j j' : Nat} (hj : j < 5) (hj' : j' < 5) (h : cellAt r w' j' = cellAt r w j) : w' = w := by
  unfold cellAt at h
  split at h
  · split at h <;> split at h <;> omega
  · omega

/-- The five cells of a word differ. -/
theorem cellAddr_inj {r w j j' : Nat} (hj : j < 5) (hj' : j' < 5) (h : cellAddr r w j = cellAddr r w j') : j = j' := by
  simp only [cellAddr, cellAt] at h
  split at h
  · split at h <;> split at h <;> omega
  · omega

/-- Two words of the address space share no cell. -/
theorem cellAddr_ne {r w r' w' j j' : Nat} (hw : w < 2 ^ 33) (hw' : w' < 2 ^ 33) (hj : j < 5) (hj' : j' < 5)
    (h : (r', w') ≠ (r, w)) : cellAddr r' w' j' ≠ cellAddr r w j := by
  intro e
  apply h
  have b := cellAt_lt r hw hj
  have b' := cellAt_lt r' hw' hj'
  have h1 : r' = r := by simp only [cellAddr] at e; omega
  subst h1
  have h2 : w' = w := cellAt_word (r := r') hj hj' (by simp only [cellAddr] at e; omega)
  rw [h2]

theorem State.rawCheck_putRaw (s : State) (r w : Nat) (d : Word) (c : Nat) : (s.putRaw r w d c).rawCheck r w = c % 128 := by
  simp only [State.rawCheck, State.putRaw, Memory.get_putWord, if_pos, BitVec.toNat_ofNat]
  omega

/-- The data of a word written raw read back. -/
theorem State.rawData_putRaw (s : State) (r w : Nat) (d : Word) (c : Nat) : (s.putRaw r w d c).rawData r w = d := by
  have h : (List.range 4).map (fun j => Memory.get (s.putRaw r w d c).mem (cellAddr r w j)) =
      [BitVec.ofNat 8 d.toNat, BitVec.ofNat 8 (d.toNat / 256), BitVec.ofNat 8 (d.toNat / 65536), BitVec.ofNat 8 (d.toNat / 16777216)] := by
    have e : ∀ j k, j < 5 → k < 5 → (cellAddr r w j = cellAddr r w k ↔ j = k) := fun j k hj hk =>
      ⟨cellAddr_inj hj hk, fun h => by rw [h]⟩
    simp only [State.putRaw, Memory.get_putWord]
    simp [List.range_succ, e]
  apply BitVec.eq_of_toNat_eq
  simp only [State.rawData, h, fromLE, BitVec.toNat_ofNat]
  have := d.isLt
  omega

/-- The raw bits of another word stay. -/
theorem State.rawData_putRaw_other (s : State) {r w r' w' : Nat} (d : Word) (c : Nat) (hw : w < 2 ^ 33) (hw' : w' < 2 ^ 33)
    (h : (r', w') ≠ (r, w)) :
    (s.putRaw r w d c).rawData r' w' = s.rawData r' w' ∧ (s.putRaw r w d c).rawCheck r' w' = s.rawCheck r' w' := by
  have g : ∀ j, j < 5 → Memory.get (Memory.putWord s.mem r w d c) (cellAddr r' w' j) = Memory.get s.mem (cellAddr r' w' j) := fun j hj =>
    Memory.get_putWord_other _ _ _ _ _ (fun k hk => cellAddr_ne hw hw' hk hj h)
  constructor
  · simp [State.rawData, List.range_succ, g 0, g 1, g 2, g 3]
  · simp [State.rawCheck, g 4]

end Sys2Proof.Machine
end

