-- ==== Sys2Proof/Laws/Regs.lean ====
section
/-!
SUPPORT. Sys2Proof/Laws/Regs.lean: bit fields and registers: what a field, a bit or a register reads after one was written.
-/
namespace Sys2Proof

/-! ### Fields and bits of a word -/

theorem bit_eq (w : Word) (n : Nat) : bit w n = w.toNat.testBit n := rfl

theorem testBit_field (w : Word) (hi lo j : Nat) :
    (field w hi lo).testBit j = (decide (j < hi + 1 - lo) && w.toNat.testBit (lo + j)) := by
  rw [field, Nat.testBit_mod_two_pow, Nat.testBit_div_two_pow, Nat.add_comm j lo]

theorem field_lt (w : Word) (hi lo : Nat) : field w hi lo < 2 ^ (hi + 1 - lo) := Nat.mod_lt _ (Nat.two_pow_pos _)

/-- The bits of a word with a field replaced. -/
theorem testBit_setField (w : Word) {hi lo : Nat} (v i : Nat) (h1 : hi < 32) (h2 : lo ≤ hi) :
    (setField w hi lo v).toNat.testBit i = if lo ≤ i ∧ i ≤ hi then v.testBit (i - lo) else w.toNat.testBit i := by
  obtain ⟨n, rfl⟩ : ∃ n, hi = lo + n := ⟨hi - lo, by omega⟩
  have e : lo + n + 1 - lo = n + 1 := by omega
  have hx : w.toNat % 2 ^ lo < 2 ^ lo := Nat.mod_lt _ (Nat.two_pow_pos _)
  have hy : v % 2 ^ (n + 1) < 2 ^ (n + 1) := Nat.mod_lt _ (Nat.two_pow_pos _)
  have hl : w.toNat % 2 ^ lo + 2 ^ lo * (v % 2 ^ (n + 1)) < 2 ^ (lo + n + 1) := by
    have : 2 ^ (lo + n + 1) = 2 ^ lo * 2 ^ (n + 1) := by rw [← pow_add]; rfl
    rw [this]
    calc w.toNat % 2 ^ lo + 2 ^ lo * (v % 2 ^ (n + 1)) < 2 ^ lo + 2 ^ lo * (v % 2 ^ (n + 1)) := by omega
      _ = 2 ^ lo * (v % 2 ^ (n + 1) + 1) := by ring
      _ ≤ 2 ^ lo * 2 ^ (n + 1) := Nat.mul_le_mul_left _ hy
  have hw : w.toNat < 2 ^ 32 := w.isLt
  have key : (w.toNat % 2 ^ lo + 2 ^ lo * (v % 2 ^ (n + 1)) + 2 ^ (lo + n + 1) * (w.toNat / 2 ^ (lo + n + 1))).testBit i
      = if lo ≤ i ∧ i ≤ lo + n then v.testBit (i - lo) else w.toNat.testBit i := by
    rw [Nat.add_comm, Nat.testBit_two_pow_mul_add _ hl]
    split
    · rename_i h
      rw [Nat.add_comm, Nat.testBit_two_pow_mul_add _ hx]
      split
      · rename_i h'
        rw [if_neg (by omega), Nat.testBit_mod_two_pow]; simp [h']
      · rename_i h'
        rw [if_pos (by omega), Nat.testBit_mod_two_pow]; simp; omega
    · rename_i h
      rw [if_neg (by omega), Nat.testBit_div_two_pow]
      congr 1; omega
  rw [setField, BitVec.toNat_ofNat, Nat.testBit_mod_two_pow, e, key]
  by_cases h : i < 32
  · simp [h]
  · have : w.toNat.testBit i = false := Nat.testBit_lt_two_pow (lt_of_lt_of_le hw (Nat.pow_le_pow_right (by decide) (by omega)))
    have h' : ¬ (lo ≤ i ∧ i ≤ lo + n) := by omega
    simp [h, this, h']

theorem field_setField (w : Word) {hi lo : Nat} (v : Nat) (h1 : hi < 32) (h2 : lo ≤ hi) :
    field (setField w hi lo v) hi lo = v % 2 ^ (hi + 1 - lo) := by
  refine Nat.eq_of_testBit_eq fun j => ?_
  rw [testBit_field, testBit_setField _ _ _ h1 h2, Nat.testBit_mod_two_pow]
  by_cases h : j < hi + 1 - lo
  · rw [if_pos (by omega)]; simp [h]
  · simp [h]

theorem field_setField_other (w : Word) {hi lo hi' lo' : Nat} (v : Nat) (h1 : hi < 32) (h2 : lo ≤ hi) (h : hi' < lo ∨ hi < lo') :
    field (setField w hi lo v) hi' lo' = field w hi' lo' := by
  refine Nat.eq_of_testBit_eq fun j => ?_
  rw [testBit_field, testBit_field, testBit_setField _ _ _ h1 h2]
  by_cases hj : j < hi' + 1 - lo'
  · rw [if_neg (by omega)]
  · simp [hj]

theorem bit_setField (w : Word) {hi lo : Nat} (v n : Nat) (h1 : hi < 32) (h2 : lo ≤ hi) :
    bit (setField w hi lo v) n = if lo ≤ n ∧ n ≤ hi then v.testBit (n - lo) else bit w n := testBit_setField w v n h1 h2

theorem bit_setBit (w : Word) {n : Nat} (m : Nat) (b : Bool) (h : n < 32) :
    bit (setBit w n b) m = if m = n then b else bit w m := by
  rw [setBit, bit_setField _ _ _ h le_rfl]
  by_cases e : m = n
  · subst e; cases b <;> simp
  · rw [if_neg (by omega), if_neg e]

theorem field_setBit_other (w : Word) {hi lo n : Nat} (b : Bool) (h1 : n < 32) (h : hi < n ∨ n < lo) :
    field (setBit w n b) hi lo = field w hi lo := field_setField_other w _ h1 le_rfl (by omega)

namespace Machine

/-! ### Registers -/

/-- A register read after a register was written. -/
theorem State.rd_wr (s : State) (k j : Nat) (v : Word) : (s.wr k v).rd j = if j = k then v else s.rd j := sget_sset ..

@[simp] theorem State.rd_wr_self (s : State) (k : Nat) (v : Word) : (s.wr k v).rd k = v := by rw [State.rd_wr, if_pos rfl]

theorem State.rd_wr_other (s : State) {k j : Nat} (v : Word) (h : j ≠ k) : (s.wr k v).rd j = s.rd j := by
  rw [State.rd_wr, if_neg h]

theorem State.rd_setFld (s : State) (k j hi lo v : Nat) :
    (s.setFld k hi lo v).rd j = if j = k then setField (s.rd k) hi lo v else s.rd j := State.rd_wr ..

theorem State.rd_setFlag (s : State) (k j n : Nat) (b : Bool) :
    (s.setFlag k n b).rd j = if j = k then setBit (s.rd k) n b else s.rd j := State.rd_wr ..

theorem State.rd_incFld (s : State) (k j hi lo : Nat) :
    (s.incFld k hi lo).rd j = if j = k then setField (s.rd k) hi lo (s.fld k hi lo + 1) else s.rd j := State.rd_wr ..

theorem State.rd_satFld (s : State) (k j hi lo n : Nat) :
    (s.satFld k hi lo n).rd j =
      if j = k then setField (s.rd k) hi lo (satAdd (2 ^ (hi + 1 - lo) - 1) (s.fld k hi lo) n) else s.rd j := State.rd_wr ..

theorem State.rd_plain (s : State) (k j : Nat) (rw w1c v : Word) :
    (s.plain k rw w1c v).rd j = if j = k then (s.rd k &&& ~~~(rw ||| (w1c &&& v))) ||| (v &&& rw) else s.rd j := State.rd_wr ..

theorem State.waiting_setReq (s : State) (k j : Nat) (r : Option Req) :
    (s.setReq k r).waiting j = if j = k then (match r with
      | some x => [x]
      | none => (s.waiting k).drop 1) else s.waiting j := sget_sset ..

theorem State.waiting_place (s : State) (k j : Nat) (v : Word) (p : Port) :
    (s.place k v p).waiting j = if j = k then [⟨(s.frame + 3) % 2 ^ 32, v, p⟩] else s.waiting j := by
  rw [State.place, State.waiting_setReq]

theorem State.waiting_placeHyper (s : State) (k j : Nat) (v : Word) (p : Port) :
    (s.placeHyper k v p).waiting j = if j = k then [⟨s.hyper3, v, p⟩] else s.waiting j := by
  rw [State.placeHyper, State.waiting_setReq]

theorem State.waiting_placeEach (s : State) (k j : Nat) (v : Word) (p : Port) :
    (s.placeEach k v p).waiting j = if j = k then
      (s.waiting k).filter (fun r => r.due != (s.frame + 3) % 2 ^ 32) ++ [⟨(s.frame + 3) % 2 ^ 32, v, p⟩]
      else s.waiting j := sget_sset ..

end Machine

end Sys2Proof
end

