-- ==== Sys2Proof/Laws/Ops.lean ====
section
/-!
SUPPORT. Sys2Proof/Laws/Ops.lean: what each shared operation can do: gated writes and reads, requests that are due, frames and
sparse maps of lists.
-/
namespace Sys2Proof.Machine

/-! ### Gates -/

/-- A gated write with its rsv bits zero goes on: by its action where the port may write, else with nothing changed. -/
theorem gate_eq (s : State) (p : Port) (rc : Reach) (sc : Scope) (rsv : Word) (addr : Nat) (v : Word)
    (op : Word → State → State) (h : v &&& rsv = 0#32) :
    gate s p rc sc rsv addr v op = .next (if s.writable p rc sc = true then op v s else s) := by
  unfold gate State.writable
  by_cases h1 : s.reaches p rc = true <;> by_cases h2 : s.right p sc < 2
  · have : ¬ 2 ≤ s.right p sc := by omega
    simp [h1, h2]
  · have : 2 ≤ s.right p sc := by omega
    simp [h1, h2, this, h]
  · simp [h1]
  · simp [h1]

/-- The statement of a gated write from its action. -/
theorem writeAnswers_of_gate {i : Instr} {s : State} {p : Port} {rc : Reach} {sc : Scope} {rsv v : Word} {addr : Nat}
    {op : Word → State → State} {P : State → Prop} (hi : exec i s = gate s p rc sc rsv addr v op) (h : P (op v s)) :
    WriteAnswers i s p rc sc rsv v P := by
  intro hv
  refine ⟨_, hi.trans (gate_eq s p rc sc rsv addr v op hv), ?_⟩
  by_cases hw : s.writable p rc sc = true
  · simp only [hw, if_true]; exact h
  · simp only [hw]; rfl

/-- The statement of a command that always goes on. -/
theorem answers_of {i : Instr} {s t : State} {P : State → Prop} (hi : exec i s = .next t) (h : P t) : Answers i s P := ⟨t, hi, h⟩

/-! ### Requests -/

theorem State.onDue_nil (s : State) (k : Nat) (f : State → Req → State) (h : s.waiting k = []) :
    s.onDue k f = { s with reqs := sset (fun _ => []) s.reqs k [] } := by simp [State.onDue, h]

theorem State.onDue_one (s : State) (k : Nat) (f : State → Req → State) (r : Req) (h : s.waiting k = [r])
    (hr : frameReached s.frame r.due = true) :
    s.onDue k f = f { s with reqs := sset (fun _ => []) s.reqs k [] } r := by simp [State.onDue, h, hr]

theorem State.onDue_later (s : State) (k : Nat) (f : State → Req → State) (r : Req) (h : s.waiting k = [r])
    (hr : frameReached s.frame r.due = false) :
    s.onDue k f = { s with reqs := sset (fun _ => []) s.reqs k [r] } := by simp [State.onDue, h, hr]

theorem State.waiting_reqs (s : State) (k j : Nat) (l : List Req) :
    ({ s with reqs := sset (fun _ => []) s.reqs k l } : State).waiting j = if j = k then l else s.waiting j := sget_sset ..

theorem State.rd_congr {s t : State} (h : t.regs = s.regs) (k : Nat) : t.rd k = s.rd k := by rw [State.rd, State.rd, h]

theorem State.due_none (s : State) (k : Nat) (h : s.waiting k = []) : s.due k = none := by simp [State.due, State.req, h]

/-! ### Lists of instances -/

theorem nth_modAt {α : Type} (d : α) (l : List α) (i j : Nat) (f : α → α) (h : i < l.length) :
    nth d (modAt l i f) j = if j = i then f (nth d l i) else nth d l j := by
  unfold nth modAt
  rw [List.getD_eq_getElem?_getD, List.getElem?_modify]
  by_cases e : j = i
  · subst e; simp [h, List.getD_eq_getElem?_getD]
  · have : ¬ i = j := fun x => e x.symm
    simp [e, this, List.getD_eq_getElem?_getD]

theorem nth_modAt_other {α : Type} (d : α) (l : List α) {i j : Nat} (f : α → α) (h : j ≠ i) :
    nth d (modAt l i f) j = nth d l j := by
  unfold nth modAt
  rw [List.getD_eq_getElem?_getD, List.getElem?_modify]
  have : ¬ i = j := fun x => h x.symm
  simp [this, List.getD_eq_getElem?_getD]

end Sys2Proof.Machine
end

