-- ==== Sys2Proof/WellFormed.lean ====
section
/-!
DEFINITION. Sys2Proof/WellFormed.lean: which commands can arrive at all: accesses inside the two BARs (R6, R17, R367), flits
of 80 bytes (R27), entries, frames and images of the lengths the manual gives. Operands that a field of fixed width
carries are bounded by their type already.
-/
namespace Sys2Proof

/-- An access a host or the service port can make: BAR0 from 0 (R6, R17), BAR2 from 2^24 (R367, R369), of one to eight bytes; one
that is not a single aligned 32-bit access is a host error (R14), which the device does not notice. -/
def barAccess (addr size : Nat) : Bool := decide (addr < 2 ^ 24 + 2 ^ 14) && decide (1 ≤ size) && decide (size ≤ 8)

/-- A flit (R27). -/
def flitLen (bs : List Byte) : Bool := bs.length == 80

/-- An operand word of a Mydun instruction: SPACE[3:0] and INDEX[21:0] (R236). -/
def Opnd.wf (o : Opnd) : Bool := decide (o.space < 16) && decide (o.index < 2 ^ 22)

/-- Well-formed commands. -/
def Instr.wf : Instr → Bool
  | .rawFlitSend _ _ conv => conv.length == 32
  | .rawFlitReceive bs | .frameStrobeReceive bs | .statusFlitReceive bs | .registerAccessFlit bs
  | .registerResponseFlit bs | .kennelWriteFlit bs | .idleFlitReceive _ bs | .outputCommand bs _ => flitLen bs
  | .registerWrite _ a _ | .lowWordRead _ a | .highWordRead _ a => barAccess a.addr a.size
  | .ingressAgreement f g c => f.length == 3 && g.length == 3 && decide (c < 131072)
  | .voterSelfTest w _ => w.length == 3 && w.all (fun l => l.length == 3)
  | .latentDivergenceSweep f _ => f.length == 3
  | .offsetWindowEnd _ e => e.length == 8
  | .supplyWindow c => c.length == 18 || c.length == 32
  | .ld o | .ldn o | .and o | .andn o | .or o | .orn o | .xor o | .st o | .stn o | .set o | .rst o | .rise o | .fall o
  | .ton o | .tof o | .tp o | .trst o | .ctu o | .ctd o | .crs o | .spt o | .spv o | .letT o | .lcv o | .ldf o | .stf o
  | .addf o | .subf o | .mulf o | .divf o | .minf o | .maxf o | .gtf o | .gef o | .ltf o | .lef o | .self o | .ldk o
  | .stk o | .addk o | .subk o | .mulk o | .andk o | .ork o | .xork o | .gtk o | .eqk o | .ltk o => o.wf
  | .ethernetFrameReceive _ bs _ => decide (14 ≤ bs.length) && decide (bs.length ≤ 9000)
  | .pdelayRespReceive _ _ _ tags _ msg trailer => decide (14 + tags.length + msg.length + trailer.length ≤ 9000)
  | .commandFetch _ e => e.length == 64
  | .svcWrite bs | .svcRead bs | .svcUnknownOpcode bs => decide (1 ≤ bs.length)
  | .pedigreeReadDone img hs _ => decide (img.length ≤ 33554432) && hs.length == 2
  | _ => true

end Sys2Proof
end

