-- ==== Sys2Proof/Tests/Slice0.lean ====
section
/-!
SUPPORT. Sys2Proof/Tests/Slice0.lean: an ill-formed command for each check, the manual's worked examples, and for every statement
with hypotheses a state and operands that meet them.
-/
namespace Sys2Proof.Tests
open Sys2Proof Sys2Proof.Machine

set_option Elab.async false

/-! ### States to test on -/

/-- The device runs in STANDBY with a pedigree in force that defines partition 0, the link up, the plan running and every pack ON. -/
def stby : State :=
  let s : State := { State.reset.modPart 0 (fun x => { x with defined := true }) with
    link := { State.reset.link with field := { State.reset.link.field with up := true }
                                    engine := { State.reset.link.engine with up := true }, training := false }
    sup := { State.reset.sup with running := true }
    bays := List.replicate 48 { part := some 0 }
    fio := { State.reset.fio with di := List.replicate 64 { owner := some 0 } } }
  ((((s.setFld Reg.SYS_MODE 2 0 mSTANDBY).setFld Reg.SYS_STAT 6 5 3).setFlag Reg.PWR_TRIAD 8 true).wr Reg.PWR_PACKSTAT 0x11111111#32)

/-- A write of v waits on register k and is due. -/
def withDue (s : State) (k : Nat) (v : Word) : State := s.setReq k (some ⟨0, v, .hp 0⟩)

/-- A run of O job kind and target is granted, and the frame's own work is done. -/
def withRun (s : State) (kind target : Nat) : State :=
  { s with triad := { s.triad with turn := 5 }, ojobs := [{ index := 0, kind := kind, target := target, n := 0, phase := 0, prio := 0, cycles := 0, energy := 0, granted := 1 }] }

/-- The frame's image is agreed and the voters are tested: its G jobs may run. -/
def inTurn (s : State) : State := { s with triad := { s.triad with turn := 2, tested := true } }

/-- The state after a command, or the one before where it stops. -/
def after (i : Instr) (s : State) : State := match exec i s with
  | .next t => t
  | _ => s

def hp0 : Port := .hp 0
def zeros (n : Nat) : List Byte := List.replicate n 0#8

/-! ### Ill-formed commands -/

theorem test_wf_offset : (Instr.registerWrite hp0 ⟨2, 9⟩ 0#32).wf = false ∧ (Instr.lowWordRead hp0 ⟨2 ^ 24 + 2 ^ 14, 4⟩).wf = false ∧
    (Instr.registerWrite hp0 ⟨2, 4⟩ 0#32).wf = true := by decide

/-- One ill-formed command for each further check. -/
theorem test_wf_refuses : [Instr.rawFlitSend 0 0 [], .rawFlitReceive [], .ingressAgreement [] [] 0, .voterSelfTest [] 0,
    .latentDivergenceSweep [] 0, .offsetWindowEnd 0 [], .supplyWindow [], .ld ⟨16, 0⟩, .stk ⟨0, 2 ^ 22⟩,
    .ethernetFrameReceive 0 [] true, .commandFetch 0 [], .svcWrite []].all (fun i => !i.wf) = true := by decide

theorem test_wf_lengths : (Instr.pdelayRespReceive 0 0 0 [] 0 (zeros 8987) []).wf = false ∧
    (Instr.pedigreeReadDone (zeros 4) [] true).wf = false := by decide +kernel

/-! ### The manual's examples -/

/-- After R400: 16#8000_0001 has check byte 16#7B. -/
theorem test_check_bits : checkBits 0x80000001#32 = 0x7B ∧ (checkBits 0x80000001#32 ^^^ 127) = 0x04 := by decide +kernel

/-- After R413: bit 31 stuck at 0 gives syndrome 16#70 and is corrected; with bit 0 flipped too the word is uncorrectable. -/
theorem test_syndrome : syndrome 0x00000001#32 0x7B = 0x70 ∧ eccDecode 0x00000001#32 0x7B = (.fixed, 0x80000001#32) ∧
    (eccDecode 0#32 0x7B).1 = .bad := by decide +kernel

/-- R28, R215, R298: the check values of the three codes over the digits 1 to 9, as the named standards publish them. -/
theorem test_crcs :
    let digits : List Byte := [0x31#8, 0x32#8, 0x33#8, 0x34#8, 0x35#8, 0x36#8, 0x37#8, 0x38#8, 0x39#8]
    crc32 digits = 0xCBF43926#32 ∧ crc16 digits = 0x29B1#16 ∧ crc64 digits = 0x6C40DF5F0B497347#64 := by decide +kernel

/-- After R112: 16#1400_0000 is a sampled-value sample with S = 1 and VAL = 0. -/
theorem test_sample_word : (sampleOf 0x14000000#32).val = 0 ∧ wordS 0x14000000#32 = true := by decide +kernel

/-- After R318: a step of -1 230 000 ns at NSEC 62 500 000 leaves NSEC 61 270 000 in the same second. -/
theorem test_phase_step :
    let s := withDue stby Reg.TIM_CMD 1#32
    let s := { s with time := { s.time with nsec := 62500000, sec := 500000, stepArg := -1230000 } }
    ((after .phaseStepApply s).time.nsec, (after .phaseStepApply s).time.sec) = (61270000, 500000) := by decide +kernel

/-- After R372: the high word is the one of the first read, whatever it is by then. -/
theorem test_high_word :
    let s := (stby.wr Reg.PWR_ODEF_TOT_LO 0xFFFFFFFE#32).wr Reg.PWR_ODEF_TOT_HI 3#32
    let t := ((after (.lowWordRead hp0 ⟨Reg.PWR_ODEF_TOT_LO, 4⟩) s).wr Reg.PWR_ODEF_TOT_LO 0#32).wr Reg.PWR_ODEF_TOT_HI 4#32
    (after (.highWordRead hp0 ⟨Reg.PWR_ODEF_TOT_HI, 4⟩) t).rdata = some 3#32 := by decide +kernel

/-- R299: the record after 41 211 takes 41 212. -/
theorem test_sequence :
    let s := (stby.wr Reg.EVL_GSEQ 41211#32).post 0x18 (srcOf 0 0) (zeros 16) everyLog true
    (after .eventSequence s).rd Reg.EVL_GSEQ = 41212#32 := by decide +kernel

/-- R13: lane 203 lies in bay 25 and pack 6. -/
theorem test_lane : (203 / 8, 203 / 32) = (25, 6) := by decide

/-- R242: one third in binary32, rounded to nearest; the square root of 2. -/
theorem test_float : fpDiv 0x3F800000#32 0x40400000#32 = 0x3EAAAAAB#32 ∧ fpSqrt 0x40000000#32 = 0x3FB504F3#32 := by decide +kernel

/-! ### Writes that reach their register

The premises of the statements about writes: the value's rsv bits are zero and the port may write the register. -/

theorem witness_write_reaches :
    stby.writable hp0 .always .global = true ∧ stby.writable hp0 .engine .global = true ∧ stby.writable hp0 .field .global = true ∧
    stby.writable .svc .superv .global = true ∧ stby.writable hp0 .engine .own = true ∧
    stby.writable hp0 .field (.owned (some 0)) = true ∧ stby.writable hp0 .engine (.shared (some 0)) = true ∧
    stby.writable (.hp 1) .engine .global = false ∧ State.reset.writable hp0 .field .global = false := by decide +kernel

theorem witness_ResetsLeave : 0xA5C3#32 &&& 0xFFFF0000#32 = 0#32 ∧ 0#32 &&& 0xFFFF0000#32 = 0#32 ∧
    stby.writable hp0 .always .global = true ∧ 1000 ≤ 1000 ∧ 199 < 200 := by decide +kernel

/-- StartUp: each level and phase; FILL as the link trains. -/
theorem witness_StartUp :
    State.reset.pins.resetN = true ∧ ({ stby with pins := { resetN := false } } : State).pins.resetN = false ∧
    ({ stby with pins := { supplies := false } } : State).pins.supplies = false ∧ stby.pins.supplies = true ∧
    ({ stby with phase := .clockStart } : State).phase = .clockStart ∧ stby.phase ≠ .clockStart ∧
    State.reset.phase = .running ∧ State.reset.mode = mFILL ∧ State.reset.link.training = true ∧ stby.mode ≠ mFILL := by decide +kernel

/-- Supervisor: it runs; it is down with its pointer words whole, and with one of them lost. -/
theorem witness_Supervisor :
    let s : State := { stby with sup := { stby.sup with running := false } }
    let whole : State := { s with evl := { s.evl with kfend := ptrWord 0, kwptr := ptrWord 0, kold := ptrWord 0, kfull := ptrWord 0 } }
    let lost : State := { whole with evl := { whole.evl with kwptr := ptrWord 0 + 1#32 } }
    let ok := fun (s : State) => ptrOk s.evl.kfend && ptrOk s.evl.kwptr && ptrOk s.evl.kold && ptrOk s.evl.kfull
    stby.sup.running = true ∧ whole.sup.running = false ∧ ok whole = true ∧ whole.evl.kennel.staged.length < 64 ∧
    whole.evl.kennel.lost = none ∧ lost.sup.running = false ∧ ok lost = false := by decide +kernel

theorem witness_ModeRequests :
    let s := withDue stby Reg.SYS_MODE_REQ 3#32
    let safe := withDue (stby.setFld Reg.SYS_MODE 2 0 mSAFE) Reg.SYS_MODE_REQ 2#32
    let live : State := { safe with run := { safe.run with triadEn := true } }
    let worn := withDue ((stby.setFld Reg.SYS_MODE 2 0 mDEGRADED).setFld Reg.SYS_MODE 6 4 mSTANDBY) Reg.SYS_MODE_REQ 3#32
    (3#32 : Word) &&& 0x7FFFFFF8#32 = 0#32 ∧ stby.writable hp0 .engine .global = true ∧
    s.due Reg.SYS_MODE_REQ = some ⟨0, 3#32, hp0⟩ ∧ stby.modeCode 3 = 0 ∧ stby.modeCode 7 ≠ 0 ∧
    safe.mode = mSAFE ∧ safe.modeCode 2 = 0 ∧ safe.run.triadEn = false ∧ live.run.triadEn = true ∧ live.modeCode 2 = 0 ∧
    worn.mode = mDEGRADED ∧ worn.modeCode 3 = 0 := by decide +kernel

theorem witness_TimeWrites : (0#32 : Word) &&& 0#32 = 0#32 ∧ ((0#32 : Word) ||| 1#32) &&& 0x7FFFFFF8#32 = 0#32 ∧
    stby.writable hp0 .engine .global = true := by decide +kernel

/-! ### Kept by every step -/

theorem witness_StepRunsFront : ({ stby with pending := [.ppsInLoss] } : State).pending = .ppsInLoss :: [] := rfl

theorem slew_small : stby.slewStep < 17181 := by
  unfold State.slewStep unitOf
  generalize Config.tieUp _ = b
  revert b
  decide +kernel

/-- IdleStep: an edge inside the frame; an edge at the boundary; a clock that stands; the slot of an idle flit ends, and does not. -/
theorem witness_IdleStep :
    let late : State := { stby with time := { stby.time with nsec := 62499, frac := 2 ^ 32 - 1 } }
    stby.pending = [] ∧ stby.phase = .running ∧ stby.edgeUnits + stby.slewStep < stby.toBoundary ∧
    stby.edgeUnits + min stby.slewStep stby.time.slewRem.natAbs < stby.toWrap ∧ stby.time.tbNs < 2 ^ 32 ∧ stby.link.slotNs + 4 < 25 ∧
    ¬(24 + 4 < 25) ∧ late.toBoundary ≤ late.edgeUnits + late.slewStep ∧ ({ stby with phase := .held } : State).phase ≠ .running := by
  have h := slew_small
  have a : stby.edgeUnits + 17181 < stby.toBoundary ∧ stby.edgeUnits + 17181 < stby.toWrap := by decide +kernel
  have b : ({ stby with time := { stby.time with nsec := 62499, frac := 2 ^ 32 - 1 } } : State).toBoundary ≤ stby.edgeUnits := by
    decide +kernel
  refine ⟨by decide +kernel, by decide +kernel, by omega, by omega, by decide +kernel, by decide +kernel, by decide, ?_, by decide⟩
  exact Nat.le_trans b (Nat.le_add_right _ _)

theorem witness_StepKeepsCanonical :
    let s : State := { stby.wrMem 3 7 5#32 with pending := [.vddAoWarning] }
    s.Canonical ∧ ∃ t, step s = .next t := by
  refine ⟨?_, _, rfl⟩
  unfold State.Canonical
  decide +kernel

theorem witness_StepKeepsQueueAndOutputs : ∃ t, step { stby with pending := [.vddAoWarning] } = .next t := ⟨_, rfl⟩

theorem witness_MemoryFrame :
    Instr.vddAoWarning.storesMemory = false ∧ Instr.vddAoWarning.storesWindow = false ∧ (∃ t, exec .vddAoWarning stby = .next t) ∧
    6 * 2 ^ 36 / 2 ^ 36 ≠ 7 ∧ Instr.surveyEnd.storesMemory = false ∧ ∃ t, exec .surveyEnd stby = .next t :=
  ⟨rfl, rfl, ⟨_, rfl⟩, by decide, rfl, _, rfl⟩

theorem witness_UnitFrames :
    let c := Instr.idleFlitReceive .field []
    (c.changesTime || c.changesSecurity || c.changesSupervisor || c.changesPhase || c.changesAux || c.changesFieldIo
      || c.changesProcessBus || c.changesProtection || c.changesWaves || c.changesRecorders || c.changesBays) = false ∧
    ∃ t, exec c stby = .next t := ⟨rfl, _, rfl⟩

/-! ### Power, time, link -/

/-- Packs: a pack that is off, on or stopping, its frame reached and not; before a pedigree; a port that is not the custodian's. -/
theorem witness_Packs :
    let s := withDue (stby.wr Reg.PWR_PACKSTAT 0x11111210#32) Reg.PWR_PACK 1#32
    let late := s.wr Reg.ENG_FRAME 4#32
    s.ped = true ∧ State.reset.ped = false ∧ s.waiting Reg.PWR_PACK = [⟨0, 1#32, hp0⟩] ∧ frameReached s.frame 0 = true ∧ s.pack 0 = 0 ∧
    s.pack 1 = 1 ∧ s.pack 2 = 2 ∧ bit (1#32 : Word) 1 = false ∧ s.run.packs.length = 8 ∧
    (1#32 : Word) &&& 0xFFFFFF00#32 = 0#32 ∧ (1#32 : Word) &&& 0xFFFFFFF8#32 = 0#32 ∧ (1#32 : Word) &&& 0xFFFEFCFE#32 = 0#32 ∧
    s.writable hp0 .engine .global = true ∧ s.isCust (.hp 1) = false ∧ stby.waiting Reg.PWR_PACK = [] ∧
    frameReached s.frame (((nth {} s.run.packs 2).stopAt + 4) % 2 ^ 32) = false ∧
    frameReached late.frame (((nth {} late.run.packs 2).stopAt + 4) % 2 ^ 32) = true := by decide +kernel

theorem witness_TriadGating :
    let off := withDue stby Reg.PWR_TRIAD 0#32
    let on := withDue stby Reg.PWR_TRIAD 0x10001#32
    let held : State := { on with run := { on.run with triadEn := true } }
    let load := on.setFld Reg.SYS_MODE 2 0 mLOAD
    let test := off.setFld Reg.SYS_MODE 2 0 mTEST
    off.waiting Reg.PWR_TRIAD = [⟨0, 0#32, hp0⟩] ∧ on.waiting Reg.PWR_TRIAD = [⟨0, 0x10001#32, hp0⟩] ∧ stby.waiting Reg.PWR_TRIAD = [] ∧
    frameReached off.frame 0 = true ∧ bit (0#32 : Word) 0 = false ∧ bit (0x10001#32 : Word) 0 = true ∧ bit (0x10001#32 : Word) 16 = true ∧
    on.run.triadEn = false ∧ held.run.triadEn = true ∧ on.mode = mSTANDBY ∧ load.mode = mLOAD ∧ test.mode ≠ mSTANDBY ∧
    off.planRuns = true ∧ off.run.gateStop = none ∧
    ({ off.run with gateStop := some 0, restartAt := some 0 } : RunSt).gateStop = some 0 := by decide +kernel

theorem witness_TimeCommandsApply :
    let step := withDue stby Reg.TIM_CMD 1#32
    let slew := withDue stby Reg.TIM_CMD 2#32
    let load := withDue stby Reg.TIM_CMD 4#32
    let roll : State := { load with time := { load.time with rollAtStart := false } }
    step.due Reg.TIM_CMD = some ⟨0, 1#32, hp0⟩ ∧ bit (1#32 : Word) 0 = true ∧ slew.due Reg.TIM_CMD = some ⟨0, 2#32, hp0⟩ ∧
    bit (2#32 : Word) 1 = true ∧ bit (2#32 : Word) 0 = false ∧ load.due Reg.TIM_CMD = some ⟨0, 4#32, hp0⟩ ∧ bit (4#32 : Word) 2 = true ∧
    bit (4#32 : Word) 1 = false ∧ bit (4#32 : Word) 0 = false ∧ load.time.rollAtStart = true ∧ roll.time.rollAtStart = false ∧
    load.frame = 0 ∧ (stby.setFlag Reg.TIM_STAT 2 true).flag Reg.TIM_STAT 2 = true ∧ stby.time.slewRem = 0 ∧
    (stby.setFlag Reg.TIM_STAT 1 true).flag Reg.TIM_STAT 1 = true ∧ stby.time.align = 0 := by decide +kernel

/-- TimeGoesOn, a rollover inside the frame; a wrap inside the frame; neither of them; the pulse; the input's edge and its loss. -/
theorem witness_TimeGoesOn :
    let ok := fun (s : State) => decide (s.time.nsec < 1000000000) && decide (s.time.tbNs < 2 ^ 32) && decide (s.time.frac < 2 ^ 32)
      && s.phase == .running
    let a : State := { stby.setFld Reg.ENG_FSEC 13 0 15999 with time := { stby.time with nsec := 999999999 } }
    let b : State := { stby with time := { stby.time with tbNs := 2 ^ 32 - 1 } }
    let p := a.setFlag Reg.TIM_PPSOUT 31 true
    let q : State := { stby with time := { stby.time with ppsOut := true, ppsLeft := 1 } }
    let i := stby.setFlag Reg.TIM_PPSIN_CFG 0 true
    let l : State := { i with time := { i.time with ppsLast := some 0, elapsed := 1100000000 * nsUnit } }
    ok a = true ∧ a.toRollover ≤ a.toBoundary ∧ ok b = true ∧ b.toWrap ≤ b.toBoundary ∧ b.toWrap < b.toRollover ∧
    ok stby = true ∧ stby.toBoundary < stby.toRollover ∧ stby.toBoundary < stby.toWrap ∧
    p.flag Reg.TIM_PPSOUT 31 = true ∧ p.toPulse ≤ p.toBoundary ∧ q.time.ppsOut = true ∧ q.time.ppsLeft ≤ q.toBoundary ∧
    q.flag Reg.TIM_PPSOUT 31 = false ∧ q.time.ppsLeft < q.toPulse ∧
    i.phase = .running ∧ i.flag Reg.TIM_PPSIN_CFG 0 = true ∧ i.flag Reg.TIM_PPSIN_CFG 1 = false ∧
    l.flag Reg.TIM_PPSIN_STAT 29 = false ∧ l.time.ppsLast = some 0 ∧ 0 + 1100000000 * nsUnit ≤ l.time.elapsed ∧
    stby.flag Reg.TIM_PPSIN_CFG 0 = false ∧ (i.setFlag Reg.TIM_PPSIN_STAT 29 true).flag Reg.TIM_PPSIN_STAT 29 = true := by decide +kernel

set_option maxRecDepth 100000 in
/-- FlitsReceived, each clause: a good flit in order, one out of order, one received before, an unsequenced one, a damaged one, a link
that is down, and a replay that is awaited. -/
theorem witness_FlitsReceived :
    let good := flitBytes 1 0 0 0 0 []
    let late := flitBytes 1 0 5 0 0 []
    let back := flitBytes 1 0 4095 0 0 []
    let free := flitBytes 0 0 0 0 0 []
    let wait : State := { stby with link := { stby.link with engine := { stby.link.engine with waiting := true } } }
    (stby.linkEnd .engine).up = true ∧ (State.reset.linkEnd .engine).up = false ∧ flitOk (zeros 80) = false ∧
    (flitOk good && flitOk late && flitOk free && flitOk back) = true ∧ flitUnsequenced good = false ∧ flitUnsequenced free = true ∧
    stby.takesFlit .engine good = true ∧ stby.takesFlit .engine free = true ∧ stby.takesFlit .engine late = false ∧
    stby.takesFlit .engine back = false ∧ flitOld (stby.linkEnd .engine).rxLast (flitSeq back) = true ∧
    flitOld (stby.linkEnd .engine).rxLast (flitSeq late) = false ∧ (stby.linkEnd .engine).waiting = false ∧
    wait.takesFlit .engine good = false ∧ wait.takesFlit .engine free = false ∧ (wait.linkEnd .engine).waiting = true ∧
    (wait.linkEnd .engine).resent = false := by decide +kernel

set_option maxRecDepth 100000 in
/-- FlitsReceived: a raw flit before and after its strobe's check, a strobe, the supervisor's status, and a part and the whole of a
record on its way to the kennel. -/
theorem witness_FlitsReceived_rows :
    let raw := flitBytes 1 0 0 0 0 []
    let key := 128 * flitSrc raw + flitStrobe raw % 128
    let gone : State := { stby with link := { stby.link with checked := sset (fun _ => 0) [] key 1 } }
    let strobe := flitBytes 2 0 0 0 0 []
    let status := flitBytes 6 0 0 0 0 []
    let part := flitBytes 7 0 0 0 0 [100#8]
    let whole := flitBytes 7 0 0 0 0 [32#8]
    stby.takesFlit .engine raw = true ∧ flitType raw = 1 ∧ sget (fun _ => 0) stby.link.checked key ≠ flitStrobe raw / 256 + 1 ∧
    sget (fun _ => 0) gone.link.checked key = flitStrobe raw / 256 + 1 ∧ flitType strobe ≠ 1 ∧
    stby.takesFlit .field strobe = true ∧ flitType strobe = 2 ∧ stby.takesFlit .field status = true ∧ flitType status = 6 ∧
    stby.takesFlit .field part = true ∧ flitType part = 7 ∧ stby.sup.running = true ∧
    (stby.evl.arriving ++ flitPayload part).length < leAt (stby.evl.arriving ++ flitPayload part) 0 2 ∧
    stby.takesFlit .field whole = true ∧ leAt (stby.evl.arriving ++ flitPayload whole) 0 2 ≤ (stby.evl.arriving ++ flitPayload whole).length ∧
    stby.evl.kennel.frozen = false ∧ stby.evl.kennel.lost = none ∧ stby.evl.kennel.staged.length < 64 ∧ stby.evl.flight = [] := by
  decide +kernel

theorem witness_LinkFaults : stby.link.engine.up = true ∧ mSTANDBY ≤ stby.mode ∧ stby.mode ≠ mSAFE ∧ stby.phase = .running ∧
    stby.mode ≠ mFILL ∧ ({ stby.link with training := true } : LinkSt).training = true ∧ sameCount 0 0 0 < 8 ∧
    (stby.linkEnd .engine).gotSame = 0 := by decide +kernel

/-- RawSamples: a strobe of the present frame and one of the frame before; a pack that sends, and with the link down. -/
theorem witness_RawSamples : stby.pack 0 = 1 ∧ stby.link.rawQ = [] ∧ stby.lanes.length = 384 ∧ (111 : Nat) < 112 ∧ 112 ≤ (112 : Nat) ∧
    31 / 32 = 0 ∧ (stby.lane 31).now.length = 128 ∧ (stby.lane 31).nowRep.length = 128 ∧ (stby.lane 31).old.length = 128 ∧
    (stby.lane 31).oldRep.length = 128 ∧ 32 / 32 ≠ 0 ∧ stby.sends 0 0 = true ∧ State.reset.sends 0 0 = false ∧
    stby.link.field.up = true ∧ State.reset.link.field.up = false ∧ State.reset.pack 0 = 0 := by decide +kernel

/-- RawSamples: a lane that is enabled and one that is disabled; an overrange; a result of 0, which is in range; the test level. -/
theorem witness_RawSamples_codes :
    let f : LaneForm := { on := true, typ := 1 }
    let s := stby.wr (Reg.CNV_LOFS 0 0) 0#32
    ({} : LaneForm).typ = 0 ∧ f.typ ≠ 0 ∧ ({ pins := -1, cm := true } : Conv).cm = true ∧ (s.lane 0).exc = none ∧
    nearest (s.corrected f 0 (laneSignal f 0 0 0 + mkRat 0 256)) = 0 ∧
    ({ f with inj := 1, level := 1 } : LaneForm).inj = 1 ∧ f.inj = 0 := by
  refine ⟨by decide, by decide, by decide, by decide +kernel, ?_, by decide, by decide⟩
  have a : laneSignal { on := true, typ := 1 } 0 0 0 + mkRat 0 256 = 0 := by decide +kernel
  have c : mkRat (sext 16 (field ({ on := true, typ := 1 } : LaneForm).ltrim 31 16)) 16 = 0 := by decide +kernel
  have d : mkRat (sext 16 (field (0#32 : Word) 15 0)) 16 = 0 := by decide +kernel
  rw [a]
  simp only [State.corrected, c, State.rd_wr_self, Rat.zero_mul, d, Rat.sub_self, Rat.add_zero, Nat.zero_div, Nat.zero_mod]
  decide +kernel

/-! ### Events, stores, memory -/

def rec0 : Rec := ⟨0x18, 0, 1, 0, 0, 0, zeros 16⟩

/-- Events: one that coalesces with the one before, one that does not, with a log that takes it; staging into a frozen, a free and a
full store. -/
theorem witness_Events :
    let e : Event := ⟨0x18, 0, zeros 16, 0, 0, everyLog, true⟩
    let s : State := { stby.setFlag (Reg.EVL_LCFG 0) 31 true with evl := { stby.evl with prev := some (e, 1), posted := [e] } }
    let full : State := s.setStore .kennel { staged := List.replicate 64 rec0 }
    let ice : State := s.setStore .kennel { frozen := true }
    let other : State := { s with evl := { s.evl with prev := none } }
    s.evl.posted = [e] ∧ s.coalesces e = true ∧ s.coalesces { e with typ := 1 } = false ∧ other.coalesces e = false ∧
    s.hasLog 0 = true ∧ natBit e.logs 0 = true ∧ (s.store (.log 0)).frozen = false ∧ (s.store (.log 0)).lost = none ∧
    (s.store (.log 0)).staged.length < 64 ∧ (ice.store .kennel).frozen = true ∧ rec0.src / 4096 ≠ 8 ∧
    (s.store .kennel).frozen = false ∧ (s.store .kennel).lost = none ∧ (s.store .kennel).staged.length < 64 ∧
    (full.store .kennel).frozen = false ∧ 64 ≤ (full.store .kennel).staged.length ∧ Store.log 0 ≠ .kennel := by decide +kernel

/-- StoreControl: a freeze, its end and a clear that are due; a freeze that has lasted its limit. -/
theorem witness_StoreControl :
    let on := withDue stby (storeCtl .kennel) 1#32
    let off := withDue stby (storeCtl .kennel) 0#32
    let clear := withDue stby (storeCtl .kennel) 2#32
    let ice := off.setStore .kennel { frozen := true }
    on.due (storeCtl .kennel) = some ⟨0, 1#32, hp0⟩ ∧ bit (1#32 : Word) 0 = true ∧ bit (1#32 : Word) 1 = false ∧
    (on.store .kennel).frozen = false ∧ off.due (storeCtl .kennel) = some ⟨0, 0#32, hp0⟩ ∧ (ice.store .kennel).frozen = true ∧
    ice.due (storeCtl .kennel) = some ⟨0, 0#32, hp0⟩ ∧ clear.due (storeCtl .kennel) = some ⟨0, 2#32, hp0⟩ ∧ bit (2#32 : Word) 1 = true ∧
    clear.storeWrites .kennel = true ∧ ({ clear with sup := { clear.sup with warning := true } } : State).storeWrites .kennel = false ∧
    freezeLimit .kennel ≤ ((ice.wr Reg.ENG_FRAME 16000#32).frame + 2 ^ 32 - (ice.store .kennel).frameOn) % 2 ^ 32 := by decide +kernel

theorem witness_Stores :
    let s : State := (stby.setFlag (Reg.EVL_LCFG 0) 31 true).setStore (.log 0) { staged := [rec0], loading := true }
    let k : State := stby.setStore .kennel { staged := [rec0] }
    let run : State := { stby.wr Reg.ENG_FRAME 257#32 with evl := { stby.evl with prev := some (⟨1, 0, [], 0, 0, 0, true⟩, 1) } }
    s.hasLog 0 = true ∧ (s.store (.log 0)).frozen = false ∧ (s.store (.log 0)).staged = rec0 :: [] ∧ (s.store (.log 0)).lost = none ∧
    stby.hasLog 0 = false ∧ (stby.store (.log 0)).staged = [] ∧ ({ stby.sup with running := false } : Sup).running = false ∧
    k.sup.running = true ∧ k.sup.warning = false ∧ k.evl.kennel.frozen = false ∧ k.evl.kennel.staged = rec0 :: [] ∧
    k.evl.kennel.lost = none ∧ run.evl.prev.isSome = true ∧ run.evl.prevClosed = false ∧
    256 < (run.frame + 2 ^ 32 - run.evl.prevFrame) % 2 ^ 32 ∧ s.writable hp0 (storeReach (.log 0)) (storeScope (.log 0)) = true ∧
    stby.writable hp0 (storeReach .kennel) (storeScope .kennel) = true ∧ (s.store (.log 0)).loading = true ∧ (63 : Nat) < 64 := by
  decide +kernel

theorem witness_MemoryReadAfterWrite : (2 ^ 33 - 1 : Nat) < 2 ^ 33 ∧ ((8, 2 ^ 33 - 1) : Nat × Nat) ≠ (0, 0) := by decide

/-- SyndromeDecides, each clause. -/
theorem witness_SyndromeDecides :
    syndrome 0#32 0 = 0 ∧ syndrome 0#32 64 = 2 ^ 6 ∧ syndrome 0#32 (eccColumn 31) = eccColumn 31 ∧ syndrome 0#32 127 = 127 ∧
    syndrome 0#32 3 ≠ 0 ∧ syndrome 0#32 3 ≠ 127 ∧ (∀ r, r < 7 → syndrome 0#32 3 ≠ 2 ^ r) ∧
    (∀ i, i < 32 → syndrome 0#32 3 ≠ eccColumn i) := by decide +kernel

theorem witness_SingleErrorsCorrected : (30 : Nat) < 31 ∧ 31 < 32 ∧ (5 : Nat) < 6 ∧ 6 < 7 := by decide

/-- LeakyBucket: a correction that is counted, with LIMIT 0, and with LIMIT 1 that it reaches; a leak that is due and one that is not. -/
theorem witness_LeakyBucket :
    let s := stby.wr (Reg.MEM_RBKTCFG 8) 0x10001#32
    let late : State := { s with time := { s.time with elapsed := 1000000 * nsUnit } }
    s.mst.wb.any (fun b => b.region == 8 && b.addr == 0 && b.syn == 1) = false ∧ 8 < 9 ∧ s.mst.since.length = 9 ∧ s.mst.leakAt.length = 9 ∧
    0 < s.fld (Reg.MEM_RBKTCFG 8) 15 0 ∧ s.fld (Reg.MEM_RBKTCFG 8) 15 0 ≤ min (s.fld (Reg.MEM_RBKT 8) 15 0 + 1) 65535 ∧
    ¬ 0 < (stby.wr (Reg.MEM_RBKTCFG 8) 0#32).fld (Reg.MEM_RBKTCFG 8) 15 0 ∧ late.fld (Reg.MEM_RBKTCFG 8) 31 16 = 1 ∧
    nth 0 late.mst.leakAt 8 + 1 * 1000000 * nsUnit ≤ late.time.elapsed ∧ ¬(nth 0 s.mst.leakAt 8 + 1 * 1000000 * nsUnit ≤ s.time.elapsed) := by
  decide +kernel

theorem witness_MemoryService :
    let s := stby.setFlag Reg.MEM_CFG 31 true
    let m : State := { s with mst := { s.mst with wb := [⟨8, 5, 1, 0, 0#32⟩], merge := [⟨4, 5, 0#32, 1⟩], retiring := [(4, 1, 0)] } }
    m.mst.wb.find? (fun b => b.region == 8 && b.addr == 5) = some ⟨8, 5, 1, 0, 0#32⟩ ∧
    m.mst.merge.find? (fun e => e.region == 4) = some ⟨4, 5, 0#32, 1⟩ ∧ (m.rdMem 4 5).2 = false ∧
    m.mst.retiring.find? (fun e => e.1 == 4) = some (4, 1, 0) ∧
    s.flag Reg.MEM_CFG 31 = true ∧ 0 < s.regionWords 8 ∧ s.mst.scrub.length = 9 ∧ stby.flag Reg.MEM_CFG 31 = false ∧
    ((0#32 : Word) ||| 1#32) &&& 0x70FFFFFC#32 = 0#32 ∧ ((0#32 : Word) ||| 2#32) &&& 0x70FFFFFC#32 = 0#32 ∧
    stby.writable hp0 .engine .global = true ∧ (s.setFld Reg.MEM_TREG 3 0 8).testCode = 0 ∧ s.testCode ≠ 0 ∧
    bit (0#32 : Word) 0 = false := by decide +kernel

/-! ### Lanes, slices, auxiliary converter, survey, measurement -/

/-- LaneWrites: the bounds of the lanes; a value without rsv bits for each register; a lane that sniff has and one that it has not. -/
theorem witness_LaneWrites :
    stby.writable hp0 .field (.owned (stby.laneOwner 255)) = true ∧ stby.writable hp0 .field (.owned (stby.bayOwner 31)) = true ∧
    stby.writable hp0 .engine (.owned (stby.laneOwner 383)) = true ∧ (0x100#32 : Word) &&& decLaneRsv 383 = 0#32 ∧
    (3#32 : Word) &&& 0x7FFFFFCC#32 = 0#32 ∧ (3#32 : Word) &&& 0x3FFFFF8C#32 = 0#32 ∧ (3#32 : Word) &&& 0x0080FF00#32 = 0#32 ∧
    ((1#32 : Word) ||| 2#32) &&& 0xFFFFFF0C#32 = 0#32 ∧ stby.flag (Reg.AFE_LSTAT 255) 12 = false ∧ stby.lanes.length = 384 ∧
    (stby.setFlag (Reg.AFE_LSTAT 255) 12 true).flag (Reg.AFE_LSTAT 255) 12 = true := by decide +kernel

/-- LaneEffects, each clause: a mode that permits, a pack that is on and one that is off, a lane that is enabled thereby, a lane that
sniff has. -/
theorem witness_LaneEffects :
    let s := withDue (withDue stby (Reg.AFE_LANE 31) 0x11#32) (Reg.AFE_INJ 31) 3#32
    s.lanes.length = 384 ∧ s.due (Reg.AFE_LANE 31) = some ⟨0, 0x11#32, hp0⟩ ∧ s.permits = true ∧ s.packOn 31 = true ∧ s.typ 31 = 0 ∧
    field (0x11#32 : Word) 5 4 ≠ 0 ∧ (s.wr Reg.PWR_PACKSTAT 0#32).packOn 31 = false ∧
    (s.setFld Reg.SYS_MODE 2 0 mSERVICE).permits = false ∧ s.waiting (Reg.AFE_INJ 31) = [⟨0, 3#32, hp0⟩] ∧
    frameReached s.frame 0 = true ∧ stby.waiting (Reg.AFE_INJ 31) = [] ∧ s.flag (Reg.AFE_LSTAT 31) 12 = false ∧
    (s.setFlag (Reg.AFE_LSTAT 31) 12 true).flag (Reg.AFE_LSTAT 31) 12 = true := by decide +kernel

/-- Slices: a trim, a level trim and a control that are due; windows that are complete; a lock with the correction held and not. -/
theorem witness_Slices :
    let s := withDue (withDue (withDue stby (Reg.CNV_STRIM 31 7) 5#32) (Reg.CNV_LTRIM 31 7) 5#32) (Reg.CNV_CTRL 31) 2#32
    let w := stby.modBay 31 (fun x => { x with offWin := 512, gainWin := 2048 })
    s.waiting (Reg.CNV_STRIM 31 7) = [⟨0, 5#32, hp0⟩] ∧ s.waiting (Reg.CNV_LTRIM 31 7) = [⟨0, 5#32, hp0⟩] ∧
    s.waiting (Reg.CNV_CTRL 31) = [⟨0, 2#32, hp0⟩] ∧ bit (2#32 : Word) 1 = true ∧ frameReached s.frame 0 = true ∧
    (∀ k, k < 8 → stby.waiting (Reg.CNV_STRIM 31 k) = [] ∧ stby.waiting (Reg.CNV_LTRIM 31 k) = []) ∧
    stby.waiting (Reg.CNV_CTRL 31) = [] ∧ s.bays.length = 48 ∧ s.lanes.length = 384 ∧ w.offsetEnds 31 = true ∧ w.gainEnds 31 = true ∧
    stby.offsetEnds 31 = false ∧ stby.pack 7 = 1 ∧ State.reset.pack 7 ≠ 1 ∧ stby.flag (Reg.CNV_STAT 31) 0 = false ∧
    (stby.setFlag (Reg.CNV_STAT 31) 0 true).flag (Reg.CNV_STAT 31) 0 = true ∧ stby.injection 0 ≠ 2 := by decide +kernel

/-- Slices: a lane under the ramp whose codes cross zero between strobes 17 and 18, averaging over one frame and over two; one whose
codes do not cross; a level whose frames are summed. -/
theorem witness_Slices_crossing :
    let s := (stby.setFld (Reg.AFE_LSTAT 8) 11 10 2).setFld (Reg.AFE_LSTAT 8) 5 4 1
    let t := s.modLane 8 (fun x => { x with codes := modAt x.codes 17 (fun _ => 0xFFF0#16) })
    let l := ((stby.setFld (Reg.AFE_LSTAT 8) 11 10 1).setFld (Reg.AFE_LSTAT 8) 5 4 1).modLane 8 (fun x => { x with dcCnt := 128 })
    crossing (t.lane 8).codes = some (17, -16, 0) ∧ (t.lane 8).skCnt + 1 = t.avg 1 ∧ t.injection 8 = 2 ∧
    (t.lane 8).meas = false ∧ t.typ 8 ≠ 0 ∧ crossing (s.lane 8).codes = none ∧
    (t.lane 8).skCnt + 1 ≠ (t.modBay 1 (fun x => { x with cnvCtrl := 0x10#32 })).avg 1 ∧
    l.injection 8 = 1 ∧ l.typ 8 ≠ 0 ∧ l.avg 1 ≤ (l.lane 8).dcCnt := by decide +kernel

/-- FilterChain: the frame formed and not; a lane of a pack that was off, one that was disabled, one that was enabled; the rows. -/
theorem witness_FilterChain :
    let s := withDue (withDue (withDue stby (Reg.DEC_LANE 383) 1#32) (Reg.DEC_HI 383) 9#32) (Reg.DEC_HH 382) 9#32
    s.lanes.length = 384 ∧ s.run.formed = true ∧ ({ s.run with formed := false } : RunSt).formed = false ∧
    (s.lane 0).form.on = false ∧ ({ on := true } : LaneForm).typ = 0 ∧ ({ on := true, typ := 1 } : LaneForm).typ ≠ 0 ∧
    s.due (Reg.DEC_LANE 383) = some ⟨0, 1#32, hp0⟩ ∧ s.permits = true ∧
    (s.setFld Reg.SYS_MODE 2 0 mTEST).permits = false ∧ s.waiting (Reg.DEC_HI 383) = [⟨0, 9#32, hp0⟩] ∧
    s.waiting (Reg.DEC_HH 383) = [] ∧ s.waiting (Reg.DEC_HH 382) = [⟨0, 9#32, hp0⟩] ∧ s.waiting (Reg.DEC_HI 382) = [] ∧
    frameReached s.frame 0 = true ∧
    ((s.modLane 0 (fun x => { x with intPend := true })).lane 0).intPend = true ∧ (s.lane 1).intPend = false := by decide +kernel

/-- AuxConverter, each clause: no scan, a scan that goes on, one whose entry is full, an urgent request free and taken, channels 47 and
48, a window whose codes fit; the starts; a compare that has been reached, and one whose write is due. -/
theorem witness_AuxConverter :
    let scan := stby.setFlag Reg.AUX_STAT 0 true
    let more : State := { scan with aux := { scan.aux with scfg := 0x01000000#32, entries := [3] } }
    let ready : State := { (stby.wr Reg.ENG_FRAME 32#32) with aux := { stby.aux with refAt := some 0 } }
    let armed := stby.setFlag Reg.AUX_STAT 3 true
    let fire : State := { armed with aux := { armed.aux with cfg := 2#32 } }
    let far : State := { armed with aux := { armed.aux with cmp := 1#32 } }
    let cfgs := withDue (withDue (withDue (withDue stby Reg.AUX_CFG 1#32) Reg.AUX_MASK_LO 1#32) Reg.AUX_MASK_HI 1#32) Reg.AUX_CMP 1#32
    stby.aux.urg = none ∧ stby.flag Reg.AUX_STAT 0 = false ∧ scan.flag Reg.AUX_STAT 0 = true ∧
    more.aux.cnt + 1 < 2 ^ min 8 (field more.aux.scfg 27 24) ∧ 2 ^ min 8 (field scan.aux.scfg 27 24) ≤ scan.aux.cnt + 1 ∧
    scan.aux.idx < 32 ∧ scan.aux.entries.length ≤ scan.aux.idx + 1 ∧ field (47#32 : Word) 5 0 < 48 ∧ 48 ≤ field (48#32 : Word) 5 0 ∧
    (47#32 : Word) &&& 0x7FFFFFC0#32 = 0#32 ∧ ((0#32 : Word) ||| 1#32) &&& 0xFFFFFFFE#32 = 0#32 ∧
    ({ stby.aux with urg := some 3 } : AuxSt).urg.isSome = true ∧ stby.writable hp0 .field .global = true ∧
    ready.windowRuns = true ∧ ready.windowChannels.length = 18 ∧ stby.windowRuns = false ∧
    stby.auxStart = 0 ∧ fire.auxStart = 2 ∧ ({ stby with aux := { stby.aux with cfg := 1#32 } } : State).auxStart = 1 ∧
    stby.frame % 2 ^ min 8 (field (1#32 : Word) 11 8) = 0 ∧ fire.flag Reg.AUX_STAT 3 = true ∧ fire.auxReached = true ∧
    far.auxReached = false ∧ armed.auxStart ≠ 2 ∧
    cfgs.waiting Reg.AUX_CFG = [⟨0, 1#32, hp0⟩] ∧ cfgs.waiting Reg.AUX_MASK_LO = [⟨0, 1#32, hp0⟩] ∧
    cfgs.waiting Reg.AUX_MASK_HI = [⟨0, 1#32, hp0⟩] ∧ cfgs.waiting Reg.AUX_CMP = [⟨0, 1#32, hp0⟩] ∧ frameReached cfgs.frame 0 = true ∧
    stby.waiting Reg.AUX_CFG = [] ∧ stby.waiting Reg.AUX_MASK_LO = [] ∧ stby.waiting Reg.AUX_CMP = [] := by decide +kernel

/-- Surveys: the command with and without a survey, with and without a plan. -/
theorem witness_Surveys :
    let s := withDue stby Reg.SNF_CMD 4#32
    let stop := (withDue stby Reg.SNF_CMD 0#32).setFlag Reg.SNF_CMD 30 true
    (4#32 : Word) &&& 0x3FFFFFC0#32 = 0#32 ∧ s.waiting Reg.SNF_CMD = [⟨0, 4#32, hp0⟩] ∧ frameReached s.frame 0 = true ∧
    stby.waiting Reg.SNF_CMD = [] ∧ s.surveyRuns = false ∧ field (4#32 : Word) 5 0 ≠ 0 ∧
    s.planRuns = true ∧ (s.setFlag Reg.PWR_TRIAD 8 false).planRuns = false ∧ stop.waiting Reg.SNF_CMD = [⟨0, 0#32, hp0⟩] ∧
    field (0#32 : Word) 5 0 = 0 ∧ stop.surveyRuns = true ∧ (s.setFlag Reg.SNF_CMD 30 true).surveyRuns = true ∧
    stop.sniff.closing = false := by decide +kernel

/-- Surveys: each row of a running one: the items' steps and their ends, the cable item, the exchanges of a port, the end. -/
theorem witness_Surveys_rows :
    let run := stby.setFlag Reg.SNF_CMD 30 true
    let load : State := withRun { run with sniff := { run.sniff with items := [2], left := 4 } } 6 0
    let topo : State := withRun { run with sniff := { run.sniff with items := [4], left := 1 } } 6 0
    let bus : State := withRun { run with sniff := { run.sniff with
      items := [5], left := 4, ports := List.replicate 4 { linked := true } } } 6 0
    let inputs : State := { run with sniff := { run.sniff with items := [3], frames := 16, diSeen := 1 } }
    let inputs : State := { inputs with fio := { inputs.fio with di := modAt inputs.fio.di 0 (fun x => { x with supervised := true }) } }
    let outs : State := { run with sniff := { run.sniff with items := [2, 1], frames := 8, doMask := 1#32, onSeen := 1#32 } }
    let cable : State := { run with sniff := { run.sniff with items := [1], bay := some 0, lanes := [0], wait := 256 } }
    let busy := cable.setFld (Reg.AFE_LSTAT 0) 11 10 1
    let step : State := { cable.wr Reg.ENG_FRAME 16#32 with sniff := { cable.sniff with stepAt := some 0 } }
    load.surveyRuns = true ∧ load.sniff.left ≠ 0 ∧ load.canRun 6 0 = true ∧ load.sniff.items.head? = some 2 ∧
    topo.sniff.items.head? = some 4 ∧ topo.canRun 6 0 = true ∧ topo.sniff.left ≠ 0 ∧
    bus.sniff.items.head? = some 5 ∧ bus.canRun 6 0 = true ∧ bus.sniff.ports.length = 4 ∧ bus.sniff.left ≤ 4 ∧
    (nth {} bus.sniff.ports (4 - bus.sniff.left)).linked = true ∧
    inputs.surveyRuns = true ∧ inputs.sniff.items = 3 :: [] ∧ inputs.sniff.left = 0 ∧ itemFrames 3 ≤ inputs.sniff.frames ∧
    (nth {} inputs.fio.di 0).supervised = true ∧ natBit inputs.sniff.diSeen 0 = true ∧ (nth {} inputs.fio.di 1).supervised = false ∧
    outs.sniff.items = 2 :: [1] ∧ itemFrames 2 ≤ outs.sniff.frames ∧ bit outs.sniff.doMask 0 = true ∧
    cable.sniff.items.head? = some 1 ∧ cable.sniff.bay.isSome = true ∧ cable.sniff.stepAt = none ∧ cable.sniff.left = 0 ∧
    cable.sniff.lanes.any cable.hostInjects = false ∧ busy.sniff.lanes.any busy.hostInjects = true ∧
    busy.cableWaits = true ∧ 256 ≤ busy.sniff.wait ∧ stby.sniff.wait < 256 ∧
    step.sniff.stepAt = some 0 ∧ step.sniff.bay = some (0 : Fin 32).val ∧ step.surveyRuns = true ∧ 16 ≤ (step.frame + 2 ^ 32 - 0) % 2 ^ 32 ∧
    ({ run with sniff := { run.sniff with closing := true } } : State).sniff.closing = true := by decide +kernel

/-- Surveys: a response, its follow-up, and a request that stays unanswered. -/
theorem witness_Surveys_exchange :
    let run := stby.setFlag Reg.SNF_CMD 30 true
    let frame := fun (ty : Byte) =>
      etherOctets 0 0 [] 0x88F7#16 ([ty] ++ zeros 29 ++ [0#8, 1#8] ++ zeros 20 ++ [0xFF#8, 0#8]) []
    let x : PdelaySt := { linked := true, waiting := true, left := 1 }
    let s : State := { run with sniff := { run.sniff with items := [5], ports := List.replicate 4 x } }
    let next : State := { s with sniff := { s.sniff with ports := List.replicate 4 { x with resp := some (2, 4) } } }
    let late : State := s.wr Reg.ENG_FRAME 1600#32
    let last : State := { late with sniff := { late.sniff with ports := List.replicate 4 { x with left := 0 } } }
    let o := etypeOff (frame 3#8) + 2
    sniffPtp 0 (frame 3#8) = true ∧ sniffPtp 1 (frame 3#8) = false ∧ sniffPtp 0 (frame 10#8) = true ∧
    beAt (frame 3#8) o 1 % 16 = 3 ∧ beAt (frame 10#8) o 1 % 16 ≠ 3 ∧ beAt (frame 3#8) (o + 30) 2 + x.left = 2 ∧
    beAt (frame 10#8) (o + 30) 2 + x.left = 2 ∧ s.surveyRuns = true ∧ s.sniff.items.head? = some 5 ∧ s.sniff.ports.length = 4 ∧
    (nth {} s.sniff.ports 0).waiting = true ∧ (nth {} next.sniff.ports 0).resp = some (2, 4) ∧
    (nth {} s.sniff.ports 0).linked = true ∧ (nth {} s.sniff.ports 0).done = false ∧ s.sniff.left + 0 < 4 ∧
    1600 ≤ (late.frame + 2 ^ 32 - (nth {} late.sniff.ports 0).sent) % 2 ^ 32 ∧ (nth {} late.sniff.ports 0).left ≠ 0 ∧
    (nth {} last.sniff.ports 0).left = 0 ∧ ({ x with done := true } : PdelaySt).done = true := by decide +kernel

/-- Measurement: a setting that is due; ports that may read, may not, and do not reach; runs with the words formed, with and without
the harmonic service. -/
theorem witness_Measurement :
    let s := withDue stby (Reg.MSR_CFG 47) 1#32
    let h := withRun (s.modBay 47 (fun x => { x with cfg := 1#32 })) 1 47
    s.waiting (Reg.MSR_CFG 47) = [⟨0, 1#32, hp0⟩] ∧ s.waiting (Reg.MSR_SYNC 47) = [] ∧ frameReached s.frame 0 = true ∧
    s.bays.length = 48 ∧ s.writable hp0 .engine (.owned (s.bayOwner 47)) = true ∧ s.reaches hp0 .engine = true ∧
    s.right hp0 (.owned (s.bayOwner 47)) ≠ 0 ∧
    s.right (.hp 1) (.owned (s.bayOwner 47)) = 0 ∧ ({ s with phase := .held } : State).reaches hp0 .engine = false ∧
    (1#32 : Word) &&& 0x000008C8#32 = 0#32 ∧ stby.canRun 1 47 = false ∧ h.canRun 1 47 = true ∧ h.run.formed = true ∧
    bit (h.bay 47).cfg 0 = true ∧ (withRun s 1 47).canRun 1 47 = true ∧ bit (s.bay 47).cfg 0 = false ∧
    (withRun s 2 47).canRun 2 47 = true := by decide +kernel

/-! ### Protection, waves, triad -/

/-- Settings: a window loaded and not; a commit submitted, at its check refused and accepted, and due; an item that is defined. -/
theorem witness_Settings :
    let d := stby.setFlag (Reg.PEL_ICFG 0) 31 true
    let s : State := { d with pel := { d.pel with
      wins := List.replicate 5 { loaded := true, shadow := [0#32], subs := [(0, 0, [0#32])] }, insts := [{ commit := some (0, [7#32], hp0) }] } }
    s.pel.wins.length = 5 ∧ (s.win hp0).loaded = true ∧ s.fld (winKey hp0 Reg.PEL_SIDX) 6 0 < (s.win hp0).shadow.length ∧
    field (0#32 : Word) 26 16 = s.fld (winKey hp0 Reg.PEL_SIDX) 26 16 ∧
    (stby.win hp0).loaded = false ∧ s.writable hp0 .engine .own = true ∧ (0#32 : Word) &&& 0xF800FF80#32 = 0#32 ∧
    ((0#32 : Word) ||| 1#32) &&& 0xFFFFFFFE#32 = 0#32 ∧ (s.win hp0).subs = (0, 0, [0#32]) :: [] ∧ frameReached s.frame 0 = true ∧
    frameReached s.frame 3 = false ∧
    (stby.win hp0).subs = [] ∧ (s.commitCode hp0 1 [0#32]).1 ≠ 0 ∧ 0 < s.pel.insts.length ∧ (s.elem 0).commit = some (0, [7#32], hp0) ∧
    s.idef 0 = true ∧ stby.idef 0 = false ∧ s.writable hp0 .engine (.owned (s.settingOwner 0)) = true ∧
    (1#32 : Word) &&& 0xFFFFFFFC#32 = 0#32 ∧ ((1#32 : Word) ||| 2#32) &&& 0xFFFFFFFC#32 = 0#32 := by decide +kernel

/-- Jobs: an element of class 17 at its turn, blocked and not; a capture that is complete and one that is not. -/
theorem witness_Jobs :
    let s := inTurn ((stby.setFlag (Reg.PEL_ICFG 0) 31 true).setFld (Reg.PEL_ICFG 0) 28 24 17)
    let s : State := { s with pel := { s.pel with insts := [{}] } }
    let b : State := { s with triad := { s.triad with image := [(7960, 1#32)] } }
    let c := (s.setFld (Reg.PEL_ICFG 0) 28 24 14).wr Reg.ENG_FRAME 2#32
    let c : State := { c with pel := { c.pel with insts := [{ cap := some {} }] } }
    s.idef 0 = true ∧ s.jobTurn 0 = true ∧ (s.ranJob 0).jobTurn 0 = false ∧ stby.idef 0 = false ∧ 0 < s.pel.insts.length ∧
    s.iblocked 0 = false ∧ s.icls 0 = 17 ∧ b.iblocked 0 = true ∧ b.jobTurn 0 = true ∧
    (c.elem 0).cap = some {} ∧ c.jobPlace 0 = true ∧ c.planRuns = true ∧ c.icls 0 = 14 ∧ 0 < c.pel.insts.length ∧
    frameReached c.frame ((0 + 0 + 2) % 2 ^ 32) = true ∧ frameReached s.frame ((0 + 0 + 2) % 2 ^ 32) = false ∧
    (s.elem 0).cap = none := by decide +kernel

/-- Jobs: a word of the shared SRAM, or of one member's own, that cannot be read; what the members then agree on. -/
theorem witness_Jobs_poison :
    let bad := fun (r : Nat) => ({ stby with mem := [(cellAddr r 0 0, 3#8)] } : State)
    (bad 3).jobPoison { shared := [0] } 0 = .input ∧ (bad 0).jobPoison { own := [0] } 0 = .own ∧
    ((bad 3).agreed ((bad 3).jobPoison { shared := [0] }) {}).1 = .input ∧
    (bad 0).agreed ((bad 0).jobPoison { own := [0] }) {} = (.clean, { n1 := some 0, n2 := some 0, n3 := some 0 }) ∧
    ((bad 3).agreed (fun m => decide ((bad 3).jobPoison { shared := [0] } m ≠ .clean)) {}).1 = true := by decide +kernel

/-- Jobs: a zone at its turn, blocked by its scheme bit; the closure job at its turn and before it; an output forced, one that is not, and
one of no partition. -/
theorem witness_Jobs_closure :
    let z := inTurn (stby.setFlag (Reg.PEL_ZCFG 0) 31 true)
    let z : State := { z with pel := { z.pel with zones := [{}] } }
    let z := z.modPart 0 (fun x => { x with vars := x.vars.setBit 0 true })
    let o := stby.modDout 0 (fun x => { x with owner := some 0 })
    let f := o.modPart 0 (fun x => { x with forces := [⟨4, 0, 1#32, 0⟩] })
    z.zdef 0 = true ∧ z.jobTurn 1024 = true ∧ 0 < z.pel.zones.length ∧
    z.schemeBit (some (z.zpart 0)) (field (z.zsetW 0 0) 15 0) = true ∧ stby.zdef 0 = false ∧
    z.jobTurn 4096 = false ∧ (z.ranJob 1024).jobTurn 4096 = true ∧ (inTurn stby).jobTurn 4096 = true ∧
    (stby.dout 0).owner = none ∧ (o.dout 0).owner = some 0 ∧ o.forced 4 0 = none ∧ f.forced 4 0 = some 1#32 := by decide +kernel

/-- TravelingWaves: detections to evaluate and evaluated; a bay to arm again; an event to record; settings; a capture that is complete;
the first and the last slice of a request, with its buffer and without, and of a double-ended one. -/
theorem witness_TravelingWaves :
    let s := withDue (withDue stby (Reg.TWV_LCFG 255) 1#32) (Reg.TWV_BCFG 31) 1#32
    let seen := s.modTwBay 0 (fun x => { x with seen := some s.frame })
    let back := (s.wr Reg.ENG_FRAME 2#32).modTwBay 31 (fun x => { x with rearm := some 0, events := [{}] })
    let u : TwBuf := { bay := 0, ev := {}, d := [], fl := List.replicate 2048 0 }
    let full : State := { s with tw := { s.tw with bufs := List.replicate 8 (some u) } }
    let ask := fun (q : TwReq) (w : State) => withRun { w with tw := { w.tw with queue := [q] } } 3 0
    let q : TwReq := { bay := 0, ev := {}, buf := some 7 }
    let first := ask q full
    let last := ask { q with done := 3 } full
    s.run.formed = true ∧ (s.twBay 0).seen ≠ some s.frame ∧ (seen.twBay 0).seen = some seen.frame ∧ s.tw.bays.length = 32 ∧
    s.twOpens 0 = none ∧ (nth none full.tw.bufs 0).isSome = true ∧ (back.twBay 31).rearm = some 0 ∧
    frameReached back.frame ((0 + 2) % 2 ^ 32) = true ∧ (s.twBay 31).rearm = none ∧ (back.twBay 31).events = {} :: [] ∧
    (s.twBay 31).events = [] ∧ s.tw.lanes.length = 256 ∧ s.waiting (Reg.TWV_LCFG 255) = [⟨0, 1#32, hp0⟩] ∧
    s.waiting (Reg.TWV_LCORR 255) = [] ∧ s.waiting (Reg.TWV_BCFG 31) = [⟨0, 1#32, hp0⟩] ∧ frameReached s.frame 0 = true ∧
    nth none full.tw.bufs 7 = some u ∧ u.queued = false ∧ 2048 ≤ u.fl.length ∧ nth none s.tw.bufs 7 = none ∧
    s.canRun 3 0 = false ∧ (withRun s 3 0).canRun 3 0 = true ∧ (withRun s 3 0).tw.queue = [] ∧
    first.canRun 3 0 = true ∧ first.tw.queue = q :: [] ∧ q.done + 1 < 4 ∧ last.canRun 3 0 = true ∧ ¬(3 + 1 < 4) ∧
    nth none last.tw.bufs 7 = some u ∧ nth none (ask { q with done := 3 } s).tw.bufs 7 = none ∧
    ({ q with buf := none } : TwReq).buf = none := by decide +kernel

/-- TravelingWaves: the codes of a double-ended request. -/
theorem witness_TravelingWaves_codes :
    let s := withDue stby (Reg.TWV_DCMD 31) 1#32
    let one := s.modTwBay 31 (fun x => { x with last := some {} })
    let both := s.modTwBay 31 (fun x => { x with last := some {}, set := { x.set with cfg := 0x4000#32 } })
    let full : State := { both with tw := { both.tw with queue := [{ bay := 31, ev := {}, buf := none }] } }
    ((0#32 : Word) ||| 1#32) &&& 0x70FFFFFE#32 = 0#32 ∧ s.writable hp0 .engine (.owned (s.bayOwner 31)) = true ∧
    stby.due (Reg.TWV_DCMD 31) = none ∧ s.waiting (Reg.TWV_DCMD 31) = [⟨0, 1#32, hp0⟩] ∧ frameReached s.frame 0 = true ∧
    (s.twBay 31).last = none ∧ (one.twBay 31).last = some {} ∧ (one.wr (Reg.TWV_DEVNO 31) 1#32).rd (Reg.TWV_DEVNO 31) ≠ 0#32 ∧
    one.rd (Reg.TWV_DEVNO 31) = 0#32 ∧ bit (one.twBay 31).set.cfg 14 = false ∧ bit (both.twBay 31).set.cfg 14 = true ∧
    both.rd (Reg.TWV_DEVNO 31) = 0#32 ∧ (both.twBay 31).last = some {} ∧
    both.tw.queue.any (fun r => r.bay == 31 && r.buf.isNone) = false ∧
    full.tw.queue.any (fun r => r.bay == 31 && r.buf.isNone) = true := by decide +kernel

/-- TriadChecks: each check at its turn and outside it; signatures that agree, and three that differ; a self-test that passes, and one
that finds voter 0; a sweep with an even verdict, and of the last slot. -/
theorem witness_TriadChecks :
    let go : State := stby
    let tested : State := { stby with triad := { stby.triad with tested := true } }
    let check : State := { stby with triad := { stby.triad with turn := 1 } }
    let sweep : State := { stby.setFld Reg.ENG_TSTAT 2 0 1 with triad := { stby.triad with turn := 3 } }
    let fail := [[true, false, false], [true, false, false], [false, false, false]]
    go.planRuns = true ∧ go.triad.turn = 0 ∧ go.swapNow = false ∧ go.triad.tested = false ∧ tested.triad.tested = true ∧
    (stby.setFlag Reg.PWR_TRIAD 8 false).planRuns = false ∧ go.members = [0, 1, 2] ∧ nth 0#64 [] 0 = (0#64 : BitVec 64) ∧
    allSame (go.members.map (fun m => (m, 5#64 ^^^ nth 0#64 [0#64, 0#64, 0#64] m))) = true ∧
    [nth 0#64 [1#64, 2#64, 3#64] 0, nth 0#64 [1#64, 2#64, 3#64] 1, nth 0#64 [1#64, 2#64, 3#64] 2].Nodup ∧
    check.triad.turn = 1 ∧ check.triad.tested = false ∧ go.triad.turn ≠ 1 ∧
    2 ≤ (fail.filter (fun l => nth false l 0)).length ∧ (∀ y, y < 3 → ¬ 2 ≤ (([] : List (List Bool)).filter (fun l => nth false l y)).length) ∧
    sweep.planRuns = true ∧ sweep.triad.turn = 3 ∧ sweep.members.filter sweep.sweeps = [0] ∧ sweep.slot = 0 ∧
    (sweep.wr Reg.ENG_FRAME 255#32).slot = 255 ∧
    latentVerdict [(0, 5#64)] [] = none ∧ ({ stby.triad with turn := 2, held := true } : TriadSt).held = true ∧
    ({ stby.triad with units := [(1, [0#32])] } : TriadSt).units = (1, [0#32]) :: [] := by decide +kernel

/-- A word that no cell lists reads zero without error. -/
theorem rdMem_empty (s : State) (r w : Nat) (h : s.mem = []) : s.rdMem r w = (0#32, false) := by
  have get : ∀ a, Memory.get s.mem a = 0#8 := by intro a; rw [h]; rfl
  have data : s.rawData r w = 0#32 := by simp only [State.rawData, get]; decide
  have chk : s.rawCheck r w = 0 := by simp only [State.rawCheck, get]; decide
  simp only [State.rdMem, data, chk]
  decide +kernel

theorem even_of_one (s : State) (a : List (BitVec 64)) (h : s.members.filter s.sweeps = [0]) (m : s.mem = []) :
    latentVerdict ((s.members.filter s.sweeps).map (fun m => (m, s.sliceHash m ^^^ nth 0#64 a m)))
      ((s.members.filter s.sweeps).filter s.sliceBad) = none := by
  have g : s.sliceBad 0 = false := by simp [State.sliceBad, rdMem_empty s _ _ m]
  rw [h]
  generalize s.sliceHash = f
  simp [latentVerdict, allSame, g]

/-- A frame of the sweep in which member A alone is swept. -/
def sweepA : State := { stby.setFld Reg.ENG_TSTAT 2 0 1 with triad := { stby.triad with turn := 3 } }

/-- TriadChecks: its slice holds no bad word, so the verdict is even, whatever it hashes. -/
theorem witness_TriadChecks_even :
    latentVerdict ((sweepA.members.filter sweepA.sweeps).map (fun m => (m, sweepA.sliceHash m ^^^ nth 0#64 [] m)))
      ((sweepA.members.filter sweepA.sweeps).filter sweepA.sliceBad) = none :=
  even_of_one sweepA [] (by decide +kernel) rfl

/-- Heeling: a request accepted and one refused; a copy that is complete; probation. -/
theorem witness_Heeling :
    let s := withDue ((stby.setFld Reg.SYS_MODE 2 0 mDEGRADED).setFld Reg.ENG_TSTAT 2 0 6) Reg.ENG_HEEL 0x11#32
    let copy := (s.setFlag Reg.ENG_TSTAT 8 true).wr Reg.ENG_FRAME 64#32
    ((0x10#32 : Word) ||| 1#32) &&& 0x3000FFCE#32 = 0#32 ∧ s.writable hp0 .engine .global = true ∧
    s.due Reg.ENG_HEEL = some ⟨0, 0x11#32, hp0⟩ ∧ field (0x11#32 : Word) 5 4 = 1 ∧ s.heelCode 1 = 0 ∧ stby.heelCode 1 ≠ 0 ∧
    stby.due Reg.ENG_HEEL = none ∧ copy.flag Reg.ENG_TSTAT 8 = true ∧ 64 ≤ (copy.frame + 2 ^ 32 - copy.triad.heelFrom) % 2 ^ 32 ∧
    (s.setFlag Reg.ENG_TSTAT 9 true).flag Reg.ENG_TSTAT 9 = true ∧ s.flag Reg.ENG_TSTAT 9 = false := by decide +kernel

/-- VerdictTable: FULL, M2, V2 and SAFE; an exclusion, and an entry to SAFE. -/
theorem witness_VerdictTable :
    let m2 := stby.setFld Reg.ENG_TSTAT 2 0 6
    let v2 := stby.setFld Reg.ENG_TSTAT 6 4 6
    stby.run.safeNext = none ∧ stby.mode ≠ mSAFE ∧ mSTANDBY ≤ stby.mode ∧ stby.isM2 = false ∧ stby.isV2 = false ∧ m2.isM2 = true ∧
    v2.isM2 = false ∧ v2.isV2 = true ∧ (stby.setFld Reg.SYS_MODE 2 0 mSAFE).mode = mSAFE ∧
    stby.consequence (.member 2) = .excludeMember 2 ∧ stby.consequence (.voter 2) = .excludeVoter 2 ∧ (2 : Nat) < 3 ∧
    stby.consequence .noMaj = .safe 1 := by decide +kernel

/-! ### Mydun, forces, recorders -/

theorem witness_BitInstructions :
    opndOk bitRead true ⟨0, 0⟩ = true ∧ opndOk bitWrite true ⟨0, 0⟩ = true ∧ opndOk bitWrite true ⟨9, 0⟩ = true ∧
    ((stby.modDout 0 (fun x => { x with owner := some 0 })).dout 0).owner = some stby.ctx.part ∧ opndOk [5] false ⟨5, 0⟩ = true ∧
    stby.overruns stby.ctx 8 = false ∧ stby.ctx.stack.length ≤ 4 ∧ stby.isForced 0 0 0 = false ∧
    (stby.modPart 0 (fun x => { x with forces := [⟨0, 0, 1#32, 0⟩] })).isForced 0 0 0 = true := by decide +kernel

/-- TimerInstructions: TP's start, its pulse and its rest; TOF's two rows. -/
theorem witness_TimerInstructions :
    let r := stby.ctx
    let x := r.vars.timer 1023
    opndOk [3] false ⟨3, 1023⟩ = true ∧ stby.overruns stby.ctx 8 = false ∧ ({ r with bacc := true } : RunCtx).bacc = true ∧
    r.bacc = false ∧ x.pin = false ∧ x.q = false ∧ ({ x with q := true, pt := 2 ^ 31 - 1 } : Timer).q = true ∧
    min (2 ^ 31 - 1) (x.et + 5) < 2 ^ 31 - 1 := by decide +kernel

/-- TimerInstructions: TP's pulse that runs on, one whose time is up as the input rises, and one at rest. -/
theorem witness_TimerInstructions_tp :
    let x : Timer := { pt := 10, et := 4, q := true }
    min (2 ^ 31 - 1) (x.et + 5) < x.pt ∧ ¬ min (2 ^ 31 - 1) (x.et + 6) < x.pt ∧ x.pin = false ∧ ({} : Timer).q = false := by decide

theorem witness_CounterInstructions :
    let s := (stby.setFld (Reg.SLX_VIDX 3) 25 22 4).setFld (Reg.SLX_VIDX 3) 29 28 2
    opndOk [4] false ⟨4, 511⟩ = true ∧ s.overruns s.ctx 6 = false ∧ bit (s.rd (Reg.SLX_VIDX 3)) 31 = false ∧
    s.fld (Reg.SLX_VIDX 3) 25 22 = 4 ∧ s.fld (Reg.SLX_VIDX 3) 29 28 = 2 := by decide +kernel

theorem witness_WordInstructions :
    opndOk fpRead false ⟨1, 0⟩ = true ∧ opndOk intRead false ⟨2, 0⟩ = true ∧ opndOk [1] false ⟨1, 2047⟩ = true ∧
    opndOk [2] false ⟨2, 511⟩ = true ∧ stby.overruns stby.ctx 14 = false := by decide +kernel

/-- WordInstructions: a NaN and none, each kind of quotient by zero, a negative operand, and the ends of FTOI. -/
theorem witness_WordInstructions_corners :
    isNaN 0x7FC00000#32 = true ∧ isNaN 0x3F800000#32 = false ∧ fpDec 0x80000000#32 = .zero true ∧
    fpDec 0x00000001#32 = .zero false ∧ fpLt 0xBF800000#32 0#32 = true ∧ fpLe 0x4F000000#32 0x7F800000#32 = true ∧
    fpLe 0xFF800000#32 0xCF000000#32 = true ∧ fpLt 0xCF000000#32 0x3F800000#32 = true ∧ fpLt 0x3F800000#32 0x4F000000#32 = true := by
  decide +kernel

/-- ControlFlow: a run its budget covers, one it does not. -/
theorem witness_ControlFlow :
    let b := stby.modPart 0 (fun x => { x with prog := { x.prog with tasks := List.replicate 8 { valid := true, tierB := true } } })
    stby.ctx.part < 4 ∧ stby.overruns stby.ctx 1 = false ∧ stby.overruns stby.ctx 2 = false ∧ stby.ctx.cycles < 60000 ∧
    b.overruns b.ctx 2 = true ∧ b.overruns b.ctx 1 = true ∧ b.overruns b.ctx 14 = true ∧ b.ctx.part < 4 ∧ b.ctx.task < 8 ∧
    (b.part b.ctx.part).tasks.length = 8 := by decide +kernel

/-- ControlFlow: a G-tier task at its turn, out of its frame and of its turn; a B-tier one with a run and without; a program of one END. -/
theorem witness_ControlFlow_tasks :
    let prog : Prog := { tasks := List.replicate 8 { valid := true, words := 1 }, code := [0#32] }
    let a := inTurn (stby.modPart 0 (fun x => { x with prog := prog }))
    let a : State := { a with run := { a.run with jobs := (List.range 7).map (fun k => 2048 + k) } }
    let odd := a.modPart 0 (fun x => { x with prog := { x.prog with tasks := List.replicate 8 { valid := true, n := 1, phase := 1 } } })
    let b := a.modPart 0 (fun x => { x with prog := { x.prog with tasks := List.replicate 8 { valid := true, tierB := true } } })
    (a.taskOf 0 7).valid = true ∧ (a.taskOf 0 7).tierB = false ∧ a.frame % 2 ^ (a.taskOf 0 7).n = (a.taskOf 0 7).phase ∧
    a.jobTurn (2048 + 8 * 0 + 7) = true ∧ a.jobTurn (2048 + 8 * 0 + 6) = false ∧ (a.taskCode 0 7).head? = some 0#32 ∧
    a.taskCode 0 7 ≠ [] ∧ odd.frame % 2 ^ (odd.taskOf 0 7).n ≠ (odd.taskOf 0 7).phase ∧ (stby.taskOf 0 7).valid = false ∧
    (b.taskOf 0 7).tierB = true ∧ b.canRun 7 7 = false ∧ (withRun b 7 7).canRun 7 7 = true := by decide +kernel

/-- ControlFlow: code that R246 lets into a program, run and committed; its first word read poisoned. -/
theorem witness_ControlFlow_code :
    let code := [0xF4000001#32, 0x20000000#32, 0x00000000#32]
    let s : State := { stby with mem := [(cellAddr 3 0 0, 3#8)] }
    hasLoop code = false ∧ code.getLast?.map (fun w => field w 31 26) = some 0 ∧
    (0 : Nat) + 1 + field (0xF4000001#32 : Word) 24 0 < code.length ∧ code ≠ [] ∧
    (s.agreed (fun m => ([(0, ({ shared := [0] } : JobReads))].filter (fun e => decide (s.jobPoison e.2 m ≠ .clean))).map Prod.fst) {}) =
      ([0], {}) ∧
    s.agreed (fun m => (([] : List (Nat × JobReads)).filter (fun e => decide (s.jobPoison e.2 m ≠ .clean))).map Prod.fst) {} = ([], {}) := by
  decide +kernel

/-- ControlFlow: LDF of word 0 and END answer a next state in every run that is active. -/
theorem witness_ControlFlow_words (u : State) :
    (∃ y, runWord 0x20400000#32 u = .next y) ∧ ∃ y, runWord 0#32 u = .next y := ⟨⟨_, rfl⟩, _, rfl⟩

/-- ForcesAndSwaps: a set refused and allowed, a release with and without its force, releasing all; targets that resolve and do not; a
swap of the same boundary still open; the carry-over and the swap that are due. -/
theorem witness_ForcesAndSwaps :
    let s := withDue stby (Reg.SLX_FCMD 3) 1#32
    let test := s.setFld Reg.SYS_MODE 2 0 mTEST
    let off := withDue stby (Reg.SLX_FCMD 3) 2#32
    let all := withDue stby (Reg.SLX_FCMD 3) 3#32
    let there := off.modPart 3 (fun x => { x with forces := [⟨0, 0, 1#32, 0⟩] })
    let w : State := { stby with run := { stby.run with swapDue := [(3, 1)] } }
    let g := w.wr Reg.ENG_FRAME 1#32
    let held : State := { s with run := { s.run with swapDue := [(3, 0)] } }
    setField (0#32 : Word) 1 0 3 &&& 0x70FFFFFC#32 = 0#32 ∧ s.writable hp0 .engine (.shared (some 3)) = true ∧
    s.due (Reg.SLX_FCMD 3) = some ⟨0, 1#32, hp0⟩ ∧ s.swapOpen 3 = false ∧ held.swapOpen 3 = true ∧ stby.due (Reg.SLX_FCMD 3) = none ∧
    field (1#32 : Word) 1 0 = 1 ∧ s.behaved ≠ mCOMMISSION ∧ s.behaved ≠ mTEST ∧ test.behaved = mTEST ∧
    test.due (Reg.SLX_FCMD 3) = some ⟨0, 1#32, hp0⟩ ∧ (test.part 3).forces.length < 256 ∧
    (test.forceTarget 3 0#32 0#32).toOption = some (0, 0) ∧
    (match test.forceTarget 3 0x70000#32 0#32 with | .ok _ => 0 | .error c => c) = 2 ∧
    field (2#32 : Word) 1 0 = 2 ∧ off.due (Reg.SLX_FCMD 3) = some ⟨0, 2#32, hp0⟩ ∧
    (off.part 3).forces.any (fun f => f.kind == 0 && f.index == 0) = false ∧
    (there.part 3).forces.any (fun f => f.kind == 0 && f.index == 0) = true ∧ field (3#32 : Word) 1 0 = 3 ∧
    all.due (Reg.SLX_FCMD 3) = some ⟨0, 3#32, hp0⟩ ∧
    (w.setFlag Reg.PWR_TRIAD 8 false).run.swapDue.any (fun e => e.1 == 3 && (w.frame + 1) % 2 ^ 32 == e.2) = true ∧
    (w.setFlag Reg.PWR_TRIAD 8 false).planRuns = false ∧ (w.ranJob 4096).jobsDone = true ∧
    w.run.swapDue.find? (fun e => e.1 == 3) = some (3, 1) ∧ frameReached w.frame 1 = false ∧ frameReached g.frame 1 = true := by
  decide +kernel

/-- RecorderCommands: writes; one command that is due, of each kind, in the state it acts on. -/
theorem witness_RecorderCommands :
    let s := stby.setFlag (Reg.ACQ_RCFG 15) 31 true
    let one := fun (v : Word) (en : Bool) (st : Nat) =>
      ({ s with acq := { s.acq with recs := modAt s.acq.recs 15 (fun x => { x with cmds := [(0, v, en)] }) } } : State).setRc 15 st
    s.acq.recs.length = 16 ∧ s.writable hp0 .engine (.owned (s.rcOwner 15)) = true ∧ ((1#32 : Word) ||| 2#32 ||| 4#32 ||| 8#32) &&& 0x7FFFFFF0#32 = 0#32 ∧
    (9#32 : Word) &&& 0xFFFF0000#32 = 0#32 ∧ s.rcValid 15 = true ∧ stby.rcValid 15 = false ∧ s.mode ≠ mLOAD ∧ s.mode ≠ mFILL ∧
    (s.setFld Reg.SYS_MODE 2 0 mLOAD).mode = mLOAD ∧ (s.recorder 15).cmds = (s.recorder 15).cmds.filter (fun c => !frameReached s.frame c.1) ∧
    ((one 1#32 true rOFF).recorder 15).cmds = [(0, 1#32, true)] ∧ frameReached s.frame 0 = true ∧ (one 1#32 true rOFF).rcState 15 = rOFF ∧
    (one 0#32 true rPOST).rcState 15 = rPOST ∧ ((one 0#32 true rPOST).recorder 15).cmds = [(0, 0#32, true)] ∧
    (one 3#32 true rHELD).rcState 15 = rHELD ∧ ((one 3#32 true rHELD).recorder 15).cmds = [(0, 3#32, true)] ∧
    (one 9#32 true rARMED).rcState 15 = rARMED ∧ ((one 9#32 true rARMED).recorder 15).cmds = [(0, 9#32, true)] ∧
    (one 5#32 true rTREND).rcState 15 = rTREND ∧ ((one 5#32 true rTREND).recorder 15).cmds = [(0, 5#32, true)] := by decide +kernel

/-- RecorderCommands: a write that is due behind which a later one waits, as a run reaches it. -/
theorem witness_RecorderCommands_later :
    let s := stby.setFlag (Reg.ACQ_RCFG 15) 31 true
    let two := fun (v : Word) (st : Nat) =>
      ({ s with acq := { s.acq with recs := modAt s.acq.recs 15 (fun x => { x with cmds := [(0, v, false), (2, 1#32, true)] }) } } : State).setRc 15 st
    ((two 3#32 rHELD).recorder 15).cmds = [(0, 3#32, false), (2, 1#32, true)] ∧ (two 3#32 rHELD).rcState 15 = rHELD ∧
    (two 9#32 rARMED).rcState 15 = rARMED ∧ frameReached s.frame 0 = true ∧ frameReached s.frame 2 = false := by decide +kernel

/-- RecorderCommands: rows to write, in TREND too; a stop that is complete, with EN set again and not; a run that is delivered. -/
theorem witness_RecorderCommands_rows :
    let s := ((stby.setFlag (Reg.ACQ_RCFG 15) 31 true).setFld (Reg.ACQ_RCFG 15) 27 26 2).setRc 15 rTREND
    let s : State := { s with time := { s.time with frames := 1 } }
    let stop := (s.setRc 15 rSTOPPING)
    let stop : State := { stop with acq := { stop.acq with recs := modAt stop.acq.recs 15 (fun x => { x with stopAt := some 1 }) } }
    s.run.formed = true ∧ s.writesRows 15 = true ∧ s.rcMode 15 = 2 ∧ stby.writesRows 15 = false ∧
    (stop.recorder 15).stopAt = some 1 ∧ stop.rcState 15 = rSTOPPING ∧ 1 ≤ stop.time.frames ∧ (s.recorder 15).stopAt = none ∧
    (stop.setFlag (Reg.ACQ_RSTAT 15) 28 true).flag (Reg.ACQ_RSTAT 15) 28 = true ∧ stop.flag (Reg.ACQ_RSTAT 15) 28 = false ∧
    (s.setRc 15 rWAIT).rcState 15 = rWAIT ∧ (s.recorder 15).busy = false := by decide +kernel

/-- RecorderDelivery: a recording that closes and one whose frame has not ended; copies; a recording without a queue, one to open, and one
with a slice to send, the last or not; a trend block with slices to go and with its last one. -/
theorem witness_RecorderDelivery :
    let close := fun (n : Nat) => modAt stby.acq.recs 15 (fun x => { x with closing := [{ due := n }], copies := [(0, { n := 1 })] })
    let c : State := { stby with acq := { stby.acq with recs := close 0 } }
    let q : State := withRun { stby with acq := { stby.acq with queue := [{}] } } 4 0
    let ring := (q.setFlag (hqKey 0 (ringStat .rcq)) 30 true).setFld (hqKey 0 (ringBase .rcq) + 8) 4 0 20
    let open_ : State := { ring with acq := { ring.acq with queue := [{ begun := true }] } }
    let long : State := { open_ with acq := { open_.acq with queue := [{ begun := true, segs := [{ n := 40000 }] }] } }
    let t : State := withRun { stby with acq := { stby.acq with recs := modAt stby.acq.recs 15 (fun x => { x with blocks := [{}] }) } } 5 0
    (c.recorder 15).closing = { due := 0 } :: [] ∧ ¬(c.time.frames < 0) ∧ c.time.frames < 1 ∧ (stby.recorder 15).closing = [] ∧
    (c.recorder 15).copies ≠ [] ∧ (stby.recorder 15).copies = [] ∧ c.acq.recs.length = 16 ∧
    stby.canRun 4 0 = false ∧ q.canRun 4 0 = true ∧ q.acq.queue = {} :: [] ∧ q.ringOn (q.rcPart 0) .rcq = false ∧
    (withRun stby 4 0).acq.queue = [] ∧ ring.ringOn (ring.rcPart 0) .rcq = true ∧ open_.canRun 4 0 = true ∧
    19 ≤ open_.fld (hqKey 0 (ringBase .rcq) + 8) 4 0 ∧
    open_.rd (bar2Key 0 (ringBell .rcq)) = open_.rd (hqKey 0 (ringBase .rcq) + 0x18) ∧
    (open_.acq.queue.headD {}).rows * open_.rowLen 0 ≤ 0 + min 262144 ((open_.acq.queue.headD {}).rows * open_.rowLen 0 - 0) ∧
    0 + min 262144 ((long.acq.queue.headD {}).rows * long.rowLen 0 - 0) < (long.acq.queue.headD {}).rows * long.rowLen 0 ∧
    (t.recorder 15).blocks = {} :: [] ∧ t.canRun 5 0 = true ∧ t.rcLanes 15 ≤ 8 * (0 + 1) ∧ t.ringOn (t.rcPart 15) .rcq = false ∧
    8 * (0 + 1) < (t.setFld (Reg.ACQ_RSEG 15) 22 16 9).rcLanes 15 ∧ (stby.recorder 15).blocks = [] := by decide +kernel

/-! ### Frames, process bus, field, host -/

/-- FrameBoundary: a G job that has not completed; a flag that changes; a device that does not run. -/
theorem witness_FrameBoundary :
    let b : State := { stby with budget := { stby.budget with flags := [(1, true)] } }
    stby.phase = .running ∧ stby.planRuns = true ∧ stby.jobsDone = false ∧ mSTANDBY ≤ stby.mode ∧ stby.mode ≠ mSAFE ∧
    stby.waiting Reg.SEC_LOADCMD = [] ∧ ({ stby with phase := .held } : State).phase ≠ .running ∧
    (stby.ranJob 4096).jobsDone = true ∧ b.budget.flags = (1, true) :: [] ∧ (1 : Nat) < 2 := by decide +kernel

/-- EthernetPorts: a PTP frame into a free and into a full FIFO; a bad and an oversized one; one that nobody takes; a mailbox that is
free and one that is busy; a link that changes. -/
theorem witness_EthernetPorts :
    let s := (stby.setFlag (Reg.PBX_PCFG 3) 31 true).setFlag (Reg.PBX_PSTAT 3) 31 true
    let f := zeros 12 ++ [0x88#8, 0xF7#8] ++ zeros 46
    let full := s.modPb 3 (fun x => { x with rx := List.replicate 8 [] })
    let busy := (s.setFlag (Reg.PBX_PTXCTL 3) 31 true).modPb 3 (fun x => { x with tx := some f })
    (s.phase = .running ∧ s.mode ≠ mFILL ∧ s.flag (Reg.PBX_PCFG 3) 31 = true ∧ s.flag (Reg.PBX_PSTAT 3) 31 = true) ∧
    60 ≤ f.length ∧ f.length ≤ 1524 ∧ etype f = etPTP ∧ sniffPtp 3 f = false ∧ (s.pb 3).rx.length < 8 ∧
    8 ≤ (full.pb 3).rx.length ∧ s.pbx.ports.length = 4 ∧ 1524 < (zeros 1525).length ∧ stby.flag (Reg.PBX_PCFG 3) 31 = false ∧
    etype (zeros 60) ∉ [etPTP, etGOOSE, etSV, etPRP] ∧ s.paired 3 = false ∧
    ((0#32 : Word) ||| 0x8000#32) &&& 0x3FFF7E00#32 = 0#32 ∧ ((0#32 : Word) ||| 1#32) &&& 0xFFFFFFFE#32 = 0#32 ∧
    s.mem.any (fun c => c.1 / 2 ^ 36 == 7) = false ∧ s.writable hp0 .engine .global = true ∧ s.flag (Reg.PBX_PTXCTL 3) 31 = false ∧
    busy.flag (Reg.PBX_PTXCTL 3) 31 = true ∧
    (busy.pb 3).tx = some f ∧ (s.pb 3).tx = none ∧ s.flag (Reg.PBX_PSTAT 3) 31 ≠ false := by decide +kernel

theorem witness_BusTimers :
    let g : GpBlk := { last := some [0#32], due := some 0 }
    let s : State := { (stby.setFlag (Reg.PBX_SVCFG 0) 31 true) with
      pbx := { stby.pbx with pubs := [g], subs := [{ expiry := some 0 }], streams := [{ idle := 16, run := 4 }] } }
    let lost := s.setFlag (Reg.PBX_SVSTAT 0) 31 true
    s.phase = .running ∧ s.pbx.pairs.length = 2 ∧ (1 : Nat) < 2 ∧ (stby.setFlag (Reg.PBX_PCFG 2) 29 true).paired (2 * 1) = true ∧
    (s.pair 1).supDue ≤ s.runNs ∧ s.paired (2 * 0) = false ∧ (s.gpb 0).last = some [0#32] ∧ (s.gpb 0).due = some 0 ∧
    frameReached s.frame 0 = true ∧ (stby.gpb 0).last = none ∧ (s.gsub 0).expiry = some 0 ∧ 0 ≤ s.runNs ∧ (s.gsub 1).expiry = none ∧
    s.flag (Reg.PBX_SVCFG 0) 31 = true ∧ s.flag (Reg.PBX_SVSTAT 0) 31 = false ∧ 16 ≤ (s.str 0).idle ∧
    lost.flag (Reg.PBX_SVSTAT 0) 31 = true ∧ 4 ≤ (lost.str 0).run := by decide +kernel

/-- FieldInputs: a run of the debounce count and one below it; an edge that counts and one that does not; settings that are due. -/
theorem witness_FieldInputs :
    let s := withDue (withDue (withDue stby (Reg.FIO_DICFG 63) 1#32) (Reg.FIO_DOCFG 31) 1#32) (Reg.FIO_FCTL 7) 1#32
    s.fio.di.length = 64 ∧ s.fio.dos.length = 32 ∧ s.waiting (Reg.FIO_DICFG 63) = [⟨0, 1#32, hp0⟩] ∧
    s.waiting (Reg.FIO_DOCFG 31) = [⟨0, 1#32, hp0⟩] ∧ s.waiting (Reg.FIO_FCTL 7) = [⟨0, 1#32, hp0⟩] ∧ frameReached s.frame 0 = true ∧
    s.writable hp0 .field (.owned (s.din (56 + 7)).owner) = true ∧ (1#32 : Word) &&& 0xFFFFFFFE#32 = 0#32 ∧
    edgeCounts (0#32 : Word) true = true ∧ edgeCounts (0#32 : Word) false = false ∧ s.flag (Reg.FIO_DISTAT 0) 0 = false ∧
    0 < debounceCount (s.din 0).cfg + 1 ∧ ¬(debounceCount (s.din 0).cfg + 1 < debounceCount (s.din 0).cfg + 1) ∧
    bit (0#32 : Word) 8 = false ∧ bit (0x100#32 : Word) 8 = true ∧ bit (s.din 63).cfg 8 ≠ bit (0x100#32 : Word) 8 ∧
    inputBand 0#32 15000 = some true ∧ inputBand 0x100#32 11000 = some true ∧ inputBand 0#32 5000 = some false ∧
    inputBand 0#32 10999 = none ∧ inputBand 0#32 14999 ≠ some true ∧ [1#32].drop (s.din 0).skip = 1#32 :: [] ∧
    ({ s.din 63 with counted := true } : DiSt).counted = true ∧ (s.din 63).acc + 0 < 2 ^ 32 - 1 ∧
    ¬((s.din 63).acc + (2 ^ 32 - 1) < 2 ^ 32 - 1) := by decide +kernel

/-- Banks, at the bounds: 19.2 V; 8.0 V and 8.5 V; a long overload and its end; the key, its absence, a drop and a release. -/
theorem witness_Banks :
    let s : State := { stby with fio := { stby.fio with overN := [16000, 0, 0, 0], underN := [16000, 0, 0, 0] } }
    nextBank 0 19199 ≠ 0 ∧ nextBank 0 19200 = 0 ∧ (7999 : Nat) < 8000 ∧ (8500 : Nat) < 8501 ∧ (8000 : Nat) ≤ 8000 ∧ (8000 : Nat) ≤ 8500 ∧
    (0#32 : BitVec 32).toNat = s.frame ∧ s.flag (Reg.FIO_BSTAT 0) 3 = false ∧ 16000 ≤ nth 0 s.fio.overN 0 ∧ 16000 ≤ nth 0 s.fio.underN 0 ∧
    (s.setFlag (Reg.FIO_BSTAT 0) 3 true).flag (Reg.FIO_BSTAT 0) 3 = true ∧ ¬(16000 ≤ nth 0 s.fio.overN 1) ∧
    field (0xA700008F#32 : Word) 31 24 = 0xA7 ∧ natBit (field (0xA700008F#32 : Word) 3 0) 3 = true ∧
    natBit (field (0xA7000080#32 : Word) 3 0) 3 = false ∧ natBit (field (0xA7000080#32 : Word) 7 4) 3 = true ∧
    natBit (field (0xA7000080#32 : Word) 7 4) 2 = false ∧ field (0x8F#32 : Word) 31 24 ≠ 0xA7 ∧
    (0xA700008F#32 : Word) &&& 0x00FFFF00#32 = 0#32 ∧ stby.writable .svc .superv .global = true ∧ stby.link.field.up = true ∧
    State.reset.link.field.up = false := by decide +kernel

set_option maxRecDepth 100000 in
/-- Outputs: V1's copy arrives while V2's matches it; the bounds of the temperature; a limit that shows and leaves; a blanking's end. -/
theorem witness_Outputs :
    let q := [1#8, 0#8, 0#8, 0#8, 9#8]
    let f := flitBytes 3 1 0 0 0 q
    let s : State := { stby with fio := { stby.fio with copies := [none, some (flitPayload f), none] } }
    let r := s.receive .field f
    let on := s.modDout 0 (fun x => { x with cmd := true, blank := some 0 })
    s.fio.dos.length = 32 ∧ r.2 = true ∧ flitType f = 3 ∧ 1 ≤ flitSrc f ∧ flitSrc f ≤ 3 ∧ r.1.voterOn 0 = true ∧
    r.1.fio.matched ≠ some (flitPayload f) ∧ r.1.laterSet (leAt (flitPayload f) 4 4) = true ∧ r.1.fio.copies.length = 3 ∧
    nth none r.1.fio.copies 1 = some (flitPayload f) ∧ (1 : Nat) < 3 ∧ (1 : Nat) ≠ flitSrc f - 1 ∧ (s.receive .field (zeros 80)).2 = false ∧
    (175 : Nat) < 176 ∧ (159 : Nat) < 160 ∧ on.doOn 0 = true ∧ (50 : Nat) ≤ 50 ∧ (1000 : Nat) ≤ 1000 ∧ (on.dout 0).blank = some 0 ∧
    32 ≤ ((on.wr Reg.ENG_FRAME 32#32).frame + 2 ^ 32 - 0) % 2 ^ 32 ∧ (s.dout 0).blank = none := by decide +kernel

/-- HostCommands: a ring that takes an entry; the port whose command comes next, and the one after it; each opcode's checks. -/
theorem witness_HostCommands :
    let c : Cmd := { tag := 1, cid := 7, opcode := 0, param := zeros 56, frame := 0 }
    let s : State := { (stby.wr Reg.ENG_FRAME 3#32) with hq := { stby.hq with ports := modAt stby.hq.ports 0 (fun x => { x with cmds := [c] }) } }
    let ring := (stby.setFlag (hqKey 3 Reg.HQ_CMDSTAT) 30 true).wr (bar2Key 3 HQ_DB_CMD) 1#32
    let big : Cmd := { c with opcode := 3, param := zeros 8 ++ [0#8, 4#8] ++ zeros 46 }
    s.hq.ports.length = 4 ∧ s.turnCmd 0 = some c ∧ s.turnCmd 1 = none ∧ stby.turnCmd 0 = none ∧ s.writable (.hp 3) .engine .own = true ∧
    (0#32 : Word) &&& 0xFFFFF000#32 = 0#32 ∧ (0#32 : Word) &&& 0xFFFFE000#32 = 0#32 ∧ (stby.port 3).held = [] ∧
    s.ringOn 0 .cpl = false ∧ (∀ d, d ∈ (s.port 0).cmds → d.tag = c.tag → d = c) ∧ 0 < s.hq.ports.length ∧
    s.waiting Reg.SEC_LOADCMD = [] ∧ ring.ringOn 3 .cmd = true ∧ ring.mode ≠ mFILL ∧
    ring.fld (hqKey 3 Reg.HQ_CMDSTAT) 11 0 ≠ field (ring.rd (bar2Key 3 HQ_DB_CMD)) 11 0 ∧ (ring.port 3).cmds.length < 128 ∧
    s.mode ≠ mFILL ∧ big.arg 8 8 % 64 = 0 ∧ 1024 ≤ big.arg 16 4 ∧ c.arg 16 4 < 1024 ∧ s.isCust (.hp 0) = true ∧ s.isCust (.hp 1) = false ∧
    s.mayLoad = false ∧ (s.setFlag Reg.PWR_TRIAD 8 false).mayLoad = true ∧ big.arg 8 8 % 4 = 0 ∧ 64 ≤ big.arg 16 4 ∧
    big.arg 16 4 ≤ maxImage false ∧ big.arg 16 4 ≤ maxImage true ∧ big.arg 20 1 = 0 ∧ s.mode ≠ mLOAD ∧ mSTANDBY ≤ s.mode ∧ s.mode ≤ mTEST ∧
    s.sec.load.stage = 0 := by decide +kernel

/-- RingsAndPorts: a ring that fits and one that does not; held entries with an enabled ring, with room and without entries; a load that is
being read. -/
theorem witness_RingsAndPorts :
    let held := modAt stby.hq.ports 3 (fun x => { x with held := [⟨1, 7, 0, true, 0, 0, 0⟩] })
    let s : State := { stby with hq := { stby.hq with ports := held }, triad := { stby.triad with turn := 4 } }
    let ring := (s.setFlag (hqKey 3 (ringStat .cpl)) 30 true).setFld (hqKey 3 Reg.HQ_CPLSIZE) 3 0 1
    let fit := (stby.wr (hqKey 3 (ringBase .cmd)) 64#32).setFld (hqKey 3 (ringBase .cmd) + 8) 4 0 12
    setBit (0#32 : Word) 0 true &&& (ringCtl .cmd).2.1 = 0#32 ∧ setBit (0#32 : Word) 0 false &&& (ringCtl .cmd).2.1 = 0#32 ∧
    stby.writable (.hp 3) .engine .own = true ∧ fit.ringFits 3 .cmd = true ∧ stby.ringFits 3 .cmd = false ∧
    (∀ j, j < 4 → (stby.port j).held = []) ∧ stby.planRuns = true ∧ s.triad.turn = 4 ∧ stby.triad.turn ≠ 4 ∧
    s.hq.ports.length = 4 ∧ s.ringOn 3 .cpl = false ∧ ring.ringOn 3 .cpl = true ∧
    (ring.port 3).out + (ring.port 3).held.length ≤ 2 ^ ring.fld (hqKey 3 Reg.HQ_CPLSIZE) 3 0 ∧ stby.readingOf 3 = false ∧
    ({ stby with sec := { stby.sec with load := { stage := 1, src := 3, cmd := some (3, 0) } } } : State).readingOf 3 = true := by
  decide +kernel

/-- RegisterAccess: an address of no register; a port that reaches and one that does not; host errors: an unaligned access, another
width, a value with rsv bits, a port that may write and one that may not. -/
theorem witness_RegisterAccess :
    (0xFFFFFC : Nat) < 2 ^ 24 ∧ regRow 0xFFFFFC = none ∧ 0xFFFFFC % 4 = 0 ∧ 0xFFFFFD % 4 ≠ 0 ∧ (8 : Nat) ≠ 4 ∧ blockOf 0xFFFFFC ≠ 17 ∧
    stby.reaches hp0 (addrReach 0xFFFFFC) = true ∧
    ({ stby with phase := .held } : State).reaches hp0 (addrReach 0xFFFFFC) = false ∧
    stby.reaches hp0 .engine = true ∧ stby.hq.shadows.length = 5 ∧ stby.writable hp0 .engine .global = true ∧
    stby.writable (.hp 1) .engine .global = false ∧ stby.confined hp0 (stby.scopeAt 1) 1 = false ∧
    (8#32 : Word) &&& 0x7FFFFFF8#32 ≠ 0#32 := by decide +kernel

set_option maxRecDepth 100000 in
/-- RegisterAccess: a read and a write across the link, a response, and transactions of the service port. -/
theorem witness_RegisterAccess_service :
    let f := flitBytes 4 0 0 0 0 ([0#8, 1#8, 0#8, 0#8] ++ bytesLE 4 (Reg.AFE_LANE 0))
    let g := flitBytes 4 0 0 0 0 ([1#8, 0#8, 0#8, 0#8] ++ bytesLE 4 (Reg.FIO_DICFG 0) ++ bytesLE 4 5)
    let a := flitBytes 5 0 0 0 0 [1#8]
    let u := (stby.receive .field g).1
    let sum := fun (b : List Byte) => b ++ bytesLE 2 (crc16 b).toNat
    let w := sum ([2#8] ++ bytesLE 3 Reg.SYS_TESTPAT ++ bytesLE 4 7)
    let r := sum ([3#8] ++ bytesLE 3 Reg.SYS_TESTPAT)
    stby.takesFlit .field f = true ∧ flitType f = 4 ∧ onFieldDie (leAt (flitPayload f) 4 4) = true ∧ u8 (flitPayload f) 0 = 0 ∧
    stby.takesFlit .field g = true ∧ flitType g = 4 ∧ leAt (flitPayload g) 4 4 = Reg.FIO_DICFG 0 ∧ u8 (flitPayload g) 0 = 1 ∧
    leAt (flitPayload g) 8 4 &&& 0xFFFCFE00 = 0 ∧ u.writable (portOf (u8 (flitPayload g) 1)) .field (.owned (u.din 0).owner) = true ∧
    State.reset.takesFlit .field f = false ∧ stby.takesFlit .engine a = true ∧ flitType a = 5 ∧
    stby.sup.running = true ∧ ({ stby.sup with running := false } : Sup).running = false ∧ u8 w 0 = 2 ∧ 10 ≤ w.length ∧
    leAt w 8 2 = (crc16 (w.take 8)).toNat ∧ leAt w 1 3 / 4 * 4 = Reg.SYS_TESTPAT ∧ stby.reaches .svc .engine = true ∧
    leAt (w.take 8 ++ [0#8, 0#8]) 8 2 ≠ (crc16 ((w.take 8 ++ [0#8, 0#8]).take 8)).toNat ∧
    u8 r 0 = 3 ∧ 6 ≤ r.length ∧ leAt r 4 2 = (crc16 (r.take 4)).toNat ∧ leAt r 1 3 / 4 * 4 = Reg.SYS_TESTPAT ∧
    leAt (r.take 4 ++ [0#8, 0#8]) 4 2 ≠ (crc16 ((r.take 4 ++ [0#8, 0#8]).take 4)).toNat ∧
    u8 [9#8] 0 ≠ 2 ∧ u8 [9#8] 0 ≠ 3 := by decide +kernel

/-- Loads: the command; each stage at its turn; a header that fails; refusals that are due; the entry to STANDBY; slot 0. -/
theorem witness_Loads :
    let at_ := fun (l : LoadSt) => ({ stby with sec := { stby.sec with load := l } } : State)
    let s := at_ { stage := 1 }
    let l := s.sec.load
    let force := fun (n : Nat) => ({ at_ { stage := 6 } with
      sec := { stby.sec with load := { stage := 6 }, inForce := true }, run := { stby.run with loadFrom := n } } : State)
    let entry : State := { stby with run := { stby.run with standbyNext := some 0 } }
    ((0#32 : Word) ||| 1#32) &&& 0x70FFFFF8#32 = 0#32 ∧ s.writable hp0 .engine .global = true ∧ l.stage = 1 ∧ l.choose = false ∧
    l.readErr = false ∧ l.src < 5 ∧ (at_ { stage := 2 }).sec.load.stage = 2 ∧ l.delta = false ∧ l.fallback = none ∧
    s.headerCode false 0 [] ≠ 0 ∧ s.headerCode false 0 [] < 256 ∧ ({ stage := 2, readErr := true } : LoadSt).readErr = true ∧
    ({ stage := 3 } : LoadSt).stage = 3 ∧ ({ stage := 3 } : LoadSt).adm = 0 ∧ ({ stage := 3, adm := 1 } : LoadSt).adm ≠ 0 ∧
    ({ stage := 4 } : LoadSt).stage = 4 ∧ (force 2).sec.load.stage = 6 ∧ frameReached (force 2).frame (force 2).sec.load.due = true ∧
    s.sec.inForce = false ∧ (force mSTANDBY).sec.inForce = true ∧ (force mSTANDBY).run.loadFrom = mSTANDBY ∧
    (force mSAFE).run.loadFrom = mSAFE ∧ entry.run.standbyNext = some 0 ∧ frameReached entry.frame 0 = true ∧ stby.run.standbyNext = none ∧
    s.slot = 0 ∧ mSTANDBY ≤ s.mode ∧ s.run.swapDue = [] := by decide +kernel

/-- Loads: a delta, refused by its header, admitted, and refused by admission, for a command of port 3; an image with another slot to try. -/
theorem witness_Loads_delta :
    let at_ := fun (l : LoadSt) => ({ stby with sec := { stby.sec with load := l }, hq := { stby.hq with
      ports := modAt stby.hq.ports 3 (fun x => { x with cmds := [⟨5, 0, 2, [], 0, false⟩] }) } } : State)
    let l : LoadSt := { delta := true, part := 3, cmd := some (3, 5) }
    let other := at_ { stage := 2, fallback := some 1 }
    (at_ { l with stage := 2 }).headerCode true 3 [] ≠ 0 ∧ l.fallback = none ∧ l.delta = true ∧ l.part < 4 ∧
    { l with stage := 2 }.cmd = some (3, (⟨5, 0, 2, [], 0, false⟩ : Cmd).tag) ∧ (⟨5, 0, 2, [], 0, false⟩ : Cmd) ∈ ((at_ l).port 3).cmds ∧
    other.headerCode false 0 [] ≠ 0 ∧ other.sec.load.fallback = some 1 ∧ (at_ { l with stage := 3 }).sec.load.adm = 0 ∧
    (at_ { l with stage := 3, adm := 5 }).sec.load.adm < 16 := by decide +kernel

/-- A trailer (R419) under the prime modulus 2 ^ 4096 - 2549: the signature was made outside Lean with e = 65 537 and that modulus. -/
def signed (body : List Byte) (sig : List Nat) : List Byte := body ++ bytesBE 512 (2 ^ 4096 - 2549) ++ sig.flatMap (bytesBE 64)

/-- The least whole pedigree: BUILD 7, sections PART (partition 0 defined), BUDGET (no O job) and SAFE. -/
def wholeImage : List Byte := signed
  (bytesLE 22 0x10082561f7a000000f0000004f00001000147445045 ++ zeros 10 ++ bytesLE 9 0x30000000000000007 ++ zeros 87 ++ bytesLE 13 0x1000000000000004400000003 ++ zeros 67 ++ bytesLE 21 0x80000000c007d0bb8006403e8000000080000000b ++ zeros 11) [
    0xc1371ff6162ba442273935366a3e4492838751918150d05df0aef1ae381e4a719d236920d7a6a0ef108f49b73d484809d1556d9cb671f3a5e70c262a984b66d0,
    0xd9c9f011dc25d59cb3feeb5aabc7c286104130be74b760e34ed1c626945f2b3790934a506d3c859343974ff048809af613507003356d31f293df9d15204f46e2,
    0x5edf7cc257950e27c7d1ce2ecf14c3eca3d0b1e1754aac078971112a884536a85d98c052c0bde32884d8e378c635c6ab7dd90caed0da7daca202be66c01e8f62,
    0x54be58a86ab3e04a283aad3eafcc07d2f3046cf2abcd20ea55e6e47278f7b5c8b101be1590b6b31bd45ca896714cd19665d7d19c8a5a34092c42f7920d12445d,
    0x35617d7bce2e5b7b28365d7627e637b02a3444eb9961126cbb6835b47b685718ec8b9f4e6057b87a6ca8b2bbbc27327e06dae83c60e68ab970f72e8e1a48b55b,
    0x8e030dc9fba12bd571a6cf9148639c76e0db1d4a949b822c0d1b29e61f48f8f32deb01cb1d5b3d27eff46a99c3b04e086081f97a4d79a5810422f6df8038a109,
    0x516196aee72839a5f35f4a6a59ec0f30c238998fae8f9f4e2b388a8bb292c8d8d7df725e2ac0660a6315db00d6a9e640a2bb5af0d820922fb5abd1c5742048f8,
    0x76ab1fd509a4138cbd8759d08b87888619a767bf22a2d3186c4a2704bc8f6286bd77213aaf1ed6c7624c68440dc27360c0f3fe8280ff8ebe10dc2a9f4c12189d]

/-- A delta for partition 3 with DSEQ 1 on BASEHASH zero, whose one section frame has TAG 0: R417 fails. -/
def deltaImage : List Byte := signed
  (bytesLE 23 0x3010082561f7a00000088000004880002000147445045 ++ zeros 9 ++ bytesLE 9 0x10000000100000007 ++ zeros 95) [
    0x34a788cfd1508971ddf798361a7cba2fdb8b1c47ecaf0906e8400f79994ba6f06f02045b2687bcee9d991f444aa7217823d19969720e1a350c5087c830b29e91,
    0xee46247d9c46be9cf1a61f791d9036b765a29d72bb5db0c7c00e8696a8016f41a31a2001f7ed5c49e1c16ea08e70584091e7f978c122d7e015d0cc74a092065f,
    0xb9a17e1792e006815072a2afc61c3d51b21dae2330590866a622e36acc7316e4288a6273b89d1a3f7eed3a52bd06f4eade18fc6a656a7b9c70938548d53e1713,
    0xbfb79adce876a67fd09eca725241f3a745c20dfd523abd85cba28ed69d68105e623c292658f93aae55db55cda8381418190d00becf24f4efc0a9dc96d69858bf,
    0xc864a0902319d22aa67c61c1c7941358884c3670cd4e6ca5ba3d216e1bb46409d16fa9bb975338e0bc02be54c23fd810ad17d431649af1cd69800ae2496b1a35,
    0x82923f185d93decbbc36efd90b66023cae317c7fe8f10cd1add21fb0f725f76f9fe1d3b76258f0718df1937c1c80eb5e890b5b67febc39c2cd697441856a8c9e,
    0xb873a5a7a064e754048c40b73514c176bf613bc3a7e2629617ba624b3209d174d359ea8f914fd8443234ed2d9f59a534469e528565e4be3f919b7f84be2e6bd6,
    0xe1400b71c8a415c7485afd76dad82762f0cf1fe59d86fc17de838b33152800b02deabf8bacd04e5819b4362f87f3b68cc7451a4d1790a1eed79cabb242b5db83]

/-- stby with that key's hash anchored in slot 0, partition 3 defined and a pedigree hash of zeros. -/
def keyed : State := { stby.modPart 3 (fun x => { x with defined := true }) with
  sec := { stby.sec with anchors := [bytesBE 64
    0xb633365db01b34ae01e6916099a88fb254f178818b607af66c94cb3eaa39f17e042f4711249f1568545496e6cedbfe7c2c6ee843cdf98407200d8593f591e074, [], [], []], inForce := true, hash := zeros 64 } }

/-- Loads: a signed whole image and a signed delta pass codes 1 to 8. -/
theorem witness_Loads_signed : keyed.headerCode false 0 wholeImage = 0 ∧ keyed.headerCode true 3 deltaImage = 0 := by decide +kernel

/-- Loads: that whole image passes codes 10 to 15; that delta fails code 10. -/
theorem witness_Loads_checked : (keyed.checkWhole wholeImage).1.code = 0 ∧
    (match keyed.checkDelta deltaImage 3 with
      | (r, _, none) => decide (r.code < 256)
      | _ => false) = true := by decide +kernel

/-- FusesAndReports: a command refused, one accepted, and one while an operation runs; the end of each operation; a report. -/
theorem witness_FusesAndReports :
    let s := withDue stby Reg.SEC_FUSECMD 1#32
    let go := withDue (stby.wr (Reg.SEC_FUSEDATA 0) 1#32) Reg.SEC_FUSECMD 0xC90001#32
    let run := fun (op : Nat) => ({ s with sec := { s.sec with fuse := some (op, 0, []) } } : State)
    setField (0#32 : Word) 2 0 1 &&& 0x7000FCF8#32 = 0#32 ∧ setField (0#32 : Word) 2 0 3 &&& 0x7000FCF8#32 = 0#32 ∧
    s.writable hp0 .engine .global = true ∧ s.sec.fuse.isSome = false ∧
    s.due Reg.SEC_FUSECMD = some ⟨0, 1#32, hp0⟩ ∧ s.fuseCode 1#32 ≠ 0 ∧ stby.due Reg.SEC_FUSECMD = none ∧
    go.due Reg.SEC_FUSECMD = some ⟨0, 0xC90001#32, hp0⟩ ∧ go.sec.fuse.isSome = false ∧ go.fuseCode 0xC90001#32 = 0 ∧
    (run 1).sec.fuse.isSome = true ∧ (run 2).sec.fuse = some (2, 0, []) ∧ (run 3).sec.fuse = some (3, 0, []) ∧
    ({ stby.sec with reports := [(0, 1, 64, [])] } : SecSt).reports = (0, 1, 64, []) :: [] ∧ stby.sec.reports = [] := by decide +kernel

end Sys2Proof.Tests
end

section
/-!
What every step keeps (O3): no operation of the model takes the queue or an output back, and each keeps the finite maps in canonical
form. One lemma an operation, in the order of the model's files; a lemma follows its operation from the outside in.
-/
namespace Sys2Proof.Machine

/-- What every operation of the model does to the state it is given: it keeps the queue and what has been sent (`Keeps`), and the
canonical form of the finite maps. -/
def Evolves (a t : State) : Prop := Keeps a t ∧ (a.Canonical → t.Canonical)

/-- A command that answers a next state has evolved to it. -/
def GoesTo (a : State) (r : R) : Prop := ∀ t, r = .next t → Evolves a t

section
variable {a s t : State}

theorem Evolves.refl (s : State) : Evolves s s := ⟨⟨rfl, List.prefix_rfl⟩, id⟩

/-- An update that keeps the canonical form of memory, registers and requests, whatever the other fields become. -/
theorem Evolves.setMaps (h : Evolves a s) {mem : List Host.Cell} {regs : List (Nat × Word)} {reqs : List (Nat × List Req)}
    (hm : Memory.wf s.mem → Memory.wf mem) (hr : swf regReset s.regs = true → swf regReset regs = true)
    (hrq : swf (fun _ => []) s.reqs = true → swf (fun _ => []) reqs = true)
    {freeIx : Nat} {rdata : Option Word} {phase : Phase} {pins : Pins} {causes : List Nat} {sup : Sup} {link : LinkSt}
    {time : TimeSt} {evl : EvlSt} {mst : MemSt} {run : RunSt} {budget : BudgetSt} {ojobs : List OJob} {triad : TriadSt}
    {slx : SlxSt} {sec : SecSt} {lanes : List LaneSt} {aux : AuxSt} {sniff : SniffSt} {fio : FioSt} {hq : HqSt}
    {pbx : PbxSt} {pel : PelSt} {tw : TwSt} {acq : AcqSt} {bays : List BaySt} :
    Evolves a { s with
      mem, regs, reqs, freeIx, rdata, phase, pins, causes, sup, link, time, evl, mst, run, budget, ojobs, triad, slx,
      sec, lanes, aux, sniff, fio, hq, pbx, pel, tw, acq, bays } := by
  obtain ⟨hk, hc⟩ := h
  refine ⟨hk, fun c => ?_⟩
  obtain ⟨cm, cr, cq⟩ := hc c
  exact ⟨hm cm, hr cr, hrq cq⟩

/-- An update of any other field of the state. -/
theorem Evolves.inert (h : Evolves a s)
    {freeIx : Nat} {rdata : Option Word} {phase : Phase} {pins : Pins} {causes : List Nat} {sup : Sup} {link : LinkSt}
    {time : TimeSt} {evl : EvlSt} {mst : MemSt} {run : RunSt} {budget : BudgetSt} {ojobs : List OJob} {triad : TriadSt}
    {slx : SlxSt} {sec : SecSt} {lanes : List LaneSt} {aux : AuxSt} {sniff : SniffSt} {fio : FioSt} {hq : HqSt}
    {pbx : PbxSt} {pel : PelSt} {tw : TwSt} {acq : AcqSt} {bays : List BaySt} :
    Evolves a { s with
      freeIx, rdata, phase, pins, causes, sup, link, time, evl, mst, run, budget, ojobs, triad, slx, sec, lanes, aux,
      sniff, fio, hq, pbx, pel, tw, acq, bays } := h.setMaps id id id

/-- The requests of one register are written. -/
theorem Evolves.setReqs (h : Evolves a s) {k : Nat} {l : List Req} :
    Evolves a { s with reqs := sset (fun _ => []) s.reqs k l } := .setMaps h id id (swf_sset _ _ _ _)

/-- Registers and memory of another state. -/
theorem Evolves.takeMaps (hs : Evolves a s) (ht : Evolves a t) {mst : MemSt} :
    Evolves a { s with regs := t.regs, mem := t.mem, mst } :=
  ⟨hs.1, fun c => ⟨(ht.2 c).1, (ht.2 c).2.1, (hs.2 c).2.2⟩⟩

theorem Evolves.ite {p : Prop} {_ : Decidable p} (hs : Evolves a s) (ht : Evolves a t) : Evolves a (if p then s else t) := by
  split
  · exact hs
  · exact ht

theorem Evolves.iteFst {β : Type} {p : Prop} {_ : Decidable p} {x y : State × β} (hx : Evolves a x.1) (hy : Evolves a y.1) :
    Evolves a (if p then x else y).1 := by
  split
  · exact hx
  · exact hy

theorem Evolves.foldl {β : Type} {f : State → β → State} {l : List β} (h : Evolves a s)
    (hf : ∀ t b, Evolves a t → Evolves a (f t b)) : Evolves a (l.foldl f s) := by
  induction l generalizing s with
  | nil => exact h
  | cons b l ih => exact ih (hf s b h)

theorem GoesTo.next (h : Evolves a s) : GoesTo a (.next s) := by
  rintro t ⟨⟩
  exact h

theorem GoesTo.ite {p : Prop} {_ : Decidable p}
    {q r : R} (hq : GoesTo a q) (hr : GoesTo a r) : GoesTo a (if p then q else r) := by
  split
  · exact hq
  · exact hr

theorem GoesTo.refused {f : Refusal} : GoesTo a (.refused f) := by rintro t ⟨⟩

/-! ### The operations of Ops.lean -/

theorem Evolves.wr (h : Evolves a s) {k : Nat} {v : Word} : Evolves a (s.wr k v) := .setMaps h id (swf_sset _ _ _ _) id

theorem Evolves.clearRegs (h : Evolves a s) {lo hi : Nat} : Evolves a (s.clearRegs lo hi) := .setMaps h id (swf_filter _ _ _) id

theorem Evolves.emit (h : Evolves a s) {o : Out} : Evolves a (s.emit o) :=
  ⟨⟨h.1.1, h.1.2.trans (List.prefix_append _ _)⟩, h.2⟩

theorem Evolves.putRaw (h : Evolves a s) {r w : Nat} {v : Word} {c : Nat} :
    Evolves a (s.putRaw r w v c) := .setMaps h (Memory.wf_putWord _ _ _ _ _) id id


/-! ### Machine/Ops.lean -/

theorem Evolves.setFld (h : Evolves a s) {k hi lo v : Nat} : Evolves a (s.setFld k hi lo v) := .wr h

theorem Evolves.setFlag (h : Evolves a s) {k n : Nat} {b : Bool} : Evolves a (s.setFlag k n b) := .wr h

theorem Evolves.incFld (h : Evolves a s) {k hi lo : Nat} : Evolves a (s.incFld k hi lo) := .setFld h

theorem Evolves.satFld (h : Evolves a s) {k hi lo n : Nat} : Evolves a (s.satFld k hi lo n) := .setFld h

theorem Evolves.wrList (h : Evolves a s) {k : Nat} {ws : List Word} :
    Evolves a (s.wrList k ws) := .foldl h (fun _ _ ht => .wr ht)

theorem Evolves.free (h : Evolves a s) : Evolves a (s.free).2 := .inert h

theorem Evolves.freeList (h : Evolves a s) {n : Nat} : Evolves a (s.freeList n).2 := .inert h

theorem Evolves.freeB (h : Evolves a s) : Evolves a (s.freeB).2 := .inert h

theorem Evolves.setReq (h : Evolves a s) {k : Nat} {r : Option Req} : Evolves a (s.setReq k r) := .setReqs h

theorem Evolves.dropReqs (h : Evolves a s) {k : Nat} : Evolves a (s.dropReqs k) := .setReqs h

theorem Evolves.placeEach (h : Evolves a s) {k : Nat} {v : Word} {p : Port} : Evolves a (s.placeEach k v p) := .setReqs h

theorem Evolves.placeAll (h : Evolves a s) {k : Nat} {v : Word} {p : Port} : Evolves a (s.placeAll k v p) := .setReqs h

theorem Evolves.place (h : Evolves a s) {k : Nat} {v : Word} {p : Port} : Evolves a (s.place k v p) := .setReq h

theorem Evolves.placeHyper (h : Evolves a s) {k : Nat} {v : Word} {p : Port} : Evolves a (s.placeHyper k v p) := .setReq h

theorem Evolves.onDue (h : Evolves a s) {k : Nat} {f : State → Req → State} (hf : ∀ t r, Evolves a t → Evolves a (f t r)) :
    Evolves a (s.onDue k f) := .foldl (.setReqs h) hf

theorem Evolves.setFault (h : Evolves a s) {b : Bool} : Evolves a (s.setFault b) := .setFlag h

theorem Evolves.cause (h : Evolves a s) {p n : Nat} : Evolves a (s.cause p n) := .inert h

theorem Evolves.causeAll (h : Evolves a s) {n : Nat} : Evolves a (s.causeAll n) := .inert h

theorem Evolves.postAt (h : Evolves a s) {typ src : Nat} {payload : List Byte} {logs : Nat} {kennel : Bool} {tb wrap : Nat} :
    Evolves a (s.postAt typ src payload logs kennel tb wrap) :=
  .inert h

theorem Evolves.post (h : Evolves a s) {typ src : Nat} {payload : List Byte} {logs : Nat} {kennel : Bool} :
    Evolves a (s.post typ src payload logs kennel) :=
  .postAt h

theorem Evolves.postNow (h : Evolves a s) {typ src : Nat} {payload : List Byte} {logs : Nat} {kennel : Bool} :
    Evolves a (s.postNow typ src payload logs kennel) :=
  .postAt h

theorem Evolves.setStore (h : Evolves a s) {st : Store} {x : StoreSt} : Evolves a (s.setStore st x) := by
  unfold State.setStore
  split
  · split
    · exact .inert h
    · exact .inert h
    · exact .inert h
    · exact .inert h
  · exact .inert h

theorem Evolves.putStore (h : Evolves a s) {st : Store} {x : StoreSt} : Evolves a (s.putStore st x) :=
  .setFlag (.setFld (.setStore h))

theorem Evolves.supPost (h : Evolves a s) {typ src : Nat} {payload : List Byte} : Evolves a (s.supPost typ src payload) :=
  .ite (.putStore h) (.incFld (.setStore h))

theorem Evolves.supRecord (h : Evolves a s) {typ : Nat} {payload : List Byte} :
    Evolves a (s.supRecord typ payload) := .supPost h

theorem Evolves.queueRun (h : Evolves a s) {kind : Nat} : Evolves a (s.queueRun kind) := .inert h

theorem Evolves.takeRun (h : Evolves a s) {kind target : Nat} : Evolves a (s.takeRun kind target) := .inert h

theorem Evolves.wrMem (h : Evolves a s) {region w : Nat} {v : Word} : Evolves a (s.wrMem region w v) := .inert (.putRaw h)

theorem Evolves.poisonMem (h : Evolves a s) {region w : Nat} {v : Word} :
    Evolves a (s.poisonMem region w v) := .putRaw (.wrMem h)

theorem Evolves.wrMemList (h : Evolves a s) {region w : Nat} {ws : List Word} : Evolves a (s.wrMemList region w ws) :=
  .foldl h (fun _ _ ht => .wrMem ht)

theorem Evolves.toSafe (h : Evolves a s) {cause : Nat} : Evolves a (s.toSafe cause) := .ite h (.inert (.setFault h))

theorem Evolves.toDegraded (h : Evolves a s) : Evolves a s.toDegraded := .inert (.setFault h)

theorem Evolves.setMode (h : Evolves a s) {m prior cause : Nat} : Evolves a (s.setMode m prior cause) :=
  .causeAll (.post (.wr (.wr h)))

theorem Evolves.powerRecord (h : Evolves a s) {item st pend : Nat} : Evolves a (s.powerRecord item st pend) := .post h

theorem Evolves.modLane (h : Evolves a s) {l : Nat} {f : LaneSt → LaneSt} : Evolves a (s.modLane l f) := .inert h

theorem Evolves.modBay (h : Evolves a s) {b : Nat} {f : BaySt → BaySt} : Evolves a (s.modBay b f) := .inert h

theorem Evolves.setPart (h : Evolves a s) {p : Nat} {x : PartSt} : Evolves a (s.setPart p x) := by
  unfold State.setPart
  split
  · exact .inert h
  · exact .inert h
  · exact .inert h
  · exact .inert h

theorem Evolves.modPart (h : Evolves a s) {p : Nat} {f : PartSt → PartSt} : Evolves a (s.modPart p f) := .setPart h

/-! ### Machine/Access.lean -/

theorem Evolves.hostError (h : Evolves a s) {own wide : Bool} {rsv v : Word} {op : Word → State → State}
    (hop : ∀ w t, Evolves a t → Evolves a (op w t)) : Evolves a (s.hostError own wide rsv v op) :=
  .ite (.free (.freeB (.freeB h))) (hop _ _ (.free (.freeB (.freeB h))))

theorem GoesTo.gate (h : Evolves a s) {p : Port} {rc : Reach} {sc : Scope} {rsv : Word} {addr : Nat} {v : Word}
    {op : Word → State → State} (hop : ∀ w t, Evolves a t → Evolves a (op w t)) : GoesTo a (gate s p rc sc rsv addr v op) :=
  .ite (.next h) (.ite (.next (.hostError h hop)) (.next (hop _ _ h)))

theorem GoesTo.readGate (h : Evolves a s) {p : Port} {rc : Reach} {sc : Scope} {op : State → State × Word}
    (hop : ∀ t, Evolves a t → Evolves a (op t).1) : GoesTo a (readGate s p rc sc op) :=
  .ite (.next (.inert h)) (.ite (.next (.inert h)) (.next (.inert (hop _ h))))

theorem Evolves.plain (h : Evolves a s) {k : Nat} {rw w1c v : Word} : Evolves a (s.plain k rw w1c v) := .wr h

/-! ### Machine/MemRead.lean -/

theorem Evolves.memRecord (h : Evolves a s) {region kind syn flags addr count : Nat} :
    Evolves a (s.memRecord region kind syn flags addr count) :=
  .ite (.post h) (.causeAll (.post h))

theorem Evolves.countCorrection (h : Evolves a s) {region w syn flags : Nat} :
    Evolves a (s.countCorrection region w syn flags) := by
  unfold State.countCorrection
  refine .ite h ?_
  extract_lets t _ _ t1 _ _ u
  have ht : Evolves a t := .wr (.incFld h)
  have ht1 : Evolves a t1 := .inert ht
  have hu : Evolves a u := .memRecord (.setFlag (.setFld ht1))
  exact .ite (.inert hu) (.setFld ht1)

theorem Evolves.countBad (h : Evolves a s) {region w : Nat} : Evolves a (s.countBad region w) :=
  .wr (.wr (.wr (.setFlag (.incFld h))))

theorem Evolves.noteRead (h : Evolves a s) {region w flags : Nat} : Evolves a (s.noteRead region w flags) := by
  unfold State.noteRead
  extract_lets _ _ t
  have ht : Evolves a t := .memRecord (.countBad h)
  split
  · exact h
  · exact .countCorrection h
  · exact .ite (.toSafe ht) ht

theorem Evolves.noteReads (h : Evolves a s) {region flags : Nat} {ws : List Nat} : Evolves a (s.noteReads region flags ws) :=
  .foldl h (fun _ _ ht => .noteRead ht)

theorem Evolves.flushMerge (h : Evolves a s) {e : Merge} : Evolves a (s.flushMerge e) :=
  .ite (.poisonMem (.inert (.noteRead h))) (.wrMem (.inert (.noteRead h)))

theorem Evolves.wrBytes (h : Evolves a s) {region w : Nat} {v : Word} {mask : Nat} : Evolves a (s.wrBytes region w v mask) := by
  unfold State.wrBytes
  dsimp only
  refine .ite (.wrMem (.inert h)) (.inert ?_)
  split
  · exact .ite (.flushMerge (.inert h)) (.inert h)
  · exact .inert h

theorem Evolves.freshWin (h : Evolves a s) {w n : Nat} : Evolves a (s.freshWin w n) := .setMaps h (Memory.wf_filter _ _) id id

theorem Evolves.takeWin (h : Evolves a s) {w : Nat} {vs : List Word} : Evolves a (s.takeWin w vs).1 := .iteFst (.noteReads h) h

/-! ### Machine/Queues.lean -/

theorem Evolves.modPort (h : Evolves a s) {p : Nat} {f : PortSt → PortSt} : Evolves a (s.modPort p f) := .inert h

theorem Evolves.gotItem (h : Evolves a s) {p : Nat} {q : Ring} : Evolves a (s.gotItem p q) := .modPort h

theorem Evolves.writeCpl (h : Evolves a s) {p : Nat} : Evolves a (s.writeCpl p) := by
  unfold State.writeCpl
  dsimp only
  split
  · exact h
  · exact .ite h (.gotItem (.emit (.setFld (.setFld (.setFlag (.setFld (.modPort h)))))))

theorem Evolves.drainCpl (h : Evolves a s) {n p : Nat} : Evolves a (s.drainCpl n p) := by
  induction n generalizing s with
  | zero => exact h
  | succ n ih => exact ih (.writeCpl h)

theorem Evolves.postCpl (h : Evolves a s) {p : Nat} {c : Cpl} : Evolves a (s.postCpl p c) := .drainCpl (.setFld (.modPort h))

theorem Evolves.complete (h : Evolves a s) {p tag : Nat} {final : Bool} {status result : Nat} :
    Evolves a (s.complete p tag final status result) := by
  unfold State.complete
  split
  · exact .postCpl h
  · exact h

theorem Evolves.ringWrite (h : Evolves a s) {p : Nat} {q : Ring} {bytes : List Byte} {pois : Bool} :
    Evolves a (s.ringWrite p q bytes pois) :=
  .gotItem (.emit (.wr (.ite (.emit h) (.emit (.emit h)))))

theorem Evolves.ringLost (h : Evolves a s) {p : Nat} {q : Ring} : Evolves a (s.ringLost p q) := .incFld h

theorem Evolves.msqItem (h : Evolves a s) {p : Nat} {bytes : List Byte} : Evolves a (s.msqItem p bytes) :=
  .ite h (.ite (.ringWrite h) (.setFlag (.ringLost h)))

theorem Evolves.hostRecord (h : Evolves a s) {p kind arg cid lost first : Nat} :
    Evolves a (s.hostRecord p kind arg cid lost first) :=
  .cause (.postNow h)

theorem Evolves.evqItem (h : Evolves a s) {p : Nat} {bytes : List Byte} {pois : Bool} {seq : Nat} :
    Evolves a (s.evqItem p bytes pois seq) := by
  unfold State.evqItem
  refine .ite h ?_
  refine .ite ?_ ?_
  · exact .ite (.ringWrite h) (.hostRecord (.modPort (.ringWrite h)))
  · exact .modPort (.setFlag (.ringLost h))

theorem Evolves.laterItem (h : Evolves a s) {p : Nat} {evq pois : Bool} {bytes : List Byte} {seq : Nat} :
    Evolves a (s.laterItem p evq pois bytes seq) :=
  .modPort h

theorem Evolves.releaseQueues (h : Evolves a s) : Evolves a s.releaseQueues :=
  .foldl h (fun _ _ ht => .modPort (.foldl ht (fun _ _ hu => .ite (.evqItem hu) (.msqItem hu))))

/-! ### Machine/EventLog.lean -/

theorem Evolves.evqCopy (h : Evolves a s) {p : Nat} {pois : Bool} {r : Rec} : Evolves a (s.evqCopy p pois r) :=
  .ite (.laterItem h) (.evqItem h)

theorem Evolves.stage (h : Evolves a s) {st : Store} {r : Rec} : Evolves a (s.stage st r) := by
  unfold State.stage
  extract_lets _ t
  have ht : Evolves a t := .putStore h
  refine .ite (.putStore h) ?_
  refine .ite ?_ (.putStore h)
  split
  · exact .incFld ht
  · exact .incFld ht

theorem Evolves.endLoss (h : Evolves a s) {st : Store} : Evolves a (s.endLoss st) := by
  unfold State.endLoss
  dsimp only
  split
  · exact .ite (.putStore h) h
  · exact h

theorem Evolves.setPtrs (h : Evolves a s) {st : Store} {fend wptr old : Nat} {full : Bool} :
    Evolves a (s.setPtrs st fend wptr old full) := by
  unfold State.setPtrs
  split
  · exact .setFlag (.wr (.wr (.wr h)))
  · exact .inert (.setFlag (.wr (.wr (.wr h))))

theorem Evolves.storeWrite (h : Evolves a s) {st : Store} {off : Nat} {bs : List Byte} :
    Evolves a (s.storeWrite st off bs) := by
  unfold State.storeWrite
  extract_lets _ _ ws
  unfold ws
  split
  · exact h
  · exact .wrMem (.wrMemList h)

theorem Evolves.recWrite (h : Evolves a s) {st : Store} {off : Nat} {bs : List Byte} {ptrs : State → State}
    (hp : ∀ t, Evolves a t → Evolves a (ptrs t)) : Evolves a (s.recWrite st off bs ptrs) := by
  unfold State.recWrite
  split
  · exact hp _ (.storeWrite h)
  · exact .storeWrite (.storeWrite (hp _ (.storeWrite h)))

theorem Evolves.placeRec (h : Evolves a s) {st : Store} {bs : List Byte} : Evolves a (s.placeRec st bs).1 := by
  unfold State.placeRec
  extract_lets _ _ _ _ _ _ _ _ _ _ t _ _ _ t1 t2
  have ht : Evolves a t := .ite (.wrMem h) h
  have ht1 : Evolves a t1 := .ite (.wrMem h) h
  have ht2 : Evolves a t2 := .ite (.wrMem ht1) ht1
  exact .iteFst (.recWrite ht (fun _ ht => .setPtrs ht)) (.recWrite ht2 (fun _ ht => .setPtrs ht))

theorem Evolves.writeStaged (h : Evolves a s) {st : Store} : Evolves a (s.writeStaged st) := by
  unfold State.writeStaged
  extract_lets
  split
  · exact h
  · refine .ite h ?_
    extract_lets _ pl _ t
    have hpl : Evolves a pl.1 := .placeRec h
    have ht : Evolves a t := .endLoss (.incFld (.putStore hpl))
    split
    · exact ht
    · extract_lets t1
      have ht1 : Evolves a t1 := .ite (.cause ht) (.ite (.cause ht) ht)
      exact .ite (.setStore ht1) (.evqCopy ht1)

theorem Evolves.repeatIn (h : Evolves a s) {st : Store} {seq : Nat} : Evolves a (s.repeatIn st seq) := by
  unfold State.repeatIn
  extract_lets
  refine .ite h ?_
  refine .ite (.putStore h) ?_
  split
  · refine .ite ?_ h
    extract_lets _ t
    have ht : Evolves a t := .putStore h
    refine .ite ht ?_
    split
    · exact .wrBytes ht
    · exact .storeWrite (.storeWrite ht)
  · exact h

theorem Evolves.copyOut (h : Evolves a s) {st : Store} {p : Nat} {r : Rec} : Evolves a (s.copyOut st p r) :=
  .evqCopy (.noteReads h)

theorem Evolves.closeQueueRun (h : Evolves a s) {st : Store} : Evolves a (s.closeQueueRun st) := by
  unfold State.closeQueueRun
  split
  · exact h
  · split
    · exact .copyOut (.putStore h)
    · exact h

theorem Evolves.closeRun (h : Evolves a s) : Evolves a s.closeRun := .inert (.foldl h (fun _ _ ht => .closeQueueRun ht))

theorem Evolves.repeatAll (h : Evolves a s) {seq : Nat} : Evolves a (s.repeatAll seq) := by
  refine .inert (.repeatIn (.foldl h fun t st ht => ?_))
  refine .ite (.repeatIn ht) ?_
  split
  · exact .setStore (.repeatIn ht)
  · exact .repeatIn ht

theorem Evolves.sequence (h : Evolves a s) {send : State → Rec → State} {e : Event}
    (hs : ∀ t r, Evolves a t → Evolves a (send t r)) : Evolves a (s.sequence send e) := by
  refine .ite ?_ ?_
  · split
    · exact .ite (.repeatAll (.incFld (.inert h))) (.closeRun (.repeatAll (.incFld (.inert h))))
    · exact h
  · extract_lets t seq t1 _ t2 r t3
    have h3 : Evolves a t3 := by
      refine .foldl (.inert (.wr (.closeRun h))) fun t st ht => ?_
      cases st with
      | log p => exact .ite (.stage ht) ht
      | kennel => exact ht
    exact .ite (hs _ _ h3) h3

theorem Evolves.freeze (h : Evolves a s) {st : Store} : Evolves a (s.freeze st) := .ite h (.putStore h)

theorem Evolves.thaw (h : Evolves a s) {st : Store} {how : Nat} : Evolves a (s.thaw st how) := .ite (.putStore h) h

theorem Evolves.clearStore (h : Evolves a s) {st : Store} {req : Nat} : Evolves a (s.clearStore st req) := by
  refine .endLoss (.putStore (.setPtrs ?_))
  split
  · exact .wrMem (.wrMem h)
  · exact h

theorem Evolves.doneCtl (h : Evolves a s) {st : Store} : Evolves a (s.doneCtl st) := .setFlag (.setReq h)

theorem Evolves.wrStoreCtl (h : Evolves a s) {st : Store} {p : Port} {v : Word} : Evolves a (wrStoreCtl st p v s) :=
  .ite (.placeAll (.setFlag (.setFlag h))) h

theorem Evolves.wrReadPtr (h : Evolves a s) {st : Store} {v : Word} : Evolves a (wrReadPtr st v s) :=
  .ite (.putStore (.freshWin (.wrList (.setFlag (.wr h))))) h

theorem GoesTo.execReadWindowReady (h : Evolves a s) {st : Store} : GoesTo a (execReadWindowReady st s) := by
  unfold Machine.execReadWindowReady
  refine .ite ?_ (.next h)
  extract_lets _ _ _ s1 t t1 t2
  have hs1 : Evolves a s1 := .noteReads h
  have ht : Evolves a t := .wrList hs1
  have ht1 : Evolves a t1 := .freshWin (.setFlag ht)
  have ht2 : Evolves a t2 := .foldl ht1 (fun _ _ ht => .ite (.poisonMem ht) ht)
  exact .next (.setStore ht2)

theorem GoesTo.execStoreFreeze (h : Evolves a s) {st : Store} : GoesTo a (execStoreFreeze st s) := by
  unfold Machine.execStoreFreeze
  split
  · exact .ite (.next (.freeze (.doneCtl h))) (.next h)
  · exact .next h

theorem GoesTo.execStoreUnfreeze (h : Evolves a s) {st : Store} : GoesTo a (execStoreUnfreeze st s) := by
  unfold Machine.execStoreUnfreeze
  split
  · exact .ite (.next (.thaw (.doneCtl h))) (.next h)
  · exact .next h

theorem GoesTo.execStoreClear (h : Evolves a s) {st : Store} : GoesTo a (execStoreClear st s) := by
  unfold Machine.execStoreClear
  split
  · exact .ite (.next (.ite (.putStore (.clearStore (.doneCtl h))) (.clearStore (.doneCtl h)))) (.next h)
  · exact .next h

/-! ### Machine/Link.lean -/

theorem Evolves.setEnd (h : Evolves a s) {d : Die} {x : LinkEnd} : Evolves a (s.setEnd d x) := by
  unfold State.setEnd
  split
  · exact .inert h
  · exact .inert h

theorem Evolves.sendFlit (h : Evolves a s) {d : Die} {typ src strobe : Nat} {payload : List Byte} :
    Evolves a (s.sendFlit d typ src strobe payload) :=
  .ite h (.emit (.setEnd h))

theorem Evolves.sendFree (h : Evolves a s) {d : Die} {typ : Nat} {payload : List Byte} : Evolves a (s.sendFree d typ payload) :=
  .ite h (.emit h)

theorem Evolves.linkEdge (h : Evolves a s) : Evolves a s.linkEdge := .ite (.inert h) (.sendFree (.sendFree (.inert h)))

theorem Evolves.linkDown (h : Evolves a s) {d : Die} : Evolves a (s.linkDown d) := by
  unfold State.linkDown
  extract_lets _ t _ t1 t2 t3
  have ht : Evolves a t := .setEnd h
  have ht1 : Evolves a t1 := .inert ht
  have ht2 : Evolves a t2 := .setFault ht1
  have ht3 : Evolves a t3 := .satFld (.setFlag ht2)
  refine .ite h ?_
  split
  · exact .toSafe (.post ht3)
  · exact .supRecord (.inert ht2)

theorem Evolves.requestReplay (h : Evolves a s) {d : Die} : Evolves a (s.requestReplay d) :=
  .ite (.linkDown (.satFld (.setEnd h))) (.satFld (.setEnd h))

theorem Evolves.receive (h : Evolves a s) {d : Die} {bs : List Byte} : Evolves a (s.receive d bs).1 := by
  unfold State.receive
  dsimp only
  exact .iteFst h (.iteFst (.requestReplay h) (.iteFst h (.iteFst (.setEnd h) (.iteFst (.setEnd h) (.iteFst (.setEnd h)
    (.requestReplay (.setEnd h)))))))

theorem Evolves.linkTrained (h : Evolves a s) : Evolves a s.linkTrained := .setFlag (.inert h)

theorem GoesTo.execRawFlitReceive (h : Evolves a s) {bytes : List Byte} : GoesTo a (execRawFlitReceive bytes s) :=
  .ite (.ite (.next (.receive h)) (.next (.inert (.receive h)))) (.next (.receive h))

theorem GoesTo.execFrameStrobeReceive (h : Evolves a s) {bytes : List Byte} : GoesTo a (execFrameStrobeReceive bytes s) :=
  .ite (.next (.inert (.receive h))) (.ite (.next (.receive h)) (.next (.inert (.receive h))))

theorem GoesTo.execStatusFlitReceive (h : Evolves a s) {bytes : List Byte} : GoesTo a (execStatusFlitReceive bytes s) :=
  .ite (.next (.inert (.receive h))) (.next (.receive h))

theorem Evolves.sendRecord (h : Evolves a s) {r : Rec} : Evolves a (s.sendRecord r) :=
  .inert (.foldl h (fun _ _ ht => .sendFlit ht))

theorem GoesTo.execKennelWriteFlit (h : Evolves a s) {bytes : List Byte} : GoesTo a (execKennelWriteFlit bytes s) := by
  unfold Machine.execKennelWriteFlit
  extract_lets r _ __src _ _ _ t
  have hr : Evolves a r.1 := .receive h
  have h__src : Evolves a __src := hr
  have ht : Evolves a t := .inert h__src
  exact .ite (.ite (.next (.inert h__src)) (.next (.stage ht))) (.next hr)

theorem GoesTo.execIdleFlitReceive (h : Evolves a s) {die : Die} {bytes : List Byte} :
    GoesTo a (execIdleFlitReceive die bytes s) :=
  .next (.receive h)

theorem Evolves.resendTo (h : Evolves a s) {d : Die} : Evolves a (s.resendTo d) := .ite (.setEnd h) h

theorem GoesTo.execReplayRequest (h : Evolves a s) {die : Die} {seq : Fin 4096} : GoesTo a (execReplayRequest die seq s) := by
  unfold Machine.execReplayRequest
  extract_lets _ _ _ t t1
  have ht : Evolves a t := .setEnd h
  have ht1 : Evolves a t1 := .foldl (.resendTo ht) (fun _ _ ht => .emit ht)
  exact .ite (.next h) (.next (.ite (.linkDown ht1) ht1))

theorem GoesTo.execStageAFlitCheck (h : Evolves a s) {pack : Fin 8} {strobe : Fin 128} :
    GoesTo a (execStageAFlitCheck pack strobe s) :=
  .ite (.next h) (.next (.inert h))

theorem GoesTo.execEventSequence (h : Evolves a s) : GoesTo a (execEventSequence s) := by
  unfold Machine.execEventSequence
  split
  · exact .next h
  · exact .next (.sequence (.inert h) (fun _ _ ht => .sendRecord ht))

/-! ### Machine/Time.lean -/

theorem Evolves.wrapRecord (h : Evolves a s) {f : Nat} : Evolves a (s.wrapRecord f) := .postAt h

theorem Evolves.newEpoch (h : Evolves a s) {f : Nat} : Evolves a (s.newEpoch f) := .wrapRecord (.setFld (.inert h))

theorem Evolves.timeRecord (h : Evolves a s) {kind value : Nat} : Evolves a (s.timeRecord kind value) := .causeAll (.postNow h)

theorem Evolves.loadSeconds (h : Evolves a s) {v f : Nat} : Evolves a (s.loadSeconds v f) :=
  .timeRecord (.newEpoch (.incFld (.setFlag (.inert h))))

theorem Evolves.rollSecond (h : Evolves a s) : Evolves a s.rollSecond := by
  unfold State.rollSecond
  extract_lets _ s1
  have hs1 : Evolves a s1 := .inert h
  split
  · exact .loadSeconds hs1
  · exact .inert hs1

theorem Evolves.ppsSpan (h : Evolves a s) {d : Nat} : Evolves a (s.ppsSpan d) := .inert h

theorem Evolves.addSpan (h : Evolves a s) {d : Nat} : Evolves a (s.addSpan d) := by
  unfold State.addSpan
  extract_lets s1 _ _ _ _ _ t t1
  have hs1 : Evolves a s1 := .ppsSpan h
  have ht : Evolves a t := .inert hs1
  have ht1 : Evolves a t1 := .ite (.rollSecond ht) ht
  exact .ite (.newEpoch (.inert ht1)) ht1

theorem Evolves.cutSpan (h : Evolves a s) {d : Nat} : Evolves a (s.cutSpan d).1 := .iteFst (.addSpan h) h

theorem Evolves.addUnits (h : Evolves a s) {d : Nat} : Evolves a (s.addUnits d) := .addSpan (.cutSpan (.cutSpan h))

theorem Evolves.endSlew (h : Evolves a s) : Evolves a s.endSlew := .timeRecord (.wr (.setFlag (.inert h)))

theorem Evolves.showSlew (h : Evolves a s) : Evolves a s.showSlew := .wr h

theorem Evolves.edge (h : Evolves a s) : Evolves a s.edge := .ite (.addUnits h) (.showSlew (.inert (.addUnits h)))

theorem Evolves.tick (h : Evolves a s) : Evolves a s.tick := .ite (.linkEdge (.edge h)) h

theorem Evolves.advance (h : Evolves a s) {d : Nat} : Evolves a (s.advance d) :=
  .ite (.inert (.addUnits h)) (.showSlew (.inert (.inert (.addUnits h))))

theorem Evolves.wrTimFreq (h : Evolves a s) {v : Word} : Evolves a (wrTimFreq v s) := .setFlag (.wr h)

theorem Evolves.takeArgs (h : Evolves a s) : Evolves a s.takeArgs := .inert h

theorem Evolves.wrTimCmd (h : Evolves a s) {p : Port} {v : Word} : Evolves a (wrTimCmd p v s) :=
  .ite h (.place (.setFlag (.takeArgs h)))

theorem Evolves.doneTim (h : Evolves a s) {r : Req} {n : Nat} : Evolves a (s.doneTim r n) :=
  .ite (.setFlag (.setReq h)) (.setReq h)

theorem Evolves.realign (h : Evolves a s) : Evolves a s.realign := .setFld (.setFlag (.setFld (.inert h)))

theorem Evolves.phaseStep (h : Evolves a s) {amount : ℤ} : Evolves a (s.phaseStep amount) :=
  .timeRecord (.incFld (.realign (.inert (.newEpoch (.inert h)))))

theorem GoesTo.execPhaseStepApply (h : Evolves a s) : GoesTo a (execPhaseStepApply s) := by
  unfold Machine.execPhaseStepApply
  split
  · exact .ite (.next (.phaseStep (.doneTim h))) (.next h)
  · exact .next h

theorem GoesTo.execSlewStart (h : Evolves a s) : GoesTo a (execSlewStart s) := by
  unfold Machine.execSlewStart
  split
  · refine .ite ?_ ?_
    · exact .next (.ite (.endSlew (.inert (.doneTim h))) (.showSlew (.setFlag (.inert (.doneTim h)))))
    · exact .next h
  · exact .next h

theorem GoesTo.execSecondsLoadArm (h : Evolves a s) : GoesTo a (execSecondsLoadArm s) := by
  unfold Machine.execSecondsLoadArm
  split
  · refine .ite ?_ ?_
    · exact .next (.ite (.loadSeconds (.setFlag (.doneTim h))) (.inert (.setFlag (.doneTim h))))
    · exact .next h
  · exact .next h

theorem GoesTo.execPpsInEdge (h : Evolves a s) {falling : Bool} : GoesTo a (execPpsInEdge falling s) := by
  unfold Machine.execPpsInEdge
  refine .ite ?_ (.next h)
  extract_lets _ t t1 t2 t3 t4 t5 _ t6
  have ht : Evolves a t := .wr h
  have ht1 : Evolves a t1 := .wr ht
  have ht2 : Evolves a t2 := .wr ht1
  have ht3 : Evolves a t3 := .wr ht2
  have ht4 : Evolves a t4 := .ite (.setFlag ht3) ht3
  have ht5 : Evolves a t5 := .causeAll (.incFld (.setFlag ht4))
  have ht6 : Evolves a t6 := .inert ht5
  exact .next (.ite (.timeRecord (.setFlag ht6)) ht6)

/-! ### Machine/AuxConv.lean -/

theorem Evolves.auxTrigger (h : Evolves a s) : Evolves a s.auxTrigger :=
  .ite (.satFld h) (.ite (.incFld h) (.inert (.setFlag (.incFld h))))

theorem Evolves.wrAuxGo (h : Evolves a s) {v : Word} : Evolves a (wrAuxGo v s) := .ite (.auxTrigger h) h

theorem Evolves.wrAuxCmp (h : Evolves a s) {p : Port} {v : Word} : Evolves a (wrAuxCmp p v s) := .placeEach (.wr h)

theorem Evolves.wrAuxSet (h : Evolves a s) {k : Nat} {p : Port} {v : Word} : Evolves a (wrAuxSet k p v s) := .placeEach (.wr h)

theorem Evolves.auxArm (h : Evolves a s) : Evolves a s.auxArm := .onDue h (fun _ _ ht => .setFlag (.inert ht))

theorem GoesTo.execAuxConversionDone (h : Evolves a s) {code : Fin 65536} : GoesTo a (execAuxConversionDone code s) := by
  unfold Machine.execAuxConversionDone
  extract_lets _ _ t _ _ _ t1 _ t2
  have ht : Evolves a t := .inert h
  have ht1 : Evolves a t1 := .wr h
  have ht2 : Evolves a t2 := .inert ht1
  split
  · exact .next (.wr (.setFlag ht))
  · exact .ite (.next h) (.ite (.next (.inert h)) (.next (.ite (.setFlag ht2) ht2)))

theorem GoesTo.execAuxConfigApply (h : Evolves a s) : GoesTo a (execAuxConfigApply s) := by
  unfold Machine.execAuxConfigApply
  extract_lets t t1 t2
  have ht : Evolves a t := .onDue h (fun _ _ ht => .inert ht)
  have ht1 : Evolves a t1 := .onDue ht (fun _ _ ht => .inert ht)
  have ht2 : Evolves a t2 := .onDue ht1 (fun _ _ ht => .inert ht)
  exact .next (.setFlag (.auxArm ht2))

theorem Evolves.auxAbort (h : Evolves a s) {busy : Bool} : Evolves a (s.auxAbort busy) := .ite (.incFld h) h

theorem Evolves.wrAuxUrg (h : Evolves a s) {v : Word} : Evolves a (wrAuxUrg v s) := by
  unfold Machine.wrAuxUrg
  extract_lets t u
  have ht : Evolves a t := .setFld (.setFlag h)
  have hu : Evolves a u := .auxAbort ht
  exact .ite (.setFlag h) (.ite ht (.setFlag (.inert hu)))

theorem GoesTo.execSupplyWindow (h : Evolves a s) {codes : List (Fin 65536)} : GoesTo a (execSupplyWindow codes s) := by
  unfold Machine.execSupplyWindow
  extract_lets _ t t1 _ t2
  have ht : Evolves a t := .auxAbort h
  have ht1 : Evolves a t1 := .foldl ht (fun _ _ ht => .setFld ht)
  have ht2 : Evolves a t2 := .inert ht1
  exact .ite (.next h) (.ite (.next (.inert ht2)) (.next ht2))

/-! ### Machine/Lanes.lean -/

theorem Evolves.mark (h : Evolves a s) {l n : Nat} : Evolves a (s.mark l n) := .setFld h

theorem Evolves.restartInt (h : Evolves a s) {l : Nat} : Evolves a (s.restartInt l) := .ite (.setFld (.modLane h)) h

theorem Evolves.voidSkew (h : Evolves a s) {l : Nat} : Evolves a (s.voidSkew l) := .modLane (.setFlag h)

theorem Evolves.voidLevel (h : Evolves a s) {l : Nat} : Evolves a (s.voidLevel l) := .modLane (.setFlag h)

theorem Evolves.showInj (h : Evolves a s) {l : Nat} {levelChanged : Bool} : Evolves a (s.showInj l levelChanged) := by
  unfold State.showInj
  extract_lets _ _ t _ t1 t2 t3
  have ht : Evolves a t := .setFld h
  have ht1 : Evolves a t1 := .ite (.mark ht) ht
  have ht2 : Evolves a t2 := .ite (.restartInt ht1) ht1
  have ht3 : Evolves a t3 := .ite (.voidSkew ht2) ht2
  exact .ite (.voidLevel ht3) ht3

theorem Evolves.showPwr (h : Evolves a s) {l : Nat} : Evolves a (s.showPwr l) := .setFlag h

theorem Evolves.takeHold (h : Evolves a s) {l : Nat} {v : Word} : Evolves a (s.takeHold l v) := by
  unfold State.takeHold
  extract_lets _ _ _ _ t t1 _ _ t2 t3 t4
  have ht : Evolves a t := .setFld (.setFld h)
  have ht1 : Evolves a t1 := .showPwr ht
  have ht2 : Evolves a t2 := .ite (.modLane (.mark ht1)) ht1
  have ht3 : Evolves a t3 := .ite (.modLane (.mark ht2)) ht2
  have ht4 : Evolves a t4 := .ite (.restartInt ht3) ht3
  exact .showInj ht4

theorem Evolves.freshWindows (h : Evolves a s) {b : Nat} : Evolves a (s.freshWindows b) := .modBay h

theorem Evolves.packEnters (h : Evolves a s) {p : Nat} : Evolves a (s.packEnters p) := by
  refine .foldl (.foldl h fun _ _ ht => .freshWindows ht) fun t i ht => ?_
  extract_lets l x t1 t2 t3 t4
  have h1 : Evolves a t1 := by
    unfold t1
    split
    · exact .takeHold (.modLane ht)
    · exact .showPwr ht
  have h2 : Evolves a t2 := .ite h1 (.modLane h1)
  have h3 : Evolves a t3 := .showInj h2
  exact .modLane (.ite h3 (.restartInt (.mark h3)))

theorem Evolves.packLeaves (h : Evolves a s) {p : Nat} : Evolves a (s.packLeaves p) := by
  unfold State.packLeaves
  extract_lets t
  have ht : Evolves a t := .foldl h (fun _ _ ht => .voidLevel (.voidSkew (.showInj (.showPwr ht))))
  exact .foldl ht (fun _ _ ht => .setFld ht)

theorem Evolves.keepCode (h : Evolves a s) {l n : Nat} {r : BitVec 16 × Option Bool} : Evolves a (s.keepCode l n r) := by
  unfold State.keepCode
  extract_lets _ t _ _ _ t1 t2
  have ht : Evolves a t := .ite (.setFlag h) h
  have ht1 : Evolves a t1 := .setFlag ht
  have ht2 : Evolves a t2 := .ite (.incFld ht1) ht1
  exact .ite (.modLane ht) (.modLane ht2)

theorem GoesTo.execRawFlitSend (h : Evolves a s) {pack : Fin 8} {strobe : Fin 128} {conv : List Conv} :
    GoesTo a (execRawFlitSend pack strobe conv s) :=
  .ite (.next h) (.next (.sendFlit (.foldl h (fun _ _ ht => .keepCode ht))))

theorem Evolves.laneFrameEnd (h : Evolves a s) {l : Nat} : Evolves a (s.laneFrameEnd l) := .modLane (.ite h (.setFlag h))

theorem Evolves.wrAfeLane (h : Evolves a s) {l : Nat} {p : Port} {v : Word} : Evolves a (wrAfeLane l p v s) :=
  .place (.setFlag (.setFld (.setFld h)))

theorem GoesTo.execAfeLaneWrite (h : Evolves a s) {p : Port} {lane : Fin 256} {v : Word} :
    GoesTo a (execAfeLaneWrite p lane v s) :=
  .gate h (fun _ _ ht => .wrAfeLane ht)

theorem GoesTo.execLaneSettingsApply (h : Evolves a s) {lane : Fin 256} : GoesTo a (execLaneSettingsApply lane s) := by
  unfold Machine.execLaneSettingsApply
  extract_lets _ t
  have ht : Evolves a t := .setFlag (.setReq h)
  split
  · exact .ite (.next (.setFlag ht)) (.ite (.next (.takeHold ht)) (.next (.modLane ht)))
  · exact .next h

theorem Evolves.holdInj (h : Evolves a s) {l : Nat} {v : Word} : Evolves a (s.holdInj l v) := .modLane (.setFlag h)

theorem Evolves.wrAfeInj (h : Evolves a s) {l : Nat} {p : Port} {v : Word} : Evolves a (wrAfeInj l p v s) := by
  unfold Machine.wrAfeInj
  extract_lets t
  have ht : Evolves a t := .setFlag (.setFld (.setFld h))
  exact .ite (.holdInj (.dropReqs ht)) (.placeEach ht)

theorem Evolves.putInj (h : Evolves a s) {l : Nat} {v : Word} : Evolves a (s.putInj l v) := .showInj (.modLane h)

theorem Evolves.showPend (h : Evolves a s) {l : Nat} : Evolves a (s.showPend l) := .setFlag h

theorem Evolves.sniffSwitch (h : Evolves a s) {l : Nat} : Evolves a (s.sniffSwitch l) := .ite h (.modLane h)

theorem Evolves.sniffTakes (h : Evolves a s) {l : Nat} : Evolves a (s.sniffTakes l) :=
  .sniffSwitch (.showInj (.modLane (.setFlag h)))

theorem Evolves.sniffLeaves (h : Evolves a s) {l : Nat} : Evolves a (s.sniffLeaves l) := by
  unfold State.sniffLeaves
  refine .ite h ?_
  extract_lets t
  have ht : Evolves a t := .sniffSwitch (.showInj (.setFlag h))
  split
  · exact .showPend (.putInj (.modLane (.setFlag ht)))
  · exact ht

theorem Evolves.stopInjection (h : Evolves a s) : Evolves a s.stopInjection :=
  .ite h (.foldl h (fun _ _ ht => .ite (.sniffLeaves ht) (.showInj (.modLane (.sniffLeaves ht)))))

theorem Evolves.wrCnvTrim (h : Evolves a s) {b k : Nat} {skew : Bool} {p : Port} {v : Word} :
    Evolves a (wrCnvTrim b k skew p v s) :=
  .ite (.place (.setFld h)) (.place (.wr h))

theorem GoesTo.execCnvTrimWrite (h : Evolves a s) {p : Port} {bay : Fin 32} {k : Fin 8} {skew : Bool} {v : Word} :
    GoesTo a (execCnvTrimWrite p bay k skew v s) :=
  .gate h (fun _ _ ht => .wrCnvTrim ht)

theorem Evolves.putTrim (h : Evolves a s) {b k : Nat} {v : Word} : Evolves a (s.putTrim b k v) :=
  .ite (.modLane (.setFlag (.setFld h))) (.voidSkew (.modLane (.setFlag (.setFld h))))

theorem Evolves.putLtrim (h : Evolves a s) {l : Nat} {v : Word} : Evolves a (s.putLtrim l v) :=
  .ite (.modLane h) (.voidLevel (.modLane h))

theorem Evolves.restoreCoef (h : Evolves a s) {b : Nat} : Evolves a (s.restoreCoef b) :=
  .freshWindows (.setFld (.foldl (.wr h) (fun _ _ ht => .wr ht)))

theorem Evolves.putCtrl (h : Evolves a s) {b : Nat} {v : Word} : Evolves a (s.putCtrl b v) := by
  unfold State.putCtrl
  extract_lets _ t t1 t2 t3
  have ht : Evolves a t := .modBay h
  have ht1 : Evolves a t1 := .ite (.freshWindows ht) ht
  have ht2 : Evolves a t2 := .setFlag ht1
  have ht3 : Evolves a t3 := .ite (.restoreCoef ht2) ht2
  exact .ite ht3 (.foldl ht3 (fun _ _ ht => .voidLevel (.voidSkew ht)))

theorem GoesTo.execTrimApply (h : Evolves a s) {bay : Fin 32} : GoesTo a (execTrimApply bay s) := by
  unfold Machine.execTrimApply
  extract_lets _ t
  have ht : Evolves a t := .foldl h (fun _ _ ht => .onDue (.onDue ht (fun _ _ hu => .putTrim hu)) (fun _ _ hu => .putLtrim hu))
  exact .next (.onDue ht (fun _ _ ht => .putCtrl ht))

theorem Evolves.wrCnvCtrl (h : Evolves a s) {b : Nat} {p : Port} {v : Word} : Evolves a (wrCnvCtrl b p v s) := .place (.wr h)

theorem Evolves.countWindows (h : Evolves a s) {b : Nat} : Evolves a (s.countWindows b) := .ite (.modBay h) h

theorem GoesTo.execOffsetWindowEnd (h : Evolves a s) {bay : Fin 32} {est : List (BitVec 16)} :
    GoesTo a (execOffsetWindowEnd bay est s) :=
  .ite (.next (.setFlag (.foldl (.modBay h) (fun _ _ ht => .wr ht)))) (.next h)

theorem GoesTo.execGainWindowEnd (h : Evolves a s) {bay : Fin 32} {even odd : BitVec 16} :
    GoesTo a (execGainWindowEnd bay even odd s) :=
  .ite (.next (.setFlag (.wr (.modBay h)))) (.next h)

theorem GoesTo.execSkewMeasure (h : Evolves a s) {lane : Fin 256} : GoesTo a (execSkewMeasure lane s) := by
  unfold Machine.execSkewMeasure
  extract_lets _ _ t
  have ht : Evolves a t := .modLane h
  refine .ite (.next h) ?_
  split
  · exact .next ht
  · exact .ite (.next (.modLane (.wr ht))) (.next (.modLane ht))

/-! ### Machine/Triad.lean -/

theorem Evolves.latchTstat (h : Evolves a s) : Evolves a s.latchTstat := .inert h

theorem Evolves.deliver (h : Evolves a s) {i : Nat} {ws : List Word} : Evolves a (s.deliver i ws) := .inert h

theorem GoesTo.execCommitUnit (h : Evolves a s) : GoesTo a (execCommitUnit s) := by
  unfold Machine.execCommitUnit
  split
  · exact .next h
  · exact .next (.inert h)

theorem Evolves.triadRecord (h : Evolves a s) {kind member voter outcome cycle detail mode cause : Nat} :
    Evolves a (s.triadRecord kind member voter outcome cycle detail mode cause) :=
  .causeAll (.post h)

theorem Evolves.verdict (h : Evolves a s) {v : Verdict} {kind cycle detail : Nat} :
    Evolves a (s.verdict v kind cycle detail) := by
  unfold State.verdict
  extract_lets c n lat t drop t1 t2
  have ht : Evolves a t := .ite (.satFld h) h
  have h1 : Evolves a t1 := .ite (.satFld ht) ht
  have h2 : Evolves a t2 := by
    unfold t2 c
    split
    · exact h1
    · exact .toDegraded (.satFld (.setFlag h1))
    · exact .toDegraded (.satFld (.setFlag h1))
    · exact .toSafe h1
  exact .triadRecord (.wr (.wr (.wr h2)))

theorem Evolves.vote (h : Evolves a s) {v : Voting} {cls : Nat} : Evolves a (s.vote v cls).1 := by
  unfold State.vote
  extract_lets rs t1
  have h1 : Evolves a t1.1 := by
    unfold t1 rs
    refine .iteFst (.verdict h) (.iteFst (.verdict h) ?_)
    split
    · exact h
    · exact .verdict h
    · split
      · exact .iteFst (.verdict h) (.verdict h)
      · exact .iteFst (.verdict h) (.iteFst (.verdict h) (.iteFst (.verdict h) (.iteFst (.verdict h) (.verdict h))))
  split
  · exact .iteFst (.verdict (.satFld h1)) h1
  · exact h1

theorem Evolves.release (h : Evolves a s) {g : BitVec 64} : Evolves a (s.release g) := .wr (.wr h)

theorem Evolves.withhold (h : Evolves a s) : Evolves a s.withhold := .inert h

theorem GoesTo.ingress (h : Evolves a s) {first second : List (BitVec 64)} {cycle : Nat} :
    GoesTo a (s.ingress first second cycle) := by
  unfold State.ingress
  extract_lets _ s1
  have hs1 : Evolves a s1 := .inert h
  refine .ite (.next (.release hs1)) ?_
  refine .ite (.next (.release (.triadRecord (.satFld hs1)))) ?_
  split
  · exact .next (.release (.verdict (.satFld hs1)))
  · exact .next (.withhold (.verdict (.satFld hs1)))

theorem GoesTo.execVoterSelfTest (h : Evolves a s) {wrong : List (List Bool)} {cycle : Fin 131072} :
    GoesTo a (execVoterSelfTest wrong cycle s) := by
  unfold Machine.execVoterSelfTest
  refine .ite (.next h) ?_
  extract_lets _ s1 _ _ t t1 t2 _ t3
  have hs1 : Evolves a s1 := .inert h
  have ht : Evolves a t := .setFld hs1
  have ht1 : Evolves a t1 := .setFld ht
  have ht2 : Evolves a t2 := .setFlag ht1
  have ht3 : Evolves a t3 := .inert ht2
  refine .ite (.next ht) ?_
  split
  · exact .next ht3
  · exact .next (.verdict ht3)
  · exact .next (.verdict ht3)

theorem GoesTo.execLatentDivergenceSweep (h : Evolves a s) {first : List (BitVec 64)} {cycle : Fin 131072} :
    GoesTo a (execLatentDivergenceSweep first cycle s) := by
  unfold Machine.execLatentDivergenceSweep
  refine .ite (.next h) ?_
  extract_lets ms x bad s1 t1 t2 _ t3
  have h1 : Evolves a t1 := .setFlag (.setFld (.foldl h fun _ _ ht => .noteReads ht))
  have h3 : Evolves a t3 := .inert (.ite (.incFld h1) h1)
  refine .next ?_
  split
  · exact .verdict h3
  · exact h3

theorem Evolves.wrHeel (h : Evolves a s) {p : Port} {v : Word} : Evolves a (wrHeel p v s) :=
  .ite (.placeAll (.setFlag (.setFld h))) (.setFld h)

theorem GoesTo.execHeelCheck (h : Evolves a s) : GoesTo a (execHeelCheck s) := by
  unfold Machine.execHeelCheck
  split
  · extract_lets _ _ t t1 t2 t3 t4 _ t5
    have ht : Evolves a t := .setReq h
    have ht1 : Evolves a t1 := .setFlag ht
    have ht2 : Evolves a t2 := .setFld ht1
    have ht3 : Evolves a t3 := .setFld (.setFlag ht2)
    have ht4 : Evolves a t4 := .setFlag ht3
    have ht5 : Evolves a t5 := .inert ht4
    exact .ite (.next (.latchTstat (.triadRecord ht5))) (.next ht2)
  · exact .next h

theorem Evolves.heelEnds (h : Evolves a s) {code outcome cycle : Nat} : Evolves a (s.heelEnds code outcome cycle) :=
  .triadRecord (.inert (.setFlag (.setFlag (.setFld (.setFlag h)))))

theorem Evolves.copySram (h : Evolves a s) {src dst lo n : Nat} : Evolves a (s.copySram src dst lo n) :=
  .foldl (.foldl h (fun _ _ ht => .wrMem ht)) (fun _ _ ht => .ite (.poisonMem ht) (.wrMem ht))

theorem Evolves.heelStep (h : Evolves a s) : Evolves a s.heelStep := by
  unfold State.heelStep
  dsimp only
  split
  · exact .ite (.copySram h) h
  · exact h

theorem GoesTo.execHeelProbationEnd (h : Evolves a s) {matched : Bool} {cycle : Fin 131072} :
    GoesTo a (execHeelProbationEnd matched cycle s) :=
  .ite (.next h) (.ite (.next (.inert h)) (.next (.heelEnds h)))

theorem Evolves.readmit (h : Evolves a s) : Evolves a s.readmit := .triadRecord (.inert (.setFlag (.setFlag (.setFlag h))))

theorem Evolves.clearTriad (h : Evolves a s) : Evolves a s.clearTriad :=
  .inert (.setFld (.wr (.wr (.wr (.setFld (.setFld h))))))

/-! ### Machine/Filter.lean -/

theorem Evolves.formLane (h : Evolves a s) {l : Nat} : Evolves a (s.formLane l) := .modLane (.setFld h)

theorem Evolves.evalThresholds (h : Evolves a s) {l : Nat} : Evolves a (s.evalThresholds l) := by
  unfold State.evalThresholds
  extract_lets x k one
  have hone : ∀ t i set, Evolves a t → Evolves a (one t i set) := fun t i set ht => by
    have raised : Evolves a (if threshold set x.rate (t.flag k i) && !t.flag k i then
        ((t.setFlag k i (threshold set x.rate (t.flag k i))).setFlag k (3 + i) true).incFld k (23 + 8 * i) (16 + 8 * i)
      else t.setFlag k i (threshold set x.rate (t.flag k i))) := .ite (.incFld (.setFlag (.setFlag ht))) (.setFlag ht)
    exact .ite raised (.inert raised)
  exact .ite (.setFld h) (hone _ _ _ (hone _ _ _ h))

theorem Evolves.filterLane (h : Evolves a s) {f l : Nat} : Evolves a (s.filterLane f l) :=
  .ite (.evalThresholds (.modLane (.setFlag (.setFlag (.setFld h))))) (.evalThresholds (.modLane h))

theorem Evolves.filterFrame (h : Evolves a s) {f : Nat} : Evolves a (s.filterFrame f) :=
  .deliver (.deliver (.deliver (.foldl (.inert h) (fun _ _ ht => .filterLane ht))))

theorem Evolves.wrDecLane (h : Evolves a s) {l : Nat} {p : Port} {v : Word} : Evolves a (wrDecLane l p v s) :=
  .place (.setFlag (.wr h))

theorem GoesTo.execDecLaneWrite (h : Evolves a s) {p : Port} {lane : Fin 384} {v : Word} :
    GoesTo a (execDecLaneWrite p lane v s) :=
  .gate h (fun _ _ ht => .wrDecLane ht)

theorem Evolves.putDec (h : Evolves a s) {l : Nat} {v : Word} : Evolves a (s.putDec l v) := by
  unfold State.putDec
  extract_lets _ _ t _ t1
  have ht : Evolves a t := .modLane h
  have ht1 : Evolves a t1 := .ite (.mark ht) ht
  exact .ite ht (.ite (.restartInt ht1) ht1)

theorem GoesTo.execDecLaneApply (h : Evolves a s) {lane : Fin 384} : GoesTo a (execDecLaneApply lane s) := by
  unfold Machine.execDecLaneApply
  extract_lets _ t
  have ht : Evolves a t := .setFlag (.setReq h)
  split
  · exact .ite (.next (.putDec ht)) (.next (.setFlag ht))
  · exact .next h

theorem Evolves.wrThreshold (h : Evolves a s) {l : Nat} {hh : Bool} {p : Port} {v : Word} :
    Evolves a (wrThreshold l hh p v s) :=
  .placeHyper (.setFlag (.wr h))

theorem GoesTo.execThresholdWrite (h : Evolves a s) {p : Port} {lane : Fin 384} {hh : Bool} {v : Word} :
    GoesTo a (execThresholdWrite p lane hh v s) :=
  .gate h (fun _ _ ht => .wrThreshold ht)

theorem GoesTo.execThresholdApply (h : Evolves a s) {lane : Fin 384} : GoesTo a (execThresholdApply lane s) := by
  unfold Machine.execThresholdApply
  extract_lets _ t t1
  have ht : Evolves a t := .onDue h (fun _ _ ht => .modLane ht)
  have ht1 : Evolves a t1 := .onDue ht (fun _ _ ht => .modLane ht)
  exact .ite (.next (.setFlag ht1)) (.next ht1)

/-! ### Machine/Measure.lean -/

theorem Evolves.measureLane (h : Evolves a s) {b l : Nat} : Evolves a (s.measureLane b l) := .modLane h

theorem Evolves.latchOne (h : Evolves a s) {b f : Nat} {ms : List LaneMeas} {fUsed tk : ℚ} :
    Evolves a (s.latchOne b f ms fUsed tk) :=
  .setFld (.ite (.satFld (.modBay h)) (.modBay h))

theorem Evolves.latchReports (h : Evolves a s) {b f : Nat} {ms : List LaneMeas} {fUsed : ℚ} :
    Evolves a (s.latchReports b f ms fUsed) :=
  .ite (.modBay h) (.modBay (.foldl h (fun _ _ ht => .latchOne ht)))

theorem Evolves.bayChange (h : Evolves a s) {b : Nat} : Evolves a (s.bayChange b) :=
  .ite (.modBay (.ite (.modBay (.setFld h)) h)) (.ite (.modBay (.setFld h)) h)

theorem Evolves.track (h : Evolves a s) {b : Nat} : Evolves a (s.track b) := by
  unfold State.track
  extract_lets _ _ _ _ _ _ _ _ _ _ _ t _ t1 t2 t3
  have ht : Evolves a t := .modBay h
  have ht1 : Evolves a t1 := .ite (.setFlag ht) ht
  have ht2 : Evolves a t2 := .setFld (.setFlag (.setFld ht1))
  have ht3 : Evolves a t3 := .wr ht2
  split
  · exact .wr ht3
  · exact ht3

theorem Evolves.deliverBay (h : Evolves a s) {b : Nat} {lanes rms : List Word} {flags : Nat} {res : List Word} :
    Evolves a (s.deliverBay b lanes rms flags res) :=
  .deliver (.deliver (.deliver (.deliver h)))

theorem Evolves.bayOff (h : Evolves a s) {b : Nat} : Evolves a (s.bayOff b) :=
  .deliverBay (.modBay (.setFld (.foldl h (fun _ _ ht => .wr ht))))

theorem Evolves.measureBay (h : Evolves a s) {f b : Nat} : Evolves a (s.measureBay f b) := by
  unfold State.measureBay
  extract_lets s1 _ s2 _ _ _ t _ _ _ _ t1 t2 t3 t4 t5 t6 t7 _ t8 t9
  have hs1 : Evolves a s1 := .bayChange h
  have hs2 : Evolves a s2 := .foldl hs1 (fun _ _ ht => .measureLane ht)
  have ht : Evolves a t := .track hs2
  have ht1 : Evolves a t1 := .wr ht
  have ht2 : Evolves a t2 := .wr ht1
  have ht3 : Evolves a t3 := .wrList ht2
  have ht4 : Evolves a t4 := .wrList ht3
  have ht5 : Evolves a t5 := .wrList ht4
  have ht6 : Evolves a t6 := .wrList ht5
  have ht7 : Evolves a t7 := .wr ht6
  have ht8 : Evolves a t8 := .deliverBay ht7
  have ht9 : Evolves a t9 := .modBay ht8
  exact .ite (.bayOff hs2) (.latchReports ht9)

theorem Evolves.measureFrame (h : Evolves a s) {f : Nat} :
    Evolves a (s.measureFrame f) := .foldl h (fun _ _ ht => .measureBay ht)

theorem Evolves.formBay (h : Evolves a s) {b : Nat} : Evolves a (s.formBay b) := .modBay h

theorem Evolves.wrMsrCfg (h : Evolves a s) {b : Nat} {p : Port} {v : Word} : Evolves a (wrMsrCfg b p v s) :=
  .placeHyper (.setFlag (.wr h))

theorem Evolves.putMsrCfg (h : Evolves a s) {b : Nat} {v : Word} : Evolves a (s.putMsrCfg b v) := .modBay h

theorem GoesTo.execMsrFrameRead (h : Evolves a s) {p : Port} {bay : Fin 48} : GoesTo a (execMsrFrameRead p bay s) := by
  unfold Machine.execMsrFrameRead
  exact .readGate h fun _ ht => .foldl ht fun _ _ hu => .wr hu

theorem Evolves.harmonicRecord (h : Evolves a s) {b k : Nat} : Evolves a (s.harmonicRecord b k).1 := .ite (.freeList h) h

theorem GoesTo.execSynchrophasorReport (h : Evolves a s) {bay : Fin 48} : GoesTo a (execSynchrophasorReport bay s) := by
  refine .ite (.next h) (.next (.setFld (.modBay (.foldl (.takeRun h) fun t e ht => ?_))))
  split
  · exact .msqItem ht
  · exact ht

/-! ### Machine/FieldOut.lean -/

theorem Evolves.modDout (h : Evolves a s) {n : Nat} {f : DoSt → DoSt} : Evolves a (s.modDout n f) := .inert h

theorem Evolves.fieldRecord (h : Evolves a s) {kind code idx logs : Nat} {kennel : Bool} :
    Evolves a (s.fieldRecord kind code idx logs kennel) :=
  .postNow h

theorem Evolves.showDo (h : Evolves a s) {n : Nat} : Evolves a (s.showDo n) := by
  unfold State.showDo
  extract_lets _ _ _ _ t t1 _ t2 t3
  have ht : Evolves a t := .wr h
  have ht1 : Evolves a t1 := .setFlag ht
  have ht2 : Evolves a t2 := .wr ht1
  have ht3 : Evolves a t3 := .ite (.setFlag ht2) ht2
  exact .ite ht2 (.fieldRecord ht3)

theorem Evolves.showBank (h : Evolves a s) {m : Nat} :
    Evolves a (s.showBank m) := .foldl (.setFlag h) (fun _ _ ht => .showDo ht)

theorem Evolves.applyDo (h : Evolves a s) {n : Nat} {on : Bool} : Evolves a (s.applyDo n on) :=
  .ite (.inert (.ite (.incFld (.modDout h)) (.modDout h))) (.ite (.incFld (.modDout h)) (.modDout h))

theorem Evolves.applySet (h : Evolves a s) {cmds : Word} {frame : Nat} : Evolves a (s.applySet cmds frame) :=
  .foldl (.foldl (.wr (.inert (.setFld h))) (fun _ _ ht => .applyDo ht)) (fun _ _ ht => .showBank ht)

theorem Evolves.driverFault (h : Evolves a s) {y : Nat} {late : Bool} : Evolves a (s.driverFault y late) :=
  .ite (.verdict (.ite (.satFld h) (.satFld h))) (.ite (.satFld h) (.satFld h))

theorem Evolves.driverCopy (h : Evolves a s) {y : Nat} {q : List Byte} {lateNs : Nat} :
    Evolves a (s.driverCopy y q lateNs) := by
  unfold State.driverCopy
  extract_lets _ _ twin _ t t1
  have ht : Evolves a t := .inert h
  have ht1 : Evolves a t1 := .applySet ht
  refine .ite h ?_
  refine .ite (.ite (.driverFault h) h) ?_
  refine .ite (.ite (.driverFault h) (.ite (.driverFault h) h)) ?_
  unfold twin
  split
  · exact .inert h
  · exact .ite (.driverFault ht1) ht1

theorem GoesTo.execOutputCommand (h : Evolves a s) {bytes : List Byte} {lateNs : Nat} :
    GoesTo a (execOutputCommand bytes lateNs s) :=
  .ite (.next (.driverCopy (.receive h))) (.next (.receive h))

theorem GoesTo.execBankStateChange (h : Evolves a s) {bank : Fin 4} {millivolts : Nat} :
    GoesTo a (execBankStateChange bank millivolts s) := by
  unfold Machine.execBankStateChange
  extract_lets _ _ _ _ _ t t1 t2 t3
  have ht : Evolves a t := .inert h
  have ht1 : Evolves a t1 := .satFld (.setFld ht)
  have ht2 : Evolves a t2 := .ite ht1 (.setFlag ht1)
  have ht3 : Evolves a t3 := .foldl ht2 (fun _ _ ht => .setFlag ht)
  exact .ite (.next ht) (.next (.fieldRecord (.showBank ht3)))

theorem Evolves.judgeBanks (h : Evolves a s) : Evolves a s.judgeBanks := by
  unfold State.judgeBanks
  refine .foldl h fun s1 _ hs1 => ?_
  extract_lets _ _ _ t t1 t2 t3
  have ht : Evolves a t := .setFlag (.setFld hs1)
  have ht1 : Evolves a t1 := .ite ht (.setFlag ht)
  have ht2 : Evolves a t2 := .ite (.setFlag ht1) ht1
  have ht3 : Evolves a t3 := .foldl ht2 (fun _ _ ht => .setFlag ht)
  exact .showBank ht3

theorem GoesTo.execDriverUndervoltage (h : Evolves a s) {bank : Fin 4} {millivolts : Nat} :
    GoesTo a (execDriverUndervoltage bank millivolts s) := by
  unfold Machine.execDriverUndervoltage
  extract_lets _ _ t
  have ht : Evolves a t := .inert h
  exact .ite (.next (.showBank (.setFlag (.setFlag ht)))) (.ite (.next (.showBank (.setFlag ht))) (.next ht))

theorem GoesTo.execOutputThermalShutdown (h : Evolves a s) {n : Fin 32} {celsius : Nat} :
    GoesTo a (execOutputThermalShutdown n celsius s) :=
  .ite (.next (.showDo (.satFld (.modDout h)))) (.ite (.next (.showDo (.modDout h))) (.next h))

theorem GoesTo.execOutputCurrentLimit (h : Evolves a s) {n : Fin 32} {active : Bool} {microseconds : Nat} :
    GoesTo a (execOutputCurrentLimit n active microseconds s) :=
  .ite (.next (.showDo (.modDout h))) (.ite (.next (.showDo (.modDout h))) (.next h))

theorem GoesTo.execOutputFaultChange (h : Evolves a s) {n : Fin 32} {v0 v1 milliamps dropMv : Nat} :
    GoesTo a (execOutputFaultChange n v0 v1 milliamps dropMv s) :=
  .next (.showDo (.modDout h))

theorem GoesTo.execOutputBlankingEnd (h : Evolves a s) {n : Fin 32} : GoesTo a (execOutputBlankingEnd n s) := by
  unfold Machine.execOutputBlankingEnd
  split
  · exact .ite (.next (.showDo (.modDout h))) (.next h)
  · exact .next h

theorem Evolves.bankSums (h : Evolves a s) : Evolves a s.bankSums := .inert h

theorem GoesTo.execBankOvercurrent (h : Evolves a s) {bank : Fin 4} {above : Bool} {frame : BitVec 32} :
    GoesTo a (execBankOvercurrent bank above frame s) := by
  unfold Machine.execBankOvercurrent
  dsimp only
  exact .ite (.next h) (.ite (.next (.fieldRecord (.setFlag (.setFlag h)))) (.ite (.next (.fieldRecord (.setFlag h)))
    (.next h)))

theorem Evolves.dropRecords (h : Evolves a s) {kind mask : Nat} : Evolves a (s.dropRecords kind mask) :=
  .ite h (.ite (.foldl (.supRecord h) (fun _ _ ht => .ite (.fieldRecord ht) ht)) (.supRecord h))

theorem Evolves.wrBdrop (h : Evolves a s) {p : Port} {v : Word} : Evolves a (wrBdrop p v s) := by
  unfold Machine.wrBdrop
  refine .ite h ?_
  extract_lets _ _ t _ _ t1 t2 t3
  have ht : Evolves a t := .setFld h
  have ht1 : Evolves a t1 := .inert ht
  have ht2 : Evolves a t2 := .ite ht1 (.setFld ht1)
  have ht3 : Evolves a t3 := .foldl ht2 (fun _ _ ht => .showBank ht)
  exact .dropRecords (.dropRecords ht3)

/-! ### Machine/Order.lean -/

theorem Evolves.ranJob (h : Evolves a s) {j : Nat} : Evolves a (s.ranJob j) := .inert h

theorem Evolves.localOnly (h : Evolves a s) : Evolves a (s.localOnly t) := .inert h

theorem Evolves.noteJob (h : Evolves a s) {x : JobReads} : Evolves a (s.noteJob x) :=
  .noteReads (.foldl h (fun _ _ ht => .noteReads ht))

theorem Evolves.voted (h : Evolves a s) {v : Voting} {cls : Nat} {job : State → State}
    (hj : ∀ t, Evolves a t → Evolves a (job t)) : Evolves a (s.voted v cls job) :=
  .ite (hj _ (.vote h)) (.localOnly (.vote h))

/-! ### Machine/Scheme.lean -/

theorem Evolves.schemeRecord (h : Evolves a s) {p kind task fkind a' b c : Nat} :
    Evolves a (s.schemeRecord p kind task fkind a' b c) :=
  .post h

theorem Evolves.modTask (h : Evolves a s) {p t : Nat} {f : TaskSt → TaskSt} : Evolves a (s.modTask p t f) := .modPart h

theorem Evolves.showTask (h : Evolves a s) {p t : Nat} : Evolves a (s.showTask p t) := .setFlag (.setFlag h)

theorem Evolves.setRun (h : Evolves a s) {r : RunCtx} : Evolves a (s.setRun r) := .inert h

theorem Evolves.dropRun (h : Evolves a s) {r : RunCtx} : Evolves a (s.dropRun r) := .setFld (.setRun h)

theorem Evolves.overrun (h : Evolves a s) {r : RunCtx} : Evolves a (s.overrun r) :=
  .schemeRecord (.showTask (.satFld (.setFlag (.modTask (.dropRun h)))))

theorem Evolves.poisonRun (h : Evolves a s) {r : RunCtx} : Evolves a (s.poisonRun r) := .schemeRecord (.setFlag (.dropRun h))

theorem Evolves.instr (h : Evolves a s) {cyc : Nat} {f : RunCtx → RunCtx} : Evolves a (s.instr cyc f) :=
  .ite (.overrun h) (.setRun h)

theorem GoesTo.mRow (h : Evolves a s) {spaces : List Nat} {isBit : Bool} {o : Opnd} {cyc : Nat} {f : State → RunCtx → RunCtx} :
    GoesTo a (mRow spaces isBit o cyc f s) :=
  .ite (.next (.instr h)) .refused

theorem GoesTo.mWrite (h : Evolves a s) {o : Opnd} {f : State → RunCtx → RunCtx} : GoesTo a (mWrite o f s) :=
  .ite (.next (.instr h)) .refused

theorem Evolves.endRun (h : Evolves a s) : Evolves a s.endRun :=
  .ite (.overrun h) (.showTask (.setFld (.modTask (.modPart (.setRun h)))))

theorem GoesTo.execMEnd (h : Evolves a s) : GoesTo a (execMEnd s) := .next (.endRun h)

theorem GoesTo.execLd (h : Evolves a s) {o : Opnd} : GoesTo a (execLd o s) := .mRow h

theorem GoesTo.execLdn (h : Evolves a s) {o : Opnd} : GoesTo a (execLdn o s) := .mRow h

theorem GoesTo.execAnd (h : Evolves a s) {o : Opnd} : GoesTo a (execAnd o s) := .mRow h

theorem GoesTo.execAndn (h : Evolves a s) {o : Opnd} : GoesTo a (execAndn o s) := .mRow h

theorem GoesTo.execOr (h : Evolves a s) {o : Opnd} : GoesTo a (execOr o s) := .mRow h

theorem GoesTo.execOrn (h : Evolves a s) {o : Opnd} : GoesTo a (execOrn o s) := .mRow h

theorem GoesTo.execXor (h : Evolves a s) {o : Opnd} : GoesTo a (execXor o s) := .mRow h

theorem GoesTo.execNot (h : Evolves a s) : GoesTo a (execNot s) := .next (.instr h)

theorem GoesTo.execSt (h : Evolves a s) {o : Opnd} : GoesTo a (execSt o s) := .mWrite h

theorem GoesTo.execStn (h : Evolves a s) {o : Opnd} : GoesTo a (execStn o s) := .mWrite h

theorem GoesTo.execSet (h : Evolves a s) {o : Opnd} : GoesTo a (execSet o s) := .mWrite h

theorem GoesTo.execRst (h : Evolves a s) {o : Opnd} : GoesTo a (execRst o s) := .mWrite h

theorem GoesTo.execPush (h : Evolves a s) : GoesTo a (execPush s) := .next (.instr h)

theorem GoesTo.execAndp (h : Evolves a s) : GoesTo a (execAndp s) := .next (.instr h)

theorem GoesTo.execOrp (h : Evolves a s) : GoesTo a (execOrp s) := .next (.instr h)

theorem GoesTo.execRise (h : Evolves a s) {o : Opnd} : GoesTo a (execRise o s) := .mRow h

theorem GoesTo.execFall (h : Evolves a s) {o : Opnd} : GoesTo a (execFall o s) := .mRow h

theorem GoesTo.execTon (h : Evolves a s) {o : Opnd} : GoesTo a (execTon o s) := .mRow h

theorem GoesTo.execTof (h : Evolves a s) {o : Opnd} : GoesTo a (execTof o s) := .mRow h

theorem GoesTo.execTp (h : Evolves a s) {o : Opnd} : GoesTo a (execTp o s) := .mRow h

theorem GoesTo.execTrst (h : Evolves a s) {o : Opnd} : GoesTo a (execTrst o s) := .mRow h

theorem GoesTo.execCtu (h : Evolves a s) {o : Opnd} : GoesTo a (execCtu o s) := .mRow h

theorem GoesTo.execCtd (h : Evolves a s) {o : Opnd} : GoesTo a (execCtd o s) := .mRow h

theorem GoesTo.execCrs (h : Evolves a s) {o : Opnd} : GoesTo a (execCrs o s) := .mRow h

theorem GoesTo.execSpt (h : Evolves a s) {o : Opnd} : GoesTo a (execSpt o s) := .mRow h

theorem GoesTo.execSpv (h : Evolves a s) {o : Opnd} : GoesTo a (execSpv o s) := .mRow h

theorem GoesTo.execLetT (h : Evolves a s) {o : Opnd} : GoesTo a (execLetT o s) := .mRow h

theorem GoesTo.execLcv (h : Evolves a s) {o : Opnd} : GoesTo a (execLcv o s) := .mRow h

theorem GoesTo.execLdf (h : Evolves a s) {o : Opnd} : GoesTo a (execLdf o s) := .mRow h

theorem GoesTo.execStf (h : Evolves a s) {o : Opnd} : GoesTo a (execStf o s) := .mRow h

theorem GoesTo.execAddf (h : Evolves a s) {o : Opnd} : GoesTo a (execAddf o s) := .mRow h

theorem GoesTo.execSubf (h : Evolves a s) {o : Opnd} : GoesTo a (execSubf o s) := .mRow h

theorem GoesTo.execMulf (h : Evolves a s) {o : Opnd} : GoesTo a (execMulf o s) := .mRow h

theorem GoesTo.execDivf (h : Evolves a s) {o : Opnd} : GoesTo a (execDivf o s) := .mRow h

theorem GoesTo.execMinf (h : Evolves a s) {o : Opnd} : GoesTo a (execMinf o s) := .mRow h

theorem GoesTo.execMaxf (h : Evolves a s) {o : Opnd} : GoesTo a (execMaxf o s) := .mRow h

theorem GoesTo.execAbsf (h : Evolves a s) : GoesTo a (execAbsf s) := .next (.instr h)

theorem GoesTo.execNegf (h : Evolves a s) : GoesTo a (execNegf s) := .next (.instr h)

theorem GoesTo.execSqrtf (h : Evolves a s) : GoesTo a (execSqrtf s) := .next (.instr h)

theorem GoesTo.execGtf (h : Evolves a s) {o : Opnd} : GoesTo a (execGtf o s) := .mRow h

theorem GoesTo.execGef (h : Evolves a s) {o : Opnd} : GoesTo a (execGef o s) := .mRow h

theorem GoesTo.execLtf (h : Evolves a s) {o : Opnd} : GoesTo a (execLtf o s) := .mRow h

theorem GoesTo.execLef (h : Evolves a s) {o : Opnd} : GoesTo a (execLef o s) := .mRow h

theorem GoesTo.execSelf (h : Evolves a s) {o : Opnd} : GoesTo a (execSelf o s) := .mRow h

theorem GoesTo.execLdk (h : Evolves a s) {o : Opnd} : GoesTo a (execLdk o s) := .mRow h

theorem GoesTo.execStk (h : Evolves a s) {o : Opnd} : GoesTo a (execStk o s) := .mRow h

theorem GoesTo.execAddk (h : Evolves a s) {o : Opnd} : GoesTo a (execAddk o s) := .mRow h

theorem GoesTo.execSubk (h : Evolves a s) {o : Opnd} : GoesTo a (execSubk o s) := .mRow h

theorem GoesTo.execMulk (h : Evolves a s) {o : Opnd} : GoesTo a (execMulk o s) := .mRow h

theorem GoesTo.execAndk (h : Evolves a s) {o : Opnd} : GoesTo a (execAndk o s) := .mRow h

theorem GoesTo.execOrk (h : Evolves a s) {o : Opnd} : GoesTo a (execOrk o s) := .mRow h

theorem GoesTo.execXork (h : Evolves a s) {o : Opnd} : GoesTo a (execXork o s) := .mRow h

theorem GoesTo.execGtk (h : Evolves a s) {o : Opnd} : GoesTo a (execGtk o s) := .mRow h

theorem GoesTo.execEqk (h : Evolves a s) {o : Opnd} : GoesTo a (execEqk o s) := .mRow h

theorem GoesTo.execLtk (h : Evolves a s) {o : Opnd} : GoesTo a (execLtk o s) := .mRow h

theorem GoesTo.execItof (h : Evolves a s) : GoesTo a (execItof s) := .next (.instr h)

theorem GoesTo.execFtoi (h : Evolves a s) : GoesTo a (execFtoi s) := .next (.instr h)

theorem GoesTo.execJmp (h : Evolves a s) {off : BitVec 26} : GoesTo a (execJmp off s) := .next (.instr h)

theorem GoesTo.execJt (h : Evolves a s) {off : BitVec 26} : GoesTo a (execJt off s) := .next (.instr h)

theorem GoesTo.execJf (h : Evolves a s) {off : BitVec 26} : GoesTo a (execJf off s) := .next (.instr h)

theorem GoesTo.runWord (h : Evolves a s) {w : Word} : GoesTo a (runWord w s) := by
  unfold Machine.runWord
  dsimp only
  split
  · exact .execMEnd h
  · exact .execLd h
  · exact .execLdn h
  · exact .execAnd h
  · exact .execAndn h
  · exact .execOr h
  · exact .execOrn h
  · exact .execXor h
  · exact .execNot h
  · exact .execSt h
  · exact .execStn h
  · exact .execSet h
  · exact .execRst h
  · exact .execPush h
  · exact .execAndp h
  · exact .execOrp h
  · exact .execRise h
  · exact .execFall h
  · exact .execTon h
  · exact .execTof h
  · exact .execTp h
  · exact .execTrst h
  · exact .execCtu h
  · exact .execCtd h
  · exact .execCrs h
  · exact .execSpt h
  · exact .execSpv h
  · exact .execLetT h
  · exact .execLcv h
  · exact .execLdf h
  · exact .execStf h
  · exact .execAddf h
  · exact .execSubf h
  · exact .execMulf h
  · exact .execDivf h
  · exact .execMinf h
  · exact .execMaxf h
  · exact .execAbsf h
  · exact .execNegf h
  · exact .execSqrtf h
  · exact .execGtf h
  · exact .execGef h
  · exact .execLtf h
  · exact .execLef h
  · exact .execSelf h
  · exact .execLdk h
  · exact .execStk h
  · exact .execAddk h
  · exact .execSubk h
  · exact .execMulk h
  · exact .execAndk h
  · exact .execOrk h
  · exact .execXork h
  · exact .execGtk h
  · exact .execEqk h
  · exact .execLtk h
  · exact .execItof h
  · exact .execFtoi h
  · exact .execJmp h
  · exact .execJt h
  · exact .execJf h
  · exact .refused

theorem Evolves.runCode (h : Evolves a s) {code : List Word} {pois : List Nat} {n : Nat} :
    Evolves a (runCode code pois n s) := by
  induction n generalizing s with
  | zero => exact .ite (.dropRun h) h
  | succ n ih =>
    refine .ite h (.ite (.poisonRun h) ?_)
    split
    · exact .dropRun h
    · split
      next e => exact ih (GoesTo.runWord h _ e)
      · exact .dropRun h

theorem GoesTo.execSchemeTaskRun (h : Evolves a s) {part : Fin 4} {task : Fin 8} {reads : List (Nat × JobReads)} {v : Voting} :
    GoesTo a (execSchemeTaskRun part task reads v s) := by
  unfold Machine.execSchemeTaskRun
  extract_lets _ _ _ _ u _ u1
  have hu : Evolves a u := .ite (.takeRun h) (.ranJob h)
  have hu1 : Evolves a u1 := .foldl hu (fun _ _ ht => .noteJob ht)
  exact .ite (.next h) (.next (.voted hu1 (fun _ ht => .runCode (.setRun ht))))

/-! ### Machine/Elements.lean -/

theorem Evolves.modElem (h : Evolves a s) {i : Nat} {f : ElemSt → ElemSt} : Evolves a (s.modElem i f) := .inert h

theorem Evolves.elementRecord (h : Evolves a s) {typ cls idx : Nat} {o : Option Nat} {w : Word} :
    Evolves a (s.elementRecord typ cls idx o w) :=
  .post h

theorem Evolves.poisonSeen (h : Evolves a s) {idx : Nat} {zone first : Bool} : Evolves a (s.poisonSeen idx zone first) :=
  .ite (.incFld (.wr (.wr h))) (.wr (.wr h))

theorem Evolves.showInstance (h : Evolves a s) {i : Nat} {old : Word} {v : Eval} {poison first : Bool} :
    Evolves a (s.showInstance i old v poison first) := by
  unfold State.showInstance
  extract_lets w _ t0 t1 t2 fl t3 t4 t5 t6 o t7 t8
  have h1 : Evolves a t1 := by
    unfold t1
    split
    · exact .wr (.modElem h)
    · exact .modElem h
  have h2 : Evolves a t2 := by
    unfold t2
    split
    · exact .wr h1
    · exact h1
  have h3 : Evolves a t3 := .ite (.satFld (.setFlag h2)) h2
  have h4 : Evolves a t4 := .ite (.satFld (.setFlag h3)) h3
  have h5 : Evolves a t5 := .ite (.setFlag h4) h4
  have h6 : Evolves a t6 := .ite (.setFlag h5) h5
  have h7 : Evolves a t7 := .ite (.elementRecord h6) h6
  have h8 : Evolves a t8 := .ite (.poisonSeen h7) h7
  exact .ite (.elementRecord (.setFlag h8)) h8

theorem Evolves.runInstance (h : Evolves a s) {i : Nat} {poison : Poison} : Evolves a (s.runInstance i poison) :=
  .ite (.satFld (.showInstance h)) (.showInstance h)

theorem GoesTo.execElementInstanceRun (h : Evolves a s) {i : Fin 1024} {reads : JobReads} {v : Voting} :
    GoesTo a (execElementInstanceRun i reads v s) :=
  .ite (.next h) (.next (.voted (.ranJob (.noteJob h)) (fun _ ht => .runInstance ht)))

/-- A location changes nothing, or takes six free values. The definition is unfolded as a function, and only the lets before the choice
of the loop are taken out: a comparison of the whole would have the kernel evaluate that choice. -/
theorem State.locate_cases {i : Nat} {c : CapSt} {P : State × Location → Prop} (hs : ∀ x, P (s, x))
    (hf : ∀ x, P (s.free.2.free.2.free.2.free.2.free.2.free.2, x)) : P (s.locate i c) := by
  conv in State.locate s i c => fun; fun; fun; delta State.locate
  extract_lets +onlyGivenNames _ _ _ _ _ _ _ _ _ _ _ _ _ _ _ _ _ _ _ _ _ _ _ _ _ loop
  clear_value loop
  cases loop with
  | none => exact hf _
  | some l => exact hs _

theorem Evolves.locate (h : Evolves a s) {i : Nat} {c : CapSt} : Evolves a (s.locate i c).1 :=
  State.locate_cases (P := fun x => Evolves a x.1) (fun _ => h) (fun _ => .free (.free (.free (.free (.free (.free h))))))

theorem GoesTo.execRfloCaptureComplete (h : Evolves a s) {run : RfloRun} : GoesTo a (execRfloCaptureComplete run s) := by
  unfold Machine.execRfloCaptureComplete
  extract_lets
  split
  · exact .next h
  · refine .ite (.next h) (.next (.voted h fun t ht => ?_))
    dsimp only
    split
    · exact .laterItem (.ite (.wr (.modElem (.locate ht))) (.modElem (.locate ht)))
    · exact .ite (.wr (.modElem (.locate ht))) (.modElem (.locate ht))

/-! ### Machine/ProcBus.lean -/

theorem Evolves.modPb (h : Evolves a s) {p : Nat} {f : PbPort → PbPort} : Evolves a (s.modPb p f) := .inert h

theorem Evolves.modPair (h : Evolves a s) {q : Nat} {f : PrpPair → PrpPair} : Evolves a (s.modPair q f) := .inert h

theorem Evolves.modPub (h : Evolves a s) {c : Nat} {f : GpBlk → GpBlk} : Evolves a (s.modPub c f) := .inert h

theorem Evolves.modSub (h : Evolves a s) {i : Nat} {f : GsSub → GsSub} : Evolves a (s.modSub i f) := .inert h

theorem Evolves.modStr (h : Evolves a s) {i : Nat} {f : SvStr → SvStr} : Evolves a (s.modStr i f) := .inert h

theorem Evolves.pbRecord (h : Evolves a s) {kind idx port logs tb wrap : Nat} :
    Evolves a (s.pbRecord kind idx port logs tb wrap) :=
  .postAt h

theorem Evolves.putEth (h : Evolves a s) {p cls : Nat} {bytes : List Byte} :
    Evolves a (s.putEth p cls bytes) := .incFld (.emit h)

theorem Evolves.sendEth (h : Evolves a s) {p cls : Nat} {bytes : List Byte} : Evolves a (s.sendEth p cls bytes) :=
  .ite (.modPb h) (.putEth h)

theorem Evolves.drainEth (h : Evolves a s) {p : Nat} : Evolves a (s.drainEth p) := .foldl (.modPb h) (fun _ _ ht => .putEth ht)

theorem Evolves.sendPair (h : Evolves a s) {q cls : Nat} {bytes : List Byte} : Evolves a (s.sendPair q cls bytes) :=
  .modPair (.sendEth (.sendEth h))

theorem Evolves.sendMask (h : Evolves a s) {mask cls : Nat} {bytes : List Byte} : Evolves a (s.sendMask mask cls bytes) := by
  unfold State.sendMask
  refine .foldl h fun s1 _ hs1 => ?_
  exact .ite (.sendPair hs1) (.ite (.sendEth (.ite (.sendEth hs1) hs1)) (.ite (.sendEth hs1) hs1))

theorem Evolves.publish (h : Evolves a s) {c f m : Nat} : Evolves a (s.publish c f m) := by
  unfold State.publish
  extract_lets _ _ _ _ _ t
  have ht : Evolves a t := .wr (.wr (.wr h))
  refine .ite h ?_
  refine .ite (.modPub h) ?_
  split
  · exact h
  · exact .ite (.modPub h) (.sendMask (.modPub ht))

theorem Evolves.subDefaults (h : Evolves a s) {i tb : Nat} : Evolves a (s.subDefaults i tb) := .deliver h

theorem Evolves.expireSub (h : Evolves a s) {i : Nat} : Evolves a (s.expireSub i) := by
  unfold State.expireSub
  split
  · exact h
  · exact .ite (.pbRecord (.satFld (.setFlag (.setFlag (.subDefaults (.modSub h)))))) h

theorem Evolves.takeGoose (h : Evolves a s) {i port : Nat} {pdu : List (Nat × Nat × List Byte)} :
    Evolves a (s.takeGoose i port pdu) := by
  unfold State.takeGoose
  extract_lets s1 _ _ _ _ _ _ _ _ _ _ _ _ _ t t1 t2 _ t3
  have hs1 : Evolves a s1 := .expireSub h
  have ht : Evolves a t := .deliver hs1
  have ht1 : Evolves a t1 := .wr (.incFld ht)
  have ht2 : Evolves a t2 := .modSub ht1
  have ht3 : Evolves a t3 := .setFlag (.setFlag ht2)
  exact .ite (.satFld hs1) (.ite hs1 (.ite (.pbRecord ht3) ht3))

theorem Evolves.takeSample (h : Evolves a s) {i : Nat} {sim : Bool} {a' : List (Nat × Nat × List Byte)} :
    Evolves a (s.takeSample i sim a') := by
  unfold State.takeSample
  extract_lets _ _ _ _ _ _ _ _ _ _ _ t t1 t2 t3
  have ht : Evolves a t := .wr (.setFld h)
  have ht1 : Evolves a t1 := .setFld ht
  have ht2 : Evolves a t2 := .ite (.satFld ht1) ht1
  have ht3 : Evolves a t3 := .ite ht2 (.setFlag ht2)
  exact .modStr ht3

theorem Evolves.takeSv (h : Evolves a s) {i port : Nat} {bs : List Byte} {pdu : List (Nat × Nat × List Byte)} :
    Evolves a (s.takeSv i port bs pdu) :=
  .ite h (.modStr (.foldl h (fun _ _ ht => .takeSample ht)))

theorem Evolves.resample (h : Evolves a s) {i : Nat} {start : ℤ} {test : Bool} : Evolves a (s.resample i start test) :=
  .ite h (.foldl (.ite (.incFld h) h) (fun _ _ ht => .modLane ht))

theorem Evolves.countStream (h : Evolves a s) {i : Nat} : Evolves a (s.countStream i) := .modStr h

theorem Evolves.showRx (h : Evolves a s) {p : Nat} : Evolves a (s.showRx p) := .freshWin (.wrList (.setFld h))

theorem Evolves.ptpIn (h : Evolves a s) {p : Nat} {bs : List Byte} : Evolves a (s.ptpIn p bs) :=
  .ite (.satFld h) (.ite (.causeAll (.showRx (.modPb h))) (.showRx (.modPb h)))

theorem Evolves.pdelayIn (h : Evolves a s) {p : Nat} {bs : List Byte} : Evolves a (s.pdelayIn p bs) := by
  unfold State.pdelayIn
  dsimp only
  refine .ite h ?_
  refine .ite (.inert h) ?_
  split
  · exact .inert h
  · exact h

theorem Evolves.prpIn (h : Evolves a s) {p : Nat} {bs : List Byte} : Evolves a (s.prpIn p bs).1 := by
  unfold State.prpIn
  refine .iteFst h ?_
  split
  · exact h
  · exact .iteFst (.incFld (.ite h (.satFld h))) (.modPair (.ite h (.satFld h)))

theorem Evolves.route (h : Evolves a s) {p : Nat} {bs : List Byte} : Evolves a (s.route p bs) := by
  unfold State.route
  extract_lets drop
  have hdrop : Evolves a drop := .incFld h
  refine .ite ?_ ?_
  · split
    · exact hdrop
    · split
      · exact hdrop
      · exact .foldl h (fun _ _ ht => .takeGoose ht)
  · refine .ite ?_ (.ite h hdrop)
    split
    · exact hdrop
    · split
      · exact hdrop
      · exact .foldl h (fun _ _ ht => .takeSv ht)

theorem GoesTo.execEthernetFrameReceive (h : Evolves a s) {port : Fin 4} {bytes : List Byte} {fcsOk : Bool} :
    GoesTo a (execEthernetFrameReceive port bytes fcsOk s) := by
  unfold Machine.execEthernetFrameReceive
  extract_lets _ t r
  have ht : Evolves a t := .incFld h
  have hr : Evolves a r.1 := .prpIn ht
  exact .ite (.next h) (.ite (.next (.satFld h)) (.ite (.next h) (.ite (.next (.ite (.pdelayIn ht) (.ptpIn ht))) (.next
    (.ite (.route hr) hr)))))

theorem Evolves.wrPrxctl (h : Evolves a s) {p : Nat} {v : Word} : Evolves a (wrPrxctl p v s) := .ite (.showRx (.modPb h)) h

theorem Evolves.wrPtxctl (h : Evolves a s) {p : Nat} {v : Word} : Evolves a (wrPtxctl p v s) :=
  .ite (.modPb (.takeWin (.setFlag (.setFlag (.plain h))))) (.plain h)

theorem GoesTo.execPtpTransmitDone (h : Evolves a s) {port : Fin 4} : GoesTo a (execPtpTransmitDone port s) := by
  unfold Machine.execPtpTransmitDone
  extract_lets
  split
  · exact .next h
  · extract_lets t t1 _ t2 t3 t4 t5
    have ht : Evolves a t := .putEth (.modPb h)
    have ht1 : Evolves a t1 := .setFlag (.setFlag ht)
    have ht2 : Evolves a t2 := .wr ht1
    have ht3 : Evolves a t3 := .wr ht2
    have ht4 : Evolves a t4 := .wr ht3
    have ht5 : Evolves a t5 := .wr ht4
    exact .ite (.next (.drainEth (.causeAll (.wr ht5)))) (.next (.drainEth ht1))

theorem GoesTo.execGooseRetransmit (h : Evolves a s) {block : Fin 64} : GoesTo a (execGooseRetransmit block s) := by
  unfold Machine.execGooseRetransmit
  extract_lets _ _ _ _ _ t
  have ht : Evolves a t := .wr h
  split
  · exact .ite (.next (.sendMask (.modPub ht))) (.next h)
  · exact .next h

/-! ### Machine/Recorder.lean -/

theorem Evolves.modRec (h : Evolves a s) {r : Nat} {f : RecSt → RecSt} : Evolves a (s.modRec r f) := .inert h

theorem Evolves.setRc (h : Evolves a s) {r st : Nat} : Evolves a (s.setRc r st) := .setFld h

theorem Evolves.syncJob (h : Evolves a s) {kind : Nat} {work : Bool} : Evolves a (s.syncJob kind work) := .inert h

theorem Evolves.showFmt (h : Evolves a s) : Evolves a s.showFmt := .syncJob (.wr h)

theorem Evolves.syncTrend (h : Evolves a s) : Evolves a s.syncTrend := .syncJob h

theorem Evolves.dropDone (h : Evolves a s) {d : Done} : Evolves a (s.dropDone d) :=
  .showFmt (.ite (.modRec (.inert h)) (.inert h))

theorem Evolves.addSlost (h : Evolves a s) {r n : Nat} : Evolves a (s.addSlost r n) := .wr (.wr h)

theorem Evolves.reachSpan (h : Evolves a s) {r i : Nat} : Evolves a (s.reachSpan r i) := by
  unfold State.reachSpan
  extract_lets _ _ t
  have ht : Evolves a t := by
    unfold t
    split
    · exact h
    · exact .ite (.satFld (.dropDone h)) (.ite (.satFld (.dropDone (.addSlost h))) (.inert (.addSlost h)))
  exact .ite (.syncTrend (.satFld (.modRec ht))) ht

theorem Evolves.putRow (h : Evolves a s) {r : Nat} {ws : List Word} : Evolves a (s.putRow r ws) :=
  .modRec (.wrMemList (.ite (.reachSpan h) h))

theorem Evolves.addDig (h : Evolves a s) {r : Nat} {e : DigEnt} : Evolves a (s.addDig r e) := .modRec (.ite h (.wrMemList h))

theorem Evolves.digitalScan (h : Evolves a s) {r : Nat} {dos : Word} : Evolves a (s.digitalScan r dos) := by
  refine .ite h (.foldl h fun t e ht => ?_)
  split
  · exact ht
  · exact .ite ht (.addDig (.modRec ht))

theorem Evolves.digStart (h : Evolves a s) : Evolves a s.digStart := .foldl h (fun _ _ ht => .modRec ht)

theorem Evolves.startEra (h : Evolves a s) {r f : Nat} : Evolves a (s.startEra r f) := .modRec h

theorem Evolves.enterArmed (h : Evolves a s) {r f : Nat} : Evolves a (s.enterArmed r f) :=
  .ite (.setRc (.startEra h)) (.ite (.setRc h) (.setRc (.setFld (.modRec (.startEra h)))))

theorem Evolves.toClose (h : Evolves a s) {r : Nat} {multi : Bool} {segs : List Seg} {flags due : Nat} :
    Evolves a (s.toClose r multi segs flags due) :=
  .modRec h

theorem Evolves.finishRun (h : Evolves a s) {r : Nat} {mask stopped : Bool} {short due : Nat} :
    Evolves a (s.finishRun r mask stopped short due) :=
  .ite h (.modRec (.toClose h))

theorem Evolves.finishPost (h : Evolves a s) {r : Nat} : Evolves a (s.finishPost r) := by
  unfold State.finishPost
  extract_lets
  split
  · exact h
  · extract_lets _ _ _ _ _ _ _ t _ t1 t2 _ t3 _ t4 t5 _ _ u
    have ht : Evolves a t := .modRec h
    have ht1 : Evolves a t1 := .ite (.setFlag ht) ht
    have ht2 : Evolves a t2 := .ite (.modRec ht1) ht1
    have ht3 : Evolves a t3 := .toClose ht2
    have ht4 : Evolves a t4 := .modRec ht2
    have ht5 : Evolves a t5 := .setFld ht4
    have hu : Evolves a u := .modRec (.finishRun ht5)
    exact .ite h (.ite (.ite ht3 (.ite (.setRc (.modRec ht3)) (.setRc (.modRec ht3)))) (.ite (.finishRun ht5) (.ite (.ite
      (.setRc hu) (.setRc hu)) (.setRc (.modRec ht5)))))

theorem Evolves.takeTrig (h : Evolves a s) {r : Nat} {g : Trig} : Evolves a (s.takeTrig r g) :=
  .wr (.wr (.wr (.wr (.setRc (.modRec h)))))

theorem Evolves.acceptTrigs (h : Evolves a s) {r : Nat} : Evolves a (s.acceptTrigs r) := by
  unfold State.acceptTrigs
  extract_lets t t1
  have ht : Evolves a t := .finishPost h
  have ht1 : Evolves a t1 := .foldl ht (fun _ _ ht => .ite (.finishPost (.takeTrig ht)) (.ite (.satFld ht) ht))
  exact .modRec ht1

theorem Evolves.acqBoundary (h : Evolves a s) {dos : Word} : Evolves a (s.acqBoundary dos) :=
  .foldl h (fun _ _ ht => .ite (.digitalScan (.acceptTrigs ht)) ht)

theorem Evolves.addEdges (h : Evolves a s) {r : Nat} {gs : List Trig} : Evolves a (s.addEdges r gs) := .ite h (.modRec h)

theorem Evolves.evalMask (h : Evolves a s) {r m : Nat} : Evolves a (s.evalMask r m) :=
  .ite h (.ite (.modRec h) (.addEdges (.satFld (.modRec h))))

theorem Evolves.acqMasks (h : Evolves a s) : Evolves a s.acqMasks :=
  .foldl h (fun _ _ ht => .ite (.foldl ht (fun _ _ hu => .evalMask hu)) ht)

theorem Evolves.acqThresholds (h : Evolves a s) : Evolves a s.acqThresholds := .foldl h (fun _ _ ht => .ite ht (.addEdges ht))

theorem Evolves.acqClosure (h : Evolves a s) : Evolves a s.acqClosure :=
  .foldl h (fun _ _ ht => .ite ht (.modRec (.addEdges ht)))

theorem Evolves.wrRctrl (h : Evolves a s) {r : Nat} {v : Word} : Evolves a (wrRctrl r v s) := .modRec (.setFlag (.setFlag h))

theorem Evolves.wrTen (h : Evolves a s) {r : Nat} {p : Port} {v : Word} : Evolves a (wrTen r p v s) := .placeEach (.wr h)

theorem GoesTo.rctrlRow (h : Evolves a s) {p : Port} {r : Nat} {v : Word} : GoesTo a (rctrlRow p r v s) :=
  .gate h (fun _ _ ht => .wrRctrl ht)

theorem GoesTo.execTriggerEdgeTenWrite (h : Evolves a s) {p : Port} {r : Fin 16} {v : Word} :
    GoesTo a (execTriggerEdgeTenWrite p r v s) :=
  .gate h (fun _ _ ht => .wrTen ht)

theorem Evolves.enEffect (h : Evolves a s) {r : Nat} {on : Bool} : Evolves a (s.enEffect r on) := by
  unfold State.enEffect
  extract_lets _ _ _ t t1
  have ht : Evolves a t := .modRec h
  have ht1 : Evolves a t1 := .ite (.finishRun ht) ht
  exact .ite (.ite (.enterArmed h) h) (.ite (.setFlag h) (.ite h (.setRc ht1)))

theorem Evolves.stopEffect (h : Evolves a s) {r : Nat} : Evolves a (s.stopEffect r) :=
  .ite (.setRc (.ite (.finishRun h) h)) (.ite (.modRec h) h)

theorem Evolves.rcCommand (h : Evolves a s) {r : Nat} {c : Nat × Word × Bool} : Evolves a (s.rcCommand r c) := by
  unfold State.rcCommand
  extract_lets _ t t1 t2
  have ht : Evolves a t := .ite (.enEffect h) h
  have ht1 : Evolves a t1 := .ite (.stopEffect ht) ht
  have ht2 : Evolves a t2 := .ite (.enterArmed ht1) ht1
  exact .ite (.addEdges ht2) ht2

theorem GoesTo.execRecorderCommandEffect (h : Evolves a s) {r : Fin 16} : GoesTo a (execRecorderCommandEffect r s) := by
  unfold Machine.execRecorderCommandEffect
  extract_lets _ t _ _ _ t1 t2
  have ht : Evolves a t := .onDue h (fun _ _ ht => .modRec ht)
  have ht1 : Evolves a t1 := .modRec ht
  have ht2 : Evolves a t2 := .setFlag ht1
  exact .next (.ite ht2 (.foldl ht2 (fun _ _ ht => .rcCommand ht)))

theorem Evolves.writeRows (h : Evolves a s) {r : Nat} : Evolves a (s.writeRows r) := by
  unfold State.writeRows
  refine .ite h ?_
  extract_lets _ _ _ t _ t1
  have ht : Evolves a t := .foldl h (fun _ _ ht => .putRow ht)
  have ht1 : Evolves a t1 := .modRec ht
  exact .ite (.ite (.syncTrend (.modRec ht1)) ht1) (.finishPost ht1)

theorem Evolves.copySeg (h : Evolves a s) {r : Nat} {c : Nat × Seg} : Evolves a (s.copySeg r c) := by
  unfold State.copySeg
  dsimp only
  refine .foldl h fun s1 _ hs1 => ?_
  exact .foldl hs1 (fun _ _ ht => .ite (.poisonMem (.noteRead ht)) (.wrMem (.noteRead ht)))

theorem Evolves.copySegs (h : Evolves a s) {r : Nat} :
    Evolves a (s.copySegs r) := .modRec (.foldl h (fun _ _ ht => .copySeg ht))

theorem GoesTo.execRecordingClose (h : Evolves a s) {r : Fin 16} : GoesTo a (execRecordingClose r s) := by
  unfold Machine.execRecordingClose
  extract_lets _ t
  have ht : Evolves a t := .copySegs h
  split
  · exact .next h
  · exact .ite (.next h) (.next (.showFmt (.inert (.incFld (.modRec ht)))))

theorem GoesTo.execRecorderStopComplete (h : Evolves a s) {r : Fin 16} : GoesTo a (execRecorderStopComplete r s) := by
  unfold Machine.execRecorderStopComplete
  extract_lets _ t
  have ht : Evolves a t := .setFlag (.modRec h)
  split
  · exact .ite (.next (.ite (.enterArmed (.setRc ht)) (.setRc ht))) (.next h)
  · exact .next h

theorem Evolves.acqStopAll (h : Evolves a s) : Evolves a s.acqStopAll := by
  unfold State.acqStopAll
  extract_lets t
  have ht : Evolves a t := .foldl h (fun _ _ ht => .setFlag (.setFld (.setFlag (.setRc (.modRec ht)))))
  exact .syncTrend (.showFmt (.inert ht))

theorem Evolves.acqStart (h : Evolves a s) : Evolves a s.acqStart := .foldl h (fun _ _ ht => .ite (.enterArmed ht) ht)

/-! ### Machine/Closure.lean -/

theorem Evolves.sendOutputs (h : Evolves a s) : Evolves a s.sendOutputs :=
  .inert (.foldl h (fun _ _ ht => .ite (.sendFlit ht) ht))

theorem Evolves.assemble (h : Evolves a s) : Evolves a s.assemble := .foldl h (fun _ _ ht => .modPub ht)

theorem Evolves.closeFrame (h : Evolves a s) {v w x : Voting} : Evolves a (s.closeFrame v w x) := by
  unfold State.closeFrame
  extract_lets s1 _ s2 _ a0 __src _ t b t1 c
  have hs1 : Evolves a s1 := .ranJob h
  have hs2 : Evolves a s2 := .inert hs1
  have ha0 : Evolves a a0.1 := .vote hs2
  have h__src : Evolves a __src := ha0
  have ht : Evolves a t := .ite (.inert h__src) ha0
  have hb : Evolves a b.1 := .vote ht
  have ht1 : Evolves a t1 := .ite ht (.ite (.assemble hb) hb)
  have hc : Evolves a c.1 := .vote ht1
  exact .ite (.acqClosure hc) hc

/-! ### Machine/Comtrade.lean -/

theorem Evolves.rcqItems (h : Evolves a s) {p : Nat} {l : List (List Byte)} : Evolves a (s.rcqItems p l) :=
  .foldl h (fun _ _ ht => .ringWrite ht)

theorem Evolves.setHead (h : Evolves a s) {d : Done} : Evolves a (s.setHead d) := .showFmt (.inert h)

theorem Evolves.sliceWaits (h : Evolves a s) {p : Nat} : Evolves a (s.sliceWaits p) :=
  .syncTrend (.showFmt (.setFlag (.ringLost h)))

theorem Evolves.firstSlice (h : Evolves a s) {d0 : Done} {p : Nat} : Evolves a (s.firstSlice d0 p) :=
  .ite (.sliceWaits h) (.setHead (.ringWrite (.rcqItems (.noteReads h))))

theorem Evolves.datSlice (h : Evolves a s) {d : Done} {p : Nat} : Evolves a (s.datSlice d p) := by
  unfold State.datSlice
  extract_lets _ _ _ _ _ _ _ _ _ _ _ t
  have ht : Evolves a t := .noteReads h
  exact .ite (.sliceWaits h) (.ite (.dropDone (.rcqItems ht)) (.setHead (.rcqItems ht)))

theorem GoesTo.execComtradeFormattingSlice (h : Evolves a s) : GoesTo a (execComtradeFormattingSlice s) := by
  unfold Machine.execComtradeFormattingSlice
  refine .ite (.next h) ?_
  extract_lets t
  have ht : Evolves a t := .takeRun h
  split
  · exact .next (.showFmt ht)
  · exact .ite (.next (.dropDone (.ringLost ht))) (.ite (.next (.firstSlice ht)) (.next (.datSlice ht)))

theorem GoesTo.execTrendCompressionSlice (h : Evolves a s) {r : Fin 16} : GoesTo a (execTrendCompressionSlice r s) := by
  unfold Machine.execTrendCompressionSlice
  extract_lets _ t
  have ht : Evolves a t := .takeRun h
  split
  · exact .next h
  · refine .ite (.next h) ?_
    extract_lets _ _ _ t1
    have ht1 : Evolves a t1 := .noteReads ht
    exact .ite (.next (.syncTrend (.modRec ht1))) (.ite (.next (.ringLost (.syncTrend (.modRec ht1)))) (.ite (.next
      (.sliceWaits ht1)) (.next (.rcqItems (.syncTrend (.modRec ht1))))))

/-! ### Machine/FieldIn.lean -/

theorem Evolves.modDin (h : Evolves a s) {n : Nat} {f : DiSt → DiSt} : Evolves a (s.modDin n f) := .inert h

theorem Evolves.putDin (h : Evolves a s) {n : Nat} {level : Bool} {tag : Nat} : Evolves a (s.putDin n level tag) :=
  .wr (.incFld (.setFlag (.setFlag (.ite (.inert h) h))))

theorem Evolves.readInput (h : Evolves a s) {cfg : Word} {mv : ℤ} : Evolves a (s.readInput cfg mv).2 := by
  unfold State.readInput
  split
  · exact h
  · exact .freeB h

theorem GoesTo.execDiDebouncedChange (h : Evolves a s) {n : Fin 56} {samples : DiSamples} :
    GoesTo a (execDiDebouncedChange n samples s) := by
  unfold Machine.execDiDebouncedChange
  extract_lets _ r t t1
  have hr : Evolves a r.2 := .readInput h
  have ht : Evolves a t := .modDin hr
  have ht1 : Evolves a t1 := .setFlag ht
  split
  · exact .next ht
  · exact .ite (.next (.modDin ht1)) (.ite (.next (.modDin ht1)) (.next (.putDin (.modDin ht1))))

theorem GoesTo.execFastInputEdge (h : Evolves a s) {m : Fin 8} {millivolts : ℤ} {cycles : Nat} :
    GoesTo a (execFastInputEdge m millivolts cycles s) := by
  unfold Machine.execFastInputEdge
  extract_lets _ _ r _ t _ t1 t2
  have hr : Evolves a r.2 := .readInput h
  have ht : Evolves a t := .putDin hr
  have ht1 : Evolves a t1 := .wr (.incFld ht)
  have ht2 : Evolves a t2 := .setFlag (.ite (.setFlag ht1) ht1)
  exact .ite (.next (.modDin hr)) (.ite (.next (.modDin ht)) (.next (.modDin ht2)))

theorem Evolves.wrFctl (h : Evolves a s) {m : Nat} {p : Port} {v : Word} : Evolves a (wrFctl m p v s) := .ite (.placeEach h) h

theorem Evolves.wrDicfg (h : Evolves a s) {n : Nat} {p : Port} {v : Word} : Evolves a (wrDicfg n p v s) := .placeEach (.wr h)

theorem Evolves.wrDocfg (h : Evolves a s) {n : Nat} {p : Port} {v : Word} : Evolves a (wrDocfg n p v s) := .placeEach (.wr h)

theorem GoesTo.execFioConfigApply (h : Evolves a s) : GoesTo a (execFioConfigApply s) := by
  unfold Machine.execFioConfigApply
  extract_lets t t1
  have ht : Evolves a t := .foldl h (fun _ _ ht => .onDue ht (fun _ _ hu => .modDin hu))
  have ht1 : Evolves a t1 := .foldl ht (fun _ _ ht => .onDue ht (fun _ _ hu => .showDo (.modDout hu)))
  exact .next (.foldl ht1 (fun _ _ ht => .onDue ht (fun _ _ hu => .modDin (.setFld (.wr hu)))))

theorem Evolves.fioSections (h : Evolves a s) : Evolves a s.fioSections := .deliver (.deliver h)

/-! ### Machine/Force.lean -/

theorem Evolves.showForcedDi (h : Evolves a s) : Evolves a s.showForcedDi := .foldl h (fun _ _ ht => .setFlag ht)

theorem Evolves.showForced (h : Evolves a s) : Evolves a s.showForced :=
  .ite (.inert (.setFlag (.showForcedDi h))) (.setFlag (.showForcedDi h))

theorem Evolves.showForces (h : Evolves a s) {p : Nat} : Evolves a (s.showForces p) := by
  refine .showForced (.foldl (.setFld h) fun t j ht => ?_)
  split
  · exact .wr (.wr ht)
  · exact .wr (.wr ht)

theorem Evolves.setForces (h : Evolves a s) {p : Nat} {fs : List Force} :
    Evolves a (s.setForces p fs) := .showForces (.modPart h)

theorem Evolves.wrFcmd (h : Evolves a s) {part : Nat} {p : Port} {v : Word} : Evolves a (wrFcmd part p v s) :=
  .ite h (.place (.place (.place (.place (.setFlag h)))))

theorem GoesTo.execForceReleaseAll (h : Evolves a s) {p : Port} {part : Fin 4} {v : Word} :
    GoesTo a (execForceReleaseAll p part v s) :=
  .gate h (fun _ _ ht => .wrFcmd ht)

theorem Evolves.releaseRecord (h : Evolves a s) {p : Nat} {f : Force} : Evolves a (s.releaseRecord p f) := .schemeRecord h

theorem Evolves.forceCommand (h : Evolves a s) {p op : Nat} {fidx fval fvid : Word} :
    Evolves a (s.forceCommand p op fidx fval fvid).1 := by
  unfold State.forceCommand
  extract_lets
  refine .iteFst h ?_
  refine .iteFst (.setForces (.foldl h (fun _ _ ht => .releaseRecord ht))) ?_
  split
  · exact h
  · extract_lets _ _ _ _ t
    have ht : Evolves a t := .modPart h
    refine .iteFst ?_ (.iteFst h (.iteFst h (.schemeRecord (.setForces ht))))
    split
    · exact h
    · exact .setForces (.releaseRecord h)

theorem GoesTo.execForceCommandCheck (h : Evolves a s) {part : Fin 4} : GoesTo a (execForceCommandCheck part s) := by
  unfold Machine.execForceCommandCheck
  extract_lets _ _ _ t t1
  have ht : Evolves a t := .setFlag (.setReq h)
  have ht1 : Evolves a t1 := .setReq (.setReq (.setReq ht))
  split
  · exact .next h
  · exact .next (.setFld (.forceCommand ht1))

theorem Evolves.endForces (h : Evolves a s) {p : Nat} {keep : Force → Bool} {logs : Nat} :
    Evolves a (s.endForces p keep logs) :=
  .ite h (.post (.setForces h))

theorem Evolves.forcesOnMode (h : Evolves a s) {old new : Nat} : Evolves a (s.forcesOnMode old new) := by
  unfold State.forcesOnMode
  refine .ite ?_ ?_
  · exact h
  · exact .ite (.foldl h (fun _ _ ht => .endForces ht)) (.ite (.foldl h (fun _ _ ht => .endForces ht)) h)

theorem Evolves.showTasks (h : Evolves a s) {p : Nat} : Evolves a (s.showTasks p) :=
  .setFld (.foldl h (fun _ _ ht => .ite (.showTask (.wr (.wr ht))) (.wr (.wr (.wr ht)))))

theorem Evolves.showHash (h : Evolves a s) {p : Nat} : Evolves a (s.showHash p) := .wrList h

theorem Evolves.clearChanged (h : Evolves a s) {old : List OJob} : Evolves a (s.clearChanged old) :=
  .foldl h (fun _ _ ht => .ite ht (.wr (.wr ht)))

theorem Evolves.initScheme (h : Evolves a s) {staging : Bool} : Evolves a (s.initScheme staging) := by
  unfold State.initScheme
  refine .foldl (.inert h) fun s1 _ hs1 => ?_
  exact .showTasks (.foldl (.modPart (.endForces hs1)) (fun _ _ ht => .setFlag (.setFlag ht)))

/-! ### Machine/Waves.lean -/

theorem Evolves.modTwLane (h : Evolves a s) {l : Nat} {f : TwLane → TwLane} : Evolves a (s.modTwLane l f) := .inert h

theorem Evolves.modTwBay (h : Evolves a s) {b : Nat} {f : TwBay → TwBay} : Evolves a (s.modTwBay b f) := .inert h

theorem Evolves.twShow (h : Evolves a s) : Evolves a s.twShow := .setFld (.setFld h)

theorem Evolves.laneHit (h : Evolves a s) {l : Nat} {k : Peak} : Evolves a (s.laneHit l k) := .incFld (.wr h)

theorem Evolves.laneIgn (h : Evolves a s) {l n : Nat} : Evolves a (s.laneIgn l n) := .satFld h

theorem Evolves.takeBuf (h : Evolves a s) {b : Nat} {ev : TwEvent} : Evolves a (s.takeBuf b ev).1 := by
  unfold State.takeBuf
  split
  · exact .satFld h
  · exact .twShow (.inert h)

theorem Evolves.openEvent (h : Evolves a s) {b n0 : Nat} {js : List (Nat × Nat)} : Evolves a (s.openEvent b n0 js) := by
  unfold State.openEvent
  extract_lets _ _ ps _ t
  have ht : Evolves a t := .wr h
  unfold ps
  split
  · exact h
  · exact .modTwBay (.iteFst (.takeBuf ht) ht)

theorem Evolves.twCount (h : Evolves a s) {b : Nat} {n0 : Option Nat} {k : Nat} : Evolves a (s.twCount b n0 k) := by
  unfold State.twCount
  extract_lets _ _ _ _ _ _ t t1
  have ht : Evolves a t := .foldl h (fun _ _ ht => .laneHit ht)
  have ht1 : Evolves a t1 := .ite ht (.laneIgn ht)
  exact .modTwLane ht1

theorem Evolves.twEval (h : Evolves a s) : Evolves a s.twEval := by
  unfold State.twEval
  extract_lets _ t
  have ht : Evolves a t := .foldl h (fun _ _ ht => .modTwBay (.foldl ht (fun _ _ hu => .twCount hu)))
  exact .foldl ht (fun _ _ ht => .openEvent ht)

theorem GoesTo.execTwBayRearm (h : Evolves a s) {bay : Fin 32} : GoesTo a (execTwBayRearm bay s) := by
  unfold Machine.execTwBayRearm
  split
  · exact .ite (.next (.modTwBay h)) (.next h)
  · exact .next h

theorem Evolves.modBufs (h : Evolves a s) {c : TwBuf → Bool} {f : TwBuf → TwBuf} : Evolves a (s.modBufs c f) := .inert h

theorem Evolves.twFrame (h : Evolves a s) : Evolves a s.twFrame := .modBufs (.foldl h (fun _ _ ht => .setFlag ht))

theorem Evolves.twTail (h : Evolves a s) : Evolves a s.twTail := .modBufs h

theorem Evolves.twBoundary (h : Evolves a s) : Evolves a s.twBoundary := .inert h

theorem GoesTo.execTwArrivalRecord (h : Evolves a s) {bay : Fin 32} : GoesTo a (execTwArrivalRecord bay s) := by
  unfold Machine.execTwArrivalRecord
  dsimp only
  split
  · exact .next h
  · refine .next ?_
    split
    · exact .msqItem (.wr (.wr (.wr (.wr (.modTwBay h)))))
    · exact .wr (.wr (.wr (.wr (.modTwBay h))))

theorem Evolves.queueSlices (h : Evolves a s) {n : Nat} : Evolves a (s.queueSlices n) := .foldl h (fun _ _ ht => .queueRun ht)

theorem GoesTo.execTwCaptureComplete (h : Evolves a s) {buf : Fin 8} : GoesTo a (execTwCaptureComplete buf s) := by
  unfold Machine.execTwCaptureComplete
  split
  · exact .ite (.next h) (.next (.queueSlices (.twShow (.inert h))))
  · exact .next h

theorem Evolves.twGiveUp (h : Evolves a s) : Evolves a s.twGiveUp := .ite h (.twShow (.wr (.inert (.inert h))))

theorem Evolves.found (h : Evolves a s) {x : Option ℚ} : Evolves a (s.found x).2 := by
  unfold State.found
  split
  · exact h
  · exact .free h

theorem Evolves.locDone (h : Evolves a s) {r : TwReq} {o : TwLoc} : Evolves a (s.locDone r o) := by
  unfold State.locDone
  extract_lets _ a0 b c _ t _ t1 t2 t3 t4
  have ha0 : Evolves a a0.2 := .found h
  have hb : Evolves a b.2 := .found ha0
  have hc : Evolves a c.2 := .found hb
  have ht : Evolves a t := hc
  have ht1 : Evolves a t1 := .inert ht
  have ht2 : Evolves a t2 := .wr (.wr ht1)
  have ht3 : Evolves a t3 := .wr ht2
  have ht4 : Evolves a t4 := .twShow ht3
  split
  · exact .msqItem ht4
  · exact ht4

theorem GoesTo.execTwLocationSlice (h : Evolves a s) : GoesTo a (execTwLocationSlice s) := by
  unfold Machine.execTwLocationSlice
  refine .ite (.next h) ?_
  extract_lets t
  have ht : Evolves a t := .takeRun h
  split
  · exact .next ht
  · split
    · refine .ite (.next (.inert ht)) ?_
      split
      · exact .next (.locDone ht)
      · exact .next (.inert ht)
    · exact .next (.locDone ht)

theorem Evolves.wrTwDcmd (h : Evolves a s) {b : Nat} {p : Port} {v : Word} : Evolves a (wrTwDcmd b p v s) :=
  .ite (.placeAll (.setFlag h)) h

theorem GoesTo.execTwDoubleEndedGo (h : Evolves a s) {p : Port} {bay : Fin 32} {v : Word} :
    GoesTo a (execTwDoubleEndedGo p bay v s) :=
  .gate h (fun _ _ ht => .wrTwDcmd ht)

theorem Evolves.twCheck (h : Evolves a s) {b : Nat} : Evolves a (s.twCheck b) := by
  unfold State.twCheck
  extract_lets _ _ t
  have ht : Evolves a t := .setFld h
  split
  · exact .setFld h
  · exact .ite (.setFld h) (.ite (.setFld h) (.ite (.setFld h) (.queueSlices (.twShow (.inert ht)))))

theorem Evolves.wrTwv (h : Evolves a s) {k : Nat} {p : Port} {v : Word} : Evolves a (wrTwv k p v s) := .placeEach (.wr h)

theorem GoesTo.execTwvConfigApply (h : Evolves a s) : GoesTo a (execTwvConfigApply s) := by
  unfold Machine.execTwvConfigApply
  extract_lets t
  have ht : Evolves a t := .foldl h (fun _ _ ht => .onDue
    (.onDue ht (fun _ _ hu => .modTwLane hu)) (fun _ _ hu => .modTwLane hu))
  refine .next ?_
  refine .foldl ht fun s1 _ hs1 => ?_
  dsimp only
  exact .onDue (.onDue (.onDue
    (.onDue hs1 (fun _ _ ht => .modTwBay ht)) (fun _ _ ht => .modTwBay ht)) (fun _ _ ht => .modTwBay ht)) (fun _ _ ht => .modTwBay ht)

/-! ### Machine/FrameData.lean -/

theorem Evolves.formFrame (h : Evolves a s) : Evolves a s.formFrame :=
  .inert (.acqThresholds (.twFrame (.measureFrame (.filterFrame h))))

theorem Evolves.ensureFormed (h : Evolves a s) : Evolves a s.ensureFormed := .ite h (.formFrame h)

theorem GoesTo.execHarmonicAnalysis (h : Evolves a s) {bay : Fin 48} : GoesTo a (execHarmonicAnalysis bay s) := by
  refine .ite (.next h) (.ite (.next (.takeRun (.ensureFormed h))) (.next (.wr (.foldl (.takeRun
    (.ensureFormed h)) fun t k ht => ?_))))
  refine .ite ?_ ht
  dsimp only
  split
  · exact .msqItem (.wr (.harmonicRecord ht))
  · exact .wr (.harmonicRecord ht)

/-! ### Machine/Zones.lean -/

theorem Evolves.modZone (h : Evolves a s) {z : Nat} {f : ZoneSt → ZoneSt} : Evolves a (s.modZone z f) := .inert h

theorem Evolves.runZone (h : Evolves a s) {z : Nat} {poison : Bool} : Evolves a (s.runZone z poison) := by
  unfold State.runZone
  extract_lets _ _ _ _ _ _ _ _ _ _ _ _ _ _ t _ t1 t2 t3 _ t4 _ t5
  have ht : Evolves a t := .modZone h
  have ht1 : Evolves a t1 := .ite (.satFld ht) ht
  have ht2 : Evolves a t2 := .ite (.setFlag (.satFld ht1)) ht1
  have ht3 : Evolves a t3 := .ite (.setFlag ht2) ht2
  have ht4 : Evolves a t4 := .ite (.elementRecord ht3) ht3
  have ht5 : Evolves a t5 := .ite (.poisonSeen ht4) ht4
  exact .ite (.elementRecord (.setFlag ht5)) ht5

/-! ### Machine/PelSet.lean -/

theorem Evolves.modWin (h : Evolves a s) {p : Port} {f : WinSt → WinSt} : Evolves a (s.modWin p f) := .inert h

theorem Evolves.wrSidx (h : Evolves a s) {p : Port} {v : Word} : Evolves a (wrSidx p v s) :=
  .ite (.freshWin (.modWin (.wr h))) (.wr h)

theorem Evolves.wrSdata (h : Evolves a s) {p : Port} {v : Word} : Evolves a (wrSdata p v s) := .ite (.freshWin (.modWin h)) h

theorem Evolves.showPending (h : Evolves a s) : Evolves a s.showPending := .foldl h (fun _ _ ht => .setFlag ht)

theorem Evolves.wrScommit (h : Evolves a s) {p : Port} {v : Word} : Evolves a (wrScommit p v s) :=
  .ite (.setFlag (.modWin (.takeWin h))) h

theorem GoesTo.execSettingCommitCheck (h : Evolves a s) {p : Port} : GoesTo a (execSettingCommitCheck p s) := by
  unfold Machine.execSettingCommitCheck
  split
  · exact .next h
  · refine .ite (.next h) ?_
    extract_lets _ _ t t1 _ t2
    have ht : Evolves a t := .modWin h
    have ht1 : Evolves a t1 := .setFld (.setFld (.setFlag ht))
    have ht2 : Evolves a t2 := .ite (.modElem ht1) (.modZone ht1)
    exact .ite (.next ht1) (.next (.showPending ht2))

theorem Evolves.wrIctrl (h : Evolves a s) {i : Nat} {v : Word} : Evolves a (wrIctrl i v s) := .ite h (.inert (.setFlag h))

theorem GoesTo.execPelInstanceReset (h : Evolves a s) {p : Port} {i : Fin 1024} {v : Word} :
    GoesTo a (execPelInstanceReset p i v s) :=
  .gate h (fun _ _ ht => .wrIctrl ht)

theorem Evolves.dropControls (h : Evolves a s) {f : Nat} : Evolves a (s.dropControls f) := .inert h

theorem Evolves.showStatuses (h : Evolves a s) : Evolves a s.showStatuses :=
  .foldl (.foldl h (fun _ _ ht => .wr ht)) (fun _ _ ht => .wr (.wr (.wr (.wr (.wr ht)))))

theorem Evolves.showThetas (h : Evolves a s) : Evolves a s.showThetas := .foldl h (fun _ _ ht => .ite (.wr ht) ht)

theorem Evolves.initElements (h : Evolves a s) : Evolves a s.initElements := .showThetas (.inert h)

/-! ### Machine/Sniff.lean -/

theorem Evolves.modSniff (h : Evolves a s) {f : SniffSt → SniffSt} : Evolves a (s.modSniff f) := .inert h

theorem Evolves.putRec (h : Evolves a s) {key : Nat} {v : Word} : Evolves a (s.putRec key v) := .freshWin (.wr h)

theorem Evolves.note (h : Evolves a s) {key : Nat} {w : Word} : Evolves a (s.note key w) := .modSniff h

theorem Evolves.putCable (h : Evolves a s) {l st len c : Nat} : Evolves a (s.putCable l st len c) := .note h

theorem Evolves.endSniff (h : Evolves a s) {ls : List Nat} : Evolves a (s.endSniff ls) :=
  .ite (.foldl h (fun _ _ ht => .sniffLeaves ht)) h

theorem Evolves.nextBay (h : Evolves a s) : Evolves a s.nextBay := by
  unfold State.nextBay
  split
  · exact .modSniff h
  · exact .queueRun (.modSniff h)

theorem Evolves.cableLoses (h : Evolves a s) {l : Nat} : Evolves a (s.cableLoses l) :=
  .ite (.modSniff (.sniffLeaves (.putCable h))) h

theorem Evolves.cableCut (h : Evolves a s) : Evolves a s.cableCut := .ite (.modSniff (.foldl h (fun _ _ ht => .putCable ht))) h

theorem Evolves.modPd (h : Evolves a s) {p : Nat} {f : PdelaySt → PdelaySt} : Evolves a (s.modPd p f) := .modSniff h

theorem Evolves.pdelaySend (h : Evolves a s) {p : Nat} : Evolves a (s.pdelaySend p) := .modPd (.sendEth h)

theorem Evolves.startItem (h : Evolves a s) : Evolves a s.startItem := by
  unfold State.startItem
  extract_lets t _ _ _ _ u u1
  have ht : Evolves a t := .modSniff h
  have hu : Evolves a u := .modSniff ht
  have hu1 : Evolves a u1 := .foldl hu (fun _ _ ht => .ite (.pdelaySend (.modPd ht)) ht)
  split
  · exact .modSniff ht
  · exact .modSniff ht
  · exact .nextBay (.modSniff ht)
  · exact .modSniff ht
  · exact .modSniff ht
  · exact .queueRun (.queueRun (.queueRun (.queueRun hu1)))
  · exact .queueRun (.modSniff ht)

theorem Evolves.endItem (h : Evolves a s) {i : Nat} {complete : Bool} : Evolves a (s.endItem i complete) :=
  .startItem (.modSniff (.ite (.setFld (.setFld (.foldl h (fun _ _ ht => .putRec ht)))) h))

theorem Evolves.wrSnfCmd (h : Evolves a s) {p : Port} {v : Word} : Evolves a (wrSnfCmd p v s) :=
  .placeAll (.setFlag (.setFld h))

theorem Evolves.dropSteps (h : Evolves a s) : Evolves a s.dropSteps := .inert h

theorem Evolves.surveyAbort (h : Evolves a s) {code : Nat} : Evolves a (s.surveyAbort code) :=
  .ite (.modSniff (.setFld (.dropSteps (.ite (.endSniff h) h)))) h

theorem Evolves.surveyAccept (h : Evolves a s) {items req : Nat} : Evolves a (s.surveyAccept items req) :=
  .startItem (.inert (.setFlag (.wr (.wr (.wr (.wr (.freshWin (.wrList (.wr h)))))))))

theorem GoesTo.execSurveyCommandEffect (h : Evolves a s) : GoesTo a (execSurveyCommandEffect s) := by
  unfold Machine.execSurveyCommandEffect
  refine .next ?_
  refine .onDue h fun s1 _ hs1 => ?_
  extract_lets t
  have ht : Evolves a t := .setFlag hs1
  exact .ite (.ite (.surveyAbort ht) (.setFld ht)) (.ite ht (.ite (.setFld ht) (.surveyAccept ht)))

theorem Evolves.putPort (h : Evolves a s) {p : Nat} : Evolves a (s.putPort p) := .foldl h (fun _ _ ht => .putRec ht)

theorem Evolves.putStream (h : Evolves a s) {i : Nat} : Evolves a (s.putStream i) := .putRec h

theorem Evolves.putHost (h : Evolves a s) {h' : Nat} : Evolves a (s.putHost h') := .note h

theorem GoesTo.execSniffMeasurementStep (h : Evolves a s) {d : SniffData} : GoesTo a (execSniffMeasurementStep d s) := by
  unfold Machine.execSniffMeasurementStep
  refine .ite (.next h) ?_
  extract_lets t
  have ht : Evolves a t := .modSniff (.takeRun h)
  split
  · exact .next (.foldl ht (fun _ _ ht => .putHost ht))
  · exact .next ht
  · exact .next (.modSniff ht)

theorem Evolves.putSupply (h : Evolves a s) : Evolves a s.putSupply := .foldl h (fun _ _ ht => .putRec ht)

theorem Evolves.putLoad (h : Evolves a s) {n : Nat} : Evolves a (s.putLoad n) := .ite h (.ite (.putRec h) (.putRec (.free h)))

theorem Evolves.putDiRec (h : Evolves a s) {n : Nat} : Evolves a (s.putDiRec n) := .putRec h

theorem GoesTo.execSurveyItemEnd (h : Evolves a s) : GoesTo a (execSurveyItemEnd s) := by
  unfold Machine.execSurveyItemEnd
  split
  · exact .next h
  · refine .ite (.next h) ?_
    refine .ite (.next (.ite (.endItem h) (.endItem (.putSupply h)))) ?_
    refine .ite (.next (.ite (.endItem h) h)) ?_
    refine .ite (.next (.endItem (.foldl h (fun _ _ ht => .putLoad ht)))) ?_
    refine .ite (.next (.endItem (.foldl h (fun _ _ ht => .putDiRec ht)))) ?_
    refine .ite ?_ (.next (.endItem h))
    refine .ite ?_ ?_
    · exact .next (.endItem (.foldl (.foldl h (fun _ _ ht => .putPort ht)) (fun _ _ ht => .putStream ht)))
    · exact .next h

theorem Evolves.cableResult (h : Evolves a s) {l : Nat} : Evolves a (s.cableResult l) := .putCable (.free h)

theorem GoesTo.execCableStepEnd (h : Evolves a s) {bay : Fin 32} : GoesTo a (execCableStepEnd bay s) := by
  unfold Machine.execCableStepEnd
  split
  · exact .next h
  · refine .ite ?_ ?_
    · exact .next (.nextBay (.foldl h (fun _ _ ht => .sniffLeaves (.ite (.cableResult ht) (.putCable ht)))))
    · exact .next h

theorem GoesTo.execSurveyEnd (h : Evolves a s) : GoesTo a (execSurveyEnd s) := by
  unfold Machine.execSurveyEnd
  refine .ite ?_ ?_
  · exact .next (.causeAll (.post (.modSniff (.setFlag (.setFld (.setFld (.putRec (.putRec (.putRec h)))))))))
  · exact .next h

theorem Evolves.sniffFrame (h : Evolves a s) : Evolves a s.sniffFrame := .ite (.ite (.queueRun (.modSniff h)) (.modSniff h)) h

/-! ### Machine/Modes.lean -/

theorem Evolves.modeChanged (h : Evolves a s) {old : Nat} : Evolves a (s.modeChanged old) :=
  .forcesOnMode (.ite (.cableCut (.stopInjection h)) h)

theorem Evolves.abandonHeel (h : Evolves a s) : Evolves a s.abandonHeel := .ite (.heelEnds h) h

theorem Evolves.planStops (h : Evolves a s) : Evolves a s.planStops :=
  .ite h (.powerRecord (.abandonHeel (.twGiveUp (.surveyAbort (.inert (.setFlag h))))))

theorem Evolves.triggerRestart (h : Evolves a s) {g : Nat} : Evolves a (s.triggerRestart g) :=
  .ite (.planStops (.inert (.setFlag h))) (.inert (.setFlag h))

theorem Evolves.releaseFault (h : Evolves a s) : Evolves a s.releaseFault := .ite (.ite (.inert h) (.setFault (.inert h))) h

theorem Evolves.enterSafe (h : Evolves a s) : Evolves a s.enterSafe := by
  unfold State.enterSafe
  split
  · exact .ite (.inert h) (.modeChanged (.abandonHeel (.setMode (.wr (.wr (.inert h))))))
  · exact h

theorem Evolves.enterDegraded (h : Evolves a s) : Evolves a s.enterDegraded := .ite (.ite (.setMode (.inert h)) (.inert h)) h

theorem Evolves.enterHealed (h : Evolves a s) : Evolves a s.enterHealed :=
  .ite (.ite (.setFault (.setMode (.readmit h))) (.readmit h)) h

theorem Evolves.wrModeReq (h : Evolves a s) {p : Port} {v : Word} : Evolves a (wrModeReq p v s) := .place (.setFlag (.setFld h))

theorem Evolves.takeMode (h : Evolves a s) {v port : Nat} : Evolves a (s.takeMode v port) := by
  unfold State.takeMode
  extract_lets _ t
  have ht : Evolves a t := .setMode h
  exact .ite (.ite h (.modeChanged (.setMode h))) (.ite (.ite (.triggerRestart (.inert ht)) (.setFault ht)) (.ite h
    (.modeChanged (.setMode h))))

theorem Evolves.wrPwr (h : Evolves a s) {k : Nat} {rw : Word} {p : Port} {v : Word} : Evolves a (wrPwr k rw p v s) :=
  .ite (.placeAll (.plain h)) h

theorem Evolves.wrPwrPack (h : Evolves a s) {p : Port} {v : Word} : Evolves a (wrPwrPack p v s) := .wrPwr h

theorem Evolves.wrPwrRef (h : Evolves a s) {p : Port} {v : Word} : Evolves a (wrPwrRef p v s) := .wrPwr h

theorem Evolves.wrPwrTriad (h : Evolves a s) {p : Port} {v : Word} : Evolves a (wrPwrTriad p v s) := .wrPwr h

theorem Evolves.packState (h : Evolves a s) {p st : Nat} : Evolves a (s.packState p st) := .powerRecord (.setFld h)

theorem Evolves.packEnable (h : Evolves a s) {p : Nat} {en : Bool} {g : Nat} : Evolves a (s.packEnable p en g) := by
  unfold State.packEnable
  split
  · exact .ite (.packEnters (.packState h)) h
  · exact .ite h (.foldl (.packLeaves (.inert (.packState h))) (fun _ _ ht => .cableLoses ht))
  · exact .setFlag h

theorem Evolves.refsApply (h : Evolves a s) : Evolves a s.refsApply := by
  unfold State.refsApply
  refine .onDue h fun s1 _ hs1 => ?_
  exact .foldl (.ite (.inert hs1) (.inert (.inert hs1))) (fun _ _ ht => .ite ht (.powerRecord ht))

theorem Evolves.triadEnable (h : Evolves a s) {en : Bool} {g : Nat} : Evolves a (s.triadEnable en g) := by
  unfold State.triadEnable
  extract_lets _ _ t _ t1
  have ht : Evolves a t := .inert h
  have ht1 : Evolves a t1 := .inert h
  exact .ite (.ite ht (.ite (.setFlag ht) (.triggerRestart ht))) (.ite (.setFlag (.setFlag h)) (.releaseFault (.setFlag ht1)))

theorem GoesTo.execTriadGateStop (h : Evolves a s) : GoesTo a (execTriadGateStop s) := by
  unfold Machine.execTriadGateStop
  split
  · exact .ite (.next (.planStops h)) (.next h)
  · exact .next h

/-! ### Machine/Stage.lean -/

theorem Evolves.stageWr (h : Evolves a s) {k : Nat} {v : Word} : Evolves a (s.stageWr k v) := .dropReqs (.wr h)

theorem Evolves.stageFld (h : Evolves a s) {k hi lo v : Nat} : Evolves a (s.stageFld k hi lo v) := .stageWr h

theorem Evolves.stageLane (h : Evolves a s) {v : List Byte} {l : Nat} : Evolves a (s.stageLane v l) := by
  unfold State.stageLane
  extract_lets _ t t1 t2 t3 t4 t5
  have ht : Evolves a t := .stageWr (.stageWr (.stageWr h))
  have ht1 : Evolves a t1 := .setFlag ht
  have ht2 : Evolves a t2 := .stageWr ht1
  have ht3 : Evolves a t3 := .stageWr ht2
  have ht4 : Evolves a t4 := .stageFld ht3
  have ht5 : Evolves a t5 := .stageWr (.stageWr ht4)
  exact .ite ht1 (.wr ht5)

theorem Evolves.holdRole (h : Evolves a s) {v : List Byte} {l : Nat} : Evolves a (s.holdRole v l) := .modLane h

theorem Evolves.holdRoles (h : Evolves a s) {v : List Byte} : Evolves a (s.holdRoles v) := .foldl h (fun _ _ ht => .holdRole ht)

theorem Evolves.trackerStart (h : Evolves a s) {y : Nat} : Evolves a (s.trackerStart y) := .modBay (.setFld h)

theorem Evolves.stageBay (h : Evolves a s) {v : List Byte} {y : Nat} : Evolves a (s.stageBay v y) := by
  unfold State.stageBay
  extract_lets _ t t1 t2 t3
  have ht : Evolves a t := .stageWr h
  have ht1 : Evolves a t1 := .wr ht
  have ht2 : Evolves a t2 := .setFld (.stageFld ht1)
  have ht3 : Evolves a t3 := .setFlag (.trackerStart ht2)
  exact .ite ht3 (.stageWr (.stageWr (.stageWr (.stageWr ht3))))

theorem Evolves.noControls (h : Evolves a s) {i : Nat} : Evolves a (s.noControls i) := .inert (.wr (.wr h))

theorem Evolves.dropCommits (h : Evolves a s) : Evolves a s.dropCommits := by
  unfold State.dropCommits
  extract_lets _ t
  have ht : Evolves a t := .inert h
  exact .showPending (.foldl ht (fun _ _ hu => .setFlag hu))

theorem Evolves.stageElems (h : Evolves a s) {b v : List Byte} : Evolves a (s.stageElems b v) := by
  unfold State.stageElems
  extract_lets _ _ t t1
  have ht : Evolves a t := .inert h
  have ht1 : Evolves a t1 := .foldl ht (fun _ _ ht => .ite (.setFld (.wr (.wr ht))) (.noControls (.wr (.wr (.wr (.setFld
    (.wr (.wr ht))))))))
  exact .showThetas ht1

theorem Evolves.stageZones (h : Evolves a s) {v : List Byte} : Evolves a (s.stageZones v) := by
  unfold State.stageZones
  extract_lets _ _ t t1
  have ht : Evolves a t := .inert h
  have ht1 : Evolves a t1 := .foldl ht (fun _ _ hu => .ite (.wr (.wr hu)) (.clearRegs (.wr hu)))
  exact .dropCommits (.wr ht1)

theorem Evolves.stageSlx (h : Evolves a s) {b : List Byte} : Evolves a (s.stageSlx b) := by
  unfold State.stageSlx
  extract_lets t _ t1
  have ht : Evolves a t := .foldl h (fun _ _ ht => .foldl (.showHash (.wr (.wr (.setFld (.setFld
    (.modPart ht)))))) (fun _ _ hu => .wr hu))
  have ht1 : Evolves a t1 := .inert ht
  exact .initScheme ht1

theorem Evolves.stageBudget (h : Evolves a s) {v : List Byte} : Evolves a (s.stageBudget v) :=
  .foldl (.wr (.wr (.wr (.wr (.wr (.wr (.inert h))))))) (fun _ _ ht => .wr (.wr ht))

theorem Evolves.stageRec (h : Evolves a s) {v : List Byte} {r : Nat} {x : RecEnt} : Evolves a (s.stageRec v r x) := by
  unfold State.stageRec
  extract_lets _ _ _ _ t t1 t2 t3 t4 t5 t6 t7
  have ht : Evolves a t := .modRec h
  have ht1 : Evolves a t1 := .stageWr (.stageWr (.stageWr (.stageWr ht)))
  have ht2 : Evolves a t2 := .stageWr (.stageWr ht1)
  have ht3 : Evolves a t3 := .wr (.wr (.wr ht2))
  have ht4 : Evolves a t4 := .wr ht3
  have ht5 : Evolves a t5 := .wrList ht4
  have ht6 : Evolves a t6 := .foldl ht5 (fun _ _ ht => .wrList (.wr ht))
  have ht7 : Evolves a t7 := .wr (.wr ht6)
  exact .wr (.wr (.wr ht7))

theorem Evolves.stageAcq (h : Evolves a s) {b : List Byte} : Evolves a (s.stageAcq b) := by
  unfold State.stageAcq
  extract_lets _ _ t t1 t2 t3 t4
  have ht : Evolves a t := .foldl (.acqStopAll h) (fun _ _ ht => .clearRegs ht)
  have ht1 : Evolves a t1 := .inert ht
  have ht2 : Evolves a t2 := .foldl ht1 (fun _ _ ht => .stageRec ht)
  have ht3 : Evolves a t3 := .wr ht2
  have ht4 : Evolves a t4 := .wr ht3
  exact .wr ht4

theorem Evolves.stageLogs (h : Evolves a s) {v : List Byte} : Evolves a (s.stageLogs v) := by
  unfold State.stageLogs
  extract_lets s1
  have hs1 : Evolves a s1 := .foldl h (fun _ _ ht => .closeQueueRun ht)
  refine .foldl hs1 fun s2 _ hs2 => ?_
  extract_lets _ _ _ t t1 t2
  have ht : Evolves a t := .clearRegs (.setStore hs2)
  have ht1 : Evolves a t1 := .dropReqs ht
  have ht2 : Evolves a t2 := .wr ht1
  exact .ite ht1 (.clearStore (.wr ht2))

theorem Evolves.stageFio (h : Evolves a s) {v : List Byte} : Evolves a (s.stageFio v) := by
  unfold State.stageFio
  extract_lets t t1 t2
  have ht : Evolves a t := .foldl h (fun _ _ ht => .modDin (.setFld (.stageWr ht)))
  have ht1 : Evolves a t1 := .foldl ht (fun _ _ ht => .modDout (.wr (.stageWr ht)))
  have ht2 : Evolves a t2 := .foldl ht1 (fun _ _ ht => .wr ht)
  exact .foldl ht2 (fun _ _ ht => .setFld (.wr ht))

theorem Evolves.stagePbx (h : Evolves a s) {b : List Byte} : Evolves a (s.stagePbx b) := by
  unfold State.stagePbx
  extract_lets _ _ t t1 t2 t3 _ t4 t5 t6
  have ht : Evolves a t := by
    unfold t
    refine .foldl h fun s1 _ hs1 => ?_
    extract_lets _ t1 t2 t3 t4 t5
    have ht1 : Evolves a t1 := .wr hs1
    have ht2 : Evolves a t2 := .wr (.wr ht1)
    have ht3 : Evolves a t3 := .stageWr (.stageWr ht2)
    have ht4 : Evolves a t4 := .foldl ht3 (fun _ _ ht => .wr ht)
    have ht5 : Evolves a t5 := .setFld (.setFld ht4)
    exact .inert ht5
  have ht1 : Evolves a t1 := .wr ht
  have ht2 : Evolves a t2 := .clearRegs (.clearRegs ht1)
  have ht3 : Evolves a t3 := .wr (.clearRegs ht2)
  have ht4 : Evolves a t4 := .inert ht3
  have ht5 : Evolves a t5 := .foldl ht4 (fun _ _ ht => .wr ht)
  have ht6 : Evolves a t6 := .foldl ht5 (fun _ _ ht => .subDefaults (.wr ht))
  exact .foldl ht6 (fun _ _ ht => .wr ht)

theorem Evolves.clearHqCounters (h : Evolves a s) : Evolves a s.clearHqCounters :=
  .foldl h (fun _ _ ht => .foldl ht (fun _ _ hu => .wr hu))

theorem Evolves.stagePed (h : Evolves a s) {b : List Byte} : Evolves a (s.stagePed b) := by
  unfold State.stagePed
  extract_lets _ _ t t1 t2 t3 t4 t5 _ t6
  have ht : Evolves a t := .foldl h (fun _ _ ht => .stageLane ht)
  have ht1 : Evolves a t1 := .foldl ht (fun _ _ ht => .stageBay ht)
  have ht2 : Evolves a t2 := .stageZones (.stageElems ht1)
  have ht3 : Evolves a t3 := .stageSlx (.stageBudget ht2)
  have ht4 : Evolves a t4 := .stageFio (.stageLogs (.stageAcq ht3))
  have ht5 : Evolves a t5 := .stagePbx ht4
  have ht6 : Evolves a t6 := .wr (.wr ht5)
  exact .digStart (.clearHqCounters ht6)

theorem Evolves.assignParts (h : Evolves a s) {b : List Byte} : Evolves a (s.assignParts b) := by
  unfold State.assignParts
  extract_lets _ t t1 t2 t3
  have ht : Evolves a t := .foldl h (fun _ _ ht => .modBay ht)
  have ht1 : Evolves a t1 := .foldl ht (fun _ _ ht => .modDin ht)
  have ht2 : Evolves a t2 := .foldl ht1 (fun _ _ ht => .modDout ht)
  have ht3 : Evolves a t3 := .foldl ht2 (fun _ _ ht => .modPart ht)
  exact .setFld ht3

theorem Evolves.holdLane (h : Evolves a s) {sec : List Byte} {l : Nat} : Evolves a (s.holdLane sec l) := by
  unfold State.holdLane
  extract_lets _ t t1 t2 t3
  have ht : Evolves a t := .putDec (.holdRole h)
  have ht1 : Evolves a t1 := .modLane ht
  have ht2 : Evolves a t2 := .ite (.takeHold ht1) (.modLane ht1)
  have ht3 : Evolves a t3 := .putTrim (.putLtrim ht2)
  exact .ite ht1 (.modTwLane ht3)

theorem Evolves.holdBay (h : Evolves a s) {sec : List Byte} {y : Nat} : Evolves a (s.holdBay sec y) := by
  unfold State.holdBay
  extract_lets _ _ t t1
  have ht : Evolves a t := .ite (.modBay h) (.putMsrCfg h)
  have ht1 : Evolves a t1 := .modBay ht
  exact .ite ht1 (.modTwBay ht1)

theorem Evolves.holdSettings (h : Evolves a s) {b : List Byte} : Evolves a (s.holdSettings b) :=
  .foldl (.foldl h (fun _ _ ht => .holdLane ht)) (fun _ _ ht => .holdBay ht)

/-! ### Machine/Admission.lean -/

theorem Evolves.showSlotLoads (h : Evolves a s) : Evolves a s.showSlotLoads := .wr (.freshWin (.foldl h (fun _ _ ht => .wr ht)))

theorem Evolves.showAdm (h : Evolves a s) {req : Nat} {a' : AdmRes} : Evolves a (s.showAdm req a') := .wr (.wr (.wr h))

/-! ### Machine/PedCheck.lean -/

theorem Evolves.showPchk (h : Evolves a s) {p code task pos : Nat} : Evolves a (s.showPchk p code task pos) := .wr h

theorem Evolves.checkWhole (h : Evolves a s) {b : List Byte} : Evolves a (s.checkWhole b).2 := by
  unfold State.checkWhole
  split
  · exact h
  · extract_lets t _ s1 s2
    have ht : Evolves a t := .holdRoles (.assignParts (.stagePed h))
    have hs1 : Evolves a s1 := .foldl h (fun _ _ ht => .showPchk ht)
    have hs2 : Evolves a s2 := .wr hs1
    split
    · exact h
    · split
      · exact h
      · split
        · exact .showPchk h
        · split
          · exact .wr hs1
          · split
            · exact .wr hs2
            · exact .wr hs2

theorem Evolves.checkDelta (h : Evolves a s) {b : List Byte} {p : Nat} : Evolves a (s.checkDelta b p).2.1 := by
  unfold State.checkDelta
  split
  · exact h
  · extract_lets
    split
    · exact h
    · split
      · exact .showPchk h
      · split
        · exact .showPchk h
        · exact .showPchk h

/-! ### Machine/Security.lean -/

theorem Evolves.showFuses (h : Evolves a s) : Evolves a s.showFuses := .foldl (.setFld (.setFld h)) (fun _ _ ht => .wrList ht)

theorem Evolves.setLoad (h : Evolves a s) {l : LoadSt} : Evolves a (s.setLoad l) := .setFlag (.inert h)

theorem Evolves.showVres (h : Evolves a s) {l : LoadSt} {busy : Bool} {code tag adm : Nat} :
    Evolves a (s.showVres l busy code tag adm) :=
  .wr h

theorem Evolves.pedRecord (h : Evolves a s) {kind : Nat} {l : LoadSt} {code adm : Nat} :
    Evolves a (s.pedRecord kind l code adm) :=
  .postNow h

theorem Evolves.secRecord (h : Evolves a s) {kind item : Nat} : Evolves a (s.secRecord kind item) := .causeAll (.postNow h)

theorem Evolves.showPstat (h : Evolves a s) : Evolves a s.showPstat := .foldl h (fun _ _ ht => .setFlag (.setFlag ht))

theorem Evolves.finishLoad (h : Evolves a s) {l : LoadSt} {status result : Nat} : Evolves a (s.finishLoad l status result) := by
  unfold State.finishLoad
  split
  · exact .complete h
  · exact h

theorem Evolves.emptyShadow (h : Evolves a s) {p : Nat} : Evolves a (s.emptyShadow p) := .setFld (.modPart h)

theorem Evolves.discardDeltas (h : Evolves a s) : Evolves a s.discardDeltas := by
  unfold State.discardDeltas
  extract_lets _ t t1 _ _ t2
  have ht : Evolves a t := .foldl h (fun _ _ ht => .finishLoad ht)
  have ht1 : Evolves a t1 := .foldl ht (fun _ _ ht => .ite ht (.emptyShadow ht))
  have ht2 : Evolves a t2 := .inert ht1
  exact .ite (.setFlag (.setLoad ht2)) ht2

theorem Evolves.enterLoad (h : Evolves a s) {requester : Nat} : Evolves a (s.enterLoad requester) :=
  .modeChanged (.setFault (.setMode (.setFlag (.inert (.acqStopAll (.planStops (.inert h)))))))

theorem Evolves.beginWhole (h : Evolves a s) {l : LoadSt} : Evolves a (s.beginWhole l) := by
  unfold State.beginWhole
  extract_lets t t1 _ t2
  have ht : Evolves a t := .ite h (.enterLoad h)
  have ht1 : Evolves a t1 := .setLoad (.discardDeltas ht)
  have ht2 : Evolves a t2 := .inert ht1
  exact .ite (.emit ht2) ht2

theorem Evolves.wrLoadcmd (h : Evolves a s) {p : Port} {v : Word} : Evolves a (wrLoadcmd p v s) :=
  .ite (.placeAll (.setFlag (.setFld h))) (.setFld h)

theorem Evolves.loadCommand (h : Evolves a s) {r : Req} : Evolves a (s.loadCommand r) :=
  .ite (.beginWhole (.setFld h)) (.setFld h)

theorem Evolves.qspiEffect (h : Evolves a s) : Evolves a s.qspiEffect :=
  .ite h (.foldl (.setFlag (.setReqs h)) fun _ _ ht => .loadCommand ht)

theorem Evolves.nextLoad (h : Evolves a s) : Evolves a s.nextLoad := by
  unfold State.nextLoad
  split
  · exact .setLoad (.inert h)
  · exact .setLoad h

theorem GoesTo.execPedigreeReadDone (h : Evolves a s) {image : List Byte} {headers : List (List Byte)} {ok : Bool} :
    GoesTo a (execPedigreeReadDone image headers ok s) :=
  .ite (.next h) (.next (.showVres (.setLoad h)))

theorem Evolves.refuseLoad (h : Evolves a s) {code tag item adm status : Nat} :
    Evolves a (s.refuseLoad code tag item adm status) := by
  unfold State.refuseLoad
  extract_lets _ t t1 t2 t3
  have ht : Evolves a t := .pedRecord h
  have ht1 : Evolves a t1 := .showVres ht
  have ht2 : Evolves a t2 := .ite (.wr ht1) ht1
  have ht3 : Evolves a t3 := .finishLoad ht2
  split
  · exact .emit (.setLoad ht)
  · exact .ite (.nextLoad ht3) (.setLoad ht3)

theorem GoesTo.execPedigreeVerifyDone (h : Evolves a s) : GoesTo a (execPedigreeVerifyDone s) := by
  refine .ite (.next h) (.ite (.next (.refuseLoad h)) (.ite ?_ ?_))
  · have hd := h.checkDelta (b := s.sec.load.image) (p := s.sec.load.part)
    split
    next e => rw [e] at hd; exact .next (.setFlag (.setLoad (.setFld (.modPart hd))))
    next e => rw [e] at hd; exact .next (.refuseLoad hd)
  · have hw := h.checkWhole (b := s.sec.load.image)
    exact .ite (.next (.refuseLoad hw)) (.next (.setFlag (.setLoad hw)))

theorem GoesTo.execAdmissionComplete (h : Evolves a s) : GoesTo a (execAdmissionComplete s) := by
  unfold Machine.execAdmissionComplete
  extract_lets _ t t1 t2 _ t3 t4
  have ht : Evolves a t := .showAdm h
  have ht1 : Evolves a t1 := .setFld ht
  have ht2 : Evolves a t2 := .wr ht1
  have ht3 : Evolves a t3 := .inert ht2
  have ht4 : Evolves a t4 := .pedRecord (.showVres ht3)
  exact .ite (.next h) (.ite (.next (.refuseLoad (.ite (.emptyShadow ht) ht))) (.ite (.next (.nextLoad
    (.finishLoad ht4))) (.next (.setLoad (.setFlag ht)))))

theorem GoesTo.execStagingComplete (h : Evolves a s) : GoesTo a (execStagingComplete s) := by
  unfold Machine.execStagingComplete
  extract_lets _ _ _ t _ t1 _ t2 t3 t4 t5 t6 t7
  have ht : Evolves a t := .twGiveUp (.stagePed h)
  have ht1 : Evolves a t1 := .inert ht
  have ht2 : Evolves a t2 := .inert ht1
  have ht3 : Evolves a t3 := .setFld (.setFld ht2)
  have ht4 : Evolves a t4 := .wrList (.wr ht3)
  have ht5 : Evolves a t5 := .wrList ht4
  have ht6 : Evolves a t6 := .pedRecord (.showVres ht5)
  have ht7 : Evolves a t7 := .setLoad (.finishLoad ht6)
  exact .ite (.next h) (.next (.inert ht7))

theorem GoesTo.execLoadRefused (h : Evolves a s) : GoesTo a (execLoadRefused s) := by
  unfold Machine.execLoadRefused
  extract_lets _ t _ t1
  have ht : Evolves a t := .setLoad h
  have ht1 : Evolves a t1 := .acqStart (.setFault (.setMode ht))
  exact .ite (.next h) (.ite (.next ht) (.next (.ite (.triggerRestart ht1) ht1)))

theorem GoesTo.execStandbyEntry (h : Evolves a s) : GoesTo a (execStandbyEntry s) := by
  unfold Machine.execStandbyEntry
  split
  · refine .ite ?_ (.next h)
    extract_lets _ _ t t1 t2 t3
    have ht : Evolves a t := .inert h
    have ht1 : Evolves a t1 := .showPstat (.holdSettings (.assignParts ht))
    have ht2 : Evolves a t2 := .setFault (.setMode (.setLoad ht1))
    have ht3 : Evolves a t3 := .acqStart (.showSlotLoads ht2)
    exact .next (.ite (.triggerRestart ht3) ht3)
  · exact .next h

theorem GoesTo.execPlanSwap (h : Evolves a s) : GoesTo a (execPlanSwap s) := by
  unfold Machine.execPlanSwap
  refine .ite ?_ (.next h)
  extract_lets due t u
  have shown : Evolves a u := .showSlotLoads (.foldl h fun _ _ ht => .modPart ht)
  exact .next (.takeMaps h shown)

theorem Evolves.wrFusecmd (h : Evolves a s) {p : Port} {v : Word} : Evolves a (wrFusecmd p v s) :=
  .placeAll (.setFlag (.setFld h))

theorem GoesTo.fuseRow (h : Evolves a s) {p : Port} {op : Nat} {v : Word} : GoesTo a (fuseRow p op v s) :=
  .gate h (fun _ _ ht => .wrFusecmd ht)

theorem Evolves.showFuseBusy (h : Evolves a s) : Evolves a s.showFuseBusy := .setFlag h

theorem GoesTo.execFuseCommandCheck (h : Evolves a s) : GoesTo a (execFuseCommandCheck s) := by
  unfold Machine.execFuseCommandCheck
  split
  · refine .ite ?_ ?_
    · exact .next h
    · exact .ite (.next (.inert (.setFlag (.setReq h)))) (.next (.showFuseBusy (.setFld (.setReq h))))
  · exact .next h

theorem Evolves.freeBytes (h : Evolves a s) {n : Nat} : Evolves a (s.freeBytes n).2 := by
  unfold State.freeBytes
  generalize List.range n = l, ([] : List Byte) = bs
  induction l generalizing s bs with
  | nil => exact h
  | cons i l ih => exact ih (.free h) _

theorem GoesTo.execFuseOperationDone (h : Evolves a s) {blown : Nat} {verified : Bool} :
    GoesTo a (execFuseOperationDone blown verified s) := by
  unfold Machine.execFuseOperationDone
  split
  · extract_lets kept t _ _ t1 t2
    have hkept : Evolves a kept.2 := .freeBytes h
    have ht : Evolves a t := .ite hkept h
    have ht1 : Evolves a t1 := .showFuses (.inert ht)
    have ht2 : Evolves a t2 := .setFld (.showFuseBusy (.setFlag ht1))
    exact .next (.secRecord ht2)
  · exact .next h

theorem GoesTo.execAttestReportDone (h : Evolves a s) : GoesTo a (execAttestReportDone s) := by
  unfold Machine.execAttestReportDone
  split
  · exact .next (.complete (.emit (.setFlag (.inert (.freeBytes h)))))
  · exact .next h

/-! ### Machine/HostPorts.lean -/

theorem Evolves.dmaReads (h : Evolves a s) {p : Fin 4} {addr len : Nat} : Evolves a (s.dmaReads p addr len) :=
  .foldl h (fun _ _ ht => .emit ht)

theorem Evolves.releaseCpl (h : Evolves a s) {p head : Nat} : Evolves a (s.releaseCpl p head) := .drainCpl (.modPort h)

theorem Evolves.noteHeldBack (h : Evolves a s) {p : Nat} : Evolves a (s.noteHeldBack p) := .modPort h

theorem Evolves.wrBell (h : Evolves a s) {p : Nat} {q : Ring} {v : Word} : Evolves a (wrBell p q v s) := by
  unfold Machine.wrBell
  extract_lets t
  have ht : Evolves a t := .wr h
  split
  · exact .noteHeldBack (.modPort ht)
  · exact .releaseCpl ht
  · exact ht

theorem GoesTo.bellRow (h : Evolves a s) {p : Fin 4} {q : Ring} {v : Word} : GoesTo a (bellRow p q v s) :=
  .gate h (fun _ _ ht => .wrBell ht)

theorem GoesTo.execRecordQueueDoorbell (h : Evolves a s) {p : Fin 4} {q : Ring} {v : Word} :
    GoesTo a (execRecordQueueDoorbell p q v s) :=
  .bellRow h

theorem Evolves.beganCmd (h : Evolves a s) {p tag : Nat} : Evolves a (s.beganCmd p tag) := .modPort h

theorem GoesTo.cmdRow (h : Evolves a s) {p : Nat} {isOp : Nat → Bool} {f : Cmd → State → State}
    (hf : ∀ c t, Evolves a t → Evolves a (f c t)) : GoesTo a (cmdRow p isOp f s) := by
  unfold Machine.cmdRow
  split
  · exact .ite (.next (hf _ _ (.beganCmd h))) (.next h)
  · exact .next h

theorem GoesTo.execNop (h : Evolves a s) {p : Fin 4} : GoesTo a (execNop p s) := .cmdRow h (fun _ _ ht => .complete ht)

theorem GoesTo.execUnusedOpcode (h : Evolves a s) {p : Fin 4} : GoesTo a (execUnusedOpcode p s) :=
  .cmdRow h (fun _ _ ht => .complete ht)

theorem GoesTo.execPedigreeLoad (h : Evolves a s) {p : Fin 4} : GoesTo a (execPedigreeLoad p s) := by
  unfold Machine.execPedigreeLoad
  refine .cmdRow h fun _ s1 hs1 => ?_
  extract_lets _ _ _ _ t
  have ht : Evolves a t := .ite (.complete hs1) (.dmaReads (.beginWhole (.complete hs1)))
  exact .ite ht (.qspiEffect ht)

theorem GoesTo.execDeltaLoad (h : Evolves a s) {p : Fin 4} : GoesTo a (execDeltaLoad p s) := by
  unfold Machine.execDeltaLoad
  refine .cmdRow h fun _ s1 hs1 => ?_
  extract_lets _ _ _ _ t
  have ht : Evolves a t := .dmaReads (.complete hs1)
  exact .ite (.complete hs1) (.ite (.complete hs1) (.ite (.complete hs1) (.ite (.complete hs1) (.ite (.setLoad ht)
    (.inert ht)))))

theorem GoesTo.execAttest (h : Evolves a s) {p : Fin 4} : GoesTo a (execAttest p s) := by
  unfold Machine.execAttest
  refine .cmdRow h fun _ s1 hs1 => ?_
  exact .ite (.complete hs1) (.ite (.complete hs1) (.inert (.setFlag (.complete hs1))))

theorem Evolves.startRing (h : Evolves a s) {p : Nat} {q : Ring} : Evolves a (s.startRing p q) := by
  unfold State.startRing
  extract_lets _ t
  have ht : Evolves a t := .modPort (.setFlag (.setFld h))
  split
  · exact .modPort (.setFld h)
  · exact .drainCpl ht
  · exact .wr h

theorem Evolves.wrRingCtl (h : Evolves a s) {p : Nat} {q : Ring} {v : Word} : Evolves a (wrRingCtl p q v s) := by
  unfold Machine.wrRingCtl
  extract_lets _ _ t
  have ht : Evolves a t := .plain h
  exact .ite (.setFlag (.setFlag ht)) (.ite (.startRing (.setFlag (.setFlag ht))) (.setFlag ht))

theorem GoesTo.ringRow (h : Evolves a s) {p : Fin 4} {q : Ring} {on : Bool} {v : Word} : GoesTo a (ringRow p q on v s) :=
  .gate h (fun _ _ ht => .wrRingCtl ht)

theorem GoesTo.execPortReset (h : Evolves a s) {p : Fin 4} {cause : Fin 6} : GoesTo a (execPortReset p cause s) := by
  unfold Machine.execPortReset
  extract_lets _ _ _ t t1 t2 t3 _ _ t4 t5 t6
  have ht : Evolves a t := .clearRegs (.clearRegs h)
  have ht1 : Evolves a t1 := .showPstat (.setFlag ht)
  have ht2 : Evolves a t2 := .ite (.wr ht1) ht1
  have ht3 : Evolves a t3 := .modPort ht2
  have ht4 : Evolves a t4 := .inert ht3
  have ht5 : Evolves a t5 := .foldl ht4 (fun _ _ ht => .pedRecord ht)
  have ht6 : Evolves a t6 := .ite (.refuseLoad ht5) ht5
  exact .ite (.next h) (.next (.hostRecord ht6))

theorem GoesTo.execPortLinkUp (h : Evolves a s) {p speed width : Fin 4} {setup : PciSetup} :
    GoesTo a (execPortLinkUp p speed width setup s) := by
  unfold Machine.execPortLinkUp
  extract_lets _ t t1
  have ht : Evolves a t := .setFld (.setFld (.setFlag h))
  have ht1 : Evolves a t1 := .modPort ht
  exact .next (.ite ht1 (.hostRecord ht1))

/-! ### Machine/Plan.lean -/

theorem Evolves.formBudget (h : Evolves a s) {win : Bool} {on : List Nat} : Evolves a (s.formBudget win on) :=
  .wr (.setFld (.wr (.setFld (.inert (.inert h)))))

theorem Evolves.countBudget (h : Evolves a s) : Evolves a s.countBudget := .inert h

theorem GoesTo.execBudgetFlagChange (h : Evolves a s) : GoesTo a (execBudgetFlagChange s) := by
  unfold Machine.execBudgetFlagChange
  split
  · exact .next h
  · exact .next (.post (.ite (.causeAll (.setFlag (.setFlag (.inert h)))) (.setFlag (.inert h))))

theorem Evolves.modJob (h : Evolves a s) {ix : Nat} {f : OJob → OJob} : Evolves a (s.modJob ix f) := .inert h

theorem Evolves.activate (h : Evolves a s) {j : OJob} : Evolves a (s.activate j) :=
  .ite h (.ite (.showTask (.satFld (.modTask h))) (.modJob (.ite h (.incFld h))))

theorem Evolves.defer (h : Evolves a s) {ix : Nat} : Evolves a (s.defer ix) := .wr (.wr (.incFld h))

theorem Evolves.admitJobs (h : Evolves a s) {js : List OJob} {cyc en : Nat} {stop : Bool} :
    Evolves a (s.admitJobs js cyc en stop) := by
  induction js generalizing s cyc en stop with
  | nil => exact h
  | cons j js ih => exact .ite (ih h) (.ite (ih (.inert (.modJob h))) (ih (.defer h)))

theorem Evolves.admitO (h : Evolves a s) : Evolves a s.admitO := .admitJobs (.foldl (.inert h) (fun _ _ ht => .activate ht))

theorem Evolves.considerO (h : Evolves a s) : Evolves a s.considerO := .ite h (.admitO h)

theorem GoesTo.execIngressAgreement (h : Evolves a s) {first second : List (BitVec 64)} {cycle : Nat} :
    GoesTo a (execIngressAgreement first second cycle s) :=
  .ite (.next h) (.ingress (.considerO h))

theorem Evolves.returnRuns (h : Evolves a s) : Evolves a s.returnRuns := .inert h

theorem GoesTo.execSchemeSwap (h : Evolves a s) {part : Fin 4} : GoesTo a (execSchemeSwap part s) := by
  unfold Machine.execSchemeSwap
  extract_lets _ _ _ _ _ _ t _ t1 _ t2 t3 t4 _ t5
  have ht : Evolves a t := .foldl h (fun _ _ ht => .schemeRecord ht)
  have ht1 : Evolves a t1 := .inert ht
  have ht2 : Evolves a t2 := .modPart ht1
  have ht3 : Evolves a t3 := .foldl ht2 (fun _ _ ht => .ite ht (.wr ht))
  have ht4 : Evolves a t4 := .clearChanged (.showHash (.showTasks (.setForces ht3)))
  have ht5 : Evolves a t5 := .setFlag (.setFld ht4)
  split
  · exact .next h
  · refine .ite ?_ (.next h)
    extract_lets t6 t7 u
    have ht6 : Evolves a t6 := .satFld (.wr ht5)
    have ht7 : Evolves a t7 := .incFld ht6
    have hu : Evolves a u := .schemeRecord ht7
    exact .next (.ite hu (.considerO hu))

theorem GoesTo.execTriadRestart (h : Evolves a s) : GoesTo a (execTriadRestart s) := by
  unfold Machine.execTriadRestart
  split
  · refine .ite ?_ (.next h)
    extract_lets t t1 t2 _ t3
    have ht : Evolves a t := .planStops h
    have ht1 : Evolves a t1 := .initScheme (.initElements (.clearTriad ht))
    have ht2 : Evolves a t2 := .setFlag (.setFlag ht1)
    have ht3 : Evolves a t3 := .inert ht2
    exact .next (.latchTstat (.releaseFault (.powerRecord ht3)))
  · exact .next h

theorem GoesTo.execModeRequestEffect (h : Evolves a s) : GoesTo a (execModeRequestEffect s) := by
  unfold Machine.execModeRequestEffect
  split
  · exact .next (.ite (.takeMode (.wr (.setFlag (.setReq h)))) (.wr (.setFlag (.setReq h))))
  · exact .next h

/-! ### Machine/Frame.lean -/

theorem Evolves.signal (h : Evolves a s) {p : Fin 4} {v : Nat} : Evolves a (s.signal p v) := .ite (.setFlag h) (.emit h)

theorem Evolves.queueVector (h : Evolves a s) {p : Fin 4} {q : Nat} : Evolves a (s.queueVector p q) :=
  .ite h (.ite (.modPort h) (.ite (.signal (.modPort h)) h))

theorem Evolves.causeVector (h : Evolves a s) {p : Fin 4} {m n : Nat} : Evolves a (s.causeVector p m n) :=
  .ite h (.ite (.signal (.setFlag h)) (.setFlag h))

theorem Evolves.signals (h : Evolves a s) : Evolves a s.signals := by
  unfold State.signals
  extract_lets _ t
  have ht : Evolves a t := .inert h
  refine .foldl ht fun t1 _ ht1 => ?_
  exact .foldl (.foldl ht1 (fun _ _ ht => .queueVector ht)) (fun _ _ ht => .causeVector ht)

theorem Evolves.missDeadline (h : Evolves a s) : Evolves a s.missDeadline := .ite (.toSafe h) h

theorem Evolves.finishFrame (h : Evolves a s) : Evolves a s.finishFrame :=
  .missDeadline (.twTail (.acqMasks (.foldl (.ensureFormed h) (fun _ _ ht => .writeRows ht))))

theorem Evolves.releaseFrame (h : Evolves a s) : Evolves a s.releaseFrame :=
  .releaseQueues (.acqBoundary (.sendOutputs (.foldl h (fun _ _ ht => .publish ht))))

theorem Evolves.keepImage (h : Evolves a s) : Evolves a s.keepImage := .inert h

theorem Evolves.latchSettings (h : Evolves a s) : Evolves a s.latchSettings := by
  unfold State.latchSettings
  extract_lets t t1 t2 t3
  have ht : Evolves a t := .foldl h (fun _ _ ht => .formLane ht)
  have ht1 : Evolves a t1 := .foldl ht (fun _ _ ht => .formBay ht)
  have ht2 : Evolves a t2 := .foldl ht1 (fun _ _ ht => .countWindows ht)
  have ht3 : Evolves a t3 := .foldl (.twBoundary ht2) (fun _ _ ht => .laneFrameEnd ht)
  exact .inert ht3

theorem Evolves.streamFrame (h : Evolves a s) : Evolves a s.streamFrame :=
  .foldl (.foldl (.sniffFrame h) (fun _ _ ht => .resample ht)) (fun _ _ ht => .countStream ht)

theorem Evolves.countFrame (h : Evolves a s) : Evolves a s.countFrame := .setFld (.setFld (.wr (.inert h)))

theorem Evolves.closeImage (h : Evolves a s) : Evolves a s.closeImage := .dropControls (.inert h)

theorem Evolves.auxFrame (h : Evolves a s) : Evolves a s.auxFrame := by
  unfold State.auxFrame
  extract_lets _ _ t t1 t2
  have ht : Evolves a t := .foldl h (fun _ _ ht => .setFlag ht)
  have ht1 : Evolves a t1 := .setFlag ht
  have ht2 : Evolves a t2 := .ite ht1 (.incFld ht1)
  exact .inert ht2

theorem Evolves.triadFrame (h : Evolves a s) : Evolves a s.triadFrame := by
  unfold State.triadFrame
  extract_lets s1 s2 t t1 _ t2
  have hs1 : Evolves a s1 := .heelStep h
  have hs2 : Evolves a s2 := .ite hs1 (.setFld hs1)
  have ht : Evolves a t := .ite (.setFld hs2) hs2
  have ht1 : Evolves a t1 := .setFlag ht
  have ht2 : Evolves a t2 := .ite (.setFlag ht1) ht1
  exact .inert ht2

theorem Evolves.sendStrobe (h : Evolves a s) : Evolves a s.sendStrobe := .sendFlit (.sendFree h)

theorem Evolves.boundaryEffects (h : Evolves a s) : Evolves a s.boundaryEffects := by
  unfold State.boundaryEffects
  extract_lets _ s1 t
  have hs1 : Evolves a s1 := .inert h
  have ht : Evolves a t := .refsApply (.enterHealed (.enterDegraded (.enterSafe hs1)))
  exact .ite ht (.qspiEffect ht)

theorem GoesTo.execFrameBoundary (h : Evolves a s) : GoesTo a (execFrameBoundary s) := by
  unfold Machine.execFrameBoundary
  refine .ite (.next h) ?_
  extract_lets e _ e1 _ e2 _ _ e3 _ t t1
  have he : Evolves a e := .finishFrame h
  have he1 : Evolves a e1 := .advance he
  have he2 : Evolves a e2 := .inert he1
  have he3 : Evolves a e3 := .signals (.returnRuns (.countBudget (.streamFrame (.latchSettings (.keepImage (.showStatuses
    (.releaseFrame he2)))))))
  have ht : Evolves a t := .fioSections (.bankSums (.triadFrame (.auxFrame (.closeImage (.countFrame he3)))))
  have ht1 : Evolves a t1 := .showForced (.latchTstat (.boundaryEffects ht))
  exact .next (.sendStrobe (.formBudget ht1))

/-! ### Machine/MemCtl.lean -/

theorem Evolves.declareHard (h : Evolves a s) {region w syn flags : Nat} : Evolves a (s.declareHard region w syn flags) := by
  unfold State.declareHard
  refine .ite h ?_
  extract_lets _ s1 t t1
  have hs1 : Evolves a s1 := .inert h
  have ht : Evolves a t := .setFlag (.satFld hs1)
  have ht1 : Evolves a t1 := .memRecord ht
  exact .ite (.inert ht1) ht1

theorem Evolves.putUpset (h : Evolves a s) {region w : Nat} {upset : BitVec 39} : Evolves a (s.putUpset region w upset) :=
  .ite h (.putRaw h)

theorem GoesTo.execCorrectionWriteBack (h : Evolves a s) {region : Fin 9} {addr : Nat} {upset : BitVec 39} :
    GoesTo a (execCorrectionWriteBack region addr upset s) := by
  unfold Machine.execCorrectionWriteBack
  extract_lets
  split
  · exact .next h
  · extract_lets t _ t1 t2
    have ht : Evolves a t := .putRaw h
    have ht1 : Evolves a t1 := .inert ht
    have ht2 : Evolves a t2 := .putUpset ht1
    exact .ite (.next ht2) (.next (.declareHard ht2))

theorem Evolves.scrubBad (h : Evolves a s) {r w : Nat} : Evolves a (s.scrubBad r w) :=
  .ite (.toSafe (.poisonMem (.memRecord (.countBad h)))) (.poisonMem (.memRecord (.countBad h)))

theorem GoesTo.execRowRetireComplete (h : Evolves a s) {region : Fin 9} : GoesTo a (execRowRetireComplete region s) := by
  unfold Machine.execRowRetireComplete
  extract_lets
  split
  · exact .next h
  · extract_lets t1 _ t2 t3
    have h1 : Evolves a t1 := by
      refine .foldl h fun t i ht => ?_
      dsimp only
      split
      · exact .putRaw ht
      · exact .scrubBad ht
      · exact ht
    have h3 : Evolves a t3 := .memRecord (.incFld (.inert h1))
    exact .ite (.next (.memRecord (.setFlag h3))) (.next h3)

theorem Evolves.scrubWord (h : Evolves a s) {r w : Nat} : Evolves a (s.scrubWord r w) := by
  unfold State.scrubWord
  extract_lets _ _ _ _ _ t t1 _ t2
  have ht : Evolves a t := .countCorrection h
  have ht1 : Evolves a t1 := .putRaw ht
  have ht2 : Evolves a t2 := .inert ht1
  split
  · exact h
  · exact .ite (.declareHard ht2) ht2
  · exact .scrubBad h
  · exact .countBad h

theorem GoesTo.execScrubStep (h : Evolves a s) {region : Fin 9} {upsets : List Upset} :
    GoesTo a (execScrubStep region upsets s) := by
  unfold Machine.execScrubStep
  extract_lets _ _ _ _ t t1 _ _ _ t2
  have ht : Evolves a t := .foldl h (fun _ _ ht => .ite (.putUpset ht) ht)
  have ht1 : Evolves a t1 := .foldl ht (fun _ _ ht => .ite (.scrubWord ht) ht)
  have ht2 : Evolves a t2 := .inert ht1
  exact .ite (.next h) (.ite (.next (.inert ht1)) (.next (.setFld (.incFld ht2))))

theorem GoesTo.execMergeBufferFlush (h : Evolves a s) {region : Fin 9} : GoesTo a (execMergeBufferFlush region s) := by
  unfold Machine.execMergeBufferFlush
  split
  · exact .next (.flushMerge h)
  · exact .next h

theorem Evolves.testWrite (h : Evolves a s) : Evolves a s.testWrite := .inert (.putRaw (.wrMem h))

theorem Evolves.testRead (h : Evolves a s) : Evolves a s.testRead := .wr (.wr h)

theorem Evolves.wrTctl (h : Evolves a s) {v : Word} : Evolves a (wrTctl v s) := by
  unfold Machine.wrTctl
  refine .ite h ?_
  extract_lets _ t t1
  have ht : Evolves a t := .setFld h
  have ht1 : Evolves a t1 := .ite (.testWrite ht) ht
  exact .ite ht (.ite (.testRead ht1) ht1)

/-! ### Machine/System.lean -/

theorem Evolves.deviceReset (h : Evolves a s) {cause req : Nat} : Evolves a (s.deviceReset cause req) := by
  unfold State.deviceReset
  extract_lets _ _ t
  have ht : Evolves a t := .setMaps h (Memory.wf_filter _ _) (swf_filter _ _ _) (fun _ => swf_nil _)
  exact .setFlag (.showFuses (.inert ht))

theorem Evolves.resetRecord (h : Evolves a s) : Evolves a s.resetRecord := .inert (.supRecord (.free h))

theorem Evolves.resetBy (h : Evolves a s) {cause req : Nat} : Evolves a (s.resetBy cause req) :=
  .ite (.resetRecord (.deviceReset h)) (.deviceReset h)

theorem Evolves.releaseDrops (h : Evolves a s) : Evolves a s.releaseDrops := .foldl (.wr h) (fun _ _ ht => .showBank ht)

theorem Evolves.supervisorOff (h : Evolves a s) : Evolves a s.supervisorOff := .putStore (.inert (.releaseDrops h))

theorem Evolves.keepLost (h : Evolves a s) : Evolves a s.keepLost := .inert h

theorem GoesTo.execPowerOn (h : Evolves a s) {retained : Bool} : GoesTo a (execPowerOn retained s) := by
  unfold Machine.execPowerOn
  extract_lets __src t t1
  have h__src : Evolves a __src := .supervisorOff h
  have ht : Evolves a t := .deviceReset (.inert h__src)
  have ht1 : Evolves a t1 := .inert ht
  exact .next (.ite ht1 (.keepLost ht1))

theorem Evolves.wrSysReset (h : Evolves a s) {p : Port} {v : Word} : Evolves a (wrSysReset p v s) := .ite (.resetBy h) h

theorem GoesTo.execClockStartComplete (h : Evolves a s) : GoesTo a (execClockStartComplete s) := by
  unfold Machine.execClockStartComplete
  split
  · exact .next (.judgeBanks (.inert h))
  · exact .next h

theorem GoesTo.execFillComplete (h : Evolves a s) {west east : Density} : GoesTo a (execFillComplete west east s) := by
  unfold Machine.execFillComplete
  refine .ite ?_ (.next h)
  extract_lets t1 _ t2 t3 t4 _ t5
  have h1 : Evolves a t1 := .ite (.linkTrained h) h
  have h2 : Evolves a t2 := .setMaps h1 (Memory.wf_filter _ _) id id
  have h4 : Evolves a t4 := .setFault (.setMode (.setFlag (.setFld (.setFld h2))))
  have h5 : Evolves a t5 := .inert h4
  exact .next (.ite (.beginWhole h5) h5)

theorem GoesTo.execSupervisorPowerUp (h : Evolves a s) {retained : Bool} : GoesTo a (execSupervisorPowerUp retained s) := by
  unfold Machine.execSupervisorPowerUp
  refine .ite (.next h) ?_
  extract_lets _ t
  have ht : Evolves a t := .inert (.ite h (.keepLost h))
  refine .ite (.next (.resetRecord (.ite (.setFlag ht) ht))) (.next (.resetRecord (.supPost (.setFlag (.setPtrs
    (.putStore ?_))))))
  exact .setMaps ht (Memory.wf_filter _ _) id id

/-! ### Machine/Regs.lean -/

theorem Evolves.opSysField (h : Evolves a s) {r : RegRow} {i j k : Nat} {p : Port} {v : Word} :
    Evolves a (opSysField r i j k p v s) := by
  unfold Machine.opSysField
  dsimp only
  exact .ite (.wrModeReq h) (.ite (.wrSysReset h) (.ite (.wrPwrPack h) (.ite (.wrPwrRef h) (.ite (.wrPwrTriad h) (.ite
    (.wrAfeLane h) (.ite (.wrAfeInj h) (.ite (.wrCnvCtrl h) (.ite (.wrCnvTrim h) (.ite (.wrCnvTrim h) (.ite (.wrAuxSet h)
    (.ite (.wrAuxCmp h) (.ite (.wrAuxGo h) (.ite (.wrAuxUrg h) (.ite (.wrDicfg h) (.ite (.wrDocfg h) (.ite (.wrFctl h)
    (.ite (.wrBdrop h) (.plain h))))))))))))))))))

theorem Evolves.opMeasure (h : Evolves a s) {r : RegRow} {i k : Nat} {p : Port} {v : Word} :
    Evolves a (opMeasure r i k p v s) := by
  unfold Machine.opMeasure
  dsimp only
  exact .ite (.wrDecLane h) (.ite (.wrThreshold h) (.ite (.wrThreshold h) (.ite (.wrSnfCmd h) (.ite (.wrMsrCfg h) (.ite
    (.placeHyper (.plain h)) (.ite (.wrIctrl h) (.ite (.wrSidx h) (.ite (.wrSdata h) (.ite (.wrScommit h) (.ite
    (.wrTwDcmd h) (.ite (.wrTwv h) (.ite (.wrHeel h) (.plain h)))))))))))))

theorem Evolves.wrHval (h : Evolves a s) {part i : Nat} {v : Word} : Evolves a (wrHval part i v s) := .inert (.wr h)

theorem Evolves.opService (h : Evolves a s) {r : RegRow} {i j k : Nat} {p : Port} {v : Word} :
    Evolves a (opService r i j k p v s) := by
  unfold Machine.opService
  dsimp only
  exact .ite (.wrFcmd h) (.ite (.wrHval h) (.ite (.wrRctrl h) (.ite (.wrTen h) (.ite (.wrStoreCtl h) (.ite
    (.wrStoreCtl h) (.ite (.wrReadPtr h) (.ite (.wrReadPtr h) (.ite (.wrTimFreq h) (.ite (.wrTimCmd h) (.ite
    (.wrPrxctl h) (.ite (.wrPtxctl h) (.ite (.freshWin (.plain h)) (.ite (.wrTctl h) (.ite (.wrLoadcmd h) (.ite
    (.wrFusecmd h) (.plain h))))))))))))))))

theorem Evolves.opQueue (h : Evolves a s) {r : RegRow} {q k addr : Nat} {v : Word} : Evolves a (opQueue r q k addr v s) := by
  unfold Machine.opQueue
  split
  · exact .wrRingCtl h
  · exact .plain h

theorem Evolves.regWrite (h : Evolves a s) {r : RegRow} {i j : Nat} {p : Port} {addr : Nat} {v : Word} :
    Evolves a (regWrite r i j p addr v s) := by
  unfold Machine.regWrite
  dsimp only
  split
  · exact .opSysField h
  · exact .opSysField h
  · exact .opSysField h
  · exact .opSysField h
  · exact .opSysField h
  · exact .opSysField h
  · exact .opMeasure h
  · exact .opMeasure h
  · exact .opMeasure h
  · exact .opMeasure h
  · exact .opMeasure h
  · exact .opMeasure h
  · split
    · exact .opQueue h
    · exact h
  · exact .opService h

theorem GoesTo.barWrite (h : Evolves a s) {p : Fin 4} {off : Nat} {v : Word} : GoesTo a (barWrite p off v s) := by
  unfold Machine.barWrite
  split
  · exact .bellRow h
  · exact .ite (.ite (.ite (.next (.emit (.setFlag (.wr h)))) (.next (.wr h))) (.next (.wr h))) (.next h)

theorem GoesTo.alignedWrite (h : Evolves a s) {p : Port} {addr : Nat} {v : Word} : GoesTo a (alignedWrite p addr v s) := by
  unfold Machine.alignedWrite
  refine .ite ?_ ?_
  · split
    · exact .barWrite h
    · exact .next h
  · split
    · exact .next h
    · dsimp only
      exact .ite (.next h) (.ite (.next (.hostError h (fun _ _ ht => .regWrite ht))) (.gate h (fun _ _ ht => .regWrite ht)))

theorem GoesTo.hostWrite (h : Evolves a s) {p : Port} {addr : Nat} {v : Word} {size : Nat} :
    GoesTo a (hostWrite p addr v size s) :=
  .ite (.alignedWrite h) (.ite (.alignedWrite (.free (.freeB h))) (.next (.free (.freeB h))))

theorem Evolves.setShadow (h : Evolves a s) {p : Port} {x : Shadow} : Evolves a (s.setShadow p x) := .inert h

theorem Evolves.readPair (h : Evolves a s) {p : Port} {lo addr : Nat} : Evolves a (s.readPair p lo addr).1 := by
  unfold State.readPair
  refine .iteFst (.setShadow h) ?_
  split
  · exact .iteFst (.setShadow h) h
  · exact h

theorem Evolves.latchTime (h : Evolves a s) {p : Port} : Evolves a (s.latchTime p).1 := .wr (.wr (.wr (.wr h)))

theorem Evolves.latchCapture (h : Evolves a s) {p : Port} {first n : Nat} : Evolves a (s.latchCapture p first n).1 :=
  .foldl h (fun _ _ ht => .wr ht)

theorem Evolves.regRead (h : Evolves a s) {r : RegRow} {i : Nat} {p : Port} {addr : Nat} :
    Evolves a (s.regRead r i p addr).1 := by
  unfold State.regRead
  dsimp only
  refine .iteFst (.latchTime h) ?_
  refine .iteFst ?_ ?_
  · split
    · exact .latchCapture h
    · exact h
  · refine .iteFst h ?_
    split
    · exact .readPair h
    · exact .iteFst (.foldl h (fun _ _ ht => .wr ht)) (.iteFst h (.iteFst h (.iteFst h (.iteFst h (.iteFst h h)))))

theorem Evolves.readOpen (h : Evolves a s) {r : RegRow} {i j : Nat} {p : Port} {addr : Nat} :
    Evolves a (s.readOpen r i j p addr).1 := by
  unfold State.readOpen
  extract_lets hide go
  have hgo : ∀ t, Evolves a t → Evolves a (go t).1 := fun t ht => .regRead ht
  split
  · exact hgo _ h
  · exact .iteFst h (.iteFst (.noteRead h) (hgo _ (.noteRead h)))

theorem Evolves.alignedRead (h : Evolves a s) {p : Port} {addr : Nat} : Evolves a (s.alignedRead p addr).1 := by
  unfold State.alignedRead
  refine .iteFst h ?_
  refine .iteFst h ?_
  refine .iteFst h ?_
  refine .iteFst h ?_
  split
  · exact h
  · exact .iteFst h (.readOpen h)

theorem Evolves.hostRead (h : Evolves a s) {p : Port} {addr size : Nat} : Evolves a (s.hostRead p addr size).1 :=
  .iteFst (.alignedRead h) (.free h)

theorem GoesTo.readRow (h : Evolves a s) {p : Port} {addr size : Nat} : GoesTo a (readRow p addr size s) :=
  .next (.inert (.hostRead h))

theorem Evolves.svcEnds (h : Evolves a s) {code : Nat} {crcError : Bool} : Evolves a (s.svcEnds code crcError) :=
  .ite (.satFld (.inert h)) (.inert h)

theorem Evolves.svcAnswer (h : Evolves a s) {rest : List Byte} : Evolves a (s.svcAnswer rest) := .emit h

theorem GoesTo.execSvcWrite (h : Evolves a s) {bytes : List Byte} : GoesTo a (execSvcWrite bytes s) := by
  unfold Machine.execSvcWrite
  refine .ite (.next h) ?_
  extract_lets t
  have ht : Evolves a t := .svcAnswer h
  exact .ite (.next (.svcEnds ht)) (.ite (.next (.svcEnds ht)) (.ite (.next (.svcEnds ht)) (.hostWrite (.svcEnds ht))))

theorem GoesTo.execSvcRead (h : Evolves a s) {bytes : List Byte} : GoesTo a (execSvcRead bytes s) := by
  unfold Machine.execSvcRead
  refine .ite (.next h) ?_
  extract_lets fill addr e code body answer t
  have he : Evolves a e.1 := .iteFst (.hostRead h) h
  have ht : Evolves a t := .svcAnswer h
  have answered : Evolves a { e.1 with sent := t.sent, rdata := e.2 } := ⟨⟨he.1.1, ht.1.2⟩, he.2⟩
  exact .ite (.next (.svcEnds (.svcAnswer h))) (.ite (.next (.svcEnds (.svcAnswer h)))
    (.ite (.next (.svcEnds ht)) (.next (.svcEnds answered))))

theorem GoesTo.execSvcUnknownOpcode (h : Evolves a s) {bytes : List Byte} : GoesTo a (execSvcUnknownOpcode bytes s) :=
  .ite (.next h) (.next (.svcEnds (.svcAnswer h)))

theorem GoesTo.execRegisterAccessFlit (h : Evolves a s) {bytes : List Byte} : GoesTo a (execRegisterAccessFlit bytes s) := by
  unfold Machine.execRegisterAccessFlit
  extract_lets e _ _ _ x __src _ t
  have he : Evolves a e.1 := .receive h
  have hx : Evolves a x.1 := .hostRead he
  have h__src : Evolves a __src := hx
  have ht : Evolves a t := .inert h__src
  exact .ite (.next he) (.ite (.hostWrite he) (.next (.sendFlit ht)))

theorem GoesTo.execRegisterResponseFlit (h : Evolves a s) {bytes : List Byte} : GoesTo a (execRegisterResponseFlit bytes s) :=
  .ite (.next (.receive h)) (.next (.inert (.receive h)))

/-! ### The step -/

/-- Whatever the command, the state it answers has evolved from the one it is given. -/
theorem GoesTo.exec (h : Evolves a s) (i : Instr) : GoesTo a (exec i s) := by
  cases i with
  | powerOn _ => exact .execPowerOn h
  | resetNAssert _ => exact .ite (.next (.resetBy (.inert h))) (.next h)
  | resetNRelease _ => exact .ite (.next h) (.next (.setFlag (.inert (.inert h))))
  | sysResetKey _ _ => exact .gate h (fun _ _ ht => .wrSysReset ht)
  | fillComplete _ _ => exact .execFillComplete h
  | rawFlitSend _ _ _ => exact .execRawFlitSend h
  | rawFlitReceive _ => exact .execRawFlitReceive h
  | frameStrobeReceive _ => exact .execFrameStrobeReceive h
  | statusFlitReceive _ => exact .execStatusFlitReceive h
  | outputCommand _ _ => exact .execOutputCommand h
  | registerAccessFlit _ => exact .execRegisterAccessFlit h
  | registerResponseFlit _ => exact .execRegisterResponseFlit h
  | kennelWriteFlit _ => exact .execKennelWriteFlit h
  | idleFlitReceive _ _ => exact .execIdleFlitReceive h
  | replayRequest _ _ => exact .execReplayRequest h
  | stageAFlitCheck _ _ => exact .execStageAFlitCheck h
  | linkWatchdogExpiry _ => exact .next (.linkDown h)
  | registerWrite _ _ _ => exact .hostWrite h
  | lowWordRead _ _ => exact .readRow h
  | highWordRead _ _ => exact .readRow h
  | ingressAgreement _ _ _ => exact .execIngressAgreement h
  | voterSelfTest _ _ => exact .execVoterSelfTest h
  | elementInstanceRun _ _ _ => exact .execElementInstanceRun h
  | zoneRun _ _ _ => exact .ite (.next h) (.next (.voted (.ranJob (.noteJob h)) (fun _ ht => .runZone ht)))
  | schemeTaskRun _ _ _ _ => exact .execSchemeTaskRun h
  | frameClosureJob _ _ _ => exact .next (.ite (.closeFrame h) h)
  | latentDivergenceSweep _ _ => exact .execLatentDivergenceSweep h
  | modeRequest _ _ => exact .gate h (fun _ _ ht => .wrModeReq ht)
  | pwrPackWrite _ _ => exact .gate h (fun _ _ ht => .wrPwrPack ht)
  | packStopComplete _ => exact .ite (.ite (.next (.packEnters (.packState (.setFlag h)))) (.next (.packState h))) (.next h)
  | pwrRefWrite _ _ => exact .gate h (fun _ _ ht => .wrPwrRef ht)
  | pwrTriadWrite _ _ => exact .gate h (fun _ _ ht => .wrPwrTriad ht)
  | afeLaneWrite _ _ _ => exact .execAfeLaneWrite h
  | laneSettingsApply _ => exact .execLaneSettingsApply h
  | afeInjWrite _ _ _ => exact .gate h (fun _ _ ht => .wrAfeInj ht)
  | injectionApply _ => exact .next (.showPend (.onDue h (fun _ _ ht => .ite (.holdInj ht) (.putInj ht))))
  | cnvTrimWrite _ _ _ _ _ => exact .execCnvTrimWrite h
  | trimApply _ => exact .execTrimApply h
  | cnvRestore _ _ _ => exact .gate h (fun _ _ ht => .wrCnvCtrl ht)
  | cnvCtrlWrite _ _ _ => exact .gate h (fun _ _ ht => .wrCnvCtrl ht)
  | offsetWindowEnd _ _ => exact .execOffsetWindowEnd h
  | gainWindowEnd _ _ _ => exact .execGainWindowEnd h
  | dllLock _ => exact .ite (.next (.setFlag (.ite h (.wr (.free h))))) (.next h)
  | skewMeasure _ => exact .execSkewMeasure h
  | dcLevelResult _ => exact .ite (.next (.modLane (.wr h))) (.next h)
  | integratorSettled _ => exact .next (.modLane h)
  | decLaneWrite _ _ _ => exact .execDecLaneWrite h
  | decLaneApply _ => exact .execDecLaneApply h
  | thresholdWrite _ _ _ _ => exact .execThresholdWrite h
  | thresholdApply _ => exact .execThresholdApply h
  | auxGo _ _ => exact .gate h (fun _ _ ht => .wrAuxGo ht)
  | auxCmpArm _ _ => exact .gate h (fun _ _ ht => .wrAuxCmp ht)
  | auxConversionDone _ => exact .execAuxConversionDone h
  | auxUrgentRequest _ _ => exact .gate h (fun _ _ ht => .wrAuxUrg ht)
  | supplyWindow _ => exact .execSupplyWindow h
  | surveyCommand _ _ => exact .gate h (fun _ _ ht => .wrSnfCmd ht)
  | sniffMeasurementStep _ => exact .execSniffMeasurementStep h
  | pdelayRespReceive _ _ _ _ _ _ _ => exact .next (.ite (.pdelayIn h) h)
  | pdelayTimeout _ => exact .ite (.next (.ite (.modPd h) (.pdelaySend h))) (.next h)
  | msrCfgWrite _ _ _ => exact .gate h (fun _ _ ht => .wrMsrCfg ht)
  | msrCfgApply _ => exact .next (.onDue (.onDue h (fun _ _ ht => .setFlag (.putMsrCfg ht))) (fun _ _ ht => .modBay ht))
  | msrFrameRead _ _ => exact .execMsrFrameRead h
  | harmonicAnalysis _ => exact .execHarmonicAnalysis h
  | synchrophasorReport _ => exact .execSynchrophasorReport h
  | pelSidxWrite _ _ => exact .gate h (fun _ _ ht => .wrSidx ht)
  | pelSdataWrite _ _ => exact .gate h (fun _ _ ht => .wrSdata ht)
  | settingCommit _ _ => exact .gate h (fun _ _ ht => .wrScommit ht)
  | settingCommitCheck _ => exact .execSettingCommitCheck h
  | pelHostBlock _ _ _ => exact .gate h (fun _ _ ht => .wrIctrl ht)
  | pelInstanceReset _ _ _ => exact .execPelInstanceReset h
  | rfloCaptureComplete _ => exact .execRfloCaptureComplete h
  | twDetection _ => exact .ite (.next h) (.next (.twEval h))
  | twBayRearm _ => exact .execTwBayRearm h
  | twArrivalRecord _ => exact .execTwArrivalRecord h
  | twCaptureComplete _ => exact .execTwCaptureComplete h
  | twDoubleEndedGo _ _ _ => exact .execTwDoubleEndedGo h
  | twDoubleEndedCheck _ => exact .next (.ite h (.setFlag (.onDue h (fun _ _ ht => .twCheck ht))))
  | heelRequest _ _ => exact .gate h (fun _ _ ht => .wrHeel ht)
  | heelProbationEnd _ _ => exact .execHeelProbationEnd h
  | ld _ => exact .execLd h
  | ldn _ => exact .execLdn h
  | and _ => exact .execAnd h
  | andn _ => exact .execAndn h
  | or _ => exact .execOr h
  | orn _ => exact .execOrn h
  | xor _ => exact .execXor h
  | st _ => exact .execSt h
  | stn _ => exact .execStn h
  | set _ => exact .execSet h
  | rst _ => exact .execRst h
  | rise _ => exact .execRise h
  | fall _ => exact .execFall h
  | ton _ => exact .execTon h
  | tof _ => exact .execTof h
  | tp _ => exact .execTp h
  | trst _ => exact .execTrst h
  | ctu _ => exact .execCtu h
  | ctd _ => exact .execCtd h
  | crs _ => exact .execCrs h
  | spt _ => exact .execSpt h
  | spv _ => exact .execSpv h
  | letT _ => exact .execLetT h
  | lcv _ => exact .execLcv h
  | ldf _ => exact .execLdf h
  | stf _ => exact .execStf h
  | addf _ => exact .execAddf h
  | subf _ => exact .execSubf h
  | mulf _ => exact .execMulf h
  | divf _ => exact .execDivf h
  | minf _ => exact .execMinf h
  | maxf _ => exact .execMaxf h
  | gtf _ => exact .execGtf h
  | gef _ => exact .execGef h
  | ltf _ => exact .execLtf h
  | lef _ => exact .execLef h
  | self _ => exact .execSelf h
  | ldk _ => exact .execLdk h
  | stk _ => exact .execStk h
  | addk _ => exact .execAddk h
  | subk _ => exact .execSubk h
  | mulk _ => exact .execMulk h
  | andk _ => exact .execAndk h
  | ork _ => exact .execOrk h
  | xork _ => exact .execXork h
  | gtk _ => exact .execGtk h
  | eqk _ => exact .execEqk h
  | ltk _ => exact .execLtk h
  | jmp _ => exact .execJmp h
  | jt _ => exact .execJt h
  | jf _ => exact .execJf h
  | forceSet _ _ _ => exact .gate h (fun _ _ ht => .wrFcmd ht)
  | forceRelease _ _ _ => exact .gate h (fun _ _ ht => .wrFcmd ht)
  | forceReleaseAll _ _ _ => exact .execForceReleaseAll h
  | forceCommandCheck _ => exact .execForceCommandCheck h
  | schemeSwap _ => exact .execSchemeSwap h
  | schemeCarryOver _ => exact .ite (.next (.modPart h)) (.next h)
  | recorderEnable _ _ _ => exact .rctrlRow h
  | recorderArm _ _ _ => exact .rctrlRow h
  | recorderStop _ _ _ => exact .rctrlRow h
  | hostTrigger _ _ _ => exact .rctrlRow h
  | recorderCommandEffect _ => exact .execRecorderCommandEffect h
  | triggerEdgeTenWrite _ _ _ => exact .execTriggerEdgeTenWrite h
  | recorderRowWrite _ => exact .next (.ite (.writeRows h) h)
  | recordingClose _ => exact .execRecordingClose h
  | segmentCopyDone _ => exact .next (.copySegs h)
  | recorderStopComplete _ => exact .execRecorderStopComplete h
  | runDelivered _ => exact .ite (.next (.enterArmed h)) (.next h)
  | trendCompressionSlice _ => exact .execTrendCompressionSlice h
  | logRecordWrite _ => exact .ite (.next (.writeStaged h)) (.next h)
  | storeFreeze _ => exact .execStoreFreeze h
  | storeUnfreeze _ => exact .execStoreUnfreeze h
  | freezeTimeout _ => exact .ite (.next (.setFlag (.thaw h))) (.next h)
  | storeClear _ => exact .execStoreClear h
  | readWindowLoad _ _ _ => exact .gate h (fun _ _ ht => .wrReadPtr ht)
  | readWindowReady _ => exact .execReadWindowReady h
  | timFreqWrite _ _ => exact .gate h (fun _ _ ht => .wrTimFreq ht)
  | timNsRead _ => exact .readRow h
  | captureFirstRead _ _ => exact .readRow h
  | phaseStep _ _ => exact .gate h (fun _ _ ht => .wrTimCmd ht)
  | slew _ _ => exact .gate h (fun _ _ ht => .wrTimCmd ht)
  | secondsLoad _ _ => exact .gate h (fun _ _ ht => .wrTimCmd ht)
  | ppsInEdge _ => exact .execPpsInEdge h
  | ethernetFrameReceive _ _ _ => exact .execEthernetFrameReceive h
  | ptpFifoPop _ _ _ => exact .gate h (fun _ _ ht => .wrPrxctl ht)
  | ptpTransmit _ _ _ => exact .gate h (fun _ _ ht => .wrPtxctl ht)
  | ptpTransmitDone _ => exact .execPtpTransmitDone h
  | pbLinkChange _ _ => exact .ite (.next h) (.next (.pbRecord (.satFld (.setFlag (.setFlag h)))))
  | prpDiscardExpiry _ => exact .next (.modPair h)
  | gooseRetransmit _ => exact .execGooseRetransmit h
  | gooseSubscriptionExpiry _ => exact .next (.expireSub h)
  | svStreamLoss _ => exact .ite (.next (.pbRecord (.satFld (.setFlag (.setFlag h))))) (.next h)
  | svStreamRestore _ => exact .ite (.next (.pbRecord (.setFlag (.setFlag h)))) (.next h)
  | bankStateChange _ _ => exact .execBankStateChange h
  | driverUndervoltage _ _ => exact .execDriverUndervoltage h
  | diDebouncedChange _ _ => exact .execDiDebouncedChange h
  | fastInputEdge _ _ _ => exact .execFastInputEdge h
  | fastInputPeriodOverflow _ => exact .ite (.next h) (.next (.setFlag (.wr h)))
  | fastInputClear _ _ _ => exact .gate h (fun _ _ ht => .wrFctl ht)
  | outputThermalShutdown _ _ => exact .execOutputThermalShutdown h
  | outputCurrentLimit _ _ _ => exact .execOutputCurrentLimit h
  | outputFaultChange _ _ _ _ _ => exact .execOutputFaultChange h
  | outputBlankingEnd _ => exact .execOutputBlankingEnd h
  | bankOvercurrent _ _ _ => exact .execBankOvercurrent h
  | bankDrop _ _ => exact .gate h (fun _ _ ht => .wrBdrop ht)
  | bankRelease _ _ => exact .gate h (fun _ _ ht => .wrBdrop ht)
  | commandDoorbell _ _ => exact .bellRow h
  | commandFetch _ _ => exact .ite (.next h) (.next (.noteHeldBack (.setFld (.setFld (.modPort h)))))
  | nop _ => exact .execNop h
  | pedigreeLoad _ => exact .execPedigreeLoad h
  | deltaLoad _ => exact .execDeltaLoad h
  | attest _ => exact .execAttest h
  | unusedOpcode _ => exact .execUnusedOpcode h
  | completionDoorbell _ _ => exact .bellRow h
  | recordQueueDoorbell _ _ _ => exact .execRecordQueueDoorbell h
  | queueEnable _ _ _ => exact .ringRow h
  | queueDisable _ _ _ => exact .ringRow h
  | dmaReadError _ => exact .next (.ite (.refuseLoad (.hostRecord (.setFlag h))) (.hostRecord (.setFlag h)))
  | portReset _ _ => exact .execPortReset h
  | portLinkUp _ _ _ _ => exact .execPortLinkUp h
  | svcWrite _ => exact .execSvcWrite h
  | svcRead _ => exact .execSvcRead h
  | correctionWriteBack _ _ _ => exact .execCorrectionWriteBack h
  | scrubStep _ _ => exact .execScrubStep h
  | rowRetireComplete _ => exact .execRowRetireComplete h
  | bucketLeak _ => exact .ite (.next h) (.next (.setFld (.inert h)))
  | mergeBufferFlush _ => exact .execMergeBufferFlush h
  | checkerTestWrite _ _ => exact .gate h (fun _ _ ht => .wrTctl ht)
  | checkerTestRead _ _ => exact .gate h (fun _ _ ht => .wrTctl ht)
  | qspiLoadCommand _ _ => exact .gate h (fun _ _ ht => .wrLoadcmd ht)
  | pedigreeReadDone _ _ _ => exact .execPedigreeReadDone h
  | fuseProgramSlot _ _ => exact .fuseRow h
  | fuseRevokeSlot _ _ => exact .fuseRow h
  | fuseAdvanceCounter _ _ => exact .fuseRow h
  | fuseOperationDone _ _ => exact .execFuseOperationDone h
  | svcUnknownOpcode _ => exact .execSvcUnknownOpcode h
  | supplyBelowThreshold => exact .next (.resetBy (.inert h))
  | clockStartComplete => exact .execClockStartComplete h
  | supervisorPowerUp _ => exact .execSupervisorPowerUp h
  | vddAoWarning => exact .next (.inert h)
  | frameBoundary => exact .execFrameBoundary h
  | commitUnit => exact .execCommitUnit h
  | budgetFlagChange => exact .execBudgetFlagChange h
  | gJobDeadlineMiss => exact .next (.ite (.inert (.missDeadline h)) h)
  | linkRetrainComplete => exact .ite (.next (.stopInjection (.post (.linkTrained h)))) (.next h)
  | admissionComplete => exact .execAdmissionComplete h
  | planSwap => exact .execPlanSwap h
  | queueService => exact .ite (.next h) (.next (.foldl (.inert h) (fun _ _ ht => .drainCpl ht)))
  | modeRequestEffect => exact .execModeRequestEffect h
  | standbyEntry => exact .execStandbyEntry h
  | packEnEffect => exact .next (.onDue h (fun _ _ ht => .foldl ht (fun _ _ hu => .packEnable hu)))
  | triadGateEffect => exact .next (.onDue h (fun _ _ ht => .triadEnable (.ite (.setFlag ht) ht)))
  | triadGateStop => exact .execTriadGateStop h
  | triadRestart => exact .execTriadRestart h
  | stageAOutput => exact .next (.ensureFormed h)
  | auxFrameTrigger => exact .ite (.next (.auxTrigger h)) (.next h)
  | auxCompareFire => exact .ite (.next (.ite (.auxTrigger (.setFlag (.auxArm h))) (.setFlag (.auxArm h)))) (.next (.auxArm h))
  | auxConfigApply => exact .execAuxConfigApply h
  | surveyCommandEffect => exact .execSurveyCommandEffect h
  | surveyItemEnd => exact .execSurveyItemEnd h
  | cableStepStart => exact .ite (.next (.modSniff (.foldl h (fun _ _ ht => .sniffTakes ht)))) (.next h)
  | cableStepEnd _ => exact .execCableStepEnd h
  | cableWaitTimeout => exact .ite (.next (.modSniff (.foldl h (fun _ _ ht => .putCable ht)))) (.next h)
  | surveyEnd => exact .execSurveyEnd h
  | settingsApply => exact .next (.showPending (.inert h))
  | twLocationSlice => exact .execTwLocationSlice h
  | twvConfigApply => exact .execTwvConfigApply h
  | heelCheck => exact .execHeelCheck h
  | heelCopyDone => exact .ite (.next (.latchTstat (.setFlag (.setFlag (.setFld h))))) (.next h)
  | mEnd => exact .execMEnd h
  | not => exact .execNot h
  | push => exact .execPush h
  | andp => exact .execAndp h
  | orp => exact .execOrp h
  | absf => exact .execAbsf h
  | negf => exact .execNegf h
  | sqrtf => exact .execSqrtf h
  | itof => exact .execItof h
  | ftoi => exact .execFtoi h
  | comtradeFormattingSlice => exact .execComtradeFormattingSlice h
  | eventSequence => exact .execEventSequence h
  | repeatRunTimeout => exact .ite (.next (.closeRun h)) (.next h)
  | kennelRecordWrite => exact .ite (.next (.writeStaged h)) (.next h)
  | phaseStepApply => exact .execPhaseStepApply h
  | slewStart => exact .execSlewStart h
  | slewComplete => exact .ite (.next (.endSlew h)) (.next h)
  | secondsLoadArm => exact .execSecondsLoadArm h
  | realignComplete => exact .ite (.next (.setFld (.setFlag h))) (.next h)
  | secondRollover => exact .ite (.next (.advance h)) (.next h)
  | tbNsWrap => exact .ite (.next (.advance h)) (.next h)
  | ppsOutPulse => exact .ite (.next (.advance h)) (.next h)
  | ppsInLoss => exact .ite (.next (.timeRecord (.setFlag h))) (.next h)
  | prpSupervisionTimer => exact .ite (.next h) (.next (.foldl h (fun _ _ ht => .ite (.modPair (.sendPair ht)) ht)))
  | fioConfigApply => exact .execFioConfigApply h
  | pedigreeVerifyDone => exact .execPedigreeVerifyDone h
  | stagingComplete => exact .execStagingComplete h
  | loadRefused => exact .execLoadRefused h
  | fuseCommandCheck => exact .execFuseCommandCheck h
  | attestReportDone => exact .execAttestReportDone h
  | supplyAboveThreshold => exact .ite (.next h) (.next (.inert (.inert h)))
  | supervisorStop => exact .next (.supervisorOff h)
  | vddAoWarningClear => exact .next (.inert h)
  | ppsOutPulseEnd => exact .ite (.next (.advance h)) (.next h)
  | sramZeroingComplete => exact .ite (.next (.setMaps h (Memory.wf_filter _ _) (swf_filter _ _ _) id)) (.next h)

/-- A step evolves from the state whose queue has lost its front. -/
theorem step_evolves (h : step s = .next t) : Evolves { s with pending := s.pending.tail } t := by
  unfold step at h
  split at h
  next e =>
    cases h
    obtain ⟨⟨hp, hs⟩, hc⟩ := Evolves.tick (.refl s)
    exact ⟨⟨hp.trans (by rw [e, List.tail_nil]), hs⟩, hc⟩
  next c rest e => exact e ▸ GoesTo.exec (.refl _) c t h

end

/-- Settles O3: every operation keeps the canonical form, so every command does, and the queue's front is no part of it. -/
theorem stepKeepsCanonical : Obligations.StepKeepsCanonical := by
  intro s t hs h
  exact (step_evolves h).2 hs

end Sys2Proof.Machine
end

section
/-!
The registers after reset. No register has been written, so each reads as `regReset` says.
-/
namespace Sys2Proof.Machine

/-- A word without data and check bits decodes without error. -/
theorem eccDecode_zero : eccDecode 0#32 0 = (.clean, 0#32) := by decide +kernel

theorem State.rawData_reset (r w : Nat) : State.reset.rawData r w = 0#32 := rfl

theorem State.rawCheck_reset (r w : Nat) : State.reset.rawCheck r w = 0 := rfl

/-- Memory is empty after reset, and an unlisted byte reads zero. -/
theorem State.rdMem_reset (r w : Nat) : State.reset.rdMem r w = (0#32, false) := by
  unfold State.rdMem
  rw [State.rawData_reset, State.rawCheck_reset, eccDecode_zero]
  rfl

/-- DEC_LANE lies below the coefficients of its block (R99), the one part of the block that resets to silicon's values. -/
theorem regReset_decLane {l : Nat} (hl : l < 384) : regReset (Reg.DEC_LANE l) = 0#32 := by
  have hb : (0x040000 + 0x4 * l) / 65536 = 4 := by omega
  have ha : (0x040000 + 0x4 * l) % 2 ^ 24 = 0x040000 + 0x4 * l := by omega
  have ht : ¬ (0x040000 + 0x4 * l) / 2 ^ 24 ≥ 9 := by omega
  have hv : 0x040000 + 0x4 * l ≠ Reg.SYS_VER := by unfold Reg.SYS_VER; omega
  have hp : 0x040000 + 0x4 * l ≠ Reg.HQ_PSTAT := by unfold Reg.HQ_PSTAT; omega
  have hc : ¬ (0x040000 + 0x4 * l ≥ 0x044000 ∧ 0x040000 + 0x4 * l < 0x044000 + 4 * 964) := by omega
  simp only [regReset, Reg.DEC_LANE, ha, if_neg ht, if_neg hv, if_neg hp, hb, if_neg hc]

theorem State.role_reset {l : Nat} (hl : l < 384) : (State.reset.lane l).role = l % 8 := by
  have h : State.reset.lanes = (List.range 384).map fun i => { role := i % 8 } := rfl
  simp [State.lane, nth, h, hl]

/-- Settles O8: every register reads as its reset value, memory and the lists are those of `State.reset`. -/
theorem resetValues : Obligations.ResetValues := by
  unfold Obligations.ResetValues
  refine ⟨rfl, rfl, rfl, rfl, rfl, ?_, rfl, rfl, rfl, rfl, rfl, rfl,
    fun l hl => ⟨regReset_decLane hl, State.role_reset hl⟩, State.rdMem_reset, rfl, rfl⟩
  decide

end Sys2Proof.Machine
end

section
/-!
Power states of packs (O13). What a pack's lanes and bays do as it enters or leaves ON touches neither the states of the packs
(`LaneWork`), and what is enabled for one pack does not touch another (`State.packView`).
-/
namespace Sys2Proof.Machine

/-! ### The work on lanes, bays and cables -/

/-- Work on lanes and bays: it leaves the states of the packs, and beside registers it changes lanes, bays and, where c is true, the
survey. -/
def LaneWork (c : Bool) (a t : State) : Prop :=
  t = { a with regs := t.regs, lanes := t.lanes, bays := t.bays, sniff := t.sniff } ∧ (c = false → t.sniff = a.sniff) ∧
  t.rd Reg.PWR_PACKSTAT = a.rd Reg.PWR_PACKSTAT

section
variable {c : Bool} {a s t : State}

theorem LaneWork.refl (c : Bool) (s : State) : LaneWork c s s := ⟨rfl, fun _ => rfl, rfl⟩

theorem LaneWork.ite {p : Prop} {_ : Decidable p} (hs : LaneWork c a s) (ht : LaneWork c a t) :
    LaneWork c a (if p then s else t) := by
  split
  · exact hs
  · exact ht

theorem LaneWork.foldl {β : Type} {f : State → β → State} {l : List β} (h : LaneWork c a s)
    (hf : ∀ t b, LaneWork c a t → LaneWork c a (f t b)) : LaneWork c a (l.foldl f s) := by
  induction l generalizing s with
  | nil => exact h
  | cons b l ih => exact ih (hf s b h)

theorem LaneWork.wr (h : LaneWork c a s) {k : Nat} {v : Word} (hk : Reg.PWR_PACKSTAT ≠ k) : LaneWork c a (s.wr k v) := by
  obtain ⟨he, hs, hr⟩ := h
  refine ⟨?_, hs, (State.rd_wr_other s v hk).trans hr⟩
  rw [he]
  rfl

theorem LaneWork.setFld (h : LaneWork c a s) {k hi lo v : Nat} (hk : Reg.PWR_PACKSTAT ≠ k) : LaneWork c a (s.setFld k hi lo v) :=
  .wr h hk

theorem LaneWork.setFlag (h : LaneWork c a s) {k n : Nat} {b : Bool} (hk : Reg.PWR_PACKSTAT ≠ k) :
    LaneWork c a (s.setFlag k n b) := .wr h hk

theorem LaneWork.modLane (h : LaneWork c a s) {l : Nat} {f : LaneSt → LaneSt} : LaneWork c a (s.modLane l f) := by
  obtain ⟨he, hs, hr⟩ := h
  refine ⟨?_, hs, hr⟩
  rw [he]
  rfl

theorem LaneWork.modBay (h : LaneWork c a s) {b : Nat} {f : BaySt → BaySt} : LaneWork c a (s.modBay b f) := by
  obtain ⟨he, hs, hr⟩ := h
  refine ⟨?_, hs, hr⟩
  rw [he]
  rfl

theorem LaneWork.modSniff (h : LaneWork true a s) {f : SniffSt → SniffSt} : LaneWork true a (s.modSniff f) := by
  obtain ⟨he, -, hr⟩ := h
  refine ⟨?_, nofun, hr⟩
  rw [he]
  rfl

theorem packstat_ne_afeLstat (l : Nat) : Reg.PWR_PACKSTAT ≠ Reg.AFE_LSTAT l := by unfold Reg.PWR_PACKSTAT Reg.AFE_LSTAT; omega

theorem packstat_ne_afeInj (l : Nat) : Reg.PWR_PACKSTAT ≠ Reg.AFE_INJ l := by unfold Reg.PWR_PACKSTAT Reg.AFE_INJ; omega

theorem packstat_ne_decLstat (l : Nat) : Reg.PWR_PACKSTAT ≠ Reg.DEC_LSTAT l := by unfold Reg.PWR_PACKSTAT Reg.DEC_LSTAT; omega

theorem packstat_ne_cnvStat (b : Nat) : Reg.PWR_PACKSTAT ≠ Reg.CNV_STAT b := by unfold Reg.PWR_PACKSTAT Reg.CNV_STAT; omega

theorem packstat_ne_cnvSkew (b l : Nat) : Reg.PWR_PACKSTAT ≠ Reg.CNV_SKEW b l := by unfold Reg.PWR_PACKSTAT Reg.CNV_SKEW; omega

theorem packstat_ne_cnvDcmeas (b l : Nat) : Reg.PWR_PACKSTAT ≠ Reg.CNV_DCMEAS b l := by
  unfold Reg.PWR_PACKSTAT Reg.CNV_DCMEAS; omega

theorem LaneWork.showPwr (h : LaneWork c a s) {l : Nat} : LaneWork c a (s.showPwr l) := .setFlag h (packstat_ne_afeLstat l)

theorem LaneWork.mark (h : LaneWork c a s) {l n : Nat} : LaneWork c a (s.mark l n) := .setFld h (packstat_ne_decLstat l)

theorem LaneWork.restartInt (h : LaneWork c a s) {l : Nat} : LaneWork c a (s.restartInt l) :=
  .ite (.setFld (.modLane h) (packstat_ne_decLstat l)) h

theorem LaneWork.voidSkew (h : LaneWork c a s) {l : Nat} : LaneWork c a (s.voidSkew l) :=
  .modLane (.setFlag h (packstat_ne_cnvSkew _ _))

theorem LaneWork.voidLevel (h : LaneWork c a s) {l : Nat} : LaneWork c a (s.voidLevel l) :=
  .modLane (.setFlag h (packstat_ne_cnvDcmeas _ _))

theorem LaneWork.showInj (h : LaneWork c a s) {l : Nat} {levelChanged : Bool} : LaneWork c a (s.showInj l levelChanged) := by
  unfold State.showInj
  extract_lets _ _ t _ t1 t2 t3
  have ht : LaneWork c a t := .setFld h (packstat_ne_afeLstat l)
  have ht1 : LaneWork c a t1 := .ite (.mark ht) ht
  have ht2 : LaneWork c a t2 := .ite (.restartInt ht1) ht1
  have ht3 : LaneWork c a t3 := .ite (.voidSkew ht2) ht2
  exact .ite (.voidLevel ht3) ht3

theorem LaneWork.takeHold (h : LaneWork c a s) {l : Nat} {v : Word} : LaneWork c a (s.takeHold l v) := by
  unfold State.takeHold
  extract_lets _ _ _ _ t t1 _ _ t2 t3 t4
  have ht : LaneWork c a t := .setFld (.setFld h (packstat_ne_afeLstat l)) (packstat_ne_afeLstat l)
  have ht1 : LaneWork c a t1 := .showPwr ht
  have ht2 : LaneWork c a t2 := .ite (.modLane (.mark ht1)) ht1
  have ht3 : LaneWork c a t3 := .ite (.modLane (.mark ht2)) ht2
  have ht4 : LaneWork c a t4 := .ite (.restartInt ht3) ht3
  exact .showInj ht4

theorem LaneWork.packEnters (h : LaneWork c a s) {p : Nat} : LaneWork c a (s.packEnters p) := by
  refine .foldl (.foldl h fun _ _ ht => .modBay ht) fun t i ht => ?_
  extract_lets l x t1 t2 t3 t4
  have h1 : LaneWork c a t1 := by
    unfold t1
    split
    · exact .takeHold (.modLane ht)
    · exact .showPwr ht
  have h2 : LaneWork c a t2 := .ite h1 (.modLane h1)
  have h3 : LaneWork c a t3 := .showInj h2
  exact .modLane (.ite h3 (.restartInt (.mark h3)))

theorem LaneWork.packLeaves (h : LaneWork c a s) {p : Nat} : LaneWork c a (s.packLeaves p) :=
  .foldl (.foldl h fun _ _ ht => .voidLevel (.voidSkew (.showInj (.showPwr ht)))) fun _ _ ht =>
    .setFld ht (packstat_ne_cnvStat _)

theorem LaneWork.putInj (h : LaneWork c a s) {l : Nat} {v : Word} : LaneWork c a (s.putInj l v) := .showInj (.modLane h)

theorem LaneWork.showPend (h : LaneWork c a s) {l : Nat} : LaneWork c a (s.showPend l) := .setFlag h (packstat_ne_afeInj l)

theorem LaneWork.sniffSwitch (h : LaneWork c a s) {l : Nat} : LaneWork c a (s.sniffSwitch l) := .ite h (.modLane h)

theorem LaneWork.sniffLeaves (h : LaneWork c a s) {l : Nat} : LaneWork c a (s.sniffLeaves l) := by
  unfold State.sniffLeaves
  refine .ite h ?_
  extract_lets t
  have ht : LaneWork c a t := .sniffSwitch (.showInj (.setFlag h (packstat_ne_afeLstat l)))
  split
  · exact .showPend (.putInj (.modLane (.setFlag ht (packstat_ne_afeInj l))))
  · exact ht

theorem LaneWork.cableLoses (h : LaneWork true a s) {l : Nat} : LaneWork true a (s.cableLoses l) :=
  .ite (.modSniff (.sniffLeaves (.modSniff h))) h

end

/-! ### The states of the packs (R70) -/

/-- What a write of PWR_PACK acts on for pack k: its state, the enabling it keeps while it stops, and its shutdown. -/
def State.packView (s : State) (k : Nat) : Nat × Bool × PackSt × Nat :=
  (s.pack k, s.flag Reg.PWR_PACKSTAT (4 * k + 2), nth {} s.run.packs k, s.run.packs.length)

/-- What an enabling or disabling of packs may change. -/
def PackWork (a t : State) : Prop :=
  t = { a with sniff := t.sniff, regs := t.regs, evl := t.evl, run := t.run, lanes := t.lanes, bays := t.bays }

theorem PackWork.refl (s : State) : PackWork s s := rfl

theorem packView_of_packstat {s t : State} (hr : t.rd Reg.PWR_PACKSTAT = s.rd Reg.PWR_PACKSTAT) (hp : t.run.packs = s.run.packs)
    (k : Nat) : t.packView k = s.packView k := by
  simp only [State.packView, State.pack, State.fld, State.flag, hr, hp]

theorem LaneWork.packView {c : Bool} {s t : State} (h : LaneWork c s t) (k : Nat) : t.packView k = s.packView k := by
  obtain ⟨he, -, hr⟩ := h
  refine packView_of_packstat hr ?_ k
  rw [he]

theorem LaneWork.packWork {c : Bool} {a s t : State} (h : PackWork a s) (hw : LaneWork c s t) : PackWork a t := by
  obtain ⟨he, -, -⟩ := hw
  unfold PackWork at h ⊢
  rw [he, h]

theorem rd_packState (s : State) (p st k : Nat) :
    (s.packState p st).rd k =
      if k = Reg.PWR_PACKSTAT then setField (s.rd Reg.PWR_PACKSTAT) (4 * p + 1) (4 * p) st else s.rd k := by
  unfold State.packState
  rw [State.powerRecord_rd, State.rd_setFld]

/-- A pack enters a state: it reads so, and keeps what it has kept. -/
theorem packView_packState (s : State) {p : Nat} (hp : p < 8) (st : Nat) :
    (s.packState p st).packView p = (st % 4, (s.packView p).2) := by
  have hw : 2 ^ (4 * p + 1 + 1 - 4 * p) = 4 := by rw [show 4 * p + 1 + 1 - 4 * p = 2 by omega]; rfl
  have hs : (s.packState p st).pack p = st % 4 := by
    rw [State.pack, State.fld, rd_packState, if_pos rfl, field_setField _ _ (by omega) (by omega), hw]
  have hf : (s.packState p st).flag Reg.PWR_PACKSTAT (4 * p + 2) = s.flag Reg.PWR_PACKSTAT (4 * p + 2) := by
    rw [State.flag, rd_packState, if_pos rfl, bit_setField _ _ _ (by omega) (by omega), if_neg (by omega), State.flag]
  rw [State.packView, hs, hf]
  rfl

theorem packView_packState_other (s : State) {p k : Nat} (hp : p < 8) (hk : k ≠ p) (st : Nat) :
    (s.packState p st).packView k = s.packView k := by
  have hs : (s.packState p st).pack k = s.pack k := by
    rw [State.pack, State.fld, rd_packState, if_pos rfl, field_setField_other _ _ (by omega) (by omega) (by omega),
      State.pack, State.fld]
  have hf : (s.packState p st).flag Reg.PWR_PACKSTAT (4 * k + 2) = s.flag Reg.PWR_PACKSTAT (4 * k + 2) := by
    rw [State.flag, rd_packState, if_pos rfl, bit_setField _ _ _ (by omega) (by omega), if_neg (by omega), State.flag]
  rw [State.packView, hs, hf]
  rfl

/-- A pack notes an enabling: it keeps its state. -/
theorem packView_setKept (s : State) {p : Nat} (hp : p < 8) (en : Bool) :
    (s.setFlag Reg.PWR_PACKSTAT (4 * p + 2) en).packView p = (s.pack p, en, (s.packView p).2.2) := by
  have hs : (s.setFlag Reg.PWR_PACKSTAT (4 * p + 2) en).pack p = s.pack p := by
    rw [State.pack, State.fld, State.rd_setFlag, if_pos rfl, field_setBit_other _ _ (by omega) (by omega), State.pack, State.fld]
  have hf : (s.setFlag Reg.PWR_PACKSTAT (4 * p + 2) en).flag Reg.PWR_PACKSTAT (4 * p + 2) = en := by
    rw [State.flag, State.rd_setFlag, if_pos rfl, bit_setBit _ _ _ (by omega), if_pos rfl]
  rw [State.packView, hs, hf]
  rfl

theorem packView_setKept_other (s : State) {p k : Nat} (hp : p < 8) (hk : k ≠ p) (en : Bool) :
    (s.setFlag Reg.PWR_PACKSTAT (4 * p + 2) en).packView k = s.packView k := by
  have hs : (s.setFlag Reg.PWR_PACKSTAT (4 * p + 2) en).pack k = s.pack k := by
    rw [State.pack, State.fld, State.rd_setFlag, if_pos rfl, field_setBit_other _ _ (by omega) (by omega), State.pack, State.fld]
  have hf : (s.setFlag Reg.PWR_PACKSTAT (4 * p + 2) en).flag Reg.PWR_PACKSTAT (4 * k + 2) =
      s.flag Reg.PWR_PACKSTAT (4 * k + 2) := by
    rw [State.flag, State.rd_setFlag, if_pos rfl, bit_setBit _ _ _ (by omega), if_neg (by omega), State.flag]
  rw [State.packView, hs, hf]
  rfl

theorem PackWork.packState {a s : State} (h : PackWork a s) (p st : Nat) : PackWork a (s.packState p st) := by
  unfold PackWork at h ⊢
  rw [h]
  rfl

theorem PackWork.setFlag {a s : State} (h : PackWork a s) (k n : Nat) (b : Bool) : PackWork a (s.setFlag k n b) := by
  unfold PackWork at h ⊢
  rw [h]
  rfl

/-- A pack that is disabled: it stops, and its lanes and cables lose what needs it ON. -/
def State.packStops (s : State) (p g : Nat) : State :=
  let t := s.packState p 2
  { t with run := { t.run with packs := modAt t.run.packs p (fun (_ : PackSt) => { stopAt := g }) } }

theorem PackWork.packStops {a s : State} (h : PackWork a s) (p g : Nat) : PackWork a (s.packStops p g) := by
  unfold PackWork at h ⊢
  rw [h]
  rfl

theorem packView_packStops (s : State) {p : Nat} (hp : p < 8) (g : Nat) :
    (s.packStops p g).packView p =
      (2, (s.packView p).2.1, nth {} (modAt s.run.packs p fun _ => { stopAt := g }) p, s.run.packs.length) := by
  obtain ⟨hs, hf⟩ := Prod.ext_iff.mp (packView_packState s hp 2)
  have hl : (s.packStops p g).run.packs.length = s.run.packs.length := List.length_modify ..
  rw [State.packView, hl]
  exact Prod.ext hs (Prod.ext (Prod.ext_iff.mp hf).1 rfl)

theorem packView_packStops_other (s : State) {p k : Nat} (hp : p < 8) (hk : k ≠ p) (g : Nat) :
    (s.packStops p g).packView k = s.packView k := by
  obtain ⟨hs, hf⟩ := Prod.ext_iff.mp (packView_packState_other s hp hk 2)
  have hl : (s.packStops p g).run.packs.length = s.run.packs.length := List.length_modify ..
  have hn : nth {} (s.packStops p g).run.packs k = nth {} s.run.packs k := nth_modAt_other _ _ _ hk
  rw [State.packView, hl, hn]
  exact Prod.ext hs (Prod.ext (Prod.ext_iff.mp hf).1 rfl)

theorem packEnable_of_off {s : State} {p : Nat} (h : s.pack p = 0) (en : Bool) (g : Nat) :
    s.packEnable p en g = if en then (s.packState p 1).packEnters p else s := by
  simp only [State.packEnable, h]

theorem packEnable_of_on {s : State} {p : Nat} (h : s.pack p = 1) (en : Bool) (g : Nat) :
    s.packEnable p en g = if en then s else
      (List.range 32).foldl (fun s i => s.cableLoses (32 * p + i)) ((s.packStops p g).packLeaves p) := by
  unfold State.packEnable
  rw [h]
  rfl

theorem packEnable_of_stopping {s : State} {p : Nat} (h0 : s.pack p ≠ 0) (h1 : s.pack p ≠ 1) (en : Bool) (g : Nat) :
    s.packEnable p en g = s.setFlag Reg.PWR_PACKSTAT (4 * p + 2) en := by
  unfold State.packEnable
  split
  · contradiction
  · contradiction
  · rfl

/-- A pack's lanes and cables as it leaves ON. -/
theorem LaneWork.leavesOn (s : State) (p g : Nat) :
    LaneWork true (s.packStops p g)
      ((List.range 32).foldl (fun s i => s.cableLoses (32 * p + i)) ((s.packStops p g).packLeaves p)) :=
  .foldl (.packLeaves (.refl true _)) fun _ _ ht => .cableLoses ht

/-- EN[p] takes effect on pack p alone. -/
theorem packView_packEnable_other (s : State) {p k : Nat} (hp : p < 8) (hk : k ≠ p) (en : Bool) (g : Nat) :
    (s.packEnable p en g).packView k = s.packView k := by
  by_cases h0 : s.pack p = 0
  · rw [packEnable_of_off h0]
    split
    · exact ((LaneWork.packEnters (.refl true _)).packView k).trans (packView_packState_other s hp hk 1)
    · rfl
  · by_cases h1 : s.pack p = 1
    · rw [packEnable_of_on h1]
      split
      · rfl
      · exact ((LaneWork.leavesOn s p g).packView k).trans (packView_packStops_other s hp hk g)
    · rw [packEnable_of_stopping h0 h1]
      exact packView_setKept_other s hp hk en

theorem PackWork.packEnable {a s : State} (h : PackWork a s) (p : Nat) (en : Bool) (g : Nat) : PackWork a (s.packEnable p en g) := by
  by_cases h0 : s.pack p = 0
  · rw [packEnable_of_off h0]
    split
    · exact (LaneWork.packEnters (.refl true _)).packWork (h.packState p 1)
    · exact h
  · by_cases h1 : s.pack p = 1
    · rw [packEnable_of_on h1]
      split
      · exact h
      · exact (LaneWork.leavesOn s p g).packWork (h.packStops p g)
    · rw [packEnable_of_stopping h0 h1]
      exact h.setFlag _ _ _

/-- What has become of a pack at whose boundary g an enabling was due (R70), by what was seen of it before. -/
def PackEnabled (x : Nat × Bool × PackSt × Nat) (k : Nat) (en : Bool) (g : Nat) (y : Nat × Bool × PackSt × Nat) : Prop :=
  (x.1 = 0 → y.1 = if en then 1 else 0) ∧
  (x.1 = 1 → y.1 = if en then 1 else 2) ∧
  (x.1 = 1 → en = false → y.2.2.1.stopAt = g ∨ x.2.2.2 ≤ k) ∧
  (x.1 = 2 → y.1 = 2 ∧ y.2.1 = en)

theorem packEnabled_packEnable (s : State) {p : Nat} (hp : p < 8) (en : Bool) (g : Nat) :
    PackEnabled (s.packView p) p en g ((s.packEnable p en g).packView p) := by
  have hx : (s.packView p).1 = s.pack p := rfl
  by_cases h0 : s.pack p = 0
  · rw [packEnable_of_off h0]
    cases en with
    | true =>
      have hv : (((s.packState p 1).packEnters p).packView p) = _ :=
        ((LaneWork.packEnters (.refl true _)).packView p).trans (packView_packState s hp 1)
      simp [PackEnabled, hx, h0, hv]
    | false => simp [PackEnabled, hx, h0]
  · by_cases h1 : s.pack p = 1
    · rw [packEnable_of_on h1]
      cases en with
      | true => simp [PackEnabled, hx, h1]
      | false =>
        have hv := ((LaneWork.leavesOn s p g).packView p).trans (packView_packStops s hp g)
        have hn : p < s.run.packs.length → nth {} (modAt s.run.packs p fun (_ : PackSt) => { stopAt := g }) p = ⟨g⟩ := fun h => by
          rw [nth_modAt _ _ _ _ _ h, if_pos rfl]
        rw [if_neg Bool.false_ne_true]
        simp only [PackEnabled, hx, h1, hv]
        refine ⟨nofun, fun _ => rfl, fun _ _ => ?_, nofun⟩
        by_cases h : p < s.run.packs.length
        · exact .inl (congrArg PackSt.stopAt (hn h))
        · exact .inr (Nat.le_of_not_lt h)
    · rw [packEnable_of_stopping h0 h1]
      have hv := packView_setKept s hp en
      simp [PackEnabled, hx, h0, h1, hv]

/-- A fold of which no step changes a view of the state leaves that view. -/
theorem foldl_view_other {α : Type} {f : State → Nat → State} {view : State → α} {l : List Nat}
    (hf : ∀ s, ∀ j ∈ l, view (f s j) = view s) (s : State) : view (l.foldl f s) = view s := by
  induction l generalizing s with
  | nil => rfl
  | cons j l ih =>
    exact (ih (fun s i hi => hf s i (List.mem_cons_of_mem j hi)) (f s j)).trans (hf s j List.mem_cons_self)

/-- Where only the step of k changes a view of the state, a fold does to the view what that step does. -/
theorem foldl_view {α : Type} {f : State → Nat → State} {view : State → α} {k : Nat} {l : List Nat}
    (hf : ∀ s, ∀ j ∈ l, j ≠ k → view (f s j) = view s) (hl : l.Nodup) (hk : k ∈ l) (s : State) :
    ∃ u, view u = view s ∧ view (l.foldl f s) = view (f u k) := by
  induction l generalizing s with
  | nil => contradiction
  | cons j l ih =>
    obtain ⟨hj, hl⟩ := List.nodup_cons.mp hl
    have hrest : ∀ s, ∀ i ∈ l, i ≠ k → view (f s i) = view s := fun s i hi => hf s i (List.mem_cons_of_mem j hi)
    by_cases e : j = k
    · subst e
      exact ⟨s, rfl, foldl_view_other (fun s i hi => hrest s i hi (fun he => hj (he ▸ hi))) (f s j)⟩
    · obtain ⟨u, hu, hv⟩ := ih hrest hl ((List.mem_cons.mp hk).resolve_left (Ne.symm e)) (f s j)
      exact ⟨u, hu.trans (hf s j List.mem_cons_self e), hv⟩

/-- A write of PWR_PACK that is due acts on each of the eight packs. -/
def State.packsEnable (s : State) (r : Req) : State := (List.range 8).foldl (fun s p => s.packEnable p (bit r.value p) r.due) s

theorem packEnabled_packsEnable (s : State) (r : Req) {p : Nat} (hp : p < 8) :
    PackEnabled (s.packView p) p (bit r.value p) r.due ((s.packsEnable r).packView p) := by
  obtain ⟨u, hu, hv⟩ := foldl_view (f := fun s j => s.packEnable j (bit r.value j) r.due) (view := fun s => s.packView p)
    (fun s j hj hne => packView_packEnable_other s (List.mem_range.mp hj) hne.symm _ _) List.nodup_range (List.mem_range.mpr hp) s
  have h := packEnabled_packEnable u hp (bit r.value p) r.due
  rw [hu, ← hv] at h
  exact h

theorem PackWork.foldl {β : Type} {a s : State} {f : State → β → State} {l : List β} (h : PackWork a s)
    (hf : ∀ t b, PackWork a t → PackWork a (f t b)) : PackWork a (l.foldl f s) := by
  induction l generalizing s with
  | nil => exact h
  | cons b l ih => exact ih (hf s b h)

theorem PackWork.packsEnable {a s : State} (h : PackWork a s) (r : Req) : PackWork a (s.packsEnable r) :=
  .foldl h fun _ _ ht => ht.packEnable _ _ _

/-! ### Writes of the power registers (R69) -/

theorem wrPwr_of_ped {s : State} (h : s.ped = true) (k : Nat) (rw : Word) (p : Port) (v : Word) :
    wrPwr k rw p v s = (s.plain k rw 0#32 v).placeAll k v p := by simp [wrPwr, h]

theorem State.waiting_placeAll (s : State) (k j : Nat) (v : Word) (p : Port) :
    (s.placeAll k v p).waiting j = if j = k then s.waiting k ++ [⟨(s.frame + 3) % 2 ^ 32, v, p⟩] else s.waiting j := sget_sset ..

/-- Where the first pedigree has been admitted, a write changes its register and waits beside those that wait. -/
theorem wrPwr_effect {s : State} (h : s.ped = true) {k : Nat} (hk : Reg.ENG_FRAME ≠ k) (rw : Word) (p : Port) (v : Word) :
    OnlyRequests [k] s (wrPwr k rw p v s) ∧ (wrPwr k rw p v s).rd k = ((s.rd k &&& ~~~rw) ||| (v &&& rw)) ∧
      (wrPwr k rw p v s).waiting k = s.waiting k ++ [⟨(s.frame + 3) % 2 ^ 32, v, p⟩] := by
  have hr (j : Nat) : (wrPwr k rw p v s).rd j = if j = k then ((s.rd k &&& ~~~rw) ||| (v &&& rw)) else s.rd j := by
    rw [wrPwr_of_ped h]
    have e := s.rd_plain k j rw 0#32 v
    rw [BitVec.zero_and, BitVec.or_zero] at e
    exact e
  have hw (j : Nat) : (wrPwr k rw p v s).waiting j =
      if j = k then s.waiting k ++ [⟨(s.frame + 3) % 2 ^ 32, v, p⟩] else s.waiting j := by
    rw [wrPwr_of_ped h, State.waiting_placeAll, State.frame, State.plain, State.rd_wr_other _ _ hk]
    rfl
  refine ⟨⟨?_, fun j hj => ?_, fun j hj => ?_⟩, ?_, ?_⟩
  · rw [wrPwr_of_ped h]
    rfl
  · rw [hr, if_neg (by simpa using hj)]
  · rw [hw, if_neg (by simpa using hj)]
  · rw [hr, if_pos rfl]
  · rw [hw, if_pos rfl]

theorem wrPwr_cases (s : State) {k : Nat} (hk : Reg.ENG_FRAME ≠ k) (rw : Word) (p : Port) (v : Word) :
    if s.ped = false then wrPwr k rw p v s = s
    else OnlyRequests [k] s (wrPwr k rw p v s) ∧ (wrPwr k rw p v s).rd k = ((s.rd k &&& ~~~rw) ||| (v &&& rw)) ∧
      (wrPwr k rw p v s).waiting k = s.waiting k ++ [⟨(s.frame + 3) % 2 ^ 32, v, p⟩] := by
  by_cases h : s.ped = false
  · rw [if_pos h]
    simp [wrPwr, h]
  · rw [if_neg h]
    exact wrPwr_effect (Bool.not_eq_false _ ▸ h) hk rw p v

theorem not_writable_of_not_cust {s : State} {p : Port} (h : s.isCust p = false) : s.writable p .engine .global = false := by
  simp [State.writable, State.right, h]

/-! ### The commands -/

theorem packStopComplete_answers (s : State) (k : Fin 8) :
    Answers (.packStopComplete k) s (fun t =>
      if s.pack k.val = 2 ∧ frameReached s.frame (((nth {} s.run.packs k.val).stopAt + 4) % 2 ^ 32) = true then
        t = { s with regs := t.regs, evl := t.evl, lanes := t.lanes, bays := t.bays } ∧
        t.pack k.val = (if s.flag Reg.PWR_PACKSTAT (4 * k.val + 2) then 1 else 0) ∧
        (∀ j, j < 8 → j ≠ k.val → t.pack j = s.pack j)
      else t = s) := by
  obtain ⟨k, hk⟩ := k
  have hi : exec (.packStopComplete ⟨k, hk⟩) s = execPackStopComplete ⟨k, hk⟩ s := rfl
  unfold execPackStopComplete at hi
  dsimp only at hi ⊢
  by_cases hd : s.pack k = 2 ∧ frameReached s.frame (((nth {} s.run.packs k).stopAt + 4) % 2 ^ 32) = true
  · rw [if_pos hd] at hi
    simp only [if_pos hd]
    by_cases hf : s.flag Reg.PWR_PACKSTAT (4 * k + 2) = true
    · rw [if_pos hf] at hi
      simp only [if_pos hf]
      have hw := LaneWork.packEnters (.refl false ((s.setFlag Reg.PWR_PACKSTAT (4 * k + 2) false).packState k 1)) (p := k)
      refine answers_of hi ⟨?_, ?_, fun j hj hne => ?_⟩
      · obtain ⟨he, hs, -⟩ := hw
        rw [he, hs rfl]
        rfl
      · exact (Prod.ext_iff.mp ((hw.packView k).trans (packView_packState _ hk 1))).1
      · exact (Prod.ext_iff.mp ((hw.packView j).trans
          ((packView_packState_other _ hk hne 1).trans (packView_setKept_other s hk hne false)))).1
    · rw [if_neg hf] at hi
      simp only [if_neg hf]
      refine answers_of hi ⟨rfl, ?_, fun j hj hne => ?_⟩
      · exact (Prod.ext_iff.mp (packView_packState s hk 0)).1
      · exact (Prod.ext_iff.mp (packView_packState_other s hk hne 0)).1
  · rw [if_neg hd] at hi
    simp only [if_neg hd]
    exact answers_of hi rfl

theorem State.onDue_packsEnable (s : State) :
    ∃ reqs, PackWork { s with reqs } (s.onDue Reg.PWR_PACK fun s r => s.packsEnable r) ∧
      reqs = sset (fun _ => []) s.reqs Reg.PWR_PACK ((s.waiting Reg.PWR_PACK).filter fun r => !frameReached s.frame r.due) :=
  ⟨_, .foldl (.refl _) fun _ r ht => ht.packsEnable r, rfl⟩

theorem packEnEffect_answers (s : State) (k : Fin 8) :
    Answers .packEnEffect s (fun t =>
      t = { s with reqs := t.reqs, sniff := t.sniff, regs := t.regs, evl := t.evl, run := t.run, lanes := t.lanes, bays := t.bays } ∧
      ReqsBut [Reg.PWR_PACK] s t ∧
      (s.waiting Reg.PWR_PACK = [] → t.regs = s.regs ∧ t.lanes = s.lanes) ∧
      ∀ r, s.waiting Reg.PWR_PACK = [r] → frameReached s.frame r.due = true →
        t.waiting Reg.PWR_PACK = [] ∧
        (s.pack k.val = 0 → t.pack k.val = if bit r.value k.val then 1 else 0) ∧
        (s.pack k.val = 1 → t.pack k.val = if bit r.value k.val then 1 else 2) ∧
        (s.pack k.val = 1 → bit r.value k.val = false → (nth {} t.run.packs k.val).stopAt = r.due ∨ s.run.packs.length ≤ k.val) ∧
        (s.pack k.val = 2 → t.pack k.val = 2 ∧ t.flag Reg.PWR_PACKSTAT (4 * k.val + 2) = bit r.value k.val)) := by
  have hi : exec .packEnEffect s = .next (s.onDue Reg.PWR_PACK fun s r => s.packsEnable r) := rfl
  obtain ⟨reqs, hw, hreqs⟩ := s.onDue_packsEnable
  have ht : (s.onDue Reg.PWR_PACK fun s r => s.packsEnable r).reqs = reqs := congrArg State.reqs hw
  refine answers_of hi ⟨?_, fun j hj => ?_, fun h => ?_, fun r h hr => ⟨?_, ?_⟩⟩
  · rw [ht]
    exact hw
  · have hne : j ≠ Reg.PWR_PACK := by simpa using hj
    rw [State.waiting, ht, hreqs, sget_sset, if_neg hne, State.waiting]
  · rw [State.onDue_nil _ _ _ h]
    exact ⟨rfl, rfl⟩
  · rw [State.waiting, ht, hreqs, sget_sset, if_pos rfl, h]
    simp [hr]
  · rw [State.onDue_one _ _ _ r h hr]
    exact packEnabled_packsEnable { s with reqs := sset (fun _ => []) s.reqs Reg.PWR_PACK [] } r k.isLt

/-- Settles O13: the writes by `wrPwr_cases`, a pack's stop by `packStopComplete_answers`, an enabling by `packEnabled_packsEnable`. -/
theorem packs : Obligations.Packs := by
  unfold Obligations.Packs
  refine ⟨fun s p v => ⟨fun i k rw rsv hi => ?_, not_writable_of_not_cust⟩,
    fun s k => ⟨packStopComplete_answers s k, packEnEffect_answers s k⟩⟩
  simp only [List.mem_cons, Prod.mk.injEq, List.not_mem_nil, or_false] at hi
  obtain ⟨rfl, rfl, rfl, rfl⟩ | ⟨rfl, rfl, rfl, rfl⟩ | ⟨rfl, rfl, rfl, rfl⟩ := hi
  · exact writeAnswers_of_gate rfl (wrPwr_cases s (by decide) _ p v)
  · exact writeAnswers_of_gate rfl (wrPwr_cases s (by decide) _ p v)
  · exact writeAnswers_of_gate rfl (wrPwr_cases s (by decide) _ p v)

end Sys2Proof.Machine
end

section
/-!
Accesses by address (O58): what a read and a write of an address come to, by the row of its register; the flits that carry them across
the link; the transactions of the service port.
-/
namespace Sys2Proof.Machine

section
variable (s : State) (p : Port)

/-! ### Reads of an address -/

theorem right_global_ne_zero : s.right p .global ≠ 0 := by
  unfold State.right
  dsimp only
  split
  · nofun
  · nofun

/-- A host error in a read gives a free word (R14, R15). -/
theorem hostRead_hostError {addr size : Nat} (h : addr % 4 ≠ 0 ∨ size ≠ 4) :
    s.hostRead p addr size = (s.free.2, some s.free.1) := by
  unfold State.hostRead
  rw [if_neg (by omega)]

theorem hostRead_aligned {addr : Nat} (h : addr % 4 = 0) : s.hostRead p addr 4 = s.alignedRead p addr := by
  unfold State.hostRead
  rw [if_pos ⟨h, rfl⟩]

/-- A read of a BAR0 offset outside the HQ block (R18-R20). -/
theorem hostRead_bar0 {addr : Nat} (h4 : addr % 4 = 0) (h : addr < 2 ^ 24) (hb : blockOf addr ≠ 17) :
    s.hostRead p addr 4 =
      if s.reaches p (addrReach addr) = false then (s, none)
      else match regRow addr with
        | none => (s, some 0#32)
        | some r =>
          if s.right p (s.addrScope r (r.index addr).1) = 0 then (s, some 0#32)
          else s.readOpen r (r.index addr).1 (r.index addr).2 p addr := by
  rw [hostRead_aligned s p h4]
  exact (if_neg (by omega)).trans ((if_neg (by omega)).trans (if_neg fun x => hb x.1))

/-- A register of global scope that is no window and hides no bits. -/
structure ReadsPlain (addr : Nat) (r : RegRow) : Prop where
  aligned : addr % 4 = 0
  below : addr < 2 ^ 24
  block : blockOf addr ≠ 17
  row : regRow addr = some r
  scope : ∀ s : State, s.addrScope r (r.index addr).1 = .global
  window : ∀ (s : State) p, s.winWord r (r.index addr).1 (r.index addr).2 p = none
  bdrop : r.base ≠ Reg.FIO_BDROP
  shown : (r.wo &&& ~~~r.rw) ||| rsvAt r (r.index addr).1 = 0#32

theorem hostRead_of_readsPlain {addr : Nat} {r : RegRow} (h : ReadsPlain addr r) (hr : s.reaches p (addrReach addr) = true) :
    s.hostRead p addr 4 =
      ((s.regRead r (r.index addr).1 p addr).1, some (s.regRead r (r.index addr).1 p addr).2) := by
  have hopen : s.readOpen r (r.index addr).1 (r.index addr).2 p addr =
      ((s.regRead r (r.index addr).1 p addr).1, some (s.regRead r (r.index addr).1 p addr).2) := by
    simp only [State.readOpen, h.window, if_neg h.bdrop, h.shown, BitVec.not_zero, BitVec.and_allOnes]
  rw [hostRead_bar0 s p h.aligned h.below h.block, if_neg (by simp [hr]), h.row]
  dsimp only
  rw [h.scope, if_neg (right_global_ne_zero s p), hopen]

/-! ### The registers that the accesses speak of -/

/-- SYS_TESTPAT (R13). -/
def testpatRow : RegRow := ⟨"SYS_TESTPAT", 0x000038, 1, 0, 1, 0, 0xFFFFFFFF#32, 0#32, 0#32, 0#32, 0#32⟩
/-- The two words of PWR_ODEF_TOT. -/
def odefLoRow : RegRow := ⟨"PWR_ODEF_TOT_LO", 0x010128, 1, 0, 1, 0, 0#32, 0#32, 0#32, 0#32, 0#32⟩
def odefHiRow : RegRow := ⟨"PWR_ODEF_TOT_HI", 0x01012C, 1, 0, 1, 0, 0#32, 0#32, 0#32, 0#32, 0#32⟩
/-- TIM_NS, and the first words of the captures (R316). -/
def timNsRow : RegRow := ⟨"TIM_NS", 0x0E0000, 1, 0, 1, 0, 0#32, 0#32, 0#32, 0#32, 0#32⟩
def ppsinRow : RegRow := ⟨"TIM_PPSIN_NS", 0x0E0064, 1, 0, 1, 0, 0#32, 0#32, 0#32, 0#32, 0#32⟩
def pegRow : RegRow := ⟨"TIM_PEG_NS", 0x0E0108, 4, 0x20, 1, 0, 0#32, 0#32, 0#32, 0#32, 0#32⟩
/-- FIO_DICFG (R349). -/
def dicfgRow : RegRow := ⟨"FIO_DICFG", 0x100000, 64, 0x4, 1, 0, 0x000301FF#32, 0#32, 0#32, 0#32, 0xFFFCFE00#32⟩

theorem readsPlain_testpat : ReadsPlain Reg.SYS_TESTPAT testpatRow :=
  ⟨rfl, by decide, by decide, rfl, fun _ => rfl, fun _ _ => rfl, by decide, by decide⟩

theorem readsPlain_odefLo : ReadsPlain Reg.PWR_ODEF_TOT_LO odefLoRow :=
  ⟨rfl, by decide, by decide, rfl, fun _ => rfl, fun _ _ => rfl, by decide, by decide⟩

theorem readsPlain_odefHi : ReadsPlain Reg.PWR_ODEF_TOT_HI odefHiRow :=
  ⟨rfl, by decide, by decide, rfl, fun _ => rfl, fun _ _ => rfl, by decide, by decide⟩

theorem readsPlain_timNs : ReadsPlain Reg.TIM_NS timNsRow :=
  ⟨rfl, by decide, by decide, rfl, fun _ => rfl, fun _ _ => rfl, by decide, by decide⟩

theorem readsPlain_ppsin : ReadsPlain Reg.TIM_PPSIN_NS ppsinRow :=
  ⟨rfl, by decide, by decide, rfl, fun _ => rfl, fun _ _ => rfl, by decide, by decide⟩

theorem readsPlain_peg (i : Fin 4) : ReadsPlain (Reg.TIM_PEG_NS i) pegRow := by
  have hrow : ∀ i : Fin 4, regRow (Reg.TIM_PEG_NS i) = some pegRow ∧ blockOf (Reg.TIM_PEG_NS i) ≠ 17 := by decide
  have hrsv (j : Nat) : rsvAt pegRow j = 0#32 := by simp [rsvAt, pegRow, Reg.DEC_LANE, Reg.DEC_LSTAT]
  refine ⟨?_, ?_, (hrow i).2, (hrow i).1, fun _ => rfl, fun _ _ => rfl, by decide, by rw [hrsv]; decide⟩
  · unfold Reg.TIM_PEG_NS; omega
  · unfold Reg.TIM_PEG_NS; omega

/-- A capture's first word: the words after it are latched (R316). -/
theorem regRead_capture {r : RegRow} {addr n : Nat} (hb : r.base ≠ Reg.TIM_NS)
    (hf : captures.find? (fun x => x.1 == addr) = some (addr, n)) (i : Nat) :
    s.regRead r i p addr = s.latchCapture p addr n := by
  have ha : captures.any (fun x => x.1 == addr) = true := by
    rw [List.any_eq_true]
    exact ⟨_, List.mem_of_find?_eq_some hf, by simp⟩
  simp only [State.regRead, if_neg hb, ha, hf, if_true]

/-- A word of a pair (R372). -/
theorem regRead_pair {r : RegRow} {addr lo : Nat} (hb : r.base ≠ Reg.TIM_NS) (hc : captures.any (fun x => x.1 == addr) = false)
    (ht : timShadowed addr = false) (hp : pairLow addr = some lo) (i : Nat) :
    s.regRead r i p addr = s.readPair p lo addr := by
  simp [State.regRead, hb, hc, ht, hp]

theorem regRead_timNs {r : RegRow} (hb : r.base = Reg.TIM_NS) (i addr : Nat) : s.regRead r i p addr = s.latchTime p := by
  simp only [State.regRead, if_pos hb]

theorem regRead_testpat (i : Nat) : s.regRead testpatRow i p Reg.SYS_TESTPAT = (s, s.rd Reg.SYS_TESTPAT) := by
  have hc : captures.any (fun x => x.1 == Reg.SYS_TESTPAT) = false := by decide
  have ht : timShadowed Reg.SYS_TESTPAT = false := by decide
  have hp : pairLow Reg.SYS_TESTPAT = none := by decide
  have hb : testpatRow.base = 0x38 := rfl
  have hk : ownKey p Reg.SYS_TESTPAT = Reg.SYS_TESTPAT := if_neg (by decide)
  have h7 : blockOf Reg.SYS_TESTPAT ≠ 7 := by decide
  simp [State.regRead, hc, ht, hp, hb, hk, h7, Reg.TIM_NS, Reg.MSR_FRAME, Reg.PEL_SDATA, Reg.SLX_VDATA, Reg.SLX_VIDX,
    Reg.SEC_DEVPUBHASH]

theorem regRead_odefLo (i : Nat) : s.regRead odefLoRow i p Reg.PWR_ODEF_TOT_LO =
    s.readPair p Reg.PWR_ODEF_TOT_LO Reg.PWR_ODEF_TOT_LO :=
  regRead_pair s p (by decide) (by decide) (by decide) (by decide) i

theorem regRead_odefHi (i : Nat) : s.regRead odefHiRow i p Reg.PWR_ODEF_TOT_HI =
    s.readPair p Reg.PWR_ODEF_TOT_LO Reg.PWR_ODEF_TOT_HI :=
  regRead_pair s p (by decide) (by decide) (by decide) (by decide) i

theorem regRead_ppsin (i : Nat) : s.regRead ppsinRow i p Reg.TIM_PPSIN_NS = s.latchCapture p Reg.TIM_PPSIN_NS 3 :=
  regRead_capture s p (by decide) (by decide) i

theorem regRead_peg (k : Fin 4) (i : Nat) :
    s.regRead pegRow i p (Reg.TIM_PEG_NS k) = s.latchCapture p (Reg.TIM_PEG_NS k) 4 := by
  have hf : ∀ k : Fin 4, captures.find? (fun x => x.1 == Reg.TIM_PEG_NS k) = some (Reg.TIM_PEG_NS k, 4) := by decide
  exact regRead_capture s p (by decide) (hf k) i

/-! ### What a read latches (R316, R372) -/

theorem portKey_inj (c a b : Nat) : portKey c a = portKey c b ↔ a = b := by
  unfold portKey
  omega

theorem shadow_setShadow (h : s.hq.shadows.length = 5) (x : Shadow) : (s.setShadow p x).shadow p = x := by
  have hc : portCode p < s.hq.shadows.length := by
    rw [h]
    unfold portCode
    split <;> omega
  rw [State.shadow, State.setShadow, nth_modAt _ _ _ _ _ hc, if_pos rfl]

theorem readPair_low (lo : Nat) : s.readPair p lo lo = (s.setShadow p (some (lo, s.rd (lo + 4))), s.rd lo) := if_pos rfl

theorem readPair_high {lo addr : Nat} {w : Word} (ha : addr ≠ lo) (h : s.shadow p = some (lo, w)) :
    s.readPair p lo addr = (s.setShadow p none, w) := by
  simp [State.readPair, ha, h]

theorem rd_setRdata (d : Option Word) (k : Nat) : ({ s with rdata := d } : State).rd k = s.rd k := rfl

/-- Writes of registers change registers only. -/
theorem foldl_wr_frame (l : List Nat) (key : Nat → Nat) (val : Nat → Word) :
    l.foldl (fun t i => t.wr (key i) (val i)) s = { s with regs := (l.foldl (fun t i => t.wr (key i) (val i)) s).regs } := by
  induction l using List.reverseRecOn with
  | nil => rfl
  | append_singleton l i ih =>
    rw [List.foldl_append, List.foldl_cons, List.foldl_nil]
    generalize l.foldl (fun t i => t.wr (key i) (val i)) s = u at ih
    rw [ih]
    rfl

/-- Writes of registers with different keys leave each what was written to it. -/
theorem rd_foldl_wr {n : Nat} (key : Nat → Nat) (val : Nat → Word) (hk : ∀ i j, key i = key j → i = j) {i : Nat} (hi : i < n) :
    ((List.range n).foldl (fun t i => t.wr (key i) (val i)) s).rd (key i) = val i := by
  induction n with
  | zero => omega
  | succ n ih =>
    rw [List.range_succ, List.foldl_append, List.foldl_cons, List.foldl_nil, State.rd_wr]
    by_cases e : i = n
    · rw [if_pos (congrArg key e), e]
    · rw [if_neg (fun x => e (hk _ _ x)), ih (by omega)]

theorem latchCapture_frame (first n : Nat) :
    (s.latchCapture p first n).1 = { s with regs := (s.latchCapture p first n).1.regs } := foldl_wr_frame ..

/-- The words after a capture's first stand in the port's shadow as they read. -/
theorem rd_latchCapture (first n : Nat) {i : Nat} (hi : i < n) :
    (s.latchCapture p first n).1.rd (portKey (portCode p) (first + 4 * (i + 1))) = s.rd (first + 4 * (i + 1)) := by
  refine rd_foldl_wr s (fun i => portKey (portCode p) (first + 4 * (i + 1))) (fun i => s.rd (first + 4 * (i + 1)))
    (fun i j h => ?_) hi
  rw [portKey_inj] at h
  omega

theorem rd_latchTime (k : Nat) :
    (s.latchTime p).1.rd (portKey (portCode p) k) =
      if k = Reg.TIM_WRAP then BitVec.ofNat 32 s.time.wrap
      else if k = Reg.TIM_SECHI then BitVec.ofNat 32 (s.time.sec / 2 ^ 32 % 2 ^ 16)
      else if k = Reg.TIM_SECLO then BitVec.ofNat 32 s.time.sec
      else if k = Reg.TIM_NSEC then BitVec.ofNat 32 s.time.nsec
      else s.rd (portKey (portCode p) k) := by
  simp only [State.latchTime, State.rd_wr, portKey_inj]

theorem latchTime_snd : (s.latchTime p).2 = BitVec.ofNat 32 s.time.tbNs := by simp only [State.latchTime]

theorem latchTime_time : (s.latchTime p).1.time = s.time :=
  (State.wr_time ..).trans ((State.wr_time ..).trans ((State.wr_time ..).trans (State.wr_time ..)))

theorem rd_latchTime_nsec : (s.latchTime p).1.rd (portKey (portCode p) Reg.TIM_NSEC) = BitVec.ofNat 32 s.time.nsec := by
  rw [rd_latchTime, if_neg (by decide), if_neg (by decide), if_neg (by decide), if_pos rfl]

theorem rd_latchTime_seclo : (s.latchTime p).1.rd (portKey (portCode p) Reg.TIM_SECLO) = BitVec.ofNat 32 s.time.sec := by
  rw [rd_latchTime, if_neg (by decide), if_neg (by decide), if_pos rfl]

theorem rd_latchTime_wrap : (s.latchTime p).1.rd (portKey (portCode p) Reg.TIM_WRAP) = BitVec.ofNat 32 s.time.wrap := by
  rw [rd_latchTime, if_pos rfl]

end

/-! ### Who reaches what -/

theorem reaches_congr {s t : State} (hp : t.phase = s.phase) (hl : t.link = s.link) (hs : t.sup = s.sup)
    (hr : t.rd Reg.SYS_STAT = s.rd Reg.SYS_STAT) (p : Port) (rc : Reach) : t.reaches p rc = s.reaches p rc := by
  simp only [State.reaches, State.linkUp, State.flag, hp, hl, hs, hr]

/-! ### The read rows -/

section
variable {s u : State} {p : Port} {i : Instr} {d : Option Word} {P : State → Prop}

theorem answers_of_hostRead {addr size : Nat} (hi : exec i s = readRow p addr size s) (he : s.hostRead p addr size = (u, d))
    (h : P { u with rdata := d }) : Answers i s P := by
  refine answers_of hi ?_
  rw [he]
  exact h

/-- Reads of a low word and of a high word are the same row by address. -/
theorem exec_wordRead {addr size : Nat} (h : i ∈ [Instr.lowWordRead p ⟨addr, size⟩, .highWordRead p ⟨addr, size⟩]) :
    exec i s = readRow p addr size s := by
  simp only [List.mem_cons, List.not_mem_nil, or_false] at h
  obtain rfl | rfl := h
  · rfl
  · rfl

theorem wordRead_hostError {addr size : Nat} (hi : i ∈ [Instr.lowWordRead p ⟨addr, size⟩, .highWordRead p ⟨addr, size⟩])
    (h : addr % 4 ≠ 0 ∨ size ≠ 4) :
    Answers i s (fun t => t = { s with rdata := t.rdata, freeIx := t.freeIx } ∧ t.rdata.isSome = true) :=
  answers_of_hostRead (exec_wordRead hi) (hostRead_hostError s p h) ⟨rfl, rfl⟩

theorem wordRead_unreached {addr : Nat} (hi : i ∈ [Instr.lowWordRead p ⟨addr, 4⟩, .highWordRead p ⟨addr, 4⟩])
    (h : addr < 2 ^ 24) (h4 : addr % 4 = 0) (hb : blockOf addr ≠ 17) (hr : s.reaches p (addrReach addr) = false) :
    Answers i s (fun t => t = { s with rdata := none }) :=
  answers_of_hostRead (exec_wordRead hi) ((hostRead_bar0 s p h4 h hb).trans (if_pos hr)) rfl

theorem wordRead_undefined {addr : Nat} (hi : i ∈ [Instr.lowWordRead p ⟨addr, 4⟩, .highWordRead p ⟨addr, 4⟩])
    (h : addr < 2 ^ 24) (h4 : addr % 4 = 0) (hb : blockOf addr ≠ 17) (hr : s.reaches p (addrReach addr) = true)
    (hn : regRow addr = none) : Answers i s (fun t => t = { s with rdata := some 0#32 }) := by
  have he := hostRead_bar0 s p h4 h hb
  rw [if_neg (by simp [hr]), hn] at he
  exact answers_of_hostRead (exec_wordRead hi) he rfl

/-- The low word of PWR_ODEF_TOT latches the high word, whatever becomes of that register meanwhile (R372). -/
theorem odefRead_latches (hr : s.reaches p .engine = true) (hl : s.hq.shadows.length = 5) :
    Answers (.lowWordRead p ⟨Reg.PWR_ODEF_TOT_LO, 4⟩) s (fun t =>
      t = { s with rdata := some (s.rd Reg.PWR_ODEF_TOT_LO), hq := t.hq } ∧
      ∀ v, Answers (.highWordRead p ⟨Reg.PWR_ODEF_TOT_HI, 4⟩) (t.wr Reg.PWR_ODEF_TOT_HI v) (fun u =>
        u.rdata = some (s.rd Reg.PWR_ODEF_TOT_HI))) := by
  have he : s.hostRead p Reg.PWR_ODEF_TOT_LO 4 = (s.setShadow p (some (Reg.PWR_ODEF_TOT_LO, s.rd Reg.PWR_ODEF_TOT_HI)),
      some (s.rd Reg.PWR_ODEF_TOT_LO)) := by
    rw [hostRead_of_readsPlain s p readsPlain_odefLo hr, regRead_odefLo, readPair_low]
    rfl
  refine answers_of_hostRead rfl he ⟨rfl, fun v => ?_⟩
  generalize ht : State.wr _ Reg.PWR_ODEF_TOT_HI v = t
  have hrt : t.reaches p .engine = true := by
    have hne : Reg.SYS_STAT ≠ Reg.PWR_ODEF_TOT_HI := by decide
    have hst : t.rd Reg.SYS_STAT = s.rd Reg.SYS_STAT := by
      subst ht
      exact State.rd_wr_other _ v hne
    refine (reaches_congr (s := s) ?_ ?_ ?_ hst p .engine).trans hr
    · subst ht; rfl
    · subst ht; rfl
    · subst ht; rfl
  have hs : t.shadow p = some (Reg.PWR_ODEF_TOT_LO, s.rd Reg.PWR_ODEF_TOT_HI) := by
    subst ht
    exact shadow_setShadow s p hl _
  have hh := hostRead_of_readsPlain t p readsPlain_odefHi hrt
  rw [regRead_odefHi, readPair_high t p (by decide) hs] at hh
  exact answers_of_hostRead rfl hh rfl

theorem timNsRead_latches (hr : s.reaches p .engine = true) :
    Answers (.timNsRead p) s (fun t =>
      t.rdata = some (BitVec.ofNat 32 s.time.tbNs) ∧ t.time = s.time ∧
      t.rd (portKey (portCode p) Reg.TIM_NSEC) = BitVec.ofNat 32 s.time.nsec ∧
      t.rd (portKey (portCode p) Reg.TIM_SECLO) = BitVec.ofNat 32 s.time.sec ∧
      t.rd (portKey (portCode p) Reg.TIM_WRAP) = BitVec.ofNat 32 s.time.wrap) := by
  have he := hostRead_of_readsPlain s p readsPlain_timNs hr
  rw [regRead_timNs s p rfl] at he
  exact answers_of_hostRead rfl he ⟨congrArg some (latchTime_snd s p), latchTime_time s p, (rd_setRdata ..).trans (rd_latchTime_nsec s p),
    (rd_setRdata ..).trans (rd_latchTime_seclo s p), (rd_setRdata ..).trans (rd_latchTime_wrap s p)⟩

theorem captureFirstRead_latches (hr : s.reaches p .engine = true) :
    Answers (.captureFirstRead p 0) s (fun t =>
      t.rdata = some (s.rd Reg.TIM_PPSIN_NS) ∧
      ∀ i, i < 3 → t.rd (portKey (portCode p) (Reg.TIM_PPSIN_NS + 4 * (i + 1))) = s.rd (Reg.TIM_PPSIN_NS + 4 * (i + 1))) := by
  have he := hostRead_of_readsPlain s p readsPlain_ppsin hr
  rw [regRead_ppsin] at he
  exact answers_of_hostRead rfl he ⟨rfl, fun i hi => (rd_setRdata ..).trans (rd_latchCapture s p _ _ hi)⟩

/-- A read of a capture's first word changes registers only. -/
theorem captureRead_frame {addr n : Nat} {r : RegRow} (h : ReadsPlain addr r)
    (hc : ∀ j, s.regRead r j p addr = s.latchCapture p addr n) (hi : exec i s = readRow p addr 4 s) :
    Answers i s (fun t => t = { s with regs := t.regs, rdata := t.rdata }) := by
  by_cases hr : s.reaches p (addrReach addr) = true
  · have he := hostRead_of_readsPlain s p h hr
    rw [hc, latchCapture_frame] at he
    exact answers_of_hostRead hi he rfl
  · have he := hostRead_bar0 s p h.aligned h.below h.block
    rw [if_pos (Bool.not_eq_true _ ▸ hr)] at he
    exact answers_of_hostRead hi he rfl

theorem captureFirstRead_frame (src : Fin 5) :
    Answers (.captureFirstRead p src) s (fun t => t = { s with regs := t.regs, rdata := t.rdata }) := by
  by_cases h0 : src.val = 0
  · have hi : exec (.captureFirstRead p src) s = readRow p Reg.TIM_PPSIN_NS 4 s := by
      show readRow p (if src.val = 0 then _ else _) 4 s = _
      rw [if_pos h0]
    exact captureRead_frame readsPlain_ppsin (regRead_ppsin s p) hi
  · have hk : src.val - 1 < 4 := by omega
    have hi : exec (.captureFirstRead p src) s = readRow p (Reg.TIM_PEG_NS (src.val - 1)) 4 s := by
      show readRow p (if src.val = 0 then _ else _) 4 s = _
      rw [if_neg h0]
    exact captureRead_frame (readsPlain_peg ⟨_, hk⟩) (regRead_peg s p ⟨_, hk⟩) hi

end

/-! ### Writes of an address -/

section
variable (s : State) (p : Port)

theorem gate_goesOn (rc : Reach) (sc : Scope) (rsv : Word) (addr : Nat) (v : Word) (op : Word → State → State) :
    ∃ t, gate s p rc sc rsv addr v op = .next t := by
  unfold gate
  split
  · exact ⟨_, rfl⟩
  · split
    · exact ⟨_, rfl⟩
    · exact ⟨_, rfl⟩

theorem barWrite_goesOn (q : Fin 4) (off : Nat) (v : Word) : ∃ t, barWrite q off v s = .next t := by
  unfold barWrite
  split
  · exact gate_goesOn ..
  · dsimp only
    split_ifs <;> exact ⟨_, rfl⟩

theorem alignedWrite_goesOn (addr : Nat) (v : Word) : ∃ t, alignedWrite p addr v s = .next t := by
  unfold alignedWrite
  split
  · split
    · exact barWrite_goesOn ..
    · exact ⟨_, rfl⟩
  · split
    · exact ⟨_, rfl⟩
    · dsimp only
      split_ifs
      · exact ⟨_, rfl⟩
      · exact ⟨_, rfl⟩
      · exact gate_goesOn ..

theorem hostWrite_goesOn (addr : Nat) (v : Word) (size : Nat) : ∃ t, hostWrite p addr v size s = .next t := by
  unfold hostWrite
  split
  · exact alignedWrite_goesOn ..
  · dsimp only
    split
    · exact alignedWrite_goesOn ..
    · exact ⟨_, rfl⟩

theorem hostWrite_aligned {addr : Nat} (h : addr % 4 = 0) (v : Word) : hostWrite p addr v 4 s = alignedWrite p addr v s :=
  if_pos ⟨h, rfl⟩

theorem hostWrite_undefined {addr : Nat} (h4 : addr % 4 = 0) (h : addr < 2 ^ 24) (hn : regRow addr = none) (v : Word) :
    hostWrite p addr v 4 s = .next s := by
  rw [hostWrite_aligned s p h4]
  unfold alignedWrite
  rw [if_neg (by omega), hn]

/-- A write of a register outside the HQ block and the windows of the rings is the gate before its action. -/
theorem hostWrite_bar0 {addr : Nat} {r : RegRow} (h4 : addr % 4 = 0) (h : addr < 2 ^ 24) (hb : blockOf addr ≠ 17)
    (hw : winRing addr = none) (hr : regRow addr = some r) (v : Word) :
    hostWrite p addr v 4 s = gate s p (addrReach addr) (s.addrScope r (r.index addr).1) (rsvAt r (r.index addr).1) addr v
      (regWrite r (r.index addr).1 (r.index addr).2 p addr) := by
  have hl : s.liveRing p addr = false := by
    unfold State.liveRing
    rw [hw]
    cases p <;> rfl
  rw [hostWrite_aligned s p h4]
  unfold alignedWrite
  rw [if_neg (by omega), hr]
  dsimp only
  rw [if_neg (fun x => hb x.1), if_neg (by simp [hl])]

/-- A host error in a write to what is not the port's alone is lost (R14, R15). -/
theorem hostWrite_hostError {addr size : Nat} (h : addr % 4 ≠ 0 ∨ size ≠ 4) (hc : s.confined p (s.scopeAt addr) addr = false)
    (v : Word) : hostWrite p addr v size s = .next { s with freeIx := s.freeIx + 2 } := by
  unfold hostWrite
  rw [if_neg (by omega)]
  simp only [hc, Bool.and_false, Bool.false_eq_true, if_false]
  rfl

theorem hostWrite_testpat (v : Word) :
    hostWrite p Reg.SYS_TESTPAT v 4 s = gate s p .engine .global 0#32 Reg.SYS_TESTPAT v
      (fun v s => s.plain Reg.SYS_TESTPAT 0xFFFFFFFF#32 0#32 v) :=
  hostWrite_bar0 s p rfl (by decide) (by decide) (by decide) readsPlain_testpat.row v

theorem hostWrite_dicfg (v : Word) :
    hostWrite p (Reg.FIO_DICFG 0) v 4 s =
      gate s p .field (.owned (s.din 0).owner) 0xFFFCFE00#32 (Reg.FIO_DICFG 0) v (wrDicfg 0 p) :=
  hostWrite_bar0 (r := dicfgRow) s p rfl (by decide) (by decide) (by decide) (by decide) v

/-- SYS_TESTPAT takes every bit of a write (R13). -/
theorem rd_plain_testpat (v : Word) : (s.plain Reg.SYS_TESTPAT 0xFFFFFFFF#32 0#32 v).rd Reg.SYS_TESTPAT = v := by
  have hall : 0xFFFFFFFF#32 = BitVec.allOnes 32 := rfl
  rw [State.rd_plain, if_pos rfl, BitVec.zero_and, BitVec.or_zero, hall, BitVec.not_allOnes, BitVec.and_zero, BitVec.zero_or,
    BitVec.and_allOnes]

theorem plain_onlyRegs (k : Nat) (rw w1c v : Word) : OnlyRegs [k] s (s.plain k rw w1c v) := by
  refine ⟨rfl, fun j hj => ?_⟩
  rw [State.rd_plain, if_neg (by simpa using hj)]

theorem wrDicfg_effect (n : Nat) (v : Word) :
    OnlyRequests [Reg.FIO_DICFG n] s (wrDicfg n p v s) ∧ (wrDicfg n p v s).rd (Reg.FIO_DICFG n) = v := by
  refine ⟨⟨rfl, fun j hj => ?_, fun j hj => ?_⟩, State.rd_wr_self s _ v⟩
  · exact State.rd_wr_other s v (by simpa using hj)
  · rw [wrDicfg, State.waiting_placeEach, if_neg (by simpa using hj)]
    rfl

/-! ### Accesses across the link (R20, R27, R29) -/

/-- A flit is delivered where the die takes it. -/
theorem receive_snd (d : Die) (bs : List Byte) : (s.receive d bs).2 = s.takesFlit d bs := by
  unfold State.receive State.takesFlit
  dsimp only
  generalize s.linkEnd d = x
  cases hu : x.up
  · rfl
  · cases hf : flitOk bs
    · rfl
    · by_cases hw : x.waiting = true ∧ x.resent = false
      · simp [hw]
      · have hw' : (!x.waiting || x.resent) = true := by
          simpa [imp_iff_not_or] using hw
        cases hq : flitUnsequenced bs
        · by_cases hs : flitSeq bs = (x.rxLast + 1) % 4096
          · simp [hw, hw', hs]
          · by_cases ho : flitOld x.rxLast (flitSeq bs) = true
            · simp [hw, hw', hs, ho]
            · simp [hw, hw', hs, ho]
        · simp [hw, hw']

end

/-- The link is as it was. -/
def LinkKept (a t : State) : Prop := t.link = a.link

section
variable {a s t : State}

theorem LinkKept.ite {p : Prop} {_ : Decidable p} (hs : LinkKept a s) (ht : LinkKept a t) : LinkKept a (if p then s else t) := by
  split
  · exact hs
  · exact ht

theorem LinkKept.foldl {β : Type} {f : State → β → State} {l : List β} (h : LinkKept a s)
    (hf : ∀ t b, LinkKept a t → LinkKept a (f t b)) : LinkKept a (l.foldl f s) := by
  induction l generalizing s with
  | nil => exact h
  | cons b l ih => exact ih (hf s b h)

theorem LinkKept.wr (h : LinkKept a s) {k : Nat} {v : Word} : LinkKept a (s.wr k v) := h

theorem LinkKept.setFld (h : LinkKept a s) {k hi lo v : Nat} : LinkKept a (s.setFld k hi lo v) := h

theorem LinkKept.setFlag (h : LinkKept a s) {k n : Nat} {b : Bool} : LinkKept a (s.setFlag k n b) := h

theorem LinkKept.incFld (h : LinkKept a s) {k hi lo : Nat} : LinkKept a (s.incFld k hi lo) := h

theorem LinkKept.setMst (h : LinkKept a s) {mst : MemSt} : LinkKept a { s with mst } := h

theorem LinkKept.setShadow (h : LinkKept a s) {p : Port} {x : Shadow} : LinkKept a (s.setShadow p x) := h

theorem LinkKept.setFault (h : LinkKept a s) {b : Bool} : LinkKept a (s.setFault b) := h

theorem LinkKept.decided (h : LinkKept a s) {run : RunSt} {triad : TriadSt} : LinkKept a { s with run, triad } := h

theorem LinkKept.post (h : LinkKept a s) {typ src : Nat} {payload : List Byte} {logs : Nat} {kennel : Bool} :
    LinkKept a (s.post typ src payload logs kennel) := h

theorem LinkKept.causeAll (h : LinkKept a s) {n : Nat} : LinkKept a (s.causeAll n) := h

theorem LinkKept.toSafe (h : LinkKept a s) {cause : Nat} : LinkKept a (s.toSafe cause) := .ite h (.decided (.setFault h))

theorem LinkKept.memRecord (h : LinkKept a s) {region kind syn flags addr count : Nat} :
    LinkKept a (s.memRecord region kind syn flags addr count) := .ite (.post h) (.causeAll (.post h))

theorem LinkKept.countCorrection (h : LinkKept a s) {region w syn flags : Nat} :
    LinkKept a (s.countCorrection region w syn flags) := by
  unfold State.countCorrection
  refine .ite h ?_
  extract_lets t _ _ t1 _ _ u
  have ht : LinkKept a t := .wr (.incFld h)
  have ht1 : LinkKept a t1 := .setMst ht
  have hu : LinkKept a u := .memRecord (.setFlag (.setFld ht1))
  exact .ite (.setMst hu) (.setFld ht1)

theorem LinkKept.countBad (h : LinkKept a s) {region w : Nat} : LinkKept a (s.countBad region w) :=
  .wr (.wr (.wr (.setFlag (.incFld h))))

theorem LinkKept.noteRead (h : LinkKept a s) {region w flags : Nat} : LinkKept a (s.noteRead region w flags) := by
  unfold State.noteRead
  extract_lets _ _ t
  have ht : LinkKept a t := .memRecord (.countBad h)
  split
  · exact h
  · exact .countCorrection h
  · exact .ite (.toSafe ht) ht

theorem LinkKept.readPair (h : LinkKept a s) {p : Port} {lo addr : Nat} : LinkKept a (s.readPair p lo addr).1 := by
  unfold State.readPair
  split
  · exact .setShadow h
  · split
    · split
      · exact .setShadow h
      · exact h
    · exact h

theorem LinkKept.latchTime (h : LinkKept a s) {p : Port} : LinkKept a (s.latchTime p).1 := .wr (.wr (.wr (.wr h)))

theorem LinkKept.latchCapture (h : LinkKept a s) {p : Port} {first n : Nat} : LinkKept a (s.latchCapture p first n).1 :=
  .foldl h fun _ _ ht => .wr ht

theorem LinkKept.regRead (h : LinkKept a s) {r : RegRow} {i : Nat} {p : Port} {addr : Nat} :
    LinkKept a (s.regRead r i p addr).1 := by
  unfold State.regRead
  dsimp only
  split
  · exact .latchTime h
  split
  · split
    · exact .latchCapture h
    · exact h
  split
  · exact h
  split
  · exact .readPair h
  split
  · exact .foldl h fun _ _ ht => .wr ht
  split_ifs <;> exact h

theorem LinkKept.readOpen (h : LinkKept a s) {r : RegRow} {i j : Nat} {p : Port} {addr : Nat} :
    LinkKept a (s.readOpen r i j p addr).1 := by
  unfold State.readOpen
  dsimp only
  split
  · exact .regRead h
  split
  · exact h
  split
  · exact .noteRead h
  · exact .regRead (.noteRead h)

theorem LinkKept.alignedRead (h : LinkKept a s) {p : Port} {addr : Nat} : LinkKept a (s.alignedRead p addr).1 := by
  unfold State.alignedRead
  split
  · exact h
  split
  · exact h
  split
  · exact h
  split
  · exact h
  split
  · exact h
  dsimp only
  split
  · exact h
  · exact .readOpen h

theorem LinkKept.hostRead (h : LinkKept a s) {p : Port} {addr size : Nat} : LinkKept a (s.hostRead p addr size).1 := by
  unfold State.hostRead
  split
  · exact .alignedRead h
  · exact h

end

section
variable (s : State)

theorem sendFlit_reads (d : Die) (typ src strobe : Nat) (payload : List Byte) :
    (s.sendFlit d typ src strobe payload).link.reads = s.link.reads := by
  unfold State.sendFlit
  dsimp only
  split
  · rfl
  · cases d <;> rfl

/-- A flit that is not delivered, or is no access, does what its reception does. -/
theorem registerAccessFlit_other {bs : List Byte} (h : s.takesFlit .field bs = false ∨ flitType bs ≠ 4) :
    exec (.registerAccessFlit bs) s = .next (s.receive .field bs).1 := by
  rw [← receive_snd] at h
  exact if_pos (h.imp_right .inl)

theorem registerAccessFlit_write {bs : List Byte} (ht : s.takesFlit .field bs = true) (h4 : flitType bs = 4)
    (ha : onFieldDie (leAt (flitPayload bs) 4 4) = true) (hw : u8 (flitPayload bs) 0 = 1) :
    exec (.registerAccessFlit bs) s =
      hostWrite (portOf (u8 (flitPayload bs) 1)) (leAt (flitPayload bs) 4 4) (BitVec.ofNat 32 (leAt (flitPayload bs) 8 4)) 4
        (s.receive .field bs).1 := by
  rw [← receive_snd] at ht
  exact (if_neg (by simp [ht, h4, ha])).trans (if_pos hw)

/-- A write of FIO_DICFG 0 across the link is that of the port that sent it, where its rsv bits are zero. -/
theorem registerAccessFlit_dicfg {bs : List Byte} (ht : s.takesFlit .field bs = true) (h4 : flitType bs = 4)
    (ha : leAt (flitPayload bs) 4 4 = Reg.FIO_DICFG 0) (hw : u8 (flitPayload bs) 0 = 1)
    (hrsv : leAt (flitPayload bs) 8 4 &&& 0xFFFCFE00 = 0) :
    Answers (.registerAccessFlit bs) s (fun t =>
      let u := (s.receive .field bs).1
      if u.writable (portOf (u8 (flitPayload bs) 1)) .field (.owned (u.din 0).owner) = true then
        OnlyRequests [Reg.FIO_DICFG 0] u t ∧ t.rd (Reg.FIO_DICFG 0) = BitVec.ofNat 32 (leAt (flitPayload bs) 8 4)
      else t = u) := by
  have hi := registerAccessFlit_write s ht h4 (by rw [ha]; decide) hw
  have hv : BitVec.ofNat 32 (leAt (flitPayload bs) 8 4) &&& 0xFFFCFE00#32 = 0#32 := by
    rw [← BitVec.ofNat_and, hrsv]
  rw [ha, hostWrite_dicfg, gate_eq _ _ _ _ _ _ _ _ hv] at hi
  refine answers_of hi ?_
  dsimp only
  split
  · exact wrDicfg_effect ..
  · rfl

theorem registerAccessFlit_read {bs : List Byte} (ht : s.takesFlit .field bs = true) (h4 : flitType bs = 4)
    (ha : onFieldDie (leAt (flitPayload bs) 4 4) = true) (hr : u8 (flitPayload bs) 0 = 0) :
    Answers (.registerAccessFlit bs) s (fun t =>
      t.link.reads = (s.receive .field bs).1.link.reads ++ [(portOf (u8 (flitPayload bs) 1), leAt (flitPayload bs) 4 4)]) := by
  have hk : LinkKept (s.receive .field bs).1
      ((s.receive .field bs).1.hostRead (portOf (u8 (flitPayload bs) 1)) (leAt (flitPayload bs) 4 4) 4).1 := .hostRead rfl
  rw [← receive_snd] at ht
  refine answers_of ((if_neg (by simp [ht, h4, ha])).trans (if_neg (by simp [hr]))) ?_
  rw [sendFlit_reads]
  exact congrArg (fun l => l.reads ++ [_]) hk

theorem registerResponseFlit_answers (bs : List Byte) :
    Answers (.registerResponseFlit bs) s (fun t =>
      let r := s.receive .engine bs
      if s.takesFlit .engine bs = true ∧ flitType bs = 5 then
        t.link.reads = r.1.link.reads.drop 1 ∧ t.regs = r.1.regs ∧
        t.rdata = (if u8 (flitPayload bs) 0 = 1 then some (BitVec.ofNat 32 (leAt (flitPayload bs) 8 4)) else none)
      else t = r.1) := by
  dsimp only
  rw [← receive_snd]
  by_cases h : (s.receive .engine bs).2 = true ∧ flitType bs = 5
  · simp only [if_pos h]
    exact answers_of (if_neg (by simp [h])) ⟨rfl, rfl, rfl⟩
  · simp only [if_neg h]
    exact answers_of (if_pos (by simpa [imp_iff_not_or] using h)) rfl

/-! ### The service port (R391-R393) -/

/-- A transaction's end: its status, and a CRC error in the port's counter. -/
theorem svcEnds_effect (code : Nat) (crc : Bool) :
    s.svcEnds code crc = { s with regs := (s.svcEnds code crc).regs, hq := { s.hq with svcLast := code } } ∧
    RegsBut [portKey 4 0x110004] s (s.svcEnds code crc) := by
  cases crc with
  | false => exact ⟨rfl, fun _ _ => rfl⟩
  | true =>
    refine ⟨rfl, fun k hk => ?_⟩
    exact (State.rd_satFld ..).trans (if_neg (by simpa using hk))

theorem svcEnds_svcLast (code : Nat) (crc : Bool) : (s.svcEnds code crc).hq.svcLast = code := by
  rw [(svcEnds_effect s code crc).1]

theorem svc_of_stopped {bs : List Byte} {i : Instr} (hi : i ∈ [Instr.svcWrite bs, .svcRead bs, .svcUnknownOpcode bs])
    (h : s.sup.running = false) : Answers i s (fun t => t = s) := by
  simp only [List.mem_cons, List.not_mem_nil, or_false] at hi
  obtain rfl | rfl | rfl := hi
  · exact answers_of (if_pos (.inl h)) rfl
  · exact answers_of (if_pos (.inl h)) rfl
  · exact answers_of (if_pos (.inl h)) rfl

/-- An ending transaction leaves all but the counter of CRC errors, what was sent and its status. -/
theorem svcAnswer_svcEnds (rest : List Byte) (code : Nat) (crc : Bool) :
    let t := (s.svcAnswer rest).svcEnds code crc
    t = { s with regs := t.regs, sent := t.sent, hq := t.hq } ∧ RegsBut [portKey 4 0x110004] s t ∧ t.hq.svcLast = code := by
  obtain ⟨he, hr⟩ := svcEnds_effect (s.svcAnswer rest) code crc
  refine ⟨?_, hr, svcEnds_svcLast ..⟩
  rw [he]
  rfl

theorem svcWrite_badCrc {bs : List Byte} (h : s.sup.running = true) (h2 : u8 bs 0 = 2) (hl : 10 ≤ bs.length)
    (hc : leAt bs 8 2 ≠ (crc16 (bs.take 8)).toNat) :
    Answers (.svcWrite bs) s (fun t =>
      t = { s with regs := t.regs, sent := t.sent, hq := t.hq } ∧ RegsBut [portKey 4 0x110004] s t ∧ t.hq.svcLast = 2) := by
  have hi : exec (.svcWrite bs) s = .next ((s.svcAnswer (List.replicate (bs.length - 1) 0#8)).svcEnds 2 true) :=
    (if_neg (by simp [h, h2])).trans ((if_neg (by omega)).trans (if_pos hc))
  exact answers_of hi (svcAnswer_svcEnds ..)

theorem svcUnknownOpcode_answers {bs : List Byte} (h : s.sup.running = true) (h2 : u8 bs 0 ≠ 2) (h3 : u8 bs 0 ≠ 3) :
    Answers (.svcUnknownOpcode bs) s (fun t => t = { s with sent := t.sent, hq := t.hq } ∧ t.hq.svcLast = 4) := by
  have hi : exec (.svcUnknownOpcode bs) s = .next ((s.svcAnswer (List.replicate (bs.length - 1) 0#8)).svcEnds 4 false) :=
    if_neg (by simp [h, h2, h3])
  exact answers_of hi ⟨rfl, rfl⟩

theorem svcReaches_testpat (h : s.reaches .svc .engine = true) : s.svcReaches Reg.SYS_TESTPAT = true := by
  unfold State.svcReaches
  rw [Bool.or_eq_true]
  exact .inr h

theorem writable_svc_global (h : s.reaches .svc .engine = true) : s.writable .svc .engine .global = true := by
  simp [State.writable, State.right, State.isCust, h]

theorem svcWrite_testpat {bs : List Byte} (h : s.sup.running = true) (h2 : u8 bs 0 = 2) (hl : 10 ≤ bs.length)
    (hc : leAt bs 8 2 = (crc16 (bs.take 8)).toNat) (ha : leAt bs 1 3 / 4 * 4 = Reg.SYS_TESTPAT)
    (hr : s.reaches .svc .engine = true) :
    Answers (.svcWrite bs) s (fun t => t.rd Reg.SYS_TESTPAT = BitVec.ofNat 32 (leAt bs 4 4) ∧ t.hq.svcLast = 1) := by
  have hs : (s.svcAnswer (List.replicate (bs.length - 1) 0#8)).svcReaches (leAt bs 1 3 / 4 * 4) = true := by
    rw [ha]
    exact svcReaches_testpat (s.svcAnswer _) hr
  have hi : exec (.svcWrite bs) s = hostWrite .svc (leAt bs 1 3 / 4 * 4) (BitVec.ofNat 32 (leAt bs 4 4)) 4
      ((s.svcAnswer (List.replicate (bs.length - 1) 0#8)).svcEnds 1 false) :=
    (if_neg (by simp [h, h2])).trans ((if_neg (by omega)).trans ((if_neg (by simp [hc])).trans (if_neg (by simp [hs]))))
  generalize ht : (s.svcAnswer (List.replicate (bs.length - 1) 0#8)).svcEnds 1 false = t at hi
  have hrt : t.reaches .svc .engine = true := by
    subst ht
    exact hr
  have hlast : t.hq.svcLast = 1 := by
    subst ht
    rfl
  rw [ha, hostWrite_testpat, gate_eq _ _ _ _ _ _ _ _ BitVec.and_zero, if_pos (writable_svc_global t hrt)] at hi
  exact answers_of hi ⟨rd_plain_testpat .., hlast⟩

/-- The answer to a read: fill, mark, status, data and CRC. -/
theorem svcAnswer_length (status : Nat) (d : Word) :
    let body := bytesLE 1 status ++ wordBytes d
    (List.replicate 5 0xFF#8 ++ [0xA5#8] ++ body ++ bytesLE 2 (crc16 body).toNat).length = 13 := by
  simp [wordBytes, bytesLE]

/-- What a read of the service port finds: nothing where it does not reach the address. -/
def State.svcFinds (s : State) (bs : List Byte) : State × Option Word :=
  if s.svcReaches (leAt bs 1 3 / 4 * 4) then s.hostRead .svc (leAt bs 1 3 / 4 * 4) 4 else (s, none)

/-- A read that is clocked out whole is performed. -/
theorem svcRead_performed {bs : List Byte} (h : s.sup.running = true) (h3 : u8 bs 0 = 3) (hl : 14 ≤ bs.length)
    (hc : leAt bs 4 2 = (crc16 (bs.take 4)).toNat) :
    ∃ sent, exec (.svcRead bs) s = .next (({ (s.svcFinds bs).1 with sent, rdata := (s.svcFinds bs).2 } : State).svcEnds
      (if (s.svcFinds bs).2.isSome = true then 1 else 8) false) :=
  ⟨_, (if_neg (by simp [h, h3])).trans ((if_neg (by omega)).trans ((if_neg (by simp [hc])).trans
    (if_neg (by rw [svcAnswer_length]; omega))))⟩

/-- A read with a bad CRC, or one that is not clocked out whole, is not performed. -/
theorem svcRead_notPerformed {bs : List Byte} (h : s.sup.running = true) (h3 : u8 bs 0 = 3) (hl : 6 ≤ bs.length)
    (hc : ¬ (leAt bs 4 2 = (crc16 (bs.take 4)).toNat ∧ 14 ≤ bs.length)) :
    ∃ rest crc, exec (.svcRead bs) s = .next ((s.svcAnswer rest).svcEnds 2 crc) := by
  by_cases hb : leAt bs 4 2 = (crc16 (bs.take 4)).toNat
  · exact ⟨_, _, (if_neg (by simp [h, h3])).trans ((if_neg (by omega)).trans ((if_neg (by simp [hb])).trans
      (if_pos (by rw [svcAnswer_length]; omega))))⟩
  · exact ⟨_, _, (if_neg (by simp [h, h3])).trans ((if_neg (by omega)).trans (if_pos hb))⟩

theorem svcRead_status {bs : List Byte} (h : s.sup.running = true) (h3 : u8 bs 0 = 3) (hl : 6 ≤ bs.length) :
    Answers (.svcRead bs) s (fun t =>
      if leAt bs 4 2 = (crc16 (bs.take 4)).toNat ∧ 14 ≤ bs.length then t.hq.svcLast = 1 ∨ t.hq.svcLast = 8
      else t.hq.svcLast = 2 ∧ RegsBut [portKey 4 0x110004] s t) := by
  by_cases hc : leAt bs 4 2 = (crc16 (bs.take 4)).toNat ∧ 14 ≤ bs.length
  · simp only [if_pos hc]
    obtain ⟨sent, hi⟩ := svcRead_performed s h h3 hc.2 hc.1
    refine answers_of hi ?_
    rw [svcEnds_svcLast]
    split
    · exact .inl rfl
    · exact .inr rfl
  · simp only [if_neg hc]
    obtain ⟨rest, crc, hi⟩ := svcRead_notPerformed s h h3 hl hc
    obtain ⟨-, hregs, hlast⟩ := svcAnswer_svcEnds s rest 2 crc
    exact answers_of hi ⟨hlast, hregs⟩

theorem svcRead_testpat {bs : List Byte} (h : s.sup.running = true) (h3 : u8 bs 0 = 3) (hl : 14 ≤ bs.length)
    (hc : leAt bs 4 2 = (crc16 (bs.take 4)).toNat) (ha : leAt bs 1 3 / 4 * 4 = Reg.SYS_TESTPAT)
    (hr : s.reaches .svc .engine = true) :
    Answers (.svcRead bs) s (fun t => t.rdata = some (s.rd Reg.SYS_TESTPAT) ∧ t.hq.svcLast = 1 ∧ t.regs = s.regs) := by
  have hf : s.svcFinds bs = (s, some (s.rd Reg.SYS_TESTPAT)) := by
    rw [State.svcFinds, ha, if_pos (svcReaches_testpat s hr), hostRead_of_readsPlain s .svc readsPlain_testpat hr, regRead_testpat]
  obtain ⟨sent, hi⟩ := svcRead_performed s h h3 hl hc
  rw [hf] at hi
  exact answers_of hi ⟨rfl, rfl, rfl⟩

/-! ### Host errors (R15) -/

theorem OnlyRequests.wr {k : Nat} {a s : State} (h : OnlyRequests [k] a s) (v : Word) : OnlyRequests [k] a (s.wr k v) := by
  obtain ⟨he, hr, hq⟩ := h
  refine ⟨?_, fun j hj => ?_, hq⟩
  · rw [he]
    rfl
  · rw [State.rd_wr_other s v (by simpa using hj), hr j hj]

theorem OnlyRequests.place {k : Nat} {a s : State} (h : OnlyRequests [k] a s) (v : Word) (p : Port) :
    OnlyRequests [k] a (s.place k v p) := by
  obtain ⟨he, hr, hq⟩ := h
  refine ⟨?_, hr, fun j hj => ?_⟩
  · rw [he]
    rfl
  · rw [State.waiting_place, if_neg (by simpa using hj), hq j hj]

/-- The request of SYS_MODE_REQ: its register and what waits for it. -/
theorem wrModeReq_onlyRequests (p : Port) (v : Word) : OnlyRequests [Reg.SYS_MODE_REQ] s (wrModeReq p v s) :=
  .place (.wr (.wr ⟨rfl, fun _ _ => rfl, fun _ _ => rfl⟩ _) _) v p

/-- Free values that have been drawn in between. -/
theorem OnlyRequests.setFreeIx {ks : List Nat} {s t : State} {n : Nat} (h : OnlyRequests ks { s with freeIx := n } t) :
    OnlyRequests ks s { t with freeIx := s.freeIx } := by
  obtain ⟨he, hr, hq⟩ := h
  refine ⟨?_, hr, hq⟩
  rw [he]

/-- A host error in a write of SYS_MODE_REQ acts on its register at most. -/
theorem hostError_modeReq (p : Port) (v : Word) :
    OnlyRequests [Reg.SYS_MODE_REQ] s { s.hostError false true modeReqRsv v (wrModeReq p) with freeIx := s.freeIx } := by
  unfold State.hostError
  dsimp only
  split
  · exact ⟨rfl, fun _ _ => rfl, fun _ _ => rfl⟩
  · exact .setFreeIx (n := s.freeIx + 3) (wrModeReq_onlyRequests ..)

theorem modeRequest_hostError (p : Port) {v : Word} (hv : v &&& modeReqRsv ≠ 0#32) :
    Answers (.modeRequest p v) s (fun t =>
      OnlyRequests [Reg.SYS_MODE_REQ] s { t with freeIx := s.freeIx } ∧ (s.writable p .engine .global = false → t = s)) := by
  by_cases hw : s.reaches p .engine = false ∨ s.right p .global < 2
  · exact answers_of (if_pos hw) ⟨⟨rfl, fun _ _ => rfl, fun _ _ => rfl⟩, fun _ => rfl⟩
  · have hi : exec (.modeRequest p v) s = .next (s.hostError false true modeReqRsv v (wrModeReq p)) := (if_neg hw).trans (if_pos hv)
    refine answers_of hi ⟨hostError_modeReq s p v, fun h => absurd ?_ hw⟩
    simpa [State.writable, imp_iff_not_or] using h

end

/-- Settles O58, clause by clause: writes and reads by address, what a read latches, the link, the service port, host errors. -/
theorem registerAccess : Obligations.RegisterAccess := by
  unfold Obligations.RegisterAccess
  refine ⟨fun s p => ⟨?_, ?_, ?_, ?_, ?_, ?_, ?_, ?_, ?_, ?_, ?_, ?_⟩, fun s p => ⟨?_, ?_, ?_⟩⟩
  · exact fun addr v size => hostWrite_goesOn s p addr v size
  · exact fun addr v h h4 hn => answers_of (hostWrite_undefined s p h4 h hn v) rfl
  · exact fun v => writeAnswers_of_gate (hostWrite_testpat s p v) ⟨plain_onlyRegs s _ _ _ v, rd_plain_testpat s v⟩
  · exact fun i addr hi h h4 hb => ⟨wordRead_unreached hi h h4 hb, wordRead_undefined hi h h4 hb⟩
  · exact fun hr hl => ⟨odefRead_latches hr hl, timNsRead_latches hr, captureFirstRead_latches hr⟩
  · exact captureFirstRead_frame
  · exact fun bs h => answers_of (registerAccessFlit_other s h) rfl
  · exact fun bs ht h4 ha hw hv => registerAccessFlit_dicfg s ht h4 ha hw hv
  · exact fun bs ht h4 ha hr => registerAccessFlit_read s ht h4 ha hr
  · exact registerResponseFlit_answers s
  · exact fun bs i hi h => svc_of_stopped s hi h
  · exact fun bs h => ⟨svcWrite_badCrc s h, svcWrite_testpat s h, svcRead_status s h, svcRead_testpat s h, svcUnknownOpcode_answers s h⟩
  · exact fun addr size i hi h => wordRead_hostError hi h
  · exact fun addr v size h hc => answers_of (hostWrite_hostError s p h hc v) rfl
  · exact fun v hv => modeRequest_hostError s p hv

end Sys2Proof.Machine
end

section
/-!
Writes that wait for their boundary (O29, O35): the fields and flags that a register keeps, and what a write of a register and the placing
of its request leave.
-/
namespace Sys2Proof.Machine

section
variable (s : State) (k : Nat)

/-! ### Fields and flags of a register -/

theorem State.fld_setFld {hi lo : Nat} (v : Nat) (h1 : hi < 32) (h2 : lo ≤ hi) :
    (s.setFld k hi lo v).fld k hi lo = v % 2 ^ (hi + 1 - lo) := by
  rw [State.fld, State.rd_setFld, if_pos rfl, field_setField _ _ h1 h2]

/-- A field that takes the same field of a word. -/
theorem State.fld_setFld_field {hi lo : Nat} (w : Word) (h1 : hi < 32) (h2 : lo ≤ hi) :
    (s.setFld k hi lo (field w hi lo)).fld k hi lo = field w hi lo := by
  rw [State.fld_setFld s k _ h1 h2, Nat.mod_eq_of_lt (field_lt ..)]

theorem State.fld_setFld_other {hi lo hi' lo' : Nat} (v : Nat) (h1 : hi < 32) (h2 : lo ≤ hi) (h : hi' < lo ∨ hi < lo') :
    (s.setFld k hi lo v).fld k hi' lo' = s.fld k hi' lo' := by
  rw [State.fld, State.rd_setFld, if_pos rfl, field_setField_other _ _ h1 h2 h, State.fld]

theorem State.fld_setFlag_other {hi lo n : Nat} (b : Bool) (h1 : n < 32) (h : hi < n ∨ n < lo) :
    (s.setFlag k n b).fld k hi lo = s.fld k hi lo := by
  rw [State.fld, State.rd_setFlag, if_pos rfl, field_setBit_other _ _ h1 h, State.fld]

theorem State.flag_setFlag (n : Nat) {m : Nat} (b : Bool) (h : m < 32) :
    (s.setFlag k m b).flag k n = if n = m then b else s.flag k n := by
  rw [State.flag, State.rd_setFlag, if_pos rfl, bit_setBit _ _ _ h, State.flag]

theorem State.flag_setFlag_self {n : Nat} (b : Bool) (h : n < 32) : (s.setFlag k n b).flag k n = b := by
  rw [State.flag_setFlag s k n b h, if_pos rfl]

variable (j : Nat) (v : Word) (p : Port)

theorem State.fld_congr {s t : State} {k : Nat} (h : t.rd k = s.rd k) (hi lo : Nat) : t.fld k hi lo = s.fld k hi lo := by
  rw [State.fld, h, State.fld]

theorem State.flag_congr {s t : State} {k : Nat} (h : t.rd k = s.rd k) (n : Nat) : t.flag k n = s.flag k n := by
  rw [State.flag, h, State.flag]

theorem State.waiting_congr {s t : State} (h : t.reqs = s.reqs) (k : Nat) : t.waiting k = s.waiting k := by
  rw [State.waiting, h, State.waiting]

@[simp] theorem State.fld_place (hi lo : Nat) : (s.place j v p).fld k hi lo = s.fld k hi lo := State.fld_congr (by simp) hi lo

@[simp] theorem State.flag_place (n : Nat) : (s.place j v p).flag k n = s.flag k n := State.flag_congr (by simp) n

@[simp] theorem State.fld_placeEach (hi lo : Nat) : (s.placeEach j v p).fld k hi lo = s.fld k hi lo := State.fld_congr (by simp) hi lo

@[simp] theorem State.flag_placeEach (n : Nat) : (s.placeEach j v p).flag k n = s.flag k n := State.flag_congr (by simp) n

@[simp] theorem State.flag_placeHyper (n : Nat) : (s.placeHyper j v p).flag k n = s.flag k n := State.flag_congr (by simp) n

theorem State.dropReqs_rd : (s.dropReqs j).rd k = s.rd k := State.rd_congr rfl k

@[simp] theorem State.fld_modLane (l : Nat) (f : LaneSt → LaneSt) (hi lo : Nat) : (s.modLane l f).fld k hi lo = s.fld k hi lo :=
  State.fld_congr (by simp) hi lo

@[simp] theorem State.flag_modLane (l : Nat) (f : LaneSt → LaneSt) (n : Nat) : (s.modLane l f).flag k n = s.flag k n :=
  State.flag_congr (by simp) n

/-! ### Lanes and bays -/

theorem State.lane_modLane {l : Nat} (f : LaneSt → LaneSt) (h : l < s.lanes.length) :
    (s.modLane l f).lane j = if j = l then f (s.lane l) else s.lane j := nth_modAt _ _ _ _ _ h

theorem State.bay_modBay {b : Nat} (f : BaySt → BaySt) (h : b < s.bays.length) :
    (s.modBay b f).bay j = if j = b then f (s.bay b) else s.bay j := nth_modAt _ _ _ _ _ h

end

/-! ### What a write and its request leave -/

section
variable {a s : State} {ks : List Nat} {k : Nat}

theorem OnlyRequests.refl (ks : List Nat) (s : State) : OnlyRequests ks s s := ⟨rfl, fun _ _ => rfl, fun _ _ => rfl⟩

theorem OnlyRequests.wrOf (h : OnlyRequests ks a s) (hk : k ∈ ks) (v : Word) : OnlyRequests ks a (s.wr k v) := by
  obtain ⟨he, hr, hq⟩ := h
  refine ⟨?_, fun j hj => ?_, hq⟩
  · rw [he]
    rfl
  · rw [State.rd_wr_other s v (ne_of_mem_of_not_mem hk hj).symm, hr j hj]

theorem OnlyRequests.setFldOf (h : OnlyRequests ks a s) (hk : k ∈ ks) (hi lo v : Nat) : OnlyRequests ks a (s.setFld k hi lo v) :=
  h.wrOf hk _

theorem OnlyRequests.setFlagOf (h : OnlyRequests ks a s) (hk : k ∈ ks) (n : Nat) (b : Bool) : OnlyRequests ks a (s.setFlag k n b) :=
  h.wrOf hk _

theorem OnlyRequests.setReqs (h : OnlyRequests ks a s) (hk : k ∈ ks) (l : List Req) :
    OnlyRequests ks a { s with reqs := sset (fun _ => []) s.reqs k l } := by
  obtain ⟨he, hr, hq⟩ := h
  refine ⟨?_, hr, fun j hj => ?_⟩
  · rw [he]
  · rw [State.waiting_reqs, if_neg (ne_of_mem_of_not_mem hk hj).symm, hq j hj]

theorem OnlyRequests.dropReqs (h : OnlyRequests ks a s) (hk : k ∈ ks) : OnlyRequests ks a (s.dropReqs k) := h.setReqs hk []

theorem OnlyRequests.placeEach (h : OnlyRequests ks a s) (hk : k ∈ ks) (v : Word) (p : Port) :
    OnlyRequests ks a (s.placeEach k v p) := h.setReqs hk _

theorem OnlyRequests.placeHyper (h : OnlyRequests ks a s) (hk : k ∈ ks) (v : Word) (p : Port) :
    OnlyRequests ks a (s.placeHyper k v p) := h.setReqs hk _

/-- A lane changes beside the registers and requests. -/
theorem OnlyRequests.modLane (h : OnlyRequests ks a s) (l : Nat) (f : LaneSt → LaneSt) :
    let t := s.modLane l f
    t = { a with regs := t.regs, lanes := t.lanes, reqs := t.reqs } ∧ RegsBut ks a t ∧ ReqsBut ks a t := by
  obtain ⟨he, hr, hq⟩ := h
  refine ⟨?_, fun j hj => ?_, fun j hj => ?_⟩
  · rw [he]
    rfl
  · rw [State.modLane_rd, hr j hj]
  · rw [State.waiting_congr (State.modLane_reqs s l f) j, hq j hj]

theorem OnlyRequests.lanes (h : OnlyRequests ks a s) : s.lanes = a.lanes := by
  obtain ⟨he, -, -⟩ := h
  rw [he]

/-- Where the frame counter is not among the registers, the frame stays. -/
theorem OnlyRequests.frame (h : OnlyRequests ks a s) (hk : Reg.ENG_FRAME ∉ ks) : s.frame = a.frame := by
  obtain ⟨-, hr, -⟩ := h
  rw [State.frame, State.frame, hr _ hk]

theorem OnlyRequests.waitsOn_place (h : OnlyRequests ks a s) (hk : Reg.ENG_FRAME ∉ ks) (v : Word) (p : Port) :
    WaitsOn k v p a (s.place k v p) := by
  rw [WaitsOn, State.waiting_place, if_pos rfl, h.frame hk]

theorem OnlyRequests.waiting_placeHyper (h : OnlyRequests ks a s) (hk : Reg.ENG_FRAME ∉ ks) (v : Word) (p : Port) :
    (s.placeHyper k v p).waiting k = [⟨a.hyper3, v, p⟩] := by
  rw [State.waiting_placeHyper, if_pos rfl, State.hyper3, h.frame hk, State.hyper3]

end

/-- A register of a table that does not hold the frame counter. -/
theorem frame_notMem {k : Nat} (h : k < Reg.ENG_FRAME) : Reg.ENG_FRAME ∉ [k] := by
  simpa using h.ne'

/-! ### Lanes and bays (R80, R91, R93, R103, R115) -/

theorem afeLane_lt_frame {l : Nat} (h : l < 256) : Reg.AFE_LANE l < Reg.ENG_FRAME := by unfold Reg.ENG_FRAME Reg.AFE_LANE; omega

theorem afeInj_lt_frame {l : Nat} (h : l < 256) : Reg.AFE_INJ l < Reg.ENG_FRAME := by unfold Reg.ENG_FRAME Reg.AFE_INJ; omega

theorem cnvStrim_lt_frame {b k : Nat} (hb : b < 32) (hk : k < 8) : Reg.CNV_STRIM b k < Reg.ENG_FRAME := by
  unfold Reg.ENG_FRAME Reg.CNV_STRIM; omega

theorem cnvLtrim_lt_frame {b k : Nat} (hb : b < 32) (hk : k < 8) : Reg.CNV_LTRIM b k < Reg.ENG_FRAME := by
  unfold Reg.ENG_FRAME Reg.CNV_LTRIM; omega

theorem cnvCtrl_lt_frame {b : Nat} (hb : b < 32) : Reg.CNV_CTRL b < Reg.ENG_FRAME := by unfold Reg.ENG_FRAME Reg.CNV_CTRL; omega

theorem decLane_lt_frame {l : Nat} (h : l < 384) : Reg.DEC_LANE l < Reg.ENG_FRAME := by unfold Reg.ENG_FRAME Reg.DEC_LANE; omega

theorem decTstat_lt_frame {l : Nat} (h : l < 384) : Reg.DEC_TSTAT l < Reg.ENG_FRAME := by unfold Reg.ENG_FRAME Reg.DEC_TSTAT; omega

theorem thrReg_lt_decTstat (l : Nat) (hh : Bool) : thrReg l hh < Reg.DEC_TSTAT l := by
  cases hh
  · change Reg.DEC_HI l < Reg.DEC_TSTAT l
    unfold Reg.DEC_HI Reg.DEC_TSTAT
    omega
  · change Reg.DEC_HH l < Reg.DEC_TSTAT l
    unfold Reg.DEC_HH Reg.DEC_TSTAT
    omega

section
variable (s : State) (p : Port) (v : Word)

theorem wrAfeLane_effect {l : Nat} (hl : l < 256) :
    let t := wrAfeLane l p v s
    let k := Reg.AFE_LANE l
    OnlyRequests [k] s t ∧ WaitsOn k v p s t ∧
    t.fld k 5 4 = field v 5 4 ∧ t.fld k 1 0 = field v 1 0 ∧ t.flag k 31 = true := by
  have hn := frame_notMem (afeLane_lt_frame hl)
  have hk := List.mem_singleton_self (Reg.AFE_LANE l)
  have hw := (((OnlyRequests.refl _ s).setFldOf hk 5 4 (field v 5 4)).setFldOf hk 1 0 (field v 1 0)).setFlagOf hk 31 true
  refine ⟨hw.place v p, hw.waitsOn_place hn v p, ?_, ?_, ?_⟩
  · simp (disch := decide) only [wrAfeLane, State.fld_place, State.fld_setFlag_other, State.fld_setFld_other, State.fld_setFld_field]
  · simp (disch := decide) only [wrAfeLane, State.fld_place, State.fld_setFlag_other, State.fld_setFld_field]
  · simp (disch := decide) only [wrAfeLane, State.flag_place, State.flag_setFlag_self]

/-- The register's part of an injection write: SEL and MODE as written, PENDING (R93). -/
def State.injWritten (s : State) (l : Nat) (v : Word) : State :=
  ((s.setFld (Reg.AFE_INJ l) 6 4 (field v 6 4)).setFld (Reg.AFE_INJ l) 1 0 (field v 1 0)).setFlag (Reg.AFE_INJ l) 31 true

theorem wrAfeInj_held {l : Nat} (h : s.flag (Reg.AFE_LSTAT l) 12 = true) :
    wrAfeInj l p v s = ((s.injWritten l v).dropReqs (Reg.AFE_INJ l)).holdInj l v := if_pos h

theorem wrAfeInj_free {l : Nat} (h : s.flag (Reg.AFE_LSTAT l) 12 ≠ true) :
    wrAfeInj l p v s = (s.injWritten l v).placeEach (Reg.AFE_INJ l) v p := if_neg h

theorem injWritten_onlyRequests (l : Nat) : OnlyRequests [Reg.AFE_INJ l] s (s.injWritten l v) :=
  have hk := List.mem_singleton_self (Reg.AFE_INJ l)
  (((OnlyRequests.refl _ s).setFldOf hk _ _ _).setFldOf hk _ _ _).setFlagOf hk _ _

theorem waiting_injWritten (l k : Nat) : (s.injWritten l v).waiting k = s.waiting k :=
  State.waiting_congr (by rw [State.injWritten, State.setFlag_reqs, State.setFld_reqs, State.setFld_reqs]) k

theorem injWritten_reads (l : Nat) :
    (s.injWritten l v).fld (Reg.AFE_INJ l) 6 4 = field v 6 4 ∧ (s.injWritten l v).fld (Reg.AFE_INJ l) 1 0 = field v 1 0 ∧
    (s.injWritten l v).flag (Reg.AFE_INJ l) 31 = true := by
  refine ⟨?_, ?_, ?_⟩
  · simp (disch := decide) only [State.injWritten, State.fld_setFlag_other, State.fld_setFld_other, State.fld_setFld_field]
  · simp (disch := decide) only [State.injWritten, State.fld_setFlag_other, State.fld_setFld_field]
  · simp (disch := decide) only [State.injWritten, State.flag_setFlag_self]

theorem holdInj_reads (l : Nat) :
    (s.holdInj l v).fld (Reg.AFE_INJ l) 6 4 = s.fld (Reg.AFE_INJ l) 6 4 ∧
    (s.holdInj l v).fld (Reg.AFE_INJ l) 1 0 = s.fld (Reg.AFE_INJ l) 1 0 ∧
    (s.holdInj l v).flag (Reg.AFE_INJ l) 31 = s.flag (Reg.AFE_INJ l) 31 ∧ (s.holdInj l v).flag (Reg.AFE_INJ l) 30 = true := by
  unfold State.holdInj
  refine ⟨?_, ?_, ?_, ?_⟩
  · rw [State.fld_modLane, State.fld_setFlag_other _ _ _ (by decide) (by decide)]
  · rw [State.fld_modLane, State.fld_setFlag_other _ _ _ (by decide) (by decide)]
  · rw [State.flag_modLane, State.flag_setFlag _ _ _ _ (by decide), if_neg (by decide)]
  · rw [State.flag_modLane, State.flag_setFlag_self _ _ _ (by decide)]

theorem lane_holdInj {l : Nat} (hl : l < s.lanes.length) : ((s.holdInj l v).lane l).injHeld = some v := by
  rw [← State.setFlag_lanes s (Reg.AFE_INJ l) 30 true] at hl
  unfold State.holdInj
  generalize s.setFlag (Reg.AFE_INJ l) 30 true = u at hl ⊢
  rw [State.lane_modLane u l _ hl, if_pos rfl]

theorem OnlyRequests.holdInj {a s : State} {l : Nat} (h : OnlyRequests [Reg.AFE_INJ l] a s) (v : Word) :
    let t := s.holdInj l v
    t = { a with regs := t.regs, lanes := t.lanes, reqs := t.reqs } ∧ RegsBut [Reg.AFE_INJ l] a t ∧ ReqsBut [Reg.AFE_INJ l] a t := by
  unfold State.holdInj
  exact (h.setFlagOf (List.mem_singleton_self _) 30 true).modLane l fun x => { x with injHeld := some v }

theorem waiting_holdInj (l k : Nat) : (s.holdInj l v).waiting k = s.waiting k :=
  State.waiting_congr (by rw [State.holdInj, State.modLane_reqs, State.setFlag_reqs]) k

theorem wrAfeInj_effect {l : Nat} (hl : l < 256) :
    let t := wrAfeInj l p v s
    let k := Reg.AFE_INJ l
    let g := (s.frame + 3) % 2 ^ 32
    t.fld k 6 4 = field v 6 4 ∧ t.fld k 1 0 = field v 1 0 ∧ t.flag k 31 = true ∧
    if s.flag (Reg.AFE_LSTAT l) 12 = true then
      t = { s with regs := t.regs, lanes := t.lanes, reqs := t.reqs } ∧ RegsBut [k] s t ∧ ReqsBut [k] s t ∧
      t.flag k 30 = true ∧ t.waiting k = [] ∧ (s.lanes.length = 384 → (t.lane l).injHeld = some v)
    else OnlyRequests [k] s t ∧ t.waiting k = (s.waiting k).filter (fun r => r.due != g) ++ [⟨g, v, p⟩] := by
  have hk := List.mem_singleton_self (Reg.AFE_INJ l)
  have hw := injWritten_onlyRequests s v l
  obtain ⟨h64, h10, h31⟩ := injWritten_reads s v l
  dsimp only
  by_cases h : s.flag (Reg.AFE_LSTAT l) 12 = true
  · simp only [if_pos h, wrAfeInj_held s p v h]
    obtain ⟨he, hregs, hreqs⟩ := (hw.dropReqs hk).holdInj v
    have hq := State.dropReqs_rd (s.injWritten l v) (Reg.AFE_INJ l) (Reg.AFE_INJ l)
    obtain ⟨hr64, hr10, hr31, hr30⟩ := holdInj_reads ((s.injWritten l v).dropReqs (Reg.AFE_INJ l)) v l
    refine ⟨hr64.trans ((State.fld_congr hq ..).trans h64), hr10.trans ((State.fld_congr hq ..).trans h10),
      hr31.trans ((State.flag_congr hq _).trans h31), he, hregs, hreqs, hr30, ?_, fun hlen => ?_⟩
    · rw [waiting_holdInj, State.dropReqs, State.waiting_reqs, if_pos rfl]
    · refine lane_holdInj _ v ?_
      rw [(hw.dropReqs hk).lanes]
      omega
  · simp only [if_neg h, wrAfeInj_free s p v h]
    refine ⟨?_, ?_, ?_, hw.placeEach hk v p, ?_⟩
    · rw [State.fld_placeEach, h64]
    · rw [State.fld_placeEach, h10]
    · rw [State.flag_placeEach, h31]
    · rw [State.waiting_placeEach, if_pos rfl, hw.frame (frame_notMem (afeInj_lt_frame hl)), waiting_injWritten]

theorem wrCnvTrim_skew_effect {b k : Nat} (hb : b < 32) (hk : k < 8) :
    let t := wrCnvTrim b k true p v s
    OnlyRequests [Reg.CNV_STRIM b k] s t ∧ WaitsOn (Reg.CNV_STRIM b k) v p s t ∧
    t.fld (Reg.CNV_STRIM b k) 7 0 = field v 7 0 := by
  have hw := (OnlyRequests.refl _ s).setFldOf (List.mem_singleton_self (Reg.CNV_STRIM b k)) 7 0 (field v 7 0)
  exact ⟨hw.place v p, hw.waitsOn_place (frame_notMem (cnvStrim_lt_frame hb hk)) v p,
    s.fld_setFld_field _ v (by decide) (by decide)⟩

theorem wrCnvTrim_level_effect {b k : Nat} (hb : b < 32) (hk : k < 8) :
    let t := wrCnvTrim b k false p v s
    OnlyRequests [Reg.CNV_LTRIM b k] s t ∧ WaitsOn (Reg.CNV_LTRIM b k) v p s t ∧ t.rd (Reg.CNV_LTRIM b k) = v := by
  have hw := (OnlyRequests.refl _ s).wrOf (List.mem_singleton_self (Reg.CNV_LTRIM b k)) v
  exact ⟨hw.place v p, hw.waitsOn_place (frame_notMem (cnvLtrim_lt_frame hb hk)) v p, s.rd_wr_self _ v⟩

theorem wrCnvCtrl_effect {b : Nat} (hb : b < 32) :
    let t := wrCnvCtrl b p v s
    OnlyRequests [Reg.CNV_CTRL b] s t ∧ WaitsOn (Reg.CNV_CTRL b) v p s t ∧ t.rd (Reg.CNV_CTRL b) = v &&& 0xF1#32 := by
  have hw := (OnlyRequests.refl _ s).wrOf (List.mem_singleton_self (Reg.CNV_CTRL b)) (v &&& 0xF1#32)
  exact ⟨hw.place v p, hw.waitsOn_place (frame_notMem (cnvCtrl_lt_frame hb)) v p, s.rd_wr_self _ _⟩

/-- A field that a mask takes whole from one word, beside a word that has no bit of it. -/
theorem field_merge (w v m n : Word) {hi lo : Nat} (hm : ∀ j, lo ≤ j → j ≤ hi → m.getLsbD j = false ∧ n.getLsbD j = true) :
    field ((w &&& m) ||| (v &&& n)) hi lo = field v hi lo := by
  refine Nat.eq_of_testBit_eq fun j => ?_
  rw [testBit_field, testBit_field]
  by_cases h : j < hi + 1 - lo
  · obtain ⟨h0, h1⟩ := hm (lo + j) (by omega) (by omega)
    have e : ((w &&& m) ||| (v &&& n)).toNat.testBit (lo + j) = v.toNat.testBit (lo + j) := by
      change ((w &&& m) ||| (v &&& n)).getLsbD (lo + j) = v.getLsbD (lo + j)
      rw [BitVec.getLsbD_or, BitVec.getLsbD_and, BitVec.getLsbD_and, h0, h1, Bool.and_false, Bool.and_true, Bool.false_or]
    rw [e]
  · simp [h]

theorem wrDecLane_effect {l : Nat} (hl : l < 384) :
    let t := wrDecLane l p v s
    let k := Reg.DEC_LANE l
    OnlyRequests [k] s t ∧ WaitsOn k v p s t ∧ t.flag k 31 = true ∧ t.fld k 23 16 = field v 23 16 ∧ t.fld k 1 0 = field v 1 0 := by
  have hk := List.mem_singleton_self (Reg.DEC_LANE l)
  have hw := ((OnlyRequests.refl _ s).wrOf hk ((s.rd (Reg.DEC_LANE l) &&& 0x80000000#32) ||| (v &&& 0x00FF0713#32))).setFlagOf hk 31 true
  have hf (hi lo : Nat) (h : hi < 31) : (wrDecLane l p v s).fld (Reg.DEC_LANE l) hi lo =
      field ((s.rd (Reg.DEC_LANE l) &&& 0x80000000#32) ||| (v &&& 0x00FF0713#32)) hi lo := by
    unfold wrDecLane
    rw [State.fld_place, State.fld_setFlag_other _ _ _ (by decide) (.inl h), State.fld, State.rd_wr_self]
  refine ⟨hw.place v p, hw.waitsOn_place (frame_notMem (decLane_lt_frame hl)) v p, ?_, ?_, ?_⟩
  · rw [wrDecLane, State.flag_place, State.flag_setFlag_self _ _ _ (by decide)]
  · rw [hf 23 16 (by decide), field_merge]
    intro j h1 h2
    interval_cases j <;> decide
  · rw [hf 1 0 (by decide), field_merge]
    intro j h1 h2
    interval_cases j <;> decide

theorem wrThreshold_effect {l : Nat} (hl : l < 384) (hh : Bool) :
    let t := wrThreshold l hh p v s
    let k := thrReg l hh
    OnlyRequests [k, Reg.DEC_TSTAT l] s t ∧ t.waiting k = [⟨s.hyper3, v, p⟩] ∧ t.rd k = v ∧
    t.flag (Reg.DEC_TSTAT l) 5 = true := by
  have hlt := thrReg_lt_decTstat l hh
  have hfr := decTstat_lt_frame hl
  have hk : thrReg l hh ∈ [thrReg l hh, Reg.DEC_TSTAT l] := by simp
  have hst : Reg.DEC_TSTAT l ∈ [thrReg l hh, Reg.DEC_TSTAT l] := by simp
  have hn : Reg.ENG_FRAME ∉ [thrReg l hh, Reg.DEC_TSTAT l] := by
    simp only [List.mem_cons, List.not_mem_nil, or_false]
    omega
  have hw := ((OnlyRequests.refl _ s).wrOf hk v).setFlagOf hst 5 true
  refine ⟨hw.placeHyper hk v p, hw.waiting_placeHyper hn v p, ?_, ?_⟩
  · rw [wrThreshold, State.placeHyper_rd, State.rd_setFlag, if_neg hlt.ne, State.rd_wr_self]
  · rw [wrThreshold, State.flag_placeHyper, State.flag_setFlag_self _ _ _ (by decide)]

end

/-- Settles O29: each write is gated by its owner and acts as its `_effect` lemma says. -/
theorem laneWrites : Obligations.LaneWrites := by
  unfold Obligations.LaneWrites
  refine fun s p v => ⟨fun lane => ⟨?_, ?_⟩, fun bay k => ⟨?_, ?_⟩, fun bay i w hi => ?_, fun lane => ⟨?_, fun hh => ?_⟩⟩
  · exact writeAnswers_of_gate rfl (wrAfeLane_effect s p v lane.isLt)
  · exact writeAnswers_of_gate rfl (wrAfeInj_effect s p v lane.isLt)
  · exact writeAnswers_of_gate rfl (wrCnvTrim_skew_effect s p v bay.isLt k.isLt)
  · exact writeAnswers_of_gate rfl (wrCnvTrim_level_effect s p v bay.isLt k.isLt)
  · simp only [List.mem_cons, Prod.mk.injEq, List.not_mem_nil, or_false] at hi
    obtain ⟨rfl, rfl⟩ | ⟨rfl, rfl⟩ := hi
    · exact writeAnswers_of_gate rfl (wrCnvCtrl_effect s p _ bay.isLt)
    · exact writeAnswers_of_gate rfl (wrCnvCtrl_effect s p _ bay.isLt)
  · exact writeAnswers_of_gate rfl (wrDecLane_effect s p v lane.isLt)
  · exact writeAnswers_of_gate rfl (wrThreshold_effect s p v lane.isLt hh)

end Sys2Proof.Machine
end

section
/-!
The die-to-die link (O18, O19): what the stores of the event log, a link fault, a replay request and the reception of a flit leave.
-/
namespace Sys2Proof.Machine

/-! ### Work on stores of the event log -/

/-- Work on a store: of registers it changes those of a list, beside them the event log. -/
def StoreWork (ks : List Nat) (a t : State) : Prop := t = { a with regs := t.regs, evl := t.evl } ∧ RegsBut ks a t

section
variable {ks : List Nat} {a s : State}

theorem StoreWork.refl (ks : List Nat) (s : State) : StoreWork ks s s := ⟨rfl, fun _ _ => rfl⟩

theorem StoreWork.wr (h : StoreWork ks a s) {k : Nat} (hk : k ∈ ks) {v : Word} : StoreWork ks a (s.wr k v) := by
  obtain ⟨he, hr⟩ := h
  refine ⟨?_, fun j hj => ?_⟩
  · rw [he]
    rfl
  · rw [State.rd_wr_other s v (ne_of_mem_of_not_mem hk hj).symm, hr j hj]

theorem StoreWork.setFld (h : StoreWork ks a s) {k : Nat} (hk : k ∈ ks) {hi lo v : Nat} : StoreWork ks a (s.setFld k hi lo v) := h.wr hk

theorem StoreWork.setFlag (h : StoreWork ks a s) {k : Nat} (hk : k ∈ ks) {n : Nat} {b : Bool} : StoreWork ks a (s.setFlag k n b) :=
  h.wr hk

theorem StoreWork.incFld (h : StoreWork ks a s) {k : Nat} (hk : k ∈ ks) {hi lo : Nat} : StoreWork ks a (s.incFld k hi lo) := h.wr hk

theorem StoreWork.setEvl (h : StoreWork ks a s) (evl : EvlSt) : StoreWork ks a { s with evl } := by
  obtain ⟨he, hr⟩ := h
  refine ⟨?_, hr⟩
  rw [he]

theorem setStore_kennel (s : State) (x : StoreSt) : s.setStore .kennel x = { s with evl := { s.evl with kennel := x } } := rfl

theorem StoreWork.putKennel (h : StoreWork ks a s) (hk : Reg.EVL_KSTAT ∈ ks) {x : StoreSt} : StoreWork ks a (s.putStore .kennel x) :=
  .setFlag (.setFld (h.setEvl _) hk) hk

theorem StoreWork.supRecord (h : StoreWork ks a s) (hs : Reg.EVL_KSTAT ∈ ks) (hl : Reg.EVL_KLOST ∈ ks) {typ : Nat}
    {payload : List Byte} : StoreWork ks a (s.supRecord typ payload) := by
  unfold State.supRecord State.supPost
  extract_lets
  split
  · exact h.putKennel hs
  · exact .incFld (h.setEvl _) hl

theorem StoreWork.stageKennel (h : StoreWork ks a s) (hs : Reg.EVL_KSTAT ∈ ks) (hl : Reg.EVL_KLOST ∈ ks) {r : Rec} :
    StoreWork ks a (s.stage .kennel r) := by
  unfold State.stage
  extract_lets
  split
  · exact h.putKennel hs
  split
  · exact .incFld (h.putKennel hs) hl
  · exact h.putKennel hs

end

/-! ### The decision for SAFE (R224, R225) -/

section
variable (s : State)

theorem toSafe_effect (cause : Nat) :
    let t := s.toSafe cause
    t = { s with regs := t.regs, run := t.run, triad := t.triad } ∧ RegsBut [Reg.SYS_STAT] s t ∧
    (∀ n, n ≠ 4 → t.flag Reg.SYS_STAT n = s.flag Reg.SYS_STAT n) ∧
    (s.flag Reg.SYS_STAT 4 = true → t.flag Reg.SYS_STAT 4 = true) := by
  unfold State.toSafe
  split
  · exact ⟨rfl, fun _ _ => rfl, fun _ _ => rfl, id⟩
  · refine ⟨rfl, fun k hk => ?_, fun n hn => ?_, fun _ => ?_⟩
    · exact (State.rd_setFlag s _ k _ _).trans (if_neg (by simpa using hk))
    · exact (State.flag_setFlag s _ n true (by decide)).trans (if_neg hn)
    · exact State.flag_setFlag_self s _ true (by decide)

theorem toSafe_decides (cause : Nat) (h : mSTANDBY ≤ s.mode) (hs : s.mode ≠ mSAFE) :
    (s.toSafe cause).run.safeNext = some (s.run.safeNext.getD cause) := by
  have hn : ¬ (s.mode = mSAFE ∨ s.mode = mFILL ∨ s.mode = mLOAD) := by
    unfold mSTANDBY at h
    unfold mFILL mLOAD
    omega
  unfold State.toSafe
  rw [if_neg hn]
  rfl

/-! ### The two ends of the link -/

@[simp] theorem linkEnd_setEnd (d : Die) (x : LinkEnd) : (s.setEnd d x).linkEnd d = x := by cases d <;> rfl

@[simp] theorem linkEnd_setEnd_other (d : Die) (x : LinkEnd) : (s.setEnd d x).linkEnd (otherDie d) = s.linkEnd (otherDie d) := by
  cases d <;> rfl

@[simp] theorem linkEnd_setEnd_of_other (d : Die) (x : LinkEnd) : (s.setEnd (otherDie d) x).linkEnd d = s.linkEnd d := by
  cases d <;> rfl

theorem setEnd_linkEnd (d : Die) : s.setEnd d (s.linkEnd d) = s := by cases d <;> rfl

theorem setEnd_eq (d : Die) (x : LinkEnd) : s.setEnd d x = { s with link := (s.setEnd d x).link } := by cases d <;> rfl

/-- What one end holds is no part of the rest of the link. -/
theorem setEnd_link_rest (d : Die) (x : LinkEnd) :
    (s.setEnd d x).link.training = s.link.training ∧ (s.setEnd d x).link.strobeFrame = s.link.strobeFrame := by
  cases d <;> exact ⟨rfl, rfl⟩

theorem linkEnd_congr {s t : State} (h : t.link = s.link) (d : Die) : t.linkEnd d = s.linkEnd d := by
  cases d
  · exact congrArg LinkSt.field h
  · exact congrArg LinkSt.engine h

/-! ### Link faults (R29, R33) -/

/-- An end whose die has judged the link down. -/
def LinkEnd.downed (x : LinkEnd) : LinkEnd := { x with up := false, waiting := false, resent := false, reqSame := 0, gotSame := 0 }

/-- The first steps of both dies as they judge the link down: the verdict, retraining, FAULT_N. -/
def State.linkFails (s : State) (d : Die) : State :=
  let t := s.setEnd d (s.linkEnd d).downed
  { t with link := { t.link with training := true } }.setFault true

theorem linkDown_of_down {d : Die} (h : (s.linkEnd d).up = false) : s.linkDown d = s := if_pos h

theorem linkDown_engine (h : (s.linkEnd .engine).up = true) :
    s.linkDown .engine =
      (let t := ((s.linkFails .engine).setFlag Reg.SYS_STAT 5 false).satFld Reg.SYS_LINKCNT 31 16 1
       (t.post 0x06 (srcOf 0 0) (linkPayload 0 0 t.frame) everyLog true).toSafe 6) := if_neg (by rw [h]; decide)

theorem linkDown_field (h : (s.linkEnd .field).up = true) :
    s.linkDown .field =
      (let t := s.linkFails .field
       { t with link := { t.link with coasting := true } }.supRecord 0x06 (linkPayload 0 1 t.sup.stFrame)) :=
  if_neg (by rw [h]; decide)

/-- What a link fault may change. -/
def LinkWork (a t : State) : Prop :=
  t = { a with regs := t.regs, evl := t.evl, run := t.run, triad := t.triad, link := t.link } ∧
  t.link.strobeFrame = a.link.strobeFrame

theorem linkFails_effect (d : Die) :
    let t := s.linkFails d
    t = { s with regs := t.regs, link := t.link } ∧ RegsBut [Reg.SYS_STAT] s t ∧
    t.linkEnd d = (s.linkEnd d).downed ∧ t.linkEnd (otherDie d) = s.linkEnd (otherDie d) ∧
    t.link.training = true ∧ t.link.strobeFrame = s.link.strobeFrame ∧ t.flag Reg.SYS_STAT 4 = true := by
  refine ⟨?_, fun k hk => ?_, ?_, ?_, rfl, (setEnd_link_rest s d _).2, State.flag_setFlag_self _ _ true (by decide)⟩
  · cases d <;> rfl
  · refine (State.rd_setFlag _ _ k _ _).trans ((if_neg (by simpa using hk)).trans ?_)
    cases d <;> rfl
  · cases d <;> rfl
  · cases d <;> rfl

/-- What both dies' verdicts come to. -/
structure LinkFailed (d : Die) (s t : State) : Prop where
  work : LinkWork s t
  own : t.linkEnd d = (s.linkEnd d).downed
  other : t.linkEnd (otherDie d) = s.linkEnd (otherDie d)
  training : t.link.training = true
  fault : t.flag Reg.SYS_STAT 4 = true

theorem linkDown_engine_failed (h : (s.linkEnd .engine).up = true) :
    LinkFailed .engine s (s.linkDown .engine) ∧ (s.linkDown .engine).flag Reg.SYS_STAT 5 = false := by
  rw [linkDown_engine s h]
  obtain ⟨he, -, hown, hoth, htr, hsf, hf⟩ := linkFails_effect s .engine
  generalize s.linkFails .engine = u at he hown hoth htr hsf hf ⊢
  dsimp only
  have hr (n : Nat) : ((u.setFlag Reg.SYS_STAT 5 false).satFld Reg.SYS_LINKCNT 31 16 1).flag Reg.SYS_STAT n =
      if n = 5 then false else u.flag Reg.SYS_STAT n := by
    rw [State.flag_congr ((State.rd_satFld ..).trans (if_neg (by decide))) n, State.flag_setFlag _ _ _ _ (by decide)]
  generalize hw : (u.setFlag Reg.SYS_STAT 5 false).satFld Reg.SYS_LINKCNT 31 16 1 = w at hr
  have hwe : w = { u with regs := w.regs } := by
    subst hw
    rfl
  obtain ⟨hte, -, hother, hfour⟩ := toSafe_effect (w.post 0x06 (srcOf 0 0) (linkPayload 0 0 w.frame) everyLog true) 6
  generalize (w.post 0x06 (srcOf 0 0) (linkPayload 0 0 w.frame) everyLog true).toSafe 6 = t at hte hother hfour ⊢
  have hl : t.link = u.link := by
    rw [hte, State.post_link, hwe]
  refine ⟨⟨⟨?_, ?_⟩, ?_, ?_, ?_, ?_⟩, ?_⟩
  · rw [hte, hwe, he]
    rfl
  · rw [hl, hsf]
  · rw [linkEnd_congr hl, hown]
  · rw [linkEnd_congr hl, hoth]
  · rw [hl, htr]
  · refine hfour ((State.flag_congr (State.post_rd ..) 4).trans ?_)
    rw [hr, if_neg (by decide), hf]
  · refine (hother 5 (by decide)).trans ((State.flag_congr (State.post_rd ..) 5).trans ?_)
    rw [hr, if_pos rfl]

theorem linkDown_field_failed (h : (s.linkEnd .field).up = true) : LinkFailed .field s (s.linkDown .field) := by
  rw [linkDown_field s h]
  obtain ⟨he, -, hown, hoth, htr, hsf, hf⟩ := linkFails_effect s .field
  generalize s.linkFails .field = u at he hown hoth htr hsf hf ⊢
  dsimp only
  obtain ⟨hte, htr'⟩ := (StoreWork.refl [Reg.EVL_KSTAT, Reg.EVL_KLOST] { u with link := { u.link with coasting := true } }).supRecord
    (by simp) (by simp) (typ := 0x06) (payload := linkPayload 0 1 u.sup.stFrame)
  generalize ({ u with link := { u.link with coasting := true } } : State).supRecord 0x06 (linkPayload 0 1 u.sup.stFrame) = t
    at hte htr' ⊢
  have hl : t.link = { u.link with coasting := true } := by rw [hte]
  refine ⟨⟨?_, ?_⟩, ?_, ?_, ?_, ?_⟩
  · rw [hte, he]
  · rw [hl, ← hsf]
  · rw [← hown]
    exact (congrArg LinkSt.field hl :)
  · rw [← hoth]
    exact (congrArg LinkSt.engine hl :)
  · rw [hl, ← htr]
  · rw [State.flag_congr (htr' _ (by decide)), ← hf]
    rfl

theorem linkDown_failed {d : Die} (h : (s.linkEnd d).up = true) : LinkFailed d s (s.linkDown d) := by
  cases d with
  | field => exact linkDown_field_failed s h
  | engine => exact (linkDown_engine_failed s h).1

/-- The engine die's verdict decides SAFE, cause 6. -/
theorem linkDown_engine_decides (h : (s.linkEnd .engine).up = true) (hm : mSTANDBY ≤ s.mode) (hs : s.mode ≠ mSAFE) :
    (s.linkDown .engine).run.safeNext = some (s.run.safeNext.getD 6) := by
  rw [linkDown_engine s h]
  obtain ⟨he, hregs, -⟩ := linkFails_effect s .engine
  generalize s.linkFails .engine = u at he hregs ⊢
  dsimp only
  have hmode : ((u.setFlag Reg.SYS_STAT 5 false).satFld Reg.SYS_LINKCNT 31 16 1).mode = s.mode := by
    refine State.fld_congr ?_ 2 0
    exact (State.rd_wr_other _ _ (by decide)).trans ((State.rd_wr_other _ _ (by decide)).trans (hregs _ (by decide)))
  generalize hw : (u.setFlag Reg.SYS_STAT 5 false).satFld Reg.SYS_LINKCNT 31 16 1 = w at hmode ⊢
  have hrun : w.run = s.run := by
    subst hw
    rw [State.satFld_run, State.setFlag_run, he]
  have hp : (w.post 0x06 (srcOf 0 0) (linkPayload 0 0 w.frame) everyLog true).mode = s.mode :=
    (State.fld_congr (State.post_rd ..) 2 0).trans hmode
  rw [toSafe_decides _ 6 (hp.symm ▸ hm) (hp.symm ▸ hs), State.post_run, hrun]

/-! ### Requests for replay (R29) -/

theorem requestReplay_effect (d : Die) (h : (s.linkEnd d).up = true) :
    let t := s.requestReplay d
    LinkWork s t ∧ (t.linkEnd d).rxLast = (s.linkEnd d).rxLast ∧ ((t.linkEnd d).waiting = true ∨ (t.linkEnd d).up = false) := by
  unfold State.requestReplay
  extract_lets x seq n t t'
  have hte : t = { s with regs := t.regs, link := t.link } := by
    unfold t
    rw [setEnd_eq]
    rfl
  have hend : t.linkEnd d = { x with waiting := true, resent := false, reqSeq := seq, reqSame := n } := by
    refine (linkEnd_congr ?_ d).trans (linkEnd_setEnd s d _)
    rfl
  have hsf : t.link.strobeFrame = s.link.strobeFrame := (setEnd_link_rest s d _).2
  clear_value t
  unfold t'
  split
  · obtain ⟨⟨hw, hwf⟩, hown, -⟩ := linkDown_failed t (d := d) (by rw [hend]; exact h)
    refine ⟨⟨?_, hwf.trans hsf⟩, ?_, .inr ?_⟩
    · rw [hw, hte]
    · rw [hown, hend]
      rfl
    · rw [hown]
      rfl
  · refine ⟨⟨?_, hsf⟩, ?_, .inl ?_⟩
    · rw [hte]
    · rw [hend]
    · rw [hend]

/-! ### The receiver (R29, R31) -/

variable {s} {d : Die} {bs : List Byte}

theorem takesFlit_iff : s.takesFlit d bs = true ↔ (s.linkEnd d).up = true ∧ flitOk bs = true ∧
    ¬ ((s.linkEnd d).waiting = true ∧ (s.linkEnd d).resent = false) ∧
    (flitUnsequenced bs = true ∨ flitSeq bs = ((s.linkEnd d).rxLast + 1) % 4096) := by
  simp [State.takesFlit, imp_iff_not_or, and_assoc]

/-- The end of a receiver that has taken the ACK of a flit (R29). -/
def State.acked (s : State) (d : Die) (bs : List Byte) : LinkEnd :=
  { s.linkEnd d with replay := unacked (flitAck bs) (s.linkEnd d).replay }

theorem receive_down (h : (s.linkEnd d).up = false) : s.receive d bs = (s, false) := if_pos h

theorem receive_damaged (h : (s.linkEnd d).up = true) (hf : flitOk bs = false) : s.receive d bs = (s.requestReplay d, false) :=
  (if_neg (by rw [h]; decide)).trans (if_pos hf)

/-- The receiver's decision on an undamaged flit. -/
theorem receive_ok (h : (s.linkEnd d).up = true) (hf : flitOk bs = true) :
    s.receive d bs =
      if (s.linkEnd d).waiting = true ∧ (s.linkEnd d).resent = false then (s, false)
      else if flitUnsequenced bs = true then (s.setEnd d (s.acked d bs), true)
      else if flitSeq bs = ((s.linkEnd d).rxLast + 1) % 4096 then
        (s.setEnd d { s.acked d bs with rxLast := flitSeq bs, waiting := false, resent := false }, true)
      else if flitOld (s.linkEnd d).rxLast (flitSeq bs) = true then (s.setEnd d (s.acked d bs), false)
      else ((s.setEnd d (s.acked d bs)).requestReplay d, false) :=
  (if_neg (by rw [h]; decide)).trans (if_neg (by rw [hf]; decide))

theorem receive_unsequenced (h : s.takesFlit d bs = true) (hu : flitUnsequenced bs = true) :
    s.receive d bs = (s.setEnd d (s.acked d bs), true) := by
  obtain ⟨hup, hok, hw, -⟩ := takesFlit_iff.mp h
  rw [receive_ok hup hok, if_neg hw, if_pos hu]

theorem receive_sequenced (h : s.takesFlit d bs = true) (hu : flitUnsequenced bs = false) :
    s.receive d bs = (s.setEnd d { s.acked d bs with rxLast := flitSeq bs, waiting := false, resent := false }, true) := by
  obtain ⟨hup, hok, hw, hq⟩ := takesFlit_iff.mp h
  have hu' : ¬ flitUnsequenced bs = true := by rw [hu]; decide
  rw [receive_ok hup hok, if_neg hw, if_neg hu', if_pos (hq.resolve_left hu')]

/-- A flit that is taken changes only the end that takes it. -/
theorem receive_taken (h : s.takesFlit d bs = true) : ∃ x, s.receive d bs = (s.setEnd d x, true) := by
  cases hu : flitUnsequenced bs with
  | true => exact ⟨_, receive_unsequenced h hu⟩
  | false => exact ⟨_, receive_sequenced h hu⟩

/-- A flit that is dropped: while a replay is awaited, one received before, and one that shows a gap. -/
theorem receive_dropped (hup : (s.linkEnd d).up = true) (hok : flitOk bs = true) (h : s.takesFlit d bs = false) :
    s.receive d bs =
      if (s.linkEnd d).waiting = true ∧ (s.linkEnd d).resent = false then (s, false)
      else if flitOld (s.linkEnd d).rxLast (flitSeq bs) = true then (s.setEnd d (s.acked d bs), false)
      else ((s.setEnd d (s.acked d bs)).requestReplay d, false) := by
  rw [receive_ok hup hok]
  by_cases hw : (s.linkEnd d).waiting = true ∧ (s.linkEnd d).resent = false
  · rw [if_pos hw, if_pos hw]
  · have hn : ¬ (flitUnsequenced bs = true ∨ flitSeq bs = ((s.linkEnd d).rxLast + 1) % 4096) := fun hq => by
      rw [takesFlit_iff.mpr ⟨hup, hok, hw, hq⟩] at h
      exact absurd h (by decide)
    rw [if_neg hw, if_neg hw, if_neg fun e => hn (.inl e), if_neg fun e => hn (.inr e)]

theorem requestReplay_acked (hup : (s.linkEnd d).up = true) :
    let t := (s.setEnd d (s.acked d bs)).requestReplay d
    LinkWork s t ∧ (t.linkEnd d).rxLast = (s.linkEnd d).rxLast ∧ ((t.linkEnd d).waiting = true ∨ (t.linkEnd d).up = false) := by
  have he := setEnd_eq s d (s.acked d bs)
  have hsf := (setEnd_link_rest s d (s.acked d bs)).2
  have hend := linkEnd_setEnd s d (s.acked d bs)
  generalize s.setEnd d (s.acked d bs) = u at he hsf hend ⊢
  obtain ⟨⟨hw, hwf⟩, hrx, hwait⟩ := requestReplay_effect u d (by rw [hend]; exact hup)
  refine ⟨⟨?_, hwf.trans hsf⟩, ?_, hwait⟩
  · rw [hw, he]
  · rw [hrx, hend]
    rfl

theorem LinkWork.setEnd (s : State) (d : Die) (x : LinkEnd) : LinkWork s (s.setEnd d x) := by
  refine ⟨?_, (setEnd_link_rest s d x).2⟩
  rw [setEnd_eq]

theorem LinkWork.receive (s : State) (d : Die) (bs : List Byte) : LinkWork s (s.receive d bs).1 := by
  cases hup : (s.linkEnd d).up with
  | false =>
    rw [receive_down hup]
    exact ⟨rfl, rfl⟩
  | true =>
    cases hok : flitOk bs with
    | false =>
      rw [receive_damaged hup hok]
      exact (requestReplay_effect s d hup).1
    | true =>
      cases ht : s.takesFlit d bs with
      | true =>
        obtain ⟨x, hx⟩ := receive_taken ht
        rw [hx]
        exact .setEnd s d x
      | false =>
        rw [receive_dropped hup hok ht]
        split
        · exact ⟨rfl, rfl⟩
        split
        · exact .setEnd s d _
        · exact (requestReplay_acked hup).1

/-- What a receiver does with a flit (R29). -/
theorem receive_answers (s : State) (d : Die) (bs : List Byte) :
    let x := s.linkEnd d
    let r := s.receive d bs
    let y := { x with replay := unacked (flitAck bs) x.replay }
    (x.up = false → r = (s, false)) ∧
    (x.up = true → flitOk bs = false → r.2 = false ∧ (r.1.linkEnd d).rxLast = x.rxLast ∧
      ((r.1.linkEnd d).waiting = true ∨ (r.1.linkEnd d).up = false)) ∧
    (s.takesFlit d bs = true → flitUnsequenced bs = true → r = (s.setEnd d y, true)) ∧
    (s.takesFlit d bs = true → flitUnsequenced bs = false →
      r = (s.setEnd d { y with rxLast := flitSeq bs, waiting := false, resent := false }, true)) ∧
    (x.up = true → flitOk bs = true → s.takesFlit d bs = false →
      r.2 = false ∧ (r.1.linkEnd d).rxLast = x.rxLast ∧
      (if x.waiting = true ∧ x.resent = false then r.1 = s
       else if flitOld x.rxLast (flitSeq bs) = true then r.1 = s.setEnd d y
       else (r.1.linkEnd d).waiting = true ∨ (r.1.linkEnd d).up = false)) := by
  refine ⟨receive_down, fun hup hf => ?_, receive_unsequenced, receive_sequenced, fun hup hok ht => ?_⟩
  · rw [receive_damaged hup hf]
    exact ⟨rfl, (requestReplay_effect s d hup).2⟩
  · rw [receive_dropped hup hok ht]
    by_cases hw : (s.linkEnd d).waiting = true ∧ (s.linkEnd d).resent = false
    · rw [if_pos hw, if_pos hw]
      exact ⟨rfl, rfl, rfl⟩
    rw [if_neg hw, if_neg hw]
    by_cases ho : flitOld (s.linkEnd d).rxLast (flitSeq bs) = true
    · rw [if_pos ho, if_pos ho]
      exact ⟨rfl, (congrArg LinkEnd.rxLast (linkEnd_setEnd s d _) :), rfl⟩
    · rw [if_neg ho, if_neg ho]
      exact ⟨rfl, (requestReplay_acked hup).2⟩

end

end Sys2Proof.Machine
end

section
/-!
The rows of received flits (O18): what each row does with a flit that is taken, and with one that is not.
-/
namespace Sys2Proof.Machine

section
variable (s : State) (bs : List Byte)

theorem rawFlitReceive_answers :
    Answers (.rawFlitReceive bs) s (fun t =>
      let key := 128 * flitSrc bs + flitStrobe bs % 128
      let fr := flitStrobe bs / 256
      (s.takesFlit .engine bs = true → flitType bs = 1 → sget (fun _ => 0) s.link.checked key ≠ fr + 1 →
        t = { s with link := { s.link with engine := t.link.engine, rawQ := s.link.rawQ ++ [(key, fr, rawCodes bs)] } }) ∧
      (s.takesFlit .engine bs = true → flitType bs = 1 → sget (fun _ => 0) s.link.checked key = fr + 1 →
        t = { s with link := { s.link with engine := t.link.engine } }) ∧
      (flitType bs ≠ 1 → t = (s.receive .engine bs).1)) := by
  have hs := receive_snd s .engine bs
  by_cases h : s.takesFlit .engine bs = true ∧ flitType bs = 1
  · obtain ⟨ht, h1⟩ := h
    obtain ⟨x, hx⟩ := receive_taken ht
    have hr : (s.receive .engine bs).1 = s.setEnd .engine x := by rw [hx]
    have hi : exec (.rawFlitReceive bs) s = _ := if_pos ⟨hs.trans ht, h1⟩
    rw [hr] at hi
    by_cases hc : sget (fun _ => 0) s.link.checked (128 * flitSrc bs + flitStrobe bs % 128) = flitStrobe bs / 256 + 1
    · exact answers_of (hi.trans (if_pos hc)) ⟨fun _ _ hn => absurd hc hn, fun _ _ _ => rfl, fun hn => absurd h1 hn⟩
    · exact answers_of (hi.trans (if_neg hc)) ⟨fun _ _ _ => rfl, fun _ _ he => absurd he hc, fun hn => absurd h1 hn⟩
  · have hn : ¬ ((s.receive .engine bs).2 = true ∧ flitType bs = 1) := by rwa [hs]
    exact answers_of (if_neg hn) ⟨fun ht h1 => absurd ⟨ht, h1⟩ h, fun ht h1 => absurd ⟨ht, h1⟩ h, fun _ => rfl⟩

theorem frameStrobeReceive_answers :
    Answers (.frameStrobeReceive bs) s (fun t =>
      (s.takesFlit .field bs = true → flitType bs = 2 →
        t = { s with link := { s.link with field := t.link.field, coasting := false, strobeFrame := leAt bs 12 4 } }) ∧
      (s.takesFlit .field bs = true → flitType bs ≠ 2 → t = (s.receive .field bs).1) ∧
      (s.link.field.up = true → flitOk bs = false → t.link.coasting = true ∧ t.link.strobeFrame = s.link.strobeFrame)) := by
  have hs := receive_snd s .field bs
  cases ht : s.takesFlit .field bs with
  | true =>
    have hok : flitOk bs ≠ false := by
      obtain ⟨-, hok, -⟩ := takesFlit_iff.mp ht
      rw [hok]
      decide
    obtain ⟨x, hx⟩ := receive_taken ht
    have hr : (s.receive .field bs).1 = s.setEnd .field x := by rw [hx]
    by_cases h2 : flitType bs = 2
    · have hi : exec (.frameStrobeReceive bs) s = _ := if_pos ⟨hs.trans ht, h2⟩
      rw [hr] at hi
      exact answers_of hi ⟨fun _ _ => rfl, fun _ hn => absurd h2 hn, fun _ hf => absurd hf hok⟩
    · have hi : exec (.frameStrobeReceive bs) s = _ := (if_neg fun h => h2 h.2).trans (if_pos (hs.trans ht))
      exact answers_of hi ⟨fun _ h => absurd h h2, fun _ _ => rfl, fun _ hf => absurd hf hok⟩
  | false =>
    have hn : ¬ (s.receive .field bs).2 = true := by
      rw [hs, ht]
      decide
    have hi : exec (.frameStrobeReceive bs) s = _ := (if_neg fun h => hn h.1).trans (if_neg hn)
    exact answers_of hi ⟨nofun, nofun, fun _ _ => ⟨rfl, (LinkWork.receive s .field bs).2⟩⟩

theorem statusFlitReceive_answers :
    Answers (.statusFlitReceive bs) s (fun t =>
      (s.takesFlit .field bs = true → flitType bs = 6 →
        t = { s with
          link := { s.link with field := t.link.field }
          sup := { s.sup with
            stFrame := leAt bs 12 4, svLast := leAt bs 12 4, stTb := leAt bs 16 4, stWrap := leAt bs 20 1, stMode := leAt bs 21 1
            since := some 0, stood := false } }) ∧
      (s.takesFlit .field bs = false → t = (s.receive .field bs).1)) := by
  have hs := receive_snd s .field bs
  by_cases h : s.takesFlit .field bs = true ∧ flitType bs = 6
  · obtain ⟨ht, h6⟩ := h
    obtain ⟨x, hx⟩ := receive_taken ht
    have hr : (s.receive .field bs).1 = s.setEnd .field x := by rw [hx]
    have hi : exec (.statusFlitReceive bs) s = _ := if_pos ⟨hs.trans ht, h6⟩
    rw [hr] at hi
    exact answers_of hi ⟨fun _ _ => rfl, fun hf => absurd (ht.symm.trans hf) (by decide)⟩
  · have hn : ¬ ((s.receive .field bs).2 = true ∧ flitType bs = 6) := by rwa [hs]
    exact answers_of (if_neg hn) ⟨fun ht h6 => absurd ⟨ht, h6⟩ h, fun _ => rfl⟩

/-! ### Records on their way to the kennel (R306) -/

/-- The bytes of the kennel record that arrives, with those of a flit. -/
def State.arrived (s : State) (bs : List Byte) : List Byte := s.evl.arriving ++ flitPayload bs

/-- The record that those bytes spell; a repeat count stands with the record in flight. -/
def State.arrivedRec (s : State) (bs : List Byte) : Rec :=
  { recOfBytes (s.arrived bs) with rep := match s.evl.flight with
    | x :: _ => x.rep
    | [] => (recOfBytes (s.arrived bs)).rep }

theorem arrivedRec_of_noFlight (h : s.evl.flight = []) : s.arrivedRec bs = recOfBytes (s.arrived bs) := by
  rw [State.arrivedRec, h]

/-- A store that takes records stages the one that arrives last. -/
theorem stage_kennel_staged (r : Rec) (hf : s.evl.kennel.frozen = false) (hl : s.evl.kennel.lost = none)
    (hn : s.evl.kennel.staged.length < 64) :
    (s.stage .kennel r).evl.kennel.staged = s.evl.kennel.staged ++ [r] := by
  have h1 : ¬ ((s.store .kennel).frozen = true ∧ r.src / 4096 ≠ 8) := fun h => by
    have := hf.symm.trans h.1
    exact absurd this (by decide)
  have h2 : ¬ ((s.store .kennel).lost.isSome = true ∨ 64 ≤ (s.store .kennel).staged.length) := by
    rintro (h | h)
    · have := congrArg Option.isSome hl
      exact absurd (this.symm.trans h) (by decide)
    · exact absurd h (Nat.not_le.mpr hn)
  rw [State.stage, if_neg h1, if_neg h2, State.putStore, State.setFlag_evl, State.setFld_evl]
  rfl

/-- Staging in the kennel leaves the records on their way. -/
theorem putStore_kennel_transit (x : StoreSt) :
    (s.putStore .kennel x).evl.arriving = s.evl.arriving ∧ (s.putStore .kennel x).evl.flight = s.evl.flight := by
  rw [State.putStore, State.setFlag_evl, State.setFld_evl]
  exact ⟨rfl, rfl⟩

theorem stage_kennel_transit (r : Rec) :
    (s.stage .kennel r).evl.arriving = s.evl.arriving ∧ (s.stage .kennel r).evl.flight = s.evl.flight := by
  unfold State.stage
  extract_lets
  split
  · exact putStore_kennel_transit ..
  split
  · dsimp only
    rw [State.incFld_evl]
    exact putStore_kennel_transit ..
  · exact putStore_kennel_transit ..

/-- A piece of a record that the supervisor takes. -/
theorem kennelWriteFlit_taken {x : LinkEnd} (hx : s.receive .field bs = (s.setEnd .field x, true)) (h7 : flitType bs = 7)
    (hr : s.sup.running = true) :
    exec (.kennelWriteFlit bs) s =
      if (s.arrived bs).length < leAt (s.arrived bs) 0 2 then
        .next { s with link := { s.link with field := x }, evl := { s.evl with arriving := s.arrived bs } }
      else
        .next (({ s with
          link := { s.link with field := x }
          evl := { s.evl with arriving := [], flight := s.evl.flight.drop 1 } } : State).stage .kennel (s.arrivedRec bs)) := by
  have hi : exec (.kennelWriteFlit bs) s = execKennelWriteFlit bs s := rfl
  unfold execKennelWriteFlit at hi
  rw [hx] at hi
  exact hi.trans (if_pos ⟨rfl, h7, hr⟩)

theorem kennelWriteFlit_other (h : s.takesFlit .field bs = false ∨ flitType bs ≠ 7 ∨ s.sup.running = false) :
    exec (.kennelWriteFlit bs) s = .next (s.receive .field bs).1 := by
  refine if_neg ?_
  rw [receive_snd]
  rintro ⟨ht, h7, hr⟩
  obtain h | h | h := h
  · exact absurd (h.symm.trans ht) (by decide)
  · exact h h7
  · exact absurd (h.symm.trans hr) (by decide)

theorem kennelWriteFlit_answers :
    Answers (.kennelWriteFlit bs) s (fun t =>
      let got := s.evl.arriving ++ flitPayload bs
      t.mem = s.mem ∧
      (s.takesFlit .field bs = false ∨ flitType bs ≠ 7 ∨ s.sup.running = false → t = (s.receive .field bs).1) ∧
      (s.takesFlit .field bs = true → flitType bs = 7 → s.sup.running = true → got.length < leAt got 0 2 →
        t = { s with link := { s.link with field := t.link.field }, evl := { s.evl with arriving := got } }) ∧
      (s.takesFlit .field bs = true → flitType bs = 7 → s.sup.running = true → leAt got 0 2 ≤ got.length →
        t.evl.arriving = [] ∧ t.evl.flight = s.evl.flight.drop 1 ∧
        (s.evl.kennel.frozen = false → s.evl.kennel.lost = none → s.evl.kennel.staged.length < 64 → s.evl.flight = [] →
          t.evl.kennel.staged = s.evl.kennel.staged ++ [recOfBytes got]))) := by
  by_cases h : s.takesFlit .field bs = false ∨ flitType bs ≠ 7 ∨ s.sup.running = false
  · have hno (ht : s.takesFlit .field bs = true) (h7 : flitType bs = 7) (hr : s.sup.running = true) : False := by
      simp [ht, h7, hr] at h
    refine answers_of (kennelWriteFlit_other s bs h) ⟨?_, fun _ => rfl, fun ht h7 hr => (hno ht h7 hr).elim,
      fun ht h7 hr => (hno ht h7 hr).elim⟩
    obtain ⟨he, -⟩ := LinkWork.receive s .field bs
    rw [he]
  · obtain ⟨ht, h7, hr⟩ : s.takesFlit .field bs = true ∧ flitType bs = 7 ∧ s.sup.running = true := by simpa using h
    obtain ⟨x, hx⟩ := receive_taken ht
    have hi := kennelWriteFlit_taken s bs hx h7 hr
    by_cases hl : (s.arrived bs).length < leAt (s.arrived bs) 0 2
    · exact answers_of (hi.trans (if_pos hl)) ⟨rfl, fun h' => absurd h' h, fun _ _ _ _ => rfl,
        fun _ _ _ hl' => absurd hl (Nat.not_lt.mpr hl')⟩
    · refine answers_of (hi.trans (if_neg hl)) ?_
      generalize hu : ({ s with
        link := { s.link with field := x }
        evl := { s.evl with arriving := [], flight := s.evl.flight.drop 1 } } : State) = u
      have hmem : u.mem = s.mem := by rw [← hu]
      have hevl : u.evl = { s.evl with arriving := [], flight := s.evl.flight.drop 1 } := by rw [← hu]
      obtain ⟨ha, hf⟩ := stage_kennel_transit u (s.arrivedRec bs)
      refine ⟨?_, fun h' => absurd h' h, fun _ _ _ hl' => absurd hl' hl, fun _ _ _ _ => ⟨?_, ?_, fun hz hn hc he => ?_⟩⟩
      · obtain ⟨he, -⟩ := (StoreWork.refl [Reg.EVL_KSTAT, Reg.EVL_KLOST] u).stageKennel (by simp) (by simp) (r := s.arrivedRec bs)
        rw [he, ← hmem]
      · rw [ha, hevl]
      · rw [hf, hevl]
      · have hk : u.evl.kennel = s.evl.kennel := by rw [hevl]
        rw [stage_kennel_staged u _ (hk ▸ hz) (hk ▸ hn) (hk ▸ hc), hk, arrivedRec_of_noFlight s bs he, State.arrived]

end

/-- Settles O18: the receiver by `receive_answers`, then row by row. -/
theorem flitsReceived : Obligations.FlitsReceived := by
  unfold Obligations.FlitsReceived
  exact ⟨receive_answers, fun s bs => ⟨rawFlitReceive_answers s bs, frameStrobeReceive_answers s bs, statusFlitReceive_answers s bs,
    fun _ => answers_of rfl rfl, kennelWriteFlit_answers s bs⟩⟩

end Sys2Proof.Machine
end

section
/-!
Replay, loss and retraining of the link (O19): what a die sends again, and what the end of an injection touches as the link comes up.
-/
namespace Sys2Proof.Machine

section
variable (s : State)

/-! ### Replay (R29) -/

theorem foldl_emit (d : Die) (l : List (List Byte)) :
    l.foldl (fun s f => s.emit (.flit d f)) s = { s with sent := s.sent ++ l.map (Out.flit d) } := by
  induction l generalizing s with
  | nil => rw [List.foldl_nil, List.map_nil, List.append_nil]
  | cons f l ih =>
    rw [List.foldl_cons, ih, State.emit_sent, List.map_cons, List.append_assoc, List.singleton_append]
    rfl

/-- What a receiver awaits begins, where it awaits anything. -/
theorem resendTo_eq (d : Die) :
    s.resendTo d = s.setEnd d { s.linkEnd d with resent := (s.linkEnd d).resent || (s.linkEnd d).waiting } := by
  unfold State.resendTo
  dsimp only
  cases hw : (s.linkEnd d).waiting with
  | true => rw [if_pos rfl, Bool.or_true]
  | false =>
    rw [if_neg (by decide), Bool.or_false, ← hw]
    exact (setEnd_linkEnd s d).symm

/-- A transmitter after a request: what is still unacknowledged is kept, the request noted. -/
def State.requested (s : State) (d : Die) (seq : Nat) : LinkEnd :=
  let x := s.linkEnd d
  { x with
    replay := unacked ((seq + 4095) % 4096) x.replay, gotSeq := seq
    gotSame := if x.gotSame = 0 then 1 else sameCount seq x.gotSeq x.gotSame }

/-- The state after a request, before the eighth in a row takes the link down. -/
def State.replayed (s : State) (d : Die) (seq : Nat) : State :=
  let t := (s.setEnd d (s.requested d seq)).resendTo (otherDie d)
  { t with sent := t.sent ++ (s.requested d seq).replay.map (Out.flit d) }

theorem replayRequest_exec {d : Die} (seq : Fin 4096) (h : (s.linkEnd d).up = true) :
    exec (.replayRequest d seq) s =
      .next (if 8 ≤ (s.requested d seq.val).gotSame then (s.replayed d seq.val).linkDown d else s.replayed d seq.val) := by
  have hi : exec (.replayRequest d seq) s = execReplayRequest d seq s := rfl
  unfold execReplayRequest at hi
  simp only [foldl_emit] at hi
  exact hi.trans (if_neg (by rw [h]; decide))

theorem replayed_effect (d : Die) (seq : Nat) :
    let t := s.replayed d seq
    t = { s with link := t.link, sent := s.sent ++ (s.requested d seq).replay.map (Out.flit d) } ∧
    t.linkEnd d = s.requested d seq ∧
    (t.linkEnd (otherDie d)).resent = ((s.linkEnd (otherDie d)).resent || (s.linkEnd (otherDie d)).waiting) := by
  unfold State.replayed
  rw [resendTo_eq]
  refine ⟨?_, ?_, ?_⟩
  · cases d <;> rfl
  · cases d <;> rfl
  · cases d <;> rfl

theorem replayRequest_answers (d : Die) (seq : Fin 4096) :
    Answers (.replayRequest d seq) s (fun t =>
      let x := s.linkEnd d
      if x.up = false then t = s
      else
        let keep := unacked ((seq.val + 4095) % 4096) x.replay
        let n := if x.gotSame = 0 then 1 else sameCount seq.val x.gotSeq x.gotSame
        (∃ more, t.sent = s.sent ++ keep.map (Out.flit d) ++ more) ∧ (t.linkEnd d).replay = keep ∧
        (t.linkEnd d).up = decide (n < 8) ∧
        (n < 8 → t = { s with link := t.link, sent := s.sent ++ keep.map (Out.flit d) } ∧
          (t.linkEnd (otherDie d)).resent = ((s.linkEnd (otherDie d)).resent || (s.linkEnd (otherDie d)).waiting))) := by
  by_cases h : (s.linkEnd d).up = false
  · simp only [if_pos h]
    exact answers_of (if_pos h) rfl
  · simp only [if_neg h]
    have hup : (s.linkEnd d).up = true := by simpa using h
    obtain ⟨he, hend, hres⟩ := replayed_effect s d seq.val
    have hi := replayRequest_exec s seq hup
    have hsent : (s.replayed d seq.val).sent = s.sent ++ (s.requested d seq.val).replay.map (Out.flit d) := congrArg State.sent he
    by_cases hn : 8 ≤ (s.requested d seq.val).gotSame
    · rw [if_pos hn] at hi
      obtain ⟨⟨hw, -⟩, hown, -⟩ := linkDown_failed (s.replayed d seq.val) (d := d) (by rw [hend]; exact hup)
      rw [hend] at hown
      refine answers_of hi ⟨⟨[], ?_⟩, ?_, ?_, fun hlt => absurd hlt (Nat.not_lt.mpr hn)⟩
      · rw [hw, List.append_nil]
        exact hsent
      · rw [hown]
        rfl
      · rw [hown]
        exact (decide_eq_false (Nat.not_lt.mpr hn)).symm
    · rw [if_neg hn] at hi
      refine answers_of hi ⟨⟨[], ?_⟩, ?_, ?_, fun _ => ⟨he, hres⟩⟩
      · rw [List.append_nil]
        exact hsent
      · rw [hend]
        rfl
      · rw [hend]
        exact hup.trans (decide_eq_true (Nat.not_le.mp hn)).symm

/-! ### Loss (R33, R225) -/

theorem linkWatchdogExpiry_answers (d : Die) :
    Answers (.linkWatchdogExpiry d) s (fun t =>
      if (s.linkEnd d).up = false then t = s
      else (t.linkEnd d).up = false ∧ t.linkEnd (otherDie d) = s.linkEnd (otherDie d) ∧ t.link.training = true ∧
        t.flag Reg.SYS_STAT 4 = true ∧ t.mem = s.mem) := by
  have hi : exec (.linkWatchdogExpiry d) s = .next (s.linkDown d) := rfl
  by_cases h : (s.linkEnd d).up = false
  · simp only [if_pos h]
    exact answers_of hi (linkDown_of_down s h)
  · simp only [if_neg h]
    obtain ⟨⟨hw, -⟩, hown, hother, htr, hf⟩ := linkDown_failed s (d := d) (by simpa using h)
    refine answers_of hi ⟨?_, hother, htr, hf, ?_⟩
    · rw [hown]
      rfl
    · rw [hw]

theorem linkWatchdogExpiry_engine_answers :
    Answers (.linkWatchdogExpiry .engine) s (fun t =>
      s.link.engine.up = true → mSTANDBY ≤ s.mode → s.mode ≠ mSAFE →
        t.flag Reg.SYS_STAT 5 = false ∧ t.run.safeNext = some (s.run.safeNext.getD 6)) :=
  answers_of rfl fun h hm hs => ⟨(linkDown_engine_failed s h).2, linkDown_engine_decides s h hm hs⟩

end

/-! ### Registers of the device's own blocks -/

/-- The registers of the blocks SYS and PWR read as before. -/
def LowKept (a t : State) : Prop := ∀ k, k < 0x020000 → t.rd k = a.rd k

section
variable {a s : State}

theorem LowKept.refl (s : State) : LowKept s s := fun _ _ => rfl

theorem LowKept.ite {t : State} {p : Prop} {_ : Decidable p} (hs : LowKept a s) (ht : LowKept a t) : LowKept a (if p then s else t) := by
  split
  · exact hs
  · exact ht

theorem LowKept.foldl {β : Type} {f : State → β → State} {l : List β} (h : LowKept a s)
    (hf : ∀ t b, LowKept a t → LowKept a (f t b)) :
    LowKept a (l.foldl f s) := by
  induction l generalizing s with
  | nil => exact h
  | cons b l ih => exact ih (hf s b h)

theorem LowKept.wr (h : LowKept a s) {k : Nat} (hk : 0x020000 ≤ k) {v : Word} : LowKept a (s.wr k v) := fun j hj => by
  rw [State.rd_wr_other s v (by omega), h j hj]

theorem LowKept.setFld (h : LowKept a s) {k : Nat} (hk : 0x020000 ≤ k) {hi lo v : Nat} : LowKept a (s.setFld k hi lo v) := h.wr hk

theorem LowKept.setFlag (h : LowKept a s) {k : Nat} (hk : 0x020000 ≤ k) {n : Nat} {b : Bool} : LowKept a (s.setFlag k n b) := h.wr hk

theorem LowKept.modLane (h : LowKept a s) {l : Nat} {f : LaneSt → LaneSt} : LowKept a (s.modLane l f) := fun j hj => by
  rw [State.modLane_rd, h j hj]

/-! ### An injection that stops (R93, R94) -/

theorem low_le_afeLstat (l : Nat) : 0x020000 ≤ Reg.AFE_LSTAT l := by unfold Reg.AFE_LSTAT; omega

theorem low_le_afeInj (l : Nat) : 0x020000 ≤ Reg.AFE_INJ l := by unfold Reg.AFE_INJ; omega

theorem low_le_decLstat (l : Nat) : 0x020000 ≤ Reg.DEC_LSTAT l := by unfold Reg.DEC_LSTAT; omega

theorem low_le_cnvSkew (b k : Nat) : 0x020000 ≤ Reg.CNV_SKEW b k := by unfold Reg.CNV_SKEW; omega

theorem low_le_cnvDcmeas (b k : Nat) : 0x020000 ≤ Reg.CNV_DCMEAS b k := by unfold Reg.CNV_DCMEAS; omega

theorem LowKept.mark (h : LowKept a s) {l n : Nat} : LowKept a (s.mark l n) := h.setFld (low_le_decLstat l)

theorem LowKept.restartInt (h : LowKept a s) {l : Nat} : LowKept a (s.restartInt l) := .ite (.setFld (.modLane h) (low_le_decLstat l)) h

theorem LowKept.voidSkew (h : LowKept a s) {l : Nat} : LowKept a (s.voidSkew l) := .modLane (h.setFlag (low_le_cnvSkew _ _))

theorem LowKept.voidLevel (h : LowKept a s) {l : Nat} : LowKept a (s.voidLevel l) := .modLane (h.setFlag (low_le_cnvDcmeas _ _))

theorem LowKept.showInj (h : LowKept a s) {l : Nat} {levelChanged : Bool} : LowKept a (s.showInj l levelChanged) := by
  unfold State.showInj
  extract_lets _ _ t _ t1 t2 t3
  have ht : LowKept a t := h.setFld (low_le_afeLstat l)
  have ht1 : LowKept a t1 := .ite (.mark ht) ht
  have ht2 : LowKept a t2 := .ite (.restartInt ht1) ht1
  have ht3 : LowKept a t3 := .ite (.voidSkew ht2) ht2
  exact .ite (.voidLevel ht3) ht3

theorem LowKept.putInj (h : LowKept a s) {l : Nat} {v : Word} : LowKept a (s.putInj l v) := .showInj (.modLane h)

theorem LowKept.sniffSwitch (h : LowKept a s) {l : Nat} : LowKept a (s.sniffSwitch l) := .ite h (.modLane h)

theorem LowKept.sniffLeaves (h : LowKept a s) {l : Nat} : LowKept a (s.sniffLeaves l) := by
  unfold State.sniffLeaves
  refine .ite h ?_
  extract_lets t
  have ht : LowKept a t := .sniffSwitch (.showInj (h.setFlag (low_le_afeLstat l)))
  split
  · exact .setFlag (.putInj (.modLane (ht.setFlag (low_le_afeInj l)))) (low_le_afeInj l)
  · exact ht

theorem LowKept.stopInjection (h : LowKept a s) : LowKept a s.stopInjection := by
  refine .ite h (.foldl h fun t l ht => ?_)
  exact .ite (.sniffLeaves ht) (.showInj (.modLane (.sniffLeaves ht)))

theorem LaneWork.stopInjection {c : Bool} (h : LaneWork c a s) : LaneWork c a s.stopInjection := by
  refine .ite h (.foldl h fun t l ht => ?_)
  exact .ite (.sniffLeaves ht) (.showInj (.modLane (.sniffLeaves ht)))

end

/-! ### Retraining (R34) -/

theorem linkRetrainComplete_answers (s : State) :
    Answers .linkRetrainComplete s (fun t =>
      if s.link.training = true ∧ s.phase = .running ∧ s.mode ≠ mFILL then
        t.link = { s.link with field := { up := true }, engine := { up := true }, training := false, rawQ := [] } ∧
        t.flag Reg.SYS_STAT 5 = true ∧ t.fio.lastFrame = none ∧ t.mem = s.mem ∧ t.mode = s.mode
      else t = s) := by
  by_cases h : s.link.training = true ∧ s.phase = .running ∧ s.mode ≠ mFILL
  · simp only [if_pos h]
    have hi : exec .linkRetrainComplete s =
        .next (s.linkTrained.post 0x06 (srcOf 0 0) (linkPayload 1 0 s.linkTrained.frame) everyLog true).stopInjection := if_pos h
    have hlow := (LowKept.refl (s.linkTrained.post 0x06 (srcOf 0 0) (linkPayload 1 0 s.linkTrained.frame) everyLog true)).stopInjection
    obtain ⟨he, hs, -⟩ :=
      (LaneWork.refl false (s.linkTrained.post 0x06 (srcOf 0 0) (linkPayload 1 0 s.linkTrained.frame) everyLog true)).stopInjection
    refine answers_of hi ⟨?_, ?_, ?_, ?_, ?_⟩
    · rw [he]
      rfl
    · rw [State.flag_congr (hlow _ (by decide)), State.flag_congr (State.post_rd ..), State.linkTrained,
        State.flag_setFlag_self _ _ _ (by decide)]
    · rw [he]
      rfl
    · rw [he]
      rfl
    · refine (State.fld_congr (hlow _ (by decide)) 2 0).trans ((State.fld_congr (State.post_rd ..) 2 0).trans ?_)
      exact State.fld_congr ((State.rd_setFlag ..).trans (if_neg (by decide))) 2 0
  · simp only [if_neg h]
    exact answers_of (if_neg h) rfl

/-- Settles O19: requests, watchdogs and retraining. -/
theorem linkFaults : Obligations.LinkFaults := by
  unfold Obligations.LinkFaults
  exact fun s => ⟨replayRequest_answers s, linkWatchdogExpiry_answers s, linkWatchdogExpiry_engine_answers s,
    linkRetrainComplete_answers s⟩

end Sys2Proof.Machine
end

section
/-!
One TCLK edge with nothing waiting (O2): what a span of time base comes to, however it is cut at wraps and rollovers, and what the link
sends in it.
-/
namespace Sys2Proof.Machine

/-- The registers that a span of time base may change. -/
def spanRegs : List Nat := [Reg.EVL_GWRAP, Reg.TIM_STAT, Reg.TIM_STEPCNT, Reg.TIM_SLEWREM]

/-- What a span of time base may change. -/
def TimeWork (a t : State) : Prop :=
  t = { a with regs := t.regs, time := t.time, evl := t.evl, causes := t.causes } ∧ RegsBut spanRegs a t

section
variable {a s : State}

theorem TimeWork.refl (s : State) : TimeWork s s := ⟨rfl, fun _ _ => rfl⟩

theorem TimeWork.trans {t : State} (h : TimeWork a s) (ht : TimeWork s t) : TimeWork a t := by
  obtain ⟨he, hr⟩ := h
  obtain ⟨hte, htr⟩ := ht
  refine ⟨?_, fun k hk => (htr k hk).trans (hr k hk)⟩
  rw [hte, he]

theorem TimeWork.wr (h : TimeWork a s) {k : Nat} (hk : k ∈ spanRegs) {v : Word} : TimeWork a (s.wr k v) := by
  obtain ⟨he, hr⟩ := h
  refine ⟨?_, fun j hj => ?_⟩
  · rw [he]
    rfl
  · rw [State.rd_wr_other s v (ne_of_mem_of_not_mem hk hj).symm, hr j hj]

theorem TimeWork.setFld (h : TimeWork a s) {k : Nat} (hk : k ∈ spanRegs) {hi lo v : Nat} : TimeWork a (s.setFld k hi lo v) := h.wr hk

theorem TimeWork.setFlag (h : TimeWork a s) {k : Nat} (hk : k ∈ spanRegs) {n : Nat} {b : Bool} : TimeWork a (s.setFlag k n b) := h.wr hk

theorem TimeWork.inert (h : TimeWork a s) {time : TimeSt} {evl : EvlSt} {causes : List Nat} :
    TimeWork a { s with time, evl, causes } := by
  obtain ⟨he, hr⟩ := h
  refine ⟨?_, hr⟩
  rw [he]

theorem TimeWork.setTime (h : TimeWork a s) {time : TimeSt} : TimeWork a { s with time } := h.inert (evl := s.evl) (causes := s.causes)

theorem TimeWork.post (h : TimeWork a s) {typ src : Nat} {payload : List Byte} {logs : Nat} {kennel : Bool} {tb wrap : Nat} :
    TimeWork a (s.postAt typ src payload logs kennel tb wrap) := h.inert (time := s.time) (causes := s.causes)

theorem TimeWork.newEpoch (h : TimeWork a s) {f : Nat} : TimeWork a (s.newEpoch f) := .post (.setFld h.setTime (by decide))

theorem TimeWork.timeRecord (h : TimeWork a s) {kind value : Nat} : TimeWork a (s.timeRecord kind value) :=
  .inert (time := s.time) h.post

theorem TimeWork.loadSeconds (h : TimeWork a s) {v f : Nat} : TimeWork a (s.loadSeconds v f) :=
  .timeRecord (.newEpoch (.setFld (.setFlag h.setTime (by decide)) (by decide)))

theorem TimeWork.showSlew (h : TimeWork a s) : TimeWork a s.showSlew := h.wr (by decide)

theorem TimeWork.rollSecond (h : TimeWork a s) : TimeWork a s.rollSecond := by
  unfold State.rollSecond
  extract_lets _ u
  have hu : TimeWork a u := h.setTime
  split
  · exact .loadSeconds hu
  · exact .setTime hu

theorem TimeWork.addSpan (h : TimeWork a s) {d : Nat} : TimeWork a (s.addSpan d) := by
  unfold State.addSpan
  extract_lets s1 x ns tb sn _ t t1
  have ht : TimeWork a t := .setTime (.setTime h)
  have ht1 : TimeWork a t1 := by
    unfold t1
    split
    · exact .rollSecond ht
    · exact ht
  split
  · exact .newEpoch (.setTime ht1)
  · exact ht1

end

/-! ### The time base (R314, R315) -/

/-- What a rollover or a wrap leaves of the time base: TB_NS, its fraction, the time since reset, and the slew that remains. -/
def State.clock (s : State) : Nat × Nat × Nat × Int := (s.time.tbNs, s.time.frac, s.time.elapsed, s.time.slewRem)

section
variable (s : State)

theorem clock_newEpoch (f : Nat) : (s.newEpoch f).clock = s.clock := rfl

theorem clock_timeRecord (kind value : Nat) : (s.timeRecord kind value).clock = s.clock := rfl

theorem clock_rollSecond : s.rollSecond.clock = s.clock := by
  unfold State.rollSecond
  extract_lets _ u
  split
  · rfl
  · rfl

/-- TB_NS with its fraction, in units of 2^-32 ns. -/
def State.tbUnits (s : State) : Nat := s.time.tbNs * nsUnit + s.time.frac

theorem clock_addSpan (d : Nat) :
    (s.addSpan d).clock =
      ((s.time.tbNs + (s.time.frac + d) / nsUnit) % 2 ^ 32, (s.time.frac + d) % nsUnit, s.time.elapsed + d, s.time.slewRem) := by
  unfold State.addSpan
  extract_lets s1 x ns tb sn _ t t1
  have ht1 : t1.clock = t.clock := by
    unfold t1
    split
    · exact clock_rollSecond t
    · rfl
  split
  · exact (clock_newEpoch ..).trans ht1
  · exact ht1

/-- The units of an epoch: TB_NS wraps after them (R321). -/
def epochUnits : Nat := 2 ^ 32 * nsUnit

/-- A span d of which r is still to come, after u. -/
structure Spanned (s u : State) (d r : Nat) : Prop where
  work : TimeWork s u
  elapsed : u.time.elapsed + r = s.time.elapsed + d
  slewRem : u.time.slewRem = s.time.slewRem
  units : s.tbUnits + d < epochUnits → u.tbUnits + r = s.tbUnits + d

variable {s}

theorem Spanned.refl (s : State) (d : Nat) : Spanned s s d d := ⟨.refl s, rfl, rfl, fun _ => rfl⟩

/-- Carrying a fraction past its unit loses nothing, below the bound at which the units wrap. -/
theorem units_carry {tb f e U M : Nat} (h : tb * U + f + e < M * U) :
    (tb + (f + e) / U) % M * U + (f + e) % U = tb * U + f + e := by
  have hd : U * ((f + e) / U) + (f + e) % U = f + e := Nat.div_add_mod ..
  have hm : (tb + (f + e) / U) * U = tb * U + U * ((f + e) / U) := by ring
  have hlt : (tb + (f + e) / U) * U < M * U := by omega
  rw [Nat.mod_eq_of_lt (Nat.lt_of_mul_lt_mul_right hlt), hm]
  omega

theorem tbUnits_addSpan {d : Nat} (h : s.tbUnits + d < epochUnits) : (s.addSpan d).tbUnits = s.tbUnits + d := by
  have hc := clock_addSpan s d
  have htb : (s.addSpan d).time.tbNs = _ := congrArg Prod.fst hc
  have hf : (s.addSpan d).time.frac = _ := congrArg (fun x => x.2.1) hc
  rw [State.tbUnits, htb, hf]
  exact units_carry h

/-- A part e of what is still to come passes. -/
theorem Spanned.addSpan {u : State} {d r e : Nat} (h : Spanned s u d r) (he : e ≤ r) : Spanned s (u.addSpan e) d (r - e) := by
  obtain ⟨hw, hel, hsl, hun⟩ := h
  have hc := clock_addSpan u e
  have he' : (u.addSpan e).time.elapsed = u.time.elapsed + e := congrArg (fun x => x.2.2.1) hc
  have hs' : (u.addSpan e).time.slewRem = u.time.slewRem := congrArg (fun x => x.2.2.2) hc
  refine ⟨.trans hw (.addSpan (.refl u)), ?_, hs'.trans hsl, fun hlt => ?_⟩
  · rw [he']
    omega
  · have hu := hun hlt
    rw [tbUnits_addSpan (by omega)]
    omega

/-- Time goes on up to an instant inside the span, or the span holds none. -/
theorem cutSpan_cases (s : State) (d : Nat) : (∃ e, e ≤ d ∧ s.cutSpan d = (s.addSpan e, d - e)) ∨ s.cutSpan d = (s, d) := by
  by_cases h : min s.toRollover s.toWrap < d
  · exact .inl ⟨_, h.le, if_pos h⟩
  · exact .inr (if_neg h)

theorem Spanned.cutSpan {u : State} {d r : Nat} (h : Spanned s u d r) : Spanned s (u.cutSpan r).1 d (u.cutSpan r).2 := by
  obtain ⟨e, he, hc⟩ | hc := cutSpan_cases u r
  · rw [hc]
    exact h.addSpan he
  · rw [hc]
    exact h

theorem addUnits_spanned (s : State) (d : Nat) : Spanned s (s.addUnits d) d 0 := by
  have hf := (Spanned.refl s d).cutSpan.cutSpan.addSpan le_rfl
  rw [Nat.sub_self] at hf
  exact hf

/-! ### One edge (R315, R319) -/

theorem natAbs_toward_zero {r : Int} {g : Nat} (h : g ≤ r.natAbs) :
    (if r < 0 then r + g else r - g).natAbs = r.natAbs - g := by
  split
  · omega
  · omega

theorem State.clock_setSlew (u : State) (r : Int) :
    ({ u with time := { u.time with slewRem := r } } : State).showSlew.clock = (u.time.tbNs, u.time.frac, u.time.elapsed, r) := by
  rw [State.clock, State.showSlew, State.wr_time]

/-- What the slew gives in one edge, and the units that the edge gives with it. -/
def State.edgeSlew (s : State) : Nat := min s.slewStep s.time.slewRem.natAbs
def State.edgeSpan (s : State) : Nat := if s.time.slewRem < 0 then s.edgeUnits - s.edgeSlew else s.edgeUnits + s.edgeSlew

theorem State.edgeSlew_le (s : State) : s.edgeSlew ≤ s.time.slewRem.natAbs := by
  rw [State.edgeSlew]
  exact Nat.min_le_right ..

theorem edge_of_noSlew (h : s.time.slewRem = 0) : s.edge = s.addUnits s.edgeSpan := by
  rw [State.edge]
  dsimp only
  rw [if_pos h, State.edgeSpan, State.edgeSlew]

theorem edge_of_slew (h : s.time.slewRem ≠ 0) :
    s.edge = { s.addUnits s.edgeSpan with time := { (s.addUnits s.edgeSpan).time with
      slewRem := if s.time.slewRem < 0 then s.time.slewRem + s.edgeSlew else s.time.slewRem - s.edgeSlew } }.showSlew := by
  rw [State.edge]
  dsimp only
  rw [if_neg h, State.edgeSpan, State.edgeSlew]

/-- A span that is over. -/
theorem Spanned.whole {u : State} {d : Nat} (h : Spanned s u d 0) :
    TimeWork s u ∧ u.time.elapsed = s.time.elapsed + d ∧ u.time.slewRem = s.time.slewRem ∧
    (s.tbUnits + d < epochUnits → u.tbUnits = s.tbUnits + d) := by
  obtain ⟨hw, hel, hsl, hun⟩ := h
  refine ⟨hw, ?_, hsl, fun hlt => ?_⟩
  · rw [← hel, Nat.add_zero]
  · rw [← hun hlt, Nat.add_zero]

/-- The remainder of a slew is set once a span is over. -/
theorem Spanned.setSlew {u : State} {d : Nat} (h : Spanned s u d 0) (r : Int) :
    let t := ({ u with time := { u.time with slewRem := r } } : State).showSlew
    TimeWork s t ∧ t.time.elapsed = s.time.elapsed + d ∧ t.time.slewRem = r ∧
    (s.tbUnits + d < epochUnits → t.tbUnits = s.tbUnits + d) := by
  obtain ⟨hw, hel, -, hun⟩ := h.whole
  have hc := u.clock_setSlew r
  have hwork : TimeWork s ({ u with time := { u.time with slewRem := r } } : State).showSlew := .showSlew (.setTime hw)
  generalize ({ u with time := { u.time with slewRem := r } } : State).showSlew = t at hc hwork
  have hb : t.time.tbNs = u.time.tbNs := congrArg Prod.fst hc
  have hf : t.time.frac = u.time.frac := congrArg (fun x => x.2.1) hc
  have he : t.time.elapsed = u.time.elapsed := congrArg (fun x => x.2.2.1) hc
  have hs : t.time.slewRem = r := congrArg (fun x => x.2.2.2) hc
  refine ⟨hwork, he.trans hel, hs, fun hlt => ?_⟩
  rw [← hun hlt, State.tbUnits, hb, hf, State.tbUnits]

theorem edge_effect (s : State) :
    TimeWork s s.edge ∧ s.edge.time.elapsed = s.time.elapsed + s.edgeSpan ∧
    s.edge.time.slewRem.natAbs = s.time.slewRem.natAbs - s.edgeSlew ∧
    (s.tbUnits + s.edgeSpan < epochUnits → s.edge.tbUnits = s.tbUnits + s.edgeSpan) := by
  have hsp := addUnits_spanned s s.edgeSpan
  by_cases h : s.time.slewRem = 0
  · obtain ⟨hw, hel, hsl, hun⟩ := hsp.whole
    rw [edge_of_noSlew h]
    refine ⟨hw, hel, ?_, hun⟩
    rw [hsl, h, Int.natAbs_zero, Nat.zero_sub]
  · obtain ⟨hw, hel, hsl, hun⟩ :=
      hsp.setSlew (if s.time.slewRem < 0 then s.time.slewRem + s.edgeSlew else s.time.slewRem - s.edgeSlew)
    rw [edge_of_slew h]
    refine ⟨hw, hel, ?_, hun⟩
    rw [hsl, natAbs_toward_zero s.edgeSlew_le]

/-! ### What the link sends (R28) -/

/-- The idle flit of a die that judges the link up. -/
def LinkEnd.idle (x : LinkEnd) (d : Die) : List Out := if x.up = true then [Out.flit d (flitBytes 0 0 x.lastSeq x.rxLast 0 [])] else []

theorem sendFree_idle (s : State) (d : Die) : s.sendFree d 0 [] = { s with sent := s.sent ++ (s.linkEnd d).idle d } := by
  unfold State.sendFree LinkEnd.idle
  dsimp only
  cases (s.linkEnd d).up with
  | false => rw [if_pos rfl, if_neg (by decide), List.append_nil]
  | true => rw [if_neg (by decide), if_pos rfl, State.emit]

theorem linkEdge_eq (s : State) :
    s.linkEdge = { s with
      sup := { s.sup with since := s.sup.since.map (fun n => n + 4) }, link := { s.link with slotNs := (s.link.slotNs + 4) % 25 }
      sent := s.sent ++ (if s.link.slotNs + 4 < 25 then [] else s.link.engine.idle .engine ++ s.link.field.idle .field) } := by
  unfold State.linkEdge
  dsimp only
  split
  · rw [List.append_nil]
  · rw [sendFree_idle, sendFree_idle, ← List.append_assoc]
    rfl

theorem tbUnits_add_lt {d : Nat} (h : d < s.toWrap) (ht : s.time.tbNs < 2 ^ 32) : s.tbUnits + d < epochUnits := by
  unfold State.toWrap at h
  unfold State.tbUnits epochUnits nsUnit at *
  omega

end

theorem tick_stays {s : State} (h : s.phase ≠ .running ∨ s.toBoundary ≤ s.edgeUnits + s.slewStep) : s.tick = s := by
  refine if_neg ?_
  rintro ⟨hp, hlt⟩
  obtain h | h := h
  · exact h hp
  · omega

/-- Settles O2: an edge by `edge_effect`, the link's time by `linkEdge_eq`. -/
theorem idleStep : Obligations.IdleStep := by
  unfold Obligations.IdleStep
  intro s hp
  have hstep : step s = .next s.tick := by
    unfold step
    rw [hp]
  refine ⟨s.tick, hstep, ?_⟩
  by_cases h : s.phase = .running ∧ s.edgeUnits + s.slewStep < s.toBoundary
  · have ht : s.tick = s.edge.linkEdge := if_pos h
    obtain ⟨⟨hw, hregs⟩, hel, hsl, hun⟩ := edge_effect s
    have hlink : s.edge.link = s.link := by rw [hw]
    have hsup : s.edge.sup = s.sup := by rw [hw]
    have hsent : s.edge.sent = s.sent := by rw [hw]
    rw [linkEdge_eq, hlink, hsup, hsent] at ht
    rw [ht]
    refine ⟨?_, ?_, ?_, fun hno => ?_, fun _ _ => ⟨hel, hsl, fun hd htb => ?_, rfl, rfl, rfl⟩⟩
    · rw [hw]
    · exact congrArg BitVec.toNat (hregs _ (by decide))
    · exact State.fld_congr (hregs _ (by decide)) 2 0
    · obtain ⟨hr, hlt⟩ := h
      obtain hno | hno := hno
      · exact absurd hr hno
      · exact absurd hlt (Nat.not_lt.mpr hno)
    · exact hun (tbUnits_add_lt hd htb)
  · have ht : s.tick = s := if_neg h
    rw [ht]
    exact ⟨rfl, rfl, rfl, fun _ => rfl, fun hr hlt => absurd ⟨hr, hlt⟩ h⟩

end Sys2Proof.Machine
end

section
/-!
Raw samples (O20): stage A's check of a strobe, the flit that carries a strobe's codes, and the code of one conversion.
-/
namespace Sys2Proof.Machine

/-! ### Stage A's check (R32) -/

/-- A lane with the code of strobe n put into its frame: strobes from 112 on belong to the frame before. -/
def LaneSt.putCode (x : LaneSt) (n : Nat) (c : BitVec 16) (rep : Bool) : LaneSt :=
  if n < 112 then { x with now := modAt x.now n (fun _ => c), nowRep := modAt x.nowRep n (fun _ => rep) }
  else { x with old := modAt x.old n (fun _ => c), oldRep := modAt x.oldRep n (fun _ => rep) }

/-- The code that lane l takes for a strobe: that of the flit that has come, or its last one. -/
def LaneSt.codeOf (x : LaneSt) (hit : Option (Nat × Nat × List (BitVec 16))) (l : Nat) : BitVec 16 :=
  match hit with
  | some h => nth 0#16 h.2.2 (l % 32)
  | none => x.last

/-- Lane l after the check of strobe n. -/
def LaneSt.checkStrobe (x : LaneSt) (hit : Option (Nat × Nat × List (BitVec 16))) (n l : Nat) : LaneSt :=
  { x with last := x.codeOf hit l }.putCode n (x.codeOf hit l) hit.isNone

theorem putCode_reads (x : LaneSt) (n : Nat) (c : BitVec 16) (rep : Bool) :
    let y := x.putCode n c rep
    y.last = x.last ∧
    (n < 112 → x.now.length = 128 → x.nowRep.length = 128 → nth 0#16 y.now n = c ∧ nth false y.nowRep n = rep ∧ y.old = x.old) ∧
    (112 ≤ n → n < 128 → x.old.length = 128 → x.oldRep.length = 128 →
      nth 0#16 y.old n = c ∧ nth false y.oldRep n = rep ∧ y.now = x.now) := by
  unfold LaneSt.putCode
  by_cases h : n < 112
  · rw [if_pos h]
    refine ⟨rfl, fun _ hn hr => ⟨?_, ?_, rfl⟩, fun hge => absurd h (Nat.not_lt.mpr hge)⟩
    · rw [nth_modAt _ _ _ _ _ (by omega), if_pos rfl]
    · rw [nth_modAt _ _ _ _ _ (by omega), if_pos rfl]
  · rw [if_neg h]
    refine ⟨rfl, fun hlt => absurd hlt h, fun _ hn ho hr => ⟨?_, ?_, rfl⟩⟩
    · rw [nth_modAt _ _ _ _ _ (by omega), if_pos rfl]
    · rw [nth_modAt _ _ _ _ _ (by omega), if_pos rfl]

/-- A list whose entries change by their place. -/
theorem nth_map_zipIdx {α : Type} (d : α) (l : List α) (f : α × Nat → α) (i : Nat) :
    nth d (l.zipIdx.map f) i = if i < l.length then f (nth d l i, i) else d := by
  unfold nth
  by_cases h : i < l.length
  · rw [if_pos h]
    simp [List.getD_eq_getElem?_getD, h]
  · rw [if_neg h]
    simp [List.getD_eq_getElem?_getD, h]

section
variable (s : State)

/-- The frame, mod 256, to which strobe n belongs as it is checked. -/
def State.checkFrame (s : State) (n : Nat) : Nat := (if n < 112 then s.frame else s.frame + 255) % 256

/-- The flit of that strobe in stage A's queue. -/
def State.strobeHit (s : State) (k n : Nat) : Option (Nat × Nat × List (BitVec 16)) :=
  s.link.rawQ.find? (fun e => e.1 == 128 * k + n && e.2.1 == s.checkFrame n)

/-- The state after the check. -/
def State.strobeChecked (s : State) (k n : Nat) : State :=
  { s with
    link := { s.link with
      rawQ := s.link.rawQ.filter (fun e => e.1 != 128 * k + n)
      checked := sset (fun _ => 0) s.link.checked (128 * k + n) (s.checkFrame n + 1) }
    lanes := s.lanes.zipIdx.map (fun e => if e.2 / 32 = k then e.1.checkStrobe (s.strobeHit k n) n e.2 else e.1) }

theorem stageAFlitCheck_exec (k : Fin 8) (n : Fin 128) (h : s.pack k.val ≠ 0) :
    exec (.stageAFlitCheck k n) s = .next (s.strobeChecked k.val n.val) := by
  have hi : exec (.stageAFlitCheck k n) s = execStageAFlitCheck k n s := rfl
  refine hi.trans ((if_neg h).trans ?_)
  unfold State.strobeChecked
  have hx (x : LaneSt) (l : Nat) : x.checkStrobe (s.strobeHit k.val n.val) n.val l =
      match s.strobeHit k.val n.val with
      | some h => ({ x with last := nth 0#16 h.2.2 (l % 32) } : LaneSt).putCode n.val (nth 0#16 h.2.2 (l % 32)) false
      | none => x.putCode n.val x.last true := by
    unfold LaneSt.checkStrobe LaneSt.codeOf
    cases s.strobeHit k.val n.val <;> rfl
  simp only [hx]
  rfl

theorem lane_strobeChecked (k n l : Nat) :
    (s.strobeChecked k n).lane l =
      if l < s.lanes.length ∧ l / 32 = k then (s.lane l).checkStrobe (s.strobeHit k n) n l else s.lane l := by
  have h : (s.strobeChecked k n).lane l = _ := nth_map_zipIdx _ _ _ _
  rw [h]
  by_cases hl : l < s.lanes.length
  · simp [hl, State.lane]
  · simp [hl, State.lane, nth]

theorem stageAFlitCheck_answers (k : Fin 8) (n : Fin 128) :
    Answers (.stageAFlitCheck k n) s (fun t =>
      (s.pack k.val = 0 → t = s) ∧
      t = { s with link := t.link, lanes := t.lanes } ∧
      (∀ l, l / 32 ≠ k.val → t.lane l = s.lane l) ∧
      (s.pack k.val ≠ 0 → s.lanes.length = 384 →
        let fr := (if n.val < 112 then s.frame else s.frame + 255) % 256
        let hit := s.link.rawQ.find? (fun e => e.1 == 128 * k.val + n.val && e.2.1 == fr)
        sget (fun _ => 0) t.link.checked (128 * k.val + n.val) = fr + 1 ∧
        ∀ l, l < 384 → l / 32 = k.val →
          let x := s.lane l
          let y := t.lane l
          let c := match hit with
            | some h => nth 0#16 h.2.2 (l % 32)
            | none => x.last
          y.last = c ∧
          (n.val < 112 → x.now.length = 128 → x.nowRep.length = 128 →
            nth 0#16 y.now n.val = c ∧ nth false y.nowRep n.val = hit.isNone ∧ y.old = x.old) ∧
          (112 ≤ n.val → x.old.length = 128 → x.oldRep.length = 128 →
            nth 0#16 y.old n.val = c ∧ nth false y.oldRep n.val = hit.isNone ∧ y.now = x.now))) := by
  by_cases h : s.pack k.val = 0
  · exact answers_of (if_pos h) ⟨fun _ => rfl, rfl, fun _ _ => rfl, fun hn => absurd h hn⟩
  · refine answers_of (stageAFlitCheck_exec s k n h) ⟨fun h0 => absurd h0 h, rfl, fun l hl => ?_,
      fun _ hlen => ⟨?_, fun l hl hk => ?_⟩⟩
    · rw [lane_strobeChecked, if_neg fun hc => hl hc.2]
    · exact (sget_sset (fun _ => 0) s.link.checked _ _ (s.checkFrame n.val + 1)).trans (if_pos rfl)
    · rw [lane_strobeChecked, if_pos ⟨by omega, hk⟩]
      obtain ⟨hlast, hnow, hold⟩ := putCode_reads { s.lane l with last := (s.lane l).codeOf (s.strobeHit k.val n.val) l } n.val
        ((s.lane l).codeOf (s.strobeHit k.val n.val) l) (s.strobeHit k.val n.val).isNone
      exact ⟨hlast, hnow, fun hge => hold hge n.isLt⟩

end

/-! ### A flit's fields (R27) -/

/-- The first twelve bytes of a flit. -/
def flitHead (typ src seq ack strobe : Nat) : List Byte :=
  bytesLE 1 typ ++ bytesLE 1 src ++ bytesLE 2 (seq % 4096) ++ bytesLE 2 (ack % 4096) ++ bytesLE 2 strobe ++ bytesLE 4 0

theorem flitBytes_eq (typ src seq ack strobe : Nat) (payload : List Byte) :
    ∃ crc, flitBytes typ src seq ack strobe payload =
      flitHead typ src seq ack strobe ++ ((payload ++ List.replicate 64 0#8).take 64 ++ crc) :=
  ⟨_, List.append_assoc ..⟩

theorem fromLE_bytesLE_one {v : Nat} (h : v < 256) : fromLE (bytesLE 1 v) = v := by
  simp only [bytesLE, fromLE, BitVec.toNat_ofNat]
  omega

theorem fromLE_bytesLE_two {v : Nat} (h : v < 65536) : fromLE (bytesLE 2 v) = v := by
  simp only [bytesLE, fromLE, BitVec.toNat_ofNat]
  omega

section
variable {typ src seq ack strobe : Nat} {payload : List Byte}

theorem flitType_flitBytes (h : typ < 256) : flitType (flitBytes typ src seq ack strobe payload) = typ := by
  obtain ⟨crc, hf⟩ := flitBytes_eq typ src seq ack strobe payload
  rw [hf]
  exact fromLE_bytesLE_one h

theorem flitSrc_flitBytes (h : src < 256) : flitSrc (flitBytes typ src seq ack strobe payload) = src := by
  obtain ⟨crc, hf⟩ := flitBytes_eq typ src seq ack strobe payload
  rw [hf]
  exact fromLE_bytesLE_one h

theorem flitSeq_flitBytes : flitSeq (flitBytes typ src seq ack strobe payload) = seq % 4096 := by
  obtain ⟨crc, hf⟩ := flitBytes_eq typ src seq ack strobe payload
  have h : leAt (flitBytes typ src seq ack strobe payload) 2 2 = seq % 4096 := by
    rw [hf]
    exact fromLE_bytesLE_two (by omega)
  rw [flitSeq, h, Nat.mod_mod]

theorem flitStrobe_flitBytes (h : strobe < 65536) : flitStrobe (flitBytes typ src seq ack strobe payload) = strobe := by
  obtain ⟨crc, hf⟩ := flitBytes_eq typ src seq ack strobe payload
  rw [hf]
  exact fromLE_bytesLE_two h

theorem flitPayload_flitBytes (h : payload.length = 64) : flitPayload (flitBytes typ src seq ack strobe payload) = payload := by
  obtain ⟨crc, hf⟩ := flitBytes_eq typ src seq ack strobe payload
  rw [hf, List.take_left' h]
  change (payload ++ crc).take 64 = payload
  exact List.take_left' h

end

/-! ### The codes of a strobe (R25) -/

/-- Codes as the payload of a flit. -/
def codeBytes (cs : List (BitVec 16)) : List Byte := cs.flatMap (fun c => bytesLE 2 c.toNat)

theorem codeBytes_length (cs : List (BitVec 16)) : (codeBytes cs).length = 2 * cs.length := by
  induction cs with
  | nil => rfl
  | cons c cs ih =>
    change (codeBytes cs).length + 1 + 1 = _
    rw [ih, List.length_cons]
    omega

/-- Two bytes of a payload are one code. -/
theorem leAt_codeBytes (cs : List (BitVec 16)) {i : Nat} (hi : i < cs.length) : leAt (codeBytes cs) (2 * i) 2 = cs[i].toNat := by
  induction cs generalizing i with
  | nil => exact absurd hi (Nat.not_lt_zero i)
  | cons c cs ih =>
    cases i with
    | zero => exact fromLE_bytesLE_two c.isLt
    | succ i => exact ih (Nat.lt_of_succ_lt_succ hi)

theorem nth_rawCodes (bs : List Byte) (cs : List (BitVec 16)) (hp : flitPayload bs = codeBytes cs) (hl : cs.length = 32) {i : Nat}
    (hi : i < 32) : nth 0#16 (rawCodes bs) i = nth 0#16 cs i := by
  have hic : i < cs.length := by omega
  have h : (rawCodes bs)[i]? = some (BitVec.ofNat 16 (leAt (flitPayload bs) (2 * i) 2)) := by
    simp [rawCodes, hi]
  rw [nth, nth, List.getD_eq_getElem?_getD, List.getD_eq_getElem?_getD, h, List.getElem?_eq_getElem hic, hp, leAt_codeBytes cs hic,
    Option.getD_some, Option.getD_some, BitVec.ofNat_toNat, BitVec.setWidth_eq]

/-! ### RAW_FLIT_SEND (R25, R33) -/

/-- Work on lanes: of registers it changes those of a list, beside them the lanes. -/
def CodeWork (ks : List Nat) (a t : State) : Prop := t = { a with regs := t.regs, lanes := t.lanes } ∧ RegsBut ks a t

section
variable {ks : List Nat} {a s : State}

theorem CodeWork.refl (ks : List Nat) (s : State) : CodeWork ks s s := ⟨rfl, fun _ _ => rfl⟩

theorem CodeWork.wr (h : CodeWork ks a s) {k : Nat} (hk : k ∈ ks) {v : Word} : CodeWork ks a (s.wr k v) := by
  obtain ⟨he, hr⟩ := h
  refine ⟨?_, fun j hj => ?_⟩
  · rw [he]
    rfl
  · rw [State.rd_wr_other s v (ne_of_mem_of_not_mem hk hj).symm, hr j hj]

theorem CodeWork.setFlag (h : CodeWork ks a s) {k : Nat} (hk : k ∈ ks) {n : Nat} {b : Bool} : CodeWork ks a (s.setFlag k n b) := h.wr hk

theorem CodeWork.incFld (h : CodeWork ks a s) {k : Nat} (hk : k ∈ ks) {hi lo : Nat} : CodeWork ks a (s.incFld k hi lo) := h.wr hk

theorem CodeWork.modLane (h : CodeWork ks a s) {l : Nat} {f : LaneSt → LaneSt} : CodeWork ks a (s.modLane l f) := by
  obtain ⟨he, hr⟩ := h
  refine ⟨?_, fun j hj => (s.modLane_rd l f j).trans (hr j hj)⟩
  rw [he]
  rfl

theorem CodeWork.ite {t : State} {p : Prop} {_ : Decidable p} (hs : CodeWork ks a s) (ht : CodeWork ks a t) :
    CodeWork ks a (if p then s else t) := by
  split
  · exact hs
  · exact ht

theorem CodeWork.foldl {β : Type} {f : State → β → State} {l : List β} (h : CodeWork ks a s)
    (hf : ∀ b ∈ l, ∀ t, CodeWork ks a t → CodeWork ks a (f t b)) : CodeWork ks a (l.foldl f s) := by
  induction l generalizing s with
  | nil => exact h
  | cons b l ih => exact ih (hf b (List.mem_cons_self ..) s h) fun c hc => hf c (List.mem_cons_of_mem b hc)

theorem CodeWork.keepCode (h : CodeWork ks a s) {l : Nat} (hl : Reg.AFE_LSTAT l ∈ ks) (ho : Reg.AFE_OVRCNT l ∈ ks) {n : Nat}
    {r : BitVec 16 × Option Bool} : CodeWork ks a (s.keepCode l n r) := by
  unfold State.keepCode
  extract_lets m t x cs o t1 t2
  have ht : CodeWork ks a t := .ite (h.setFlag hl) h
  have ht1 : CodeWork ks a t1 := ht.setFlag hl
  have ht2 : CodeWork ks a t2 := .ite (ht1.incFld ho) ht1
  exact .ite (.modLane ht) (.modLane ht2)

end

section
variable (s : State)

/-- The registers of a pack's lanes that the codes of a strobe may change. -/
def sendRegs (k : Nat) : List Nat := (List.range 32).flatMap (fun i => [Reg.AFE_LSTAT (32 * k + i), Reg.AFE_OVRCNT (32 * k + i)])

theorem mem_sendRegs (k : Nat) {i : Nat} (hi : i < 32) :
    Reg.AFE_LSTAT (32 * k + i) ∈ sendRegs k ∧ Reg.AFE_OVRCNT (32 * k + i) ∈ sendRegs k :=
  ⟨List.mem_flatMap.mpr ⟨i, List.mem_range.mpr hi, by simp⟩, List.mem_flatMap.mpr ⟨i, List.mem_range.mpr hi, by simp⟩⟩

/-- What the 32 conversions of a strobe of pack k give. -/
def State.strobeResults (s : State) (k n : Nat) (conv : List Conv) : List (BitVec 16 × Option Bool) :=
  (List.range 32).map (fun i => s.convert (s.sendForm (32 * k + i) n) (32 * k + i) n (nth { pins := 0 } conv i))

theorem strobeResults_length (k n : Nat) (conv : List Conv) : (s.strobeResults k n conv).length = 32 := by
  rw [State.strobeResults, List.length_map, List.length_range]

/-- The codes among them. -/
def State.strobeCodes (s : State) (k n : Nat) (conv : List Conv) : List (BitVec 16) := (s.strobeResults k n conv).map Prod.fst

theorem strobeCodes_length (k n : Nat) (conv : List Conv) : (s.strobeCodes k n conv).length = 32 := by
  rw [State.strobeCodes, List.length_map, strobeResults_length]

theorem nth_strobeCodes (k n : Nat) (conv : List Conv) {i : Nat} (hi : i < 32) :
    nth 0#16 (s.strobeCodes k n conv) i =
      (s.convert (s.sendForm (32 * k + i) n) (32 * k + i) n (nth { pins := 0 } conv i)).1 := by
  simp [nth, State.strobeCodes, State.strobeResults, hi]

/-- The lanes keep what was converted. -/
def State.codesKept (s : State) (k n : Nat) (conv : List Conv) : State :=
  (s.strobeResults k n conv).zipIdx.foldl (fun s e => s.keepCode (32 * k + e.2) n e.1) s

theorem codesKept_work (k n : Nat) (conv : List Conv) : CodeWork (sendRegs k) s (s.codesKept k n conv) := by
  refine .foldl (.refl _ s) fun e he t ht => ?_
  have hlt : e.2 < 32 := by
    have h := (List.mem_zipIdx he).2.1
    rw [strobeResults_length] at h
    omega
  obtain ⟨hl, ho⟩ := mem_sendRegs k hlt
  exact ht.keepCode hl ho

/-- The strobe number of a raw flit: of strobe 127 the frame before (R25). -/
def State.rawStrobe (s : State) (n : Nat) : Nat := n + 256 * ((if n = 127 then s.frame + 255 else s.frame) % 256)

theorem rawStrobe_lt {n : Nat} (h : n < 128) : s.rawStrobe n < 65536 := by
  unfold State.rawStrobe
  omega

theorem rawFlitSend_exec (k : Fin 8) (n : Fin 128) (conv : List Conv) (h : s.sends k.val n.val = true) :
    exec (.rawFlitSend k n conv) s =
      .next ((s.codesKept k.val n.val conv).sendFlit .field 1 k.val (s.rawStrobe n.val)
        (codeBytes (s.strobeCodes k.val n.val conv))) := by
  have hi : exec (.rawFlitSend k n conv) s = .next ((s.codesKept k.val n.val conv).sendFlit .field 1 k.val (s.rawStrobe n.val)
      ((s.strobeResults k.val n.val conv).flatMap (fun e => bytesLE 2 e.1.toNat))) := if_neg (by rw [h]; decide)
  rw [hi, codeBytes, State.strobeCodes, List.flatMap_map]

theorem sendFlit_down {d : Die} (h : (s.linkEnd d).up = false) (typ src strobe : Nat) (payload : List Byte) :
    s.sendFlit d typ src strobe payload = s := if_pos h

theorem sendFlit_up {d : Die} (h : (s.linkEnd d).up = true) (typ src strobe : Nat) (payload : List Byte) :
    ∃ x, s.sendFlit d typ src strobe payload = (s.setEnd d x).emit
      (.flit d (flitBytes typ src (((s.linkEnd d).lastSeq + 1) % 4096) (s.linkEnd d).rxLast strobe payload)) :=
  ⟨_, if_neg (by rw [h]; decide)⟩

theorem rawFlitSend_answers (k : Fin 8) (n : Fin 128) (conv : List Conv) :
    Answers (.rawFlitSend k n conv) s (fun t =>
      (s.sends k.val n.val = false → t = s) ∧
      t = { s with link := { s.link with field := t.link.field }, lanes := t.lanes, regs := t.regs, sent := t.sent } ∧
      RegsBut ((List.range 32).flatMap (fun i => [Reg.AFE_LSTAT (32 * k.val + i), Reg.AFE_OVRCNT (32 * k.val + i)])) s t ∧
      (s.link.field.up = false → t.sent = s.sent) ∧
      (s.sends k.val n.val = true → s.link.field.up = true →
        ∃ f, t.sent = s.sent ++ [.flit .field f] ∧ flitType f = 1 ∧ flitSrc f = k.val ∧
          flitSeq f = (s.link.field.lastSeq + 1) % 4096 ∧
          flitStrobe f = n.val + 256 * ((if n.val = 127 then s.frame + 255 else s.frame) % 256) ∧
          ∀ i, i < 32 → nth 0#16 (rawCodes f) i =
            (s.convert (s.sendForm (32 * k.val + i) n.val) (32 * k.val + i) n.val (nth { pins := 0 } conv i)).1)) := by
  cases h : s.sends k.val n.val with
  | false => exact answers_of (if_pos h) ⟨fun _ => rfl, rfl, fun _ _ => rfl, fun _ => rfl, nofun⟩
  | true =>
    have hi := rawFlitSend_exec s k n conv h
    obtain ⟨he, hregs⟩ := codesKept_work s k.val n.val conv
    generalize s.codesKept k.val n.val conv = u at hi he hregs
    have hlink : u.link = s.link := by rw [he]
    have hsent : u.sent = s.sent := by rw [he]
    have hend : u.linkEnd .field = s.link.field := congrArg LinkSt.field hlink
    cases hup : s.link.field.up with
    | false =>
      rw [sendFlit_down u (by rw [hend, hup])] at hi
      refine answers_of hi ⟨nofun, ?_, hregs, fun _ => hsent, nofun⟩
      rw [he]
    | true =>
      obtain ⟨x, hx⟩ := sendFlit_up u (d := .field) (by rw [hend, hup]) 1 k.val (s.rawStrobe n.val)
        (codeBytes (s.strobeCodes k.val n.val conv))
      rw [hx, hend] at hi
      have hk : k.val < 256 := by omega
      have hlen := strobeCodes_length s k.val n.val conv
      refine answers_of hi ⟨nofun, ?_, hregs, nofun, fun _ _ => ⟨flitBytes 1 k.val ((s.link.field.lastSeq + 1) % 4096)
        s.link.field.rxLast (s.rawStrobe n.val) (codeBytes (s.strobeCodes k.val n.val conv)), ?_,
        flitType_flitBytes (by decide), flitSrc_flitBytes hk, ?_,
        flitStrobe_flitBytes (rawStrobe_lt s n.isLt), fun i hi32 => ?_⟩⟩
      · rw [he]
        rfl
      · rw [← hsent]
        rfl
      · rw [flitSeq_flitBytes, Nat.mod_mod]
      · rw [nth_rawCodes _ _ (flitPayload_flitBytes (by rw [codeBytes_length, hlen])) hlen hi32]
        exact nth_strobeCodes s k.val n.val conv hi32

/-! ### One conversion (R82, R86, R87, R92) -/

variable (f : LaneForm) (l n : Nat) (c : Conv)

theorem convert_disabled (h : f.typ = 0) : s.convert f l n c = (0#16, none) := if_pos h

theorem convert_overrange (h : f.typ ≠ 0) (hc : c.cm = true) :
    (s.convert f l n c).1 = if c.pins < 0 then 0x8000#16 else 0x7FFF#16 := by
  unfold State.convert
  rw [if_neg h]
  dsimp only
  rw [if_pos (by simp [hc]), hc]
  simp [markerOf]

/-- A result in range, with no excursion before it, is the code. -/
theorem convert_inRange {y : Int} (hy : nearest (s.corrected f l (laneSignal f l n c.pins + mkRat c.err 256)) = y) (h : f.typ ≠ 0)
    (hc : c.cm = false) (ho : c.ovr = false) (hx : (s.lane l).exc = none) (h1 : -32767 ≤ y) (h2 : y ≤ 32766) :
    (s.convert f l n c).1 = BitVec.ofInt 16 y := by
  have hin : ¬ (c.ovr || c.cm || decide (y < -32767) || decide (32766 < y)) = true := by
    simp [hc, ho]
    omega
  unfold State.convert
  rw [if_neg h]
  dsimp only
  rw [hy, if_neg hin, hx]

theorem laneSignal_level (h : f.inj = 1) (hl : f.level = 1) (pins : Int) : laneSignal f l n pins = 16384 := by
  rw [laneSignal, if_pos h, hl, levelOf]
  norm_num

theorem laneSignal_pins (h : f.inj = 0) (pins : Int) : laneSignal f l n pins = mkRat pins 256 := by
  rw [laneSignal, if_neg (by rw [h]; decide), if_neg (by rw [h]; decide)]

end

/-- Settles O20: the check by `stageAFlitCheck_answers`, the flit by `rawFlitSend_answers`, then the cases of a conversion. -/
theorem rawSamples : Obligations.RawSamples := by
  unfold Obligations.RawSamples
  refine ⟨stageAFlitCheck_answers, rawFlitSend_answers, fun s f l n c => ⟨fun h => ?_, convert_overrange s f l n c,
    convert_inRange s f l n c rfl, fun h hl => laneSignal_level f l n h hl c.pins, fun h => laneSignal_pins f l n h c.pins⟩⟩
  exact congrArg Prod.fst (convert_disabled s f l n c h)

end Sys2Proof.Machine
end

section
/-!
Measurement (O35): its settings, the copies of its results, and the runs of its services. Forming the frame before touches neither memory
nor O jobs nor the frame counter (`FormWork`); what a run queues for a host touches rings, registers and what is sent (`QueueWork`).
-/
namespace Sys2Proof.Machine

/-! ### Forming the frame before (R26) -/

/-- What forming the results of a frame leaves. -/
def FormWork (a t : State) : Prop := t.mem = a.mem ∧ t.ojobs = a.ojobs ∧ t.rd Reg.ENG_FRAME = a.rd Reg.ENG_FRAME

section
variable {a s : State}

theorem FormWork.refl (s : State) : FormWork s s := ⟨rfl, rfl, rfl⟩

theorem FormWork.frame (h : FormWork a s) : s.frame = a.frame := by
  obtain ⟨-, -, hr⟩ := h
  rw [State.frame, hr, State.frame]

theorem FormWork.of_eq {t : State} (h : FormWork a s) (hm : t.mem = s.mem) (ho : t.ojobs = s.ojobs) (hr : t.regs = s.regs) :
    FormWork a t := by
  obtain ⟨hsm, hso, hsr⟩ := h
  exact ⟨hm.trans hsm, ho.trans hso, (State.rd_congr hr _).trans hsr⟩

theorem FormWork.ite {t : State} {p : Prop} {_ : Decidable p} (hs : FormWork a s) (ht : FormWork a t) :
    FormWork a (if p then s else t) := by
  split
  · exact hs
  · exact ht

theorem FormWork.foldl {β : Type} {f : State → β → State} {l : List β} (h : FormWork a s)
    (hf : ∀ b ∈ l, ∀ t, FormWork a t → FormWork a (f t b)) : FormWork a (l.foldl f s) := by
  induction l generalizing s with
  | nil => exact h
  | cons b l ih => exact ih (hf b (List.mem_cons_self ..) s h) fun c hc => hf c (List.mem_cons_of_mem b hc)

theorem FormWork.range {f : State → Nat → State} {n : Nat} (h : FormWork a s)
    (hf : ∀ i, i < n → ∀ t, FormWork a t → FormWork a (f t i)) :
    FormWork a ((List.range n).foldl f s) := h.foldl fun i hi => hf i (List.mem_range.mp hi)

theorem FormWork.wr (h : FormWork a s) {k : Nat} (hk : Reg.ENG_FRAME ≠ k) {v : Word} : FormWork a (s.wr k v) := by
  obtain ⟨hm, ho, hr⟩ := h
  exact ⟨hm, ho, (State.rd_wr_other s v hk).trans hr⟩

theorem FormWork.setFld (h : FormWork a s) {k : Nat} (hk : Reg.ENG_FRAME ≠ k) {hi lo v : Nat} : FormWork a (s.setFld k hi lo v) := h.wr hk

theorem FormWork.setFlag (h : FormWork a s) {k : Nat} (hk : Reg.ENG_FRAME ≠ k) {n : Nat} {b : Bool} : FormWork a (s.setFlag k n b) :=
  h.wr hk

theorem FormWork.incFld (h : FormWork a s) {k : Nat} (hk : Reg.ENG_FRAME ≠ k) {hi lo : Nat} : FormWork a (s.incFld k hi lo) := h.wr hk

theorem FormWork.satFld (h : FormWork a s) {k : Nat} (hk : Reg.ENG_FRAME ≠ k) {hi lo n : Nat} : FormWork a (s.satFld k hi lo n) := h.wr hk

/-- Words from a register on, as far as they stay below the frame counter. -/
theorem FormWork.wrList (h : FormWork a s) {k : Nat} {ws : List Word} (hk : k + 4 * ws.length ≤ Reg.ENG_FRAME) :
    FormWork a (s.wrList k ws) := by
  refine h.foldl fun e he t ht => ht.wr ?_
  have hlt := (List.mem_zipIdx he).2.1
  omega

theorem FormWork.modLane (h : FormWork a s) {l : Nat} {f : LaneSt → LaneSt} : FormWork a (s.modLane l f) := h.of_eq rfl rfl rfl

theorem FormWork.modBay (h : FormWork a s) {b : Nat} {f : BaySt → BaySt} : FormWork a (s.modBay b f) := h.of_eq rfl rfl rfl

theorem FormWork.setRun (h : FormWork a s) {run : RunSt} : FormWork a { s with run } := h.of_eq rfl rfl rfl

theorem FormWork.deliver (h : FormWork a s) {i : Nat} {ws : List Word} : FormWork a (s.deliver i ws) := h.of_eq rfl rfl rfl

/-! ### Lanes (R100 to R113) -/

theorem frame_ne_decLstat {l : Nat} (hl : l < 384) : Reg.ENG_FRAME ≠ Reg.DEC_LSTAT l := by unfold Reg.ENG_FRAME Reg.DEC_LSTAT; omega

theorem FormWork.evalThresholds (h : FormWork a s) {l : Nat} (hl : l < 384) : FormWork a (s.evalThresholds l) := by
  have hk := (decTstat_lt_frame hl).ne'
  unfold State.evalThresholds
  extract_lets x k one
  have hone (t : State) (i : Nat) (set : Word) (ht : FormWork a t) : FormWork a (one t i set) := by
    have hset : FormWork a (t.setFlag k i (threshold set x.rate (t.flag k i))) := ht.setFlag hk
    have hraised : FormWork a (if threshold set x.rate (t.flag k i) && !t.flag k i then
        ((t.setFlag k i (threshold set x.rate (t.flag k i))).setFlag k (3 + i) true).incFld k (23 + 8 * i) (16 + 8 * i)
      else t.setFlag k i (threshold set x.rate (t.flag k i))) := .ite ((hset.setFlag hk).incFld hk) hset
    exact .ite hraised (.setRun hraised)
  exact .ite (h.setFld hk) (hone _ _ _ (hone _ _ _ h))

theorem FormWork.filterLane (h : FormWork a s) {f l : Nat} (hl : l < 384) : FormWork a (s.filterLane f l) := by
  have hk := frame_ne_decLstat hl
  exact .ite (.evalThresholds (.modLane (.setFlag (.setFlag (h.setFld hk) hk) hk)) hl) (.evalThresholds (.modLane h) hl)

theorem FormWork.filterFrame (h : FormWork a s) {f : Nat} : FormWork a (s.filterFrame f) :=
  .deliver (.deliver (.deliver (.range (.setRun h) fun _ hl _ ht => ht.filterLane hl)))

/-! ### Bays (R139 to R156) -/

/-- The window of a bay of MSR lies below the frame counter. -/
theorem msrCfg_window {b : Nat} (hb : b < 48) : Reg.MSR_CFG b + 0x400 ≤ Reg.ENG_FRAME := by unfold Reg.MSR_CFG Reg.ENG_FRAME; omega

theorem frame_ne_msrCfg {b : Nat} (hb : b < 48) {o : Nat} (ho : o < 0x400) : Reg.ENG_FRAME ≠ Reg.MSR_CFG b + o := by
  have := msrCfg_window hb
  omega

theorem frame_ne_msrFstat {b : Nat} (hb : b < 48) : Reg.ENG_FRAME ≠ Reg.MSR_FSTAT b := by unfold Reg.ENG_FRAME Reg.MSR_FSTAT; omega

theorem frame_ne_msrFrame {b : Nat} (hb : b < 48) : Reg.ENG_FRAME ≠ Reg.MSR_FRAME b := by unfold Reg.ENG_FRAME Reg.MSR_FRAME; omega

theorem frame_ne_msrFreq {b : Nat} (hb : b < 48) : Reg.ENG_FRAME ≠ Reg.MSR_FREQ b := by unfold Reg.ENG_FRAME Reg.MSR_FREQ; omega

theorem frame_ne_msrRocof {b : Nat} (hb : b < 48) : Reg.ENG_FRAME ≠ Reg.MSR_ROCOF b := by unfold Reg.ENG_FRAME Reg.MSR_ROCOF; omega

theorem frame_ne_msrSync {b : Nat} (hb : b < 48) : Reg.ENG_FRAME ≠ Reg.MSR_SYNC b := by unfold Reg.ENG_FRAME Reg.MSR_SYNC; omega

theorem frame_ne_msrThd {b k : Nat} (hk : k < 8) : Reg.ENG_FRAME ≠ Reg.MSR_THD b k := by
  unfold Reg.ENG_FRAME Reg.MSR_THD; omega

theorem frame_ne_msrHframe {b : Nat} (hb : b < 48) : Reg.ENG_FRAME ≠ Reg.MSR_HFRAME b := by unfold Reg.ENG_FRAME Reg.MSR_HFRAME; omega

theorem mem_shadowOffsets {o : Nat} (h : o ∈ shadowOffsets) : o < 0x400 := by
  obtain ⟨i, hi, rfl⟩ := List.mem_map.mp h
  have := List.mem_range.mp hi
  omega

theorem FormWork.latchOne (h : FormWork a s) {b : Nat} (hb : b < 48) {f : Nat} {ms : List LaneMeas} {fUsed tk : ℚ} :
    FormWork a (s.latchOne b f ms fUsed tk) :=
  .setFld (.ite (.satFld (.modBay h) (frame_ne_msrSync hb)) (.modBay h)) (frame_ne_msrSync hb)

theorem FormWork.latchReports (h : FormWork a s) {b : Nat} (hb : b < 48) {f : Nat} {ms : List LaneMeas} {fUsed : ℚ} :
    FormWork a (s.latchReports b f ms fUsed) :=
  .ite (.modBay h) (.modBay (.foldl h fun _ _ _ ht => ht.latchOne hb))

theorem FormWork.bayChange (h : FormWork a s) {b : Nat} (hb : b < 48) : FormWork a (s.bayChange b) := by
  have ht := FormWork.modBay (h.setFld (frame_ne_msrFstat hb) (hi := 1) (lo := 0) (v := 1)) (b := b)
    (f := fun x => { x with acqRun := 0, guardRun := 0, fHist := [] })
  exact .ite (.modBay (.ite ht h)) (.ite ht h)

theorem FormWork.track (h : FormWork a s) {b : Nat} (hb : b < 48) : FormWork a (s.track b) := by
  have hk := frame_ne_msrFstat hb
  unfold State.track
  extract_lets _ _ _ _ _ _ _ _ _ _ _ t _ t1 t2 t3
  have ht : FormWork a t := .modBay h
  have ht1 : FormWork a t1 := .ite (ht.setFlag hk) ht
  have ht2 : FormWork a t2 := .setFld (.setFlag (ht1.setFld hk) hk) hk
  have ht3 : FormWork a t3 := ht2.wr (frame_ne_msrFreq hb)
  split
  · exact ht3.wr (frame_ne_msrRocof hb)
  · exact ht3

theorem FormWork.deliverBay (h : FormWork a s) {b : Nat} {lanes rms : List Word} {flags : Nat} {res : List Word} :
    FormWork a (s.deliverBay b lanes rms flags res) :=
  .deliver (.deliver (.deliver (.deliver h)))

theorem FormWork.bayOff (h : FormWork a s) {b : Nat} (hb : b < 48) : FormWork a (s.bayOff b) :=
  .deliverBay (.modBay (.setFld (.foldl h fun _ ho _ ht => ht.wr (frame_ne_msrCfg hb (mem_shadowOffsets ho))) (frame_ne_msrFstat hb)))

theorem bayPowers_length (s : State) (b : Nat) (ms : List LaneMeas) : (s.bayPowers b ms).2.length = 22 := by
  unfold State.bayPowers
  extract_lets iset vset polars pp ps tot ap pf q2
  have hp (x : Option (Cx × Cx × Cx)) : (polars x).length = 6 := by
    cases x with
    | none => rfl
    | some y => rfl
  simp [hp, ps, pp]

theorem polars_length (ms : List LaneMeas) : (ms.flatMap (fun m => polar m.x)).length = 2 * ms.length := by
  induction ms with
  | nil => rfl
  | cons m ms ih => rw [List.flatMap_cons, List.length_append, ih, List.length_cons, polar, List.length_cons, List.length_cons,
      List.length_nil, Nat.mul_add, Nat.add_comm]

theorem FormWork.measureBay (h : FormWork a s) {f b : Nat} (hb : b < 48) : FormWork a (s.measureBay f b) := by
  have hwin := msrCfg_window hb
  unfold State.measureBay
  extract_lets s1 _ s2 _ ms pw t base ph rms _ t1 t2 t3 t4 t5 t6 t7 _ t8 t9
  have hms : ms.length = 8 := by simp [ms]
  have hph : ph.length = 16 := (polars_length ms).trans (by rw [hms])
  have hrms : rms.length = 8 := by simp [rms, hms]
  have hpw : pw.2.length = 22 := bayPowers_length ..
  have htake : (pw.2.take 12).length = 12 := by simp [hpw]
  have hdrop : (pw.2.drop 12).length = 10 := by simp [hpw]
  have hbase : base + 0x400 ≤ Reg.ENG_FRAME := hwin
  have hs1 : FormWork a s1 := h.bayChange hb
  have hs2 : FormWork a s2 := .range hs1 fun _ _ _ ht => ht.modLane
  have ht : FormWork a t := hs2.track hb
  have ht1 : FormWork a t1 := ht.wr (by omega)
  have ht2 : FormWork a t2 := ht1.wr (by omega)
  have ht3 : FormWork a t3 := ht2.wrList (by omega)
  have ht4 : FormWork a t4 := ht3.wrList (by omega)
  have ht5 : FormWork a t5 := ht4.wrList (by omega)
  have ht6 : FormWork a t6 := ht5.wrList (by omega)
  have ht7 : FormWork a t7 := ht6.wr (frame_ne_msrFrame hb)
  have ht8 : FormWork a t8 := .deliverBay ht7
  have ht9 : FormWork a t9 := .modBay ht8
  exact .ite (hs2.bayOff hb) (ht9.latchReports hb)

theorem FormWork.measureFrame (h : FormWork a s) {f : Nat} : FormWork a (s.measureFrame f) := .range h fun _ hb _ ht => ht.measureBay hb

/-! ### Traveling waves, recorders -/

theorem frame_ne_twvLstat (l : Nat) : Reg.ENG_FRAME ≠ Reg.TWV_LSTAT l := by unfold Reg.ENG_FRAME Reg.TWV_LSTAT; omega

theorem FormWork.modBufs (h : FormWork a s) {c : TwBuf → Bool} {f : TwBuf → TwBuf} : FormWork a (s.modBufs c f) := h.of_eq rfl rfl rfl

theorem FormWork.twFrame (h : FormWork a s) : FormWork a s.twFrame :=
  .modBufs (.range h fun l _ _ ht => ht.setFlag (frame_ne_twvLstat l))

theorem FormWork.addEdges (h : FormWork a s) {r : Nat} {gs : List Trig} : FormWork a (s.addEdges r gs) := .ite h (h.of_eq rfl rfl rfl)

theorem FormWork.acqThresholds (h : FormWork a s) : FormWork a s.acqThresholds :=
  .range h fun _ _ _ ht => .ite ht ht.addEdges

theorem FormWork.formFrame (h : FormWork a s) : FormWork a s.formFrame :=
  .setRun (.acqThresholds (.twFrame (.measureFrame (.filterFrame h))))

theorem FormWork.ensureFormed (h : FormWork a s) : FormWork a s.ensureFormed := .ite h (.formFrame h)

end

theorem ensureFormed_of_formed {s : State} (h : s.run.formed = true) : s.ensureFormed = s := if_pos h

theorem ensureFormed_formed (s : State) : s.ensureFormed.run.formed = true := by
  unfold State.ensureFormed
  split
  · assumption
  · rfl

/-! ### What a run queues for a host (R381, R384) -/

/-- What an item for a measurement queue may change, with registers of a bay. -/
def QueueWork (a t : State) : Prop :=
  t = { a with freeIx := t.freeIx, regs := t.regs, sent := t.sent, hq := t.hq } ∧ t.rd Reg.ENG_FRAME = a.rd Reg.ENG_FRAME

section
variable {a s : State}

theorem QueueWork.refl (s : State) : QueueWork s s := ⟨rfl, rfl⟩

theorem QueueWork.frame (h : QueueWork a s) : s.frame = a.frame := by
  obtain ⟨-, hr⟩ := h
  rw [State.frame, hr, State.frame]

theorem QueueWork.ite {t : State} {p : Prop} {_ : Decidable p} (hs : QueueWork a s) (ht : QueueWork a t) :
    QueueWork a (if p then s else t) := by
  split
  · exact hs
  · exact ht

theorem QueueWork.foldl {β : Type} {f : State → β → State} {l : List β} (h : QueueWork a s)
    (hf : ∀ b ∈ l, ∀ t, QueueWork a t → QueueWork a (f t b)) : QueueWork a (l.foldl f s) := by
  induction l generalizing s with
  | nil => exact h
  | cons b l ih => exact ih (hf b (List.mem_cons_self ..) s h) fun c hc => hf c (List.mem_cons_of_mem b hc)

theorem QueueWork.wr (h : QueueWork a s) {k : Nat} (hk : Reg.ENG_FRAME ≠ k) {v : Word} : QueueWork a (s.wr k v) := by
  obtain ⟨he, hr⟩ := h
  refine ⟨?_, (State.rd_wr_other s v hk).trans hr⟩
  rw [he]
  rfl

theorem QueueWork.setFlag (h : QueueWork a s) {k : Nat} (hk : Reg.ENG_FRAME ≠ k) {n : Nat} {b : Bool} : QueueWork a (s.setFlag k n b) :=
  h.wr hk

theorem QueueWork.incFld (h : QueueWork a s) {k : Nat} (hk : Reg.ENG_FRAME ≠ k) {hi lo : Nat} : QueueWork a (s.incFld k hi lo) := h.wr hk

theorem QueueWork.inert (h : QueueWork a s) {freeIx : Nat} {sent : List Out} {hq : HqSt} : QueueWork a { s with freeIx, sent, hq } := by
  obtain ⟨he, hr⟩ := h
  refine ⟨?_, hr⟩
  rw [he]

theorem QueueWork.emit (h : QueueWork a s) {o : Out} : QueueWork a (s.emit o) := h.inert (freeIx := s.freeIx) (hq := s.hq)

theorem QueueWork.freeList (h : QueueWork a s) {n : Nat} : QueueWork a (s.freeList n).2 := h.inert (sent := s.sent) (hq := s.hq)

theorem QueueWork.gotItem (h : QueueWork a s) {p : Nat} {q : Ring} : QueueWork a (s.gotItem p q) :=
  h.inert (freeIx := s.freeIx) (sent := s.sent)

/-- A register of a port's own copy is none of BAR0. -/
theorem le_portKey (p addr : Nat) : 2 ^ 24 ≤ portKey p addr :=
  (Nat.le_mul_of_pos_left _ p.succ_pos).trans (Nat.le_add_right ..)

theorem frame_lt : Reg.ENG_FRAME < 2 ^ 24 := by decide

theorem frame_ne_hqKey (p addr : Nat) : Reg.ENG_FRAME ≠ hqKey p addr := (frame_lt.trans_le (le_portKey p addr)).ne

theorem frame_ne_hqKey_add (p addr o : Nat) : Reg.ENG_FRAME ≠ hqKey p addr + o :=
  (frame_lt.trans_le ((le_portKey p addr).trans (Nat.le_add_right ..))).ne

theorem QueueWork.ringWrite (h : QueueWork a s) {p : Nat} {q : Ring} {bytes : List Byte} {pois : Bool} :
    QueueWork a (s.ringWrite p q bytes pois) :=
  .gotItem (.emit (.wr (.ite (.emit h) (.emit (.emit h))) (frame_ne_hqKey_add _ _ _)))

theorem QueueWork.msqItem (h : QueueWork a s) {p : Nat} {bytes : List Byte} : QueueWork a (s.msqItem p bytes) :=
  .ite h (.ite (.ringWrite h) (.setFlag (h.incFld (frame_ne_hqKey_add _ _ _)) (frame_ne_hqKey _ _)))

theorem QueueWork.harmonicRecord (h : QueueWork a s) {b k : Nat} : QueueWork a (s.harmonicRecord b k).1 := .ite (.freeList h) h

end

end Sys2Proof.Machine
end

section
/-!
Measurement (O35): the settings, the copies of results and the granted runs, by the layer above.
-/
namespace Sys2Proof.Machine

/-! ### MSR_CFG (R151) -/

section
variable (s : State) (p : Port) (v : Word)

theorem msrFstat_lt_frame {b : Nat} (hb : b < 48) : Reg.MSR_FSTAT b < Reg.ENG_FRAME := by unfold Reg.MSR_FSTAT Reg.ENG_FRAME; omega

theorem msrCfg_lt_msrFstat (b : Nat) : Reg.MSR_CFG b < Reg.MSR_FSTAT b := by unfold Reg.MSR_CFG Reg.MSR_FSTAT; omega

theorem msrSync_ne_msrCfg (b : Nat) : Reg.MSR_SYNC b ≠ Reg.MSR_CFG b := by unfold Reg.MSR_CFG Reg.MSR_SYNC; omega

theorem wrMsrCfg_effect {b : Nat} (hb : b < 48) :
    let t := wrMsrCfg b p v s
    OnlyRequests [Reg.MSR_CFG b, Reg.MSR_FSTAT b] s t ∧ t.rd (Reg.MSR_CFG b) = v ∧
    t.waiting (Reg.MSR_CFG b) = [⟨s.hyper3, v, p⟩] ∧ t.flag (Reg.MSR_FSTAT b) 31 = true := by
  have hlt := msrCfg_lt_msrFstat b
  have hfr := msrFstat_lt_frame hb
  have hk : Reg.MSR_CFG b ∈ [Reg.MSR_CFG b, Reg.MSR_FSTAT b] := by simp
  have hst : Reg.MSR_FSTAT b ∈ [Reg.MSR_CFG b, Reg.MSR_FSTAT b] := by simp
  have hn : Reg.ENG_FRAME ∉ [Reg.MSR_CFG b, Reg.MSR_FSTAT b] := by
    simp only [List.mem_cons, List.not_mem_nil, or_false]
    omega
  have hw := ((OnlyRequests.refl _ s).wrOf hk v).setFlagOf hst 31 true
  refine ⟨hw.placeHyper hk v p, ?_, hw.waiting_placeHyper hn v p, ?_⟩
  · rw [wrMsrCfg, State.placeHyper_rd, State.rd_setFlag, if_neg hlt.ne, State.rd_wr_self]
  · rw [wrMsrCfg, State.flag_placeHyper, State.flag_setFlag_self _ _ _ (by decide)]

end

/-- What the settings of a bay change when they take hold: the bays, requests and the bay's status register. -/
def ApplyWork (b : Nat) (a t : State) : Prop :=
  t = { a with regs := t.regs, reqs := t.reqs, bays := t.bays } ∧ RegsBut [Reg.MSR_FSTAT b] a t

section
variable {a s : State} {b : Nat}

theorem ApplyWork.refl (b : Nat) (s : State) : ApplyWork b s s := ⟨rfl, fun _ _ => rfl⟩

theorem ApplyWork.setFlag (h : ApplyWork b a s) (n : Nat) (x : Bool) : ApplyWork b a (s.setFlag (Reg.MSR_FSTAT b) n x) := by
  obtain ⟨he, hr⟩ := h
  refine ⟨?_, fun k hk => ?_⟩
  · rw [he]
    rfl
  · rw [State.rd_setFlag, if_neg (by simpa using hk), hr k hk]

theorem ApplyWork.modBay (h : ApplyWork b a s) (f : BaySt → BaySt) : ApplyWork b a (s.modBay b f) := by
  obtain ⟨he, hr⟩ := h
  refine ⟨?_, fun k hk => ?_⟩
  · rw [he]
    rfl
  · rw [State.modBay_rd, hr k hk]

theorem ApplyWork.setReqs (h : ApplyWork b a s) (k : Nat) (l : List Req) :
    ApplyWork b a { s with reqs := sset (fun _ => []) s.reqs k l } := by
  obtain ⟨he, hr⟩ := h
  refine ⟨?_, hr⟩
  rw [he]

theorem ApplyWork.foldl {f : State → Req → State} {l : List Req} (h : ApplyWork b a s)
    (hf : ∀ t r, ApplyWork b a t → ApplyWork b a (f t r)) :
    ApplyWork b a (l.foldl f s) := by
  induction l generalizing s with
  | nil => exact h
  | cons r l ih => exact ih (hf s r h)

theorem ApplyWork.onDue (h : ApplyWork b a s) {k : Nat} {f : State → Req → State}
    (hf : ∀ t r, ApplyWork b a t → ApplyWork b a (f t r)) :
    ApplyWork b a (s.onDue k f) :=
  (h.setReqs k _).foldl hf

/-- MSR_CFG takes hold: the setting in force, its PENDING cleared (R151). -/
def State.takeMsrCfg (s : State) (b : Nat) (r : Req) : State := (s.putMsrCfg b r.value).setFlag (Reg.MSR_FSTAT b) 31 false

/-- The report rate takes hold (R155). -/
def State.takeMsrSync (s : State) (b : Nat) (r : Req) : State := s.modBay b fun x => { x with rate := field r.value 3 0 }

theorem execMsrCfgApply_eq (bay : Fin 48) (s : State) : execMsrCfgApply bay s =
    .next ((s.onDue (Reg.MSR_CFG bay.val) fun s r => s.takeMsrCfg bay.val r).onDue (Reg.MSR_SYNC bay.val) fun s r =>
      s.takeMsrSync bay.val r) := rfl

theorem ApplyWork.takeMsrCfg (h : ApplyWork b a s) (r : Req) : ApplyWork b a (s.takeMsrCfg b r) := .setFlag (.modBay h _) _ _

theorem ApplyWork.takeMsrSync (h : ApplyWork b a s) (r : Req) : ApplyWork b a (s.takeMsrSync b r) := .modBay h _

/-- One setting takes hold while none waits for another register. -/
theorem State.onDue_one_nil (s : State) {k j : Nat} {f : State → Req → State} (g : State → Req → State) {r : Req} (hkj : j ≠ k)
    (hk : s.waiting k = [r]) (hj : s.waiting j = []) (hr : frameReached s.frame r.due = true) (hf : ∀ t, (f t r).reqs = t.reqs) :
    ∃ u : State, u.bays = s.bays ∧ ((s.onDue k f).onDue j g).bays = (f u r).bays ∧ ((s.onDue k f).onDue j g).regs = (f u r).regs := by
  refine ⟨{ s with reqs := sset (fun _ => []) s.reqs k [] }, rfl, ?_⟩
  rw [State.onDue_one s k f r hk hr, State.onDue_nil]
  · exact ⟨rfl, rfl⟩
  · rw [State.waiting_congr (hf _), State.waiting_reqs, if_neg hkj, hj]

theorem State.bay_congr {s t : State} (h : t.bays = s.bays) (j : Nat) : t.bay j = s.bay j := by rw [State.bay, h, State.bay]

theorem takeMsrCfg_reqs (s : State) (b : Nat) (r : Req) : (s.takeMsrCfg b r).reqs = s.reqs := by
  rw [State.takeMsrCfg, State.setFlag_reqs, State.putMsrCfg, State.modBay_reqs]

theorem bay_takeMsrCfg (hb : b < s.bays.length) (r : Req) : ((s.takeMsrCfg b r).bay b).cfg = r.value := by
  rw [State.takeMsrCfg, State.bay, State.setFlag_bays, ← State.bay, State.putMsrCfg, State.bay_modBay _ _ _ hb, if_pos rfl]

theorem flag_takeMsrCfg (s : State) (b : Nat) (r : Req) : (s.takeMsrCfg b r).flag (Reg.MSR_FSTAT b) 31 = false :=
  State.flag_setFlag_self _ _ _ (by decide)

theorem msrCfgApply_answers (s : State) (bay : Fin 48) :
    let b := bay.val
    Answers (.msrCfgApply bay) s (fun t =>
      t = { s with regs := t.regs, reqs := t.reqs, bays := t.bays } ∧ RegsBut [Reg.MSR_FSTAT b] s t ∧
      ∀ r, s.waiting (Reg.MSR_CFG b) = [r] → s.waiting (Reg.MSR_SYNC b) = [] → frameReached s.frame r.due = true →
        s.bays.length = 48 → (t.bay b).cfg = r.value ∧ t.flag (Reg.MSR_FSTAT b) 31 = false) := by
  have hcfg := (ApplyWork.refl bay.val s).onDue (k := Reg.MSR_CFG bay.val) fun _ r ht => ht.takeMsrCfg r
  obtain ⟨he, hr⟩ := hcfg.onDue (k := Reg.MSR_SYNC bay.val) fun _ r ht => ht.takeMsrSync r
  refine answers_of (execMsrCfgApply_eq bay s) ⟨he, hr, fun r hw hsync hdue hlen => ?_⟩
  obtain ⟨u, hu, hbays, hregs⟩ := s.onDue_one_nil (f := fun s r => s.takeMsrCfg bay.val r) (fun s r => s.takeMsrSync bay.val r)
    (msrSync_ne_msrCfg bay.val) hw hsync hdue fun t => takeMsrCfg_reqs t bay.val r
  have hb : bay.val < u.bays.length := by
    rw [hu]
    omega
  exact ⟨(congrArg BaySt.cfg (State.bay_congr hbays bay.val)).trans (bay_takeMsrCfg hb r),
    (State.flag_congr (State.rd_congr hregs _) 31).trans (flag_takeMsrCfg u bay.val r)⟩

end

/-! ### MSR_FRAME (R156) -/

theorem rd_foldl_wr_other (s : State) (key : Nat → Nat) (val : Nat → Word) {l : List Nat} {k : Nat} (hk : ∀ i ∈ l, k ≠ key i) :
    (l.foldl (fun t i => t.wr (key i) (val i)) s).rd k = s.rd k := by
  induction l generalizing s with
  | nil => rfl
  | cons i l ih =>
    rw [List.foldl_cons, ih _ fun j hj => hk j (List.mem_cons_of_mem i hj), State.rd_wr_other _ _ (hk i (List.mem_cons_self ..))]

/-- Writes that leave what they copy: each word copied is the one that stood there before. -/
theorem foldl_copy_eq (s : State) (key src : Nat → Nat) (l : List Nat) (hl : ∀ i ∈ l, ∀ j, src i ≠ key j) :
    l.foldl (fun t i => t.wr (key i) (t.rd (src i))) s = l.foldl (fun t i => t.wr (key i) (s.rd (src i))) s := by
  induction l using List.reverseRecOn with
  | nil => rfl
  | append_singleton l i ih =>
    rw [List.foldl_append, List.foldl_append, ih fun j hj => hl j (List.mem_append_left _ hj), List.foldl_cons, List.foldl_cons,
      List.foldl_nil, List.foldl_nil, rd_foldl_wr_other s key _ fun j _ => hl i (by simp) j]

/-- A register of BAR0 is none of a port's own copies. -/
theorem ne_portKey {k : Nat} (h : k < 2 ^ 24) (c j : Nat) : k ≠ portKey c j := (h.trans_le (le_portKey c j)).ne

/-- A port's own copy of the bay's results (R156). -/
def State.copyResults (s : State) (c base : Nat) : State :=
  shadowOffsets.foldl (fun s o => s.wr (portKey c (base + o)) (s.rd (base + o))) s

theorem copyResults_eq (s : State) (c : Nat) {base : Nat} (hb : base + 0x400 ≤ 2 ^ 24) : s.copyResults c base =
    (List.range 77).foldl (fun t i => t.wr (portKey c (base + (0x0C + 4 * i))) (s.rd (base + (0x0C + 4 * i)))) s := by
  unfold State.copyResults shadowOffsets
  rw [List.foldl_map]
  refine foldl_copy_eq s (fun i => portKey c (base + (0x0C + 4 * i))) (fun i => base + (0x0C + 4 * i)) (List.range 77) fun i hi j =>
    ne_portKey ?_ c _
  have := List.mem_range.mp hi
  omega

theorem copyResults_frame (s : State) (c : Nat) {base : Nat} (hb : base + 0x400 ≤ 2 ^ 24) :
    s.copyResults c base = { s with regs := (s.copyResults c base).regs } := by
  rw [copyResults_eq s c hb]
  exact foldl_wr_frame ..

theorem rd_copyResults (s : State) (c : Nat) {base o : Nat} (hb : base + 0x400 ≤ 2 ^ 24) (ho : o ∈ shadowOffsets) :
    (s.copyResults c base).rd (portKey c (base + o)) = s.rd (base + o) := by
  obtain ⟨i, hi, rfl⟩ := List.mem_map.mp ho
  rw [copyResults_eq s c hb]
  refine rd_foldl_wr s (fun i => portKey c (base + (0x0C + 4 * i))) (fun i => s.rd (base + (0x0C + 4 * i))) (fun i j h => ?_)
    (List.mem_range.mp hi)
  rw [portKey_inj] at h
  omega

theorem msrCfg_window_bar0 {b : Nat} (hb : b < 48) : Reg.MSR_CFG b + 0x400 ≤ 2 ^ 24 := (msrCfg_window hb).trans frame_lt.le

section
variable {s : State} {p : Port} {rc : Reach} {sc : Scope} {op : State → State × Word}

theorem readGate_unreached (h : s.reaches p rc = false) : readGate s p rc sc op = .next { s with rdata := none } := if_pos h

theorem readGate_noRight (h : s.reaches p rc = true) (hr : s.right p sc = 0) :
    readGate s p rc sc op = .next { s with rdata := some 0#32 } := by
  simp [readGate, h, hr]

theorem readGate_read (h : s.reaches p rc = true) (hr : s.right p sc ≠ 0) :
    readGate s p rc sc op = .next { (op s).1 with rdata := some (op s).2 } := by
  simp [readGate, h, hr]

end

theorem exec_msrFrameRead (s : State) (bay : Fin 48) (p : Port) : exec (.msrFrameRead p bay) s =
    readGate s p .engine (.owned (s.bayOwner bay.val)) fun s =>
      (s.copyResults (portCode p) (Reg.MSR_CFG bay.val), s.rd (Reg.MSR_FRAME bay.val)) := rfl

theorem setRdata_copyResults (s : State) (c : Nat) {base : Nat} (hb : base + 0x400 ≤ 2 ^ 24) (d : Option Word) :
    let t : State := { s.copyResults c base with rdata := d }
    t = { s with regs := t.regs, rdata := t.rdata } := by
  have h := copyResults_frame s c hb
  generalize s.copyResults c base = u at h
  dsimp only
  rw [h]

theorem msrFrameRead_answers (s : State) (bay : Fin 48) (p : Port) :
    let b := bay.val
    Answers (.msrFrameRead p bay) s (fun t =>
      t = { s with regs := t.regs, rdata := t.rdata } ∧
      (s.reaches p .engine = false → t.rdata = none ∧ t.regs = s.regs) ∧
      (s.reaches p .engine = true → s.right p (.owned (s.bayOwner b)) = 0 → t.rdata = some 0#32 ∧ t.regs = s.regs) ∧
      (s.reaches p .engine = true → s.right p (.owned (s.bayOwner b)) ≠ 0 →
        t.rdata = some (s.rd (Reg.MSR_FRAME b)) ∧
        ∀ o, o ∈ shadowOffsets → t.rd (portKey (portCode p) (Reg.MSR_CFG b + o)) = s.rd (Reg.MSR_CFG b + o))) := by
  have hi := exec_msrFrameRead s bay p
  have hw := msrCfg_window_bar0 bay.isLt
  by_cases h : s.reaches p .engine = true
  · have hnot : ¬ s.reaches p .engine = false := by simp [h]
    by_cases hr : s.right p (.owned (s.bayOwner bay.val)) = 0
    · exact answers_of (hi.trans (readGate_noRight h hr)) ⟨rfl, fun h' => absurd h' hnot, fun _ _ => ⟨rfl, rfl⟩,
        fun _ hr' => absurd hr hr'⟩
    · exact answers_of (hi.trans (readGate_read h hr)) ⟨setRdata_copyResults s (portCode p) hw _, fun h' => absurd h' hnot,
        fun _ hr' => absurd hr' hr, fun _ _ => ⟨rfl, fun o ho => (rd_setRdata ..).trans (rd_copyResults s _ hw ho)⟩⟩
  · have hf : s.reaches p .engine = false := by simpa using h
    exact answers_of (hi.trans (readGate_unreached hf)) ⟨rfl, fun _ => ⟨rfl, rfl⟩, fun h' => absurd h' h, fun h' => absurd h' h⟩

/-! ### The granted services (R26, R44, R158) -/

section
variable {a s : State} {b : Nat}

/-- An item for the owner of a bay (R384); a bay without an owner sends none. -/
def State.ownerItem (s : State) (b : Nat) (bytes : List Byte) : State :=
  match s.bayOwner b with
  | some p => s.msqItem p bytes
  | none => s

theorem QueueWork.ownerItem (h : QueueWork a s) {bytes : List Byte} : QueueWork a (s.ownerItem b bytes) := by
  unfold State.ownerItem
  cases s.bayOwner b with
  | none => exact h
  | some p => exact h.msqItem

/-- The harmonic record of one lane of a bay, its THD and its item (R156, R158). -/
def State.harmonicLane (s : State) (b k : Nat) : State :=
  ((s.harmonicRecord b k).1.wr (Reg.MSR_THD b k) (s.harmonicRecord b k).2.1).ownerItem b (s.harmonicRecord b k).2.2

theorem QueueWork.harmonicLane (h : QueueWork a s) {k : Nat} (hk : k < 8) : QueueWork a (s.harmonicLane b k) :=
  .ownerItem (h.harmonicRecord.wr (frame_ne_msrThd hk))

/-- The records of a harmonic run, by the lanes of HMASK. -/
def State.harmonicLanes (s : State) (b mask : Nat) : State :=
  (List.range 8).foldl (fun t k => if natBit mask k then t.harmonicLane b k else t) s

theorem QueueWork.harmonicLanes (h : QueueWork a s) {mask : Nat} : QueueWork a (s.harmonicLanes b mask) :=
  h.foldl fun _ hk _ ht => .ite (.harmonicLane ht (List.mem_range.mp hk)) ht

/-- A granted harmonic run on a formed frame (R158). -/
def State.harmonicRun (s : State) (b : Nat) : State :=
  if bit (s.bay b).cfg 0 = false then s.takeRun 1 b
  else ((s.takeRun 1 b).harmonicLanes b ((s.bay b).hmask % 256)).wr (Reg.MSR_HFRAME b)
    (BitVec.ofNat 32 ((s.frame + 2 ^ 32 - 1) % 2 ^ 32))

theorem execHarmonicAnalysis_eq (bay : Fin 48) (s : State) : execHarmonicAnalysis bay s =
    .next (if s.canRun 1 bay.val = false then s else s.ensureFormed.harmonicRun bay.val) := by
  unfold execHarmonicAnalysis State.harmonicRun
  dsimp only
  split
  · rfl
  · split
    · rfl
    · rfl

theorem harmonicRun_work (hb : b < 48) : QueueWork (s.takeRun 1 b) (s.harmonicRun b) :=
  .ite (.refl _) (.wr (.harmonicLanes (.refl _)) (frame_ne_msrHframe hb))

theorem harmonicRun_idle (h : bit (s.bay b).cfg 0 = false) : s.harmonicRun b = s.takeRun 1 b := if_pos h

theorem rd_harmonicRun (h : bit (s.bay b).cfg 0 = true) :
    (s.harmonicRun b).rd (Reg.MSR_HFRAME b) = BitVec.ofNat 32 ((s.frame + 2 ^ 32 - 1) % 2 ^ 32) := by
  unfold State.harmonicRun
  rw [if_neg (by simp [h]), State.rd_wr_self]

theorem ojobs_takeRun {t : State} (h : t.ojobs = s.ojobs) (kind target : Nat) :
    (t.takeRun kind target).ojobs = (s.takeRun kind target).ojobs := by
  rw [State.takeRun, h, State.takeRun]

theorem harmonicAnalysis_answers (s : State) (bay : Fin 48) :
    let b := bay.val
    Answers (.harmonicAnalysis bay) s (fun t =>
      if s.canRun 1 b = false then t = s
      else
        t.run.formed = true ∧ t.frame = s.frame ∧ t.mem = s.mem ∧ t.ojobs = (s.takeRun 1 b).ojobs ∧
        (s.run.formed = true → bit (s.bay b).cfg 0 = false → t = s.takeRun 1 b) ∧
        (s.run.formed = true → t.lanes = s.lanes ∧ t.bays = s.bays ∧ t.tw = s.tw ∧ t.acq = s.acq) ∧
        (s.run.formed = true → bit (s.bay b).cfg 0 = true →
          t.rd (Reg.MSR_HFRAME b) = BitVec.ofNat 32 ((s.frame + 2 ^ 32 - 1) % 2 ^ 32))) := by
  refine answers_of (execHarmonicAnalysis_eq bay s) ?_
  split
  · rfl
  have hform := (FormWork.refl s).ensureFormed
  have hformed := ensureFormed_formed s
  have hsame := ensureFormed_of_formed (s := s)
  have hframe := hform.frame
  obtain ⟨hmem, hojobs, -⟩ := hform
  generalize s.ensureFormed = u at *
  have hrun := harmonicRun_work (s := u) bay.isLt
  have hrframe := hrun.frame
  obtain ⟨he, -⟩ := hrun
  have hidle := harmonicRun_idle (s := u) (b := bay.val)
  have hrd := rd_harmonicRun (s := u) (b := bay.val)
  generalize u.harmonicRun bay.val = t at *
  refine ⟨?_, ?_, ?_, ?_, fun hf hcfg => ?_, fun hf => ?_, fun hf hcfg => ?_⟩
  · rw [he]
    exact hformed
  · rw [hrframe, ← hframe, State.frame, State.takeRun_rd, State.frame]
  · rw [he]
    exact hmem
  · rw [he]
    exact ojobs_takeRun hojobs 1 bay.val
  · rw [← hsame hf] at hcfg ⊢
    exact hidle hcfg
  · rw [he, hsame hf]
    exact ⟨rfl, rfl, rfl, rfl⟩
  · rw [← hsame hf] at hcfg ⊢
    exact hrd hcfg

/-- The items of a report run, one per latched report, the first of them marked where reports were lost (R155). -/
def State.reportItems (s : State) (b : Nat) (x : BaySt) : State :=
  x.reports.zipIdx.foldl (fun t e => t.ownerItem b (lostMark e.1.bytes (x.lostSince && e.2 == 0))) s

theorem QueueWork.reportItems (h : QueueWork a s) {x : BaySt} : QueueWork a (s.reportItems b x) := h.foldl fun _ _ _ ht => ht.ownerItem

/-- A bay with its report slots empty. -/
def BaySt.emptied (x : BaySt) (y : BaySt) : BaySt :=
  { y with reports := [], lostSince := if x.reports.isEmpty then y.lostSince else false }

/-- A granted report run (R158). -/
def State.reportRun (s : State) (b : Nat) : State :=
  (((s.takeRun 2 b).reportItems b (s.bay b)).modBay b (s.bay b).emptied).setFld (Reg.MSR_SYNC b) 15 12 0

theorem execSynchrophasorReport_eq (bay : Fin 48) (s : State) : execSynchrophasorReport bay s =
    .next (if s.canRun 2 bay.val = false then s else s.reportRun bay.val) := by
  unfold execSynchrophasorReport
  dsimp only
  split
  · rfl
  · rfl

theorem fld_reportRun (s : State) (b : Nat) : (s.reportRun b).fld (Reg.MSR_SYNC b) 15 12 = 0 :=
  State.fld_setFld _ _ _ (by decide) (by decide)

theorem bays_reportItems (s : State) (b : Nat) (x : BaySt) : (s.reportItems b x).bays = s.bays := by
  obtain ⟨he, -⟩ := (QueueWork.refl s).reportItems (b := b) (x := x)
  rw [he]

theorem reports_reportRun (hb : b < s.bays.length) : ((s.reportRun b).bay b).reports = [] := by
  have hlen : b < ((s.takeRun 2 b).reportItems b (s.bay b)).bays.length := by rwa [bays_reportItems, State.takeRun_bays]
  unfold State.reportRun
  rw [State.bay_congr (State.setFld_bays ..), State.bay_modBay _ _ _ hlen, if_pos rfl]
  rfl

/-- What a report run leaves: all but registers, rings, what is sent, the bays and the run that was granted. -/
theorem reportRun_work (s : State) {b : Nat} (hb : b < 48) :
    (s.reportRun b).mem = s.mem ∧ (s.reportRun b).ojobs = (s.takeRun 2 b).ojobs ∧ (s.reportRun b).frame = s.frame ∧
    (s.reportRun b).lanes = s.lanes := by
  have h := (QueueWork.refl (s.takeRun 2 b)).reportItems (b := b) (x := s.bay b)
  have hframe : ((s.takeRun 2 b).reportItems b (s.bay b)).frame = s.frame := by
    rw [h.frame, State.frame, State.takeRun_rd, State.frame]
  obtain ⟨he, -⟩ := h
  unfold State.reportRun
  generalize (s.takeRun 2 b).reportItems b (s.bay b) = u at *
  refine ⟨?_, ?_, ?_, ?_⟩
  · rw [State.setFld_mem, State.modBay_mem, he, State.takeRun_mem]
  · rw [State.setFld_ojobs, State.modBay_ojobs, he]
  · rw [State.frame, State.setFld, State.rd_wr_other _ _ (frame_ne_msrSync hb), State.modBay_rd, ← hframe, State.frame]
  · rw [State.setFld_lanes, State.modBay_lanes, he, State.takeRun_lanes]

theorem synchrophasorReport_answers (s : State) (bay : Fin 48) :
    let b := bay.val
    Answers (.synchrophasorReport bay) s (fun t =>
      if s.canRun 2 b = false then t = s
      else t.fld (Reg.MSR_SYNC b) 15 12 = 0 ∧ (s.bays.length = 48 → (t.bay b).reports = []) ∧ t.mem = s.mem ∧
        t.ojobs = (s.takeRun 2 b).ojobs ∧ t.frame = s.frame ∧ t.lanes = s.lanes) := by
  refine answers_of (execSynchrophasorReport_eq bay s) ?_
  split
  · rfl
  obtain ⟨hmem, hojobs, hframe, hlanes⟩ := reportRun_work s bay.isLt
  exact ⟨fld_reportRun s bay.val, fun hlen => reports_reportRun (by omega), hmem, hojobs, hframe, hlanes⟩

end

/-- Settles O35: the write by `wrMsrCfg_effect`, the others by their `_answers`. -/
theorem measurement : Obligations.Measurement := by
  unfold Obligations.Measurement
  exact fun s bay => ⟨fun p v => writeAnswers_of_gate rfl (wrMsrCfg_effect s p v bay.isLt), msrCfgApply_answers s bay,
    msrFrameRead_answers s bay, harmonicAnalysis_answers s bay, synchrophasorReport_answers s bay⟩

end Sys2Proof.Machine
end

section
/-! ## The capture of a fault location and the queue of its owner's measurements

The distance that a capture shows is also an item of a measurement report (R185): `laterItem` puts its record among the queue
writes that wait for the owner's G jobs, a field of the host port that the frame of `Obligations.Jobs` leaves unchanged. -/
namespace Sys2Proof.Machine

/-- A plan runs, its voters are tested, and the one element of bay 0, a fault locator, holds a capture of frame 0 in frame 2. -/
def capturedState : State where
  regs := [(Reg.PWR_TRIAD, 0x100#32), (Reg.PEL_ICFG 0, 0x8E000000#32), (Reg.ENG_FRAME, 2#32)]
  triad := { turn := 2 }
  pel := { insts := [{ cap := some {} }] }
  bays := [{ part := some 0 }]

/-- Whether a command answers with a next state, and no queue write of port 0 waits for a G job in it. -/
def leavesNoLater (r : R) : Bool :=
  match r with
  | .next t => (t.port 0).later.isEmpty
  | _ => false

theorem capturedState_later : leavesNoLater (exec (.rfloCaptureComplete ⟨0, {}⟩) capturedState) = false := by decide +kernel

/-- A next state whose host queues are those of `capturedState` holds no queue write. -/
theorem leavesNoLater_of_hq {r : R} {t : State} (hr : r = .next t) (hq : t.hq = capturedState.hq) : leavesNoLater r = true := by
  rw [hr, leavesNoLater, State.port, hq]
  decide

/-- Refutes O37: the clause of `rfloCaptureComplete` leaves the host queues out of what may change, and the capture of
`capturedState` is evaluated with a record for the measurement queue of the bay's owner. -/
theorem not_jobs : ¬ Obligations.Jobs := by
  unfold Obligations.Jobs
  rintro ⟨-, hcapture, -⟩
  obtain ⟨t, ht, hframe, -⟩ := hcapture capturedState 0 {}
  have hq : t.hq = capturedState.hq := by rw [hframe]
  have hevaluated := capturedState_later
  rw [leavesNoLater_of_hq ht hq] at hevaluated
  exact Bool.noConfusion hevaluated

end Sys2Proof.Machine
end

section
/-! ## The agreement of a frame and the count of a deferred job

The frame's O jobs are considered within the command of the ingress agreement (log 13), and a job that is deferred is counted in
PWR_ODEF of its index (R54). The model bounds no index, so the state of the refutation holds a job whose count has the address of
ENG_ISIG_LO: it is counted there, while three members whose copies differ pairwise leave the signature (R216). -/
namespace Sys2Proof.Machine

theorem allSame_of_nodup (g : BitVec 64) {x y z : BitVec 64} (h : [x, y, z].Nodup) :
    allSame [(0, g ^^^ x), (1, g ^^^ y), (2, g ^^^ z)] = false := by
  simp only [List.nodup_cons, List.mem_cons, List.not_mem_nil, or_false, not_or] at h
  obtain ⟨⟨hxy, -⟩, -⟩ := h
  simp [allSame, BitVec.xor_right_inj, Ne.symm hxy]

theorem oddOne_of_nodup (g : BitVec 64) {x y z : BitVec 64} (h : [x, y, z].Nodup) :
    oddOne [(0, g ^^^ x), (1, g ^^^ y), (2, g ^^^ z)] = none := by
  simp only [List.nodup_cons, List.mem_cons, List.not_mem_nil, or_false, not_or] at h
  obtain ⟨⟨hxy, hxz⟩, hyz, -⟩ := h
  simp [oddOne, BitVec.xor_right_inj, hxy, hxz, hyz]

/-- What a frame leaves whose image no two members agree on (R216). -/
def State.noImage (s : State) (cycle : Nat) : State :=
  let u := { s with triad := { s.triad with turn := if s.triad.tested then 2 else 1 } }
  ((u.satFld Reg.ENG_IAGR 15 0 1).verdict .noMaj 7 cycle 5).withhold

theorem ingress_eq_noImage {s : State} {first second : List (BitVec 64)} (cycle : Nat) (hm : s.members = [0, 1, 2])
    (hfirst : [nth 0#64 first 0, nth 0#64 first 1, nth 0#64 first 2].Nodup)
    (hsecond : [nth 0#64 second 0, nth 0#64 second 1, nth 0#64 second 2].Nodup) :
    s.ingress first second cycle = .next (s.noImage cycle) := by
  unfold State.ingress
  have hmembers : (State.members { s with triad := { s.triad with turn := if s.triad.tested then 2 else 1 } }) = [0, 1, 2] := hm
  simp only [hmembers, List.map_cons, List.map_nil, allSame_of_nodup _ hfirst, oddOne_of_nodup _ hfirst, Option.map_none,
    allSame_of_nodup _ hsecond, oddOne_of_nodup _ hsecond]
  rfl

/-- A plan runs in its first frame, and one on-demand job waits that no frame has the energy for; its count would be PWR_ODEF 73 926,
which has the address of ENG_ISIG_LO. -/
def deferringState : State where
  regs := [(Reg.PWR_TRIAD, 0x100#32)]
  ojobs := [{ index := 73926, kind := 3, target := 0, n := 0, phase := 0, prio := 0, cycles := 0, energy := 1, pend := 1 }]

theorem deferringState_turn : deferringState.planRuns = true ∧ deferringState.triad.turn = 0 := by decide

theorem deferringState_members : deferringState.members = [0, 1, 2] ∧ deferringState.considerO.members = [0, 1, 2] := by decide +kernel

theorem deferringState_signature : deferringState.rd Reg.ENG_ISIG_LO = 0#32 ∧
    (deferringState.considerO.noImage 0).rd Reg.ENG_ISIG_LO = 1#32 := by decide +kernel

theorem execIngressAgreement_deferringState :
    exec (.ingressAgreement [1, 2, 4] [1, 2, 4] 0) deferringState = .next (deferringState.considerO.noImage 0) := by
  obtain ⟨hplan, hturn⟩ := deferringState_turn
  have hexec : exec (.ingressAgreement [1, 2, 4] [1, 2, 4] 0) deferringState =
      execIngressAgreement [1, 2, 4] [1, 2, 4] 0 deferringState := rfl
  rw [hexec, execIngressAgreement, if_neg (by simp [hplan, hturn])]
  exact ingress_eq_noImage 0 deferringState_members.2 (by decide) (by decide)

/-- Refutes O39: the three copies of `deferringState` differ pairwise before and after the recopy, and ENG_ISIG_LO takes the count of
the deferred job. -/
theorem not_triadChecks : ¬ Obligations.TriadChecks := by
  unfold Obligations.TriadChecks
  intro h
  obtain ⟨-, hagreement, -⟩ := h deferringState
  obtain ⟨t, ht, hclauses⟩ := hagreement [1, 2, 4] [1, 2, 4] 0
  obtain ⟨hplan, hturn⟩ := deferringState_turn
  obtain ⟨hbefore, hafter⟩ := deferringState_signature
  have heq : deferringState.considerO.noImage 0 = t := Host.Outcome.next.inj (execIngressAgreement_deferringState.symm.trans ht)
  rw [if_neg (by simp [hplan, hturn])] at hclauses
  obtain ⟨-, -, -, -, -, -, -, -, hdiffer⟩ := hclauses
  obtain ⟨-, hkept⟩ := hdiffer deferringState_members.1 (by decide) (by decide)
  rw [← heq, hbefore, hafter] at hkept
  exact absurd hkept (by decide)

end Sys2Proof.Machine
end

section
/-! ## A frame boundary that loses the count of frames

The statuses of the lanes of a survey end with it, by the lanes that `sniff.lanes` names; the model bounds no lane there, and
AFE_LSTAT of lane 130 560 has the address of ENG_FRAME. In `surveyedState` the boundary begins a load from the flash, which stops the
survey, so that ENG_FRAME loses its bit 12. The boundary is evaluated stage by stage: a stage that a state is fixed under, or the few
fields it changes, is one small evaluation, where the whole boundary is too deep for the kernel. -/
namespace Sys2Proof.Machine

/-! ### Folds and sends that leave what matters -/

theorem foldl_of_fixed {α β : Type} {f : α → β → α} {a : α} {l : List β} (h : ∀ b ∈ l, f a b = a) : l.foldl f a = a := by
  induction l with
  | nil => rfl
  | cons b l ih =>
    rw [List.foldl_cons, h b List.mem_cons_self]
    exact ih (fun c hc => h c (List.mem_cons_of_mem b hc))

theorem foldl_range_of_fixed {α : Type} {f : α → Nat → α} {a : α} {n : Nat} (h : ∀ i < n, f a i = a) : (List.range n).foldl f a = a :=
  foldl_of_fixed (fun i hi => h i (List.mem_range.1 hi))

theorem frame_formBudget (s : State) (win : Bool) (on : List Nat) : (s.formBudget win on).frame = s.frame := by
  unfold State.frame State.formBudget State.setFld
  rw [State.rd_wr_other _ _ (by decide), State.rd_wr_other _ _ (by decide), State.rd_wr_other _ _ (by decide),
    State.rd_wr_other _ _ (by decide)]
  rfl

theorem frame_sendFree (s : State) (d : Die) (typ : Nat) (payload : List Byte) : (s.sendFree d typ payload).frame = s.frame := by
  unfold State.sendFree
  dsimp only
  split
  · rfl
  · rfl

theorem frame_sendFlit (s : State) (d : Die) (typ src strobe : Nat) (payload : List Byte) :
    (s.sendFlit d typ src strobe payload).frame = s.frame := by
  cases hup : (s.linkEnd d).up with
  | false => rw [sendFlit_down s hup]
  | true =>
    obtain ⟨x, hx⟩ := sendFlit_up s hup typ src strobe payload
    rw [hx]
    cases d <;> rfl

theorem frame_sendStrobe (s : State) : s.sendStrobe.frame = s.frame := (frame_sendFlit ..).trans (frame_sendFree ..)

/-! ### The boundary in stages -/

/-- The instant of the boundary. -/
def State.toFrameEnd (s : State) : State :=
  let e := s.advance s.toBoundary
  { e with time := { e.time with align := s.alignNext } }

/-- The end of the frame. -/
def State.frameEnd (s : State) : State :=
  (s.releaseFrame.showStatuses.keepImage.latchSettings.streamFrame.countBudget.returnRuns).signals

/-- The start of the next frame, up to what takes effect at its boundary. -/
def State.frameStart (s : State) : State := (s.countFrame.closeImage.auxFrame.triadFrame).bankSums.fioSections

/-- The budget and the strobe leave ENG_FRAME as the effects of the boundary leave it. -/
theorem execFrameBoundary_frame {s : State} (h : s.phase = .running) :
    ∃ t, exec .frameBoundary s = .next t ∧
      t.frame = s.finishFrame.toFrameEnd.frameEnd.frameStart.boundaryEffects.latchTstat.showForced.frame := by
  refine ⟨_, if_neg (not_not.2 h), ?_⟩
  exact (frame_sendStrobe _).trans (frame_formBudget _ _ _)

/-! ### The state of the refutation -/

/-- In SAFE a plan runs and a survey, at a step whose lane is no lane of the device, and a load from the flash is due at the boundary;
the link is up. Lists that do not matter here are empty. -/
def surveyedState : State where
  regs := [(Reg.SYS_STAT, 0x20#32), (Reg.SYS_MODE, 7#32), (Reg.PWR_TRIAD, 0x100#32), (Reg.SNF_CMD, 0x40000000#32),
    (Reg.ENG_FRAME, 0x1000#32)]
  reqs := [(Reg.SEC_LOADCMD, [⟨0x1001, 1#32, .svc⟩])]
  link := { field := { up := true } }
  sniff := { stepAt := some 0, lanes := [130560] }
  run := { formed := true }
  budget := { overClr := 16, hotClr := 16 }
  lanes := []
  bays := []
  tw := { lanes := [], bays := [] }
  acq := { recs := [] }
  pel := { wins := [] }

/-- `surveyedState` at the end of its frame. -/
def surveyedFrameEnd : State := { surveyedState with
  time := { tbNs := 62500, nsec := 62500, elapsed := 268435456000000 } }

/-- `surveyedState` after the end of its frame. -/
def surveyedEnded : State := { surveyedFrameEnd with
  run := { formed := false }
  sniff := { stepAt := some 0, lanes := [130560], frames := 1 } }

/-- `surveyedState` once the next frame is counted. -/
def surveyedCounted : State := { surveyedEnded with
  regs := [(Reg.SYS_STAT, 0x20#32), (Reg.SYS_MODE, 7#32), (Reg.PWR_TRIAD, 0x100#32), (Reg.SNF_CMD, 0x40000000#32),
    (Reg.ENG_FRAME, 0x1001#32), (Reg.ENG_FSEC, 1#32)]
  time := { tbNs := 62500, nsec := 62500, elapsed := 268435456000000, frTb := 62500, frNsec := 62500, rollAtStart := false
            frames := 1 } }

/-- `surveyedState` as the next frame starts. -/
def surveyedNext : State := { surveyedCounted with
  regs := [(Reg.SYS_STAT, 0x20#32), (Reg.SYS_MODE, 7#32), (Reg.PWR_TRIAD, 0x100#32), (Reg.SNF_CMD, 0x40000000#32),
    (Reg.SNF_SUPSTAT, 1#32), (Reg.ENG_FRAME, 0x1001#32), (Reg.ENG_FSEC, 1#32)]
  fio := { underN := [1, 1, 1, 1] }
  triad := { units := [(0xDD8, List.replicate 32 0#32), (0xDF8, List.replicate 32 0#32)] } }

theorem finishFrame_surveyed : surveyedState.finishFrame = surveyedState := by decide +kernel

theorem toFrameEnd_surveyed : surveyedState.toFrameEnd = surveyedFrameEnd := by decide +kernel

theorem release_surveyed : surveyedFrameEnd.releaseFrame.showStatuses.keepImage = surveyedFrameEnd := by decide +kernel

theorem formLane_surveyed : ∀ l < 384, surveyedFrameEnd.formLane l = surveyedFrameEnd := by decide +kernel

theorem formBay_surveyed : ∀ b < 48, surveyedFrameEnd.formBay b = surveyedFrameEnd := by decide +kernel

theorem countWindows_surveyed : ∀ b < 32, surveyedFrameEnd.countWindows b = surveyedFrameEnd := by decide +kernel

theorem twBoundary_surveyed : surveyedFrameEnd.twBoundary = surveyedFrameEnd := by decide +kernel

theorem laneFrameEnd_surveyed : ∀ l < 256, surveyedFrameEnd.laneFrameEnd l = surveyedFrameEnd := by decide +kernel

theorem latchSettings_surveyed : surveyedFrameEnd.latchSettings = { surveyedFrameEnd with run := { formed := false } } := by
  simp only [State.latchSettings, foldl_range_of_fixed formLane_surveyed, foldl_range_of_fixed formBay_surveyed,
    foldl_range_of_fixed countWindows_surveyed, twBoundary_surveyed, foldl_range_of_fixed laneFrameEnd_surveyed]
  rfl

theorem streamFrame_surveyed : State.streamFrame { surveyedFrameEnd with run := { formed := false } } = surveyedEnded := by
  decide +kernel

theorem signals_surveyed : surveyedEnded.countBudget.returnRuns.signals = surveyedEnded := by decide +kernel

theorem frameEnd_surveyed : surveyedFrameEnd.frameEnd = surveyedEnded := by
  rw [State.frameEnd, release_surveyed, latchSettings_surveyed, streamFrame_surveyed, signals_surveyed]

theorem countFrame_surveyed : surveyedEnded.countFrame.closeImage = surveyedCounted := by decide +kernel

theorem frameStart_surveyed : surveyedEnded.frameStart = surveyedNext := by
  rw [State.frameStart, countFrame_surveyed]
  decide +kernel

theorem frame_surveyed : surveyedState.frame = 0x1000 ∧ surveyedNext.boundaryEffects.latchTstat.showForced.frame = 1 := by
  decide +kernel

/-- Refutes O50: ENG_FRAME of `surveyedState` goes from 4 096 to 1 at the boundary. -/
theorem not_frameBoundary : ¬ Obligations.FrameBoundary := by
  unfold Obligations.FrameBoundary
  intro h
  obtain ⟨⟨t, ht, hclauses⟩, -⟩ := h surveyedState
  have hrunning : surveyedState.phase = .running := rfl
  obtain ⟨u, hu, hframe⟩ := execFrameBoundary_frame hrunning
  obtain ⟨hbefore, hafter⟩ := frame_surveyed
  rw [finishFrame_surveyed, toFrameEnd_surveyed, frameEnd_surveyed, frameStart_surveyed, hafter] at hframe
  rw [if_neg (not_not.2 hrunning)] at hclauses
  obtain ⟨-, hcount, -⟩ := hclauses
  have heq : u = t := Host.Outcome.next.inj (hu.symm.trans ht)
  rw [← heq, hframe, hbefore] at hcount
  exact absurd hcount (by decide)

end Sys2Proof.Machine
end

section
/-! ## Completion entries of a host port

What the writing of a port's completion entries may change (R379, R380): what is sent, the port, and below bit 30 the registers that
show its two rings (`CplWork`). Held entries leave as far as the ring has room. -/
namespace Sys2Proof.Machine

/-! ### Keys -/

theorem hqKey_ne_of_addr (p : Nat) {a b : Nat} (h : a ≠ b) : hqKey p a ≠ hqKey p b := fun he => h ((portKey_inj p a b).1 he)

theorem hqKey_ne_of_port {p j : Nat} (h : p ≠ j) {a b : Nat} (ha : a < 2 ^ 24) (hb : b < 2 ^ 24) : hqKey p a ≠ hqKey j b := by
  unfold hqKey portKey
  omega

/-- Registers of port instances at different addresses differ, whichever ports they belong to. -/
theorem hqKey_ne {a b : Nat} (h : a ≠ b) (ha : a < 2 ^ 24) (hb : b < 2 ^ 24) (p j : Nat) : hqKey p a ≠ hqKey j b := by
  by_cases hp : p = j
  · rw [hp]
    exact hqKey_ne_of_addr j h
  · exact hqKey_ne_of_port hp ha hb

/-- The registers that show a port's completion ring and its command ring. -/
def cplKeys (p : Nat) : List Nat := [hqKey p Reg.HQ_CPLSTAT, hqKey p Reg.HQ_CMDSTAT]

theorem notMem_cplKeys {k : Nat} (h : k < 2 ^ 24) (p : Nat) : k ∉ cplKeys p := by
  simp only [cplKeys, List.mem_cons, List.not_mem_nil, or_false, not_or]
  exact ⟨ne_portKey h _ _, ne_portKey h _ _⟩

theorem hqKey_notMem_cplKeys {j p a : Nat} (ha : a < 2 ^ 24) (h : j ≠ p ∨ a ≠ Reg.HQ_CPLSTAT ∧ a ≠ Reg.HQ_CMDSTAT) :
    hqKey j a ∉ cplKeys p := by
  simp only [cplKeys, List.mem_cons, List.not_mem_nil, or_false, not_or]
  obtain hp | ⟨hc, hm⟩ := h
  · exact ⟨hqKey_ne_of_port hp ha (by decide), hqKey_ne_of_port hp ha (by decide)⟩
  · exact ⟨hqKey_ne hc ha (by decide) j p, hqKey_ne hm ha (by decide) j p⟩

/-! ### What the writing of entries may change -/

section
variable {a s : State} {p : Nat}

/-- From a to t only entries of port p have been written. -/
structure CplWork (p : Nat) (a t : State) : Prop where
  only : t = { a with hq := { a.hq with ports := t.hq.ports }, regs := t.regs, sent := t.sent }
  regs : RegsBut (cplKeys p) a t
  flags : ∀ k n, 30 ≤ n → t.flag k n = a.flag k n
  port : ∀ j, j ≠ p → t.port j = a.port j
  length : t.hq.ports.length = a.hq.ports.length
  sent : a.sent <+: t.sent

theorem CplWork.refl (p : Nat) (s : State) : CplWork p s s where
  only := rfl
  regs _ _ := rfl
  flags _ _ _ := rfl
  port _ _ := rfl
  length := rfl
  sent := List.prefix_rfl

theorem CplWork.rd (h : CplWork p a s) {k : Nat} (hk : k < 2 ^ 24) : s.rd k = a.rd k := h.regs k (notMem_cplKeys hk p)

theorem CplWork.frame (h : CplWork p a s) : s.frame = a.frame := by rw [State.frame, h.rd frame_lt, State.frame]

theorem CplWork.ringOn (h : CplWork p a s) (j : Nat) (q : Ring) : s.ringOn j q = a.ringOn j q := h.flags _ _ le_rfl

theorem CplWork.cplSize (h : CplWork p a s) (j : Nat) : s.rd (hqKey j Reg.HQ_CPLSIZE) = a.rd (hqKey j Reg.HQ_CPLSIZE) :=
  h.regs _ (hqKey_notMem_cplKeys (by decide) (Or.inr (by decide)))

theorem CplWork.modPort (h : CplWork p a s) {f : PortSt → PortSt} : CplWork p a (s.modPort p f) where
  only := by
    rw [h.only]
    rfl
  regs := h.regs
  flags := h.flags
  port j hj := (nth_modAt_other _ _ _ hj).trans (h.port j hj)
  length := (List.length_modify ..).trans h.length
  sent := h.sent

theorem CplWork.emit (h : CplWork p a s) {o : Out} : CplWork p a (s.emit o) where
  only := by
    rw [h.only]
    rfl
  regs := h.regs
  flags := h.flags
  port := h.port
  length := h.length
  sent := h.sent.trans (List.prefix_append ..)

/-- Below bit 30 the two registers show what stands in the rings. -/
theorem CplWork.wr (h : CplWork p a s) {k : Nat} (hk : k ∈ cplKeys p) {w : Word} (hw : ∀ n, 30 ≤ n → bit w n = bit (s.rd k) n) :
    CplWork p a (s.wr k w) where
  only := by
    rw [h.only]
    rfl
  regs j hj := (State.rd_wr_other s w (fun e => hj (by rwa [e]))).trans (h.regs j hj)
  flags j n hn := by
    rw [← h.flags j n hn, State.flag, State.rd_wr]
    split
    · next e => rw [hw n hn, e, State.flag]
    · rfl
  port := h.port
  length := h.length
  sent := h.sent

theorem CplWork.setFld (h : CplWork p a s) {k : Nat} (hk : k ∈ cplKeys p) {hi lo v : Nat} (hhi : hi < 30) (hlo : lo ≤ hi) :
    CplWork p a (s.setFld k hi lo v) := by
  refine h.wr hk fun n hn => ?_
  rw [bit_setField _ _ _ (by omega) hlo, if_neg (by omega)]

theorem CplWork.setFlag (h : CplWork p a s) {k : Nat} (hk : k ∈ cplKeys p) {m : Nat} {b : Bool} (hm : m < 30) :
    CplWork p a (s.setFlag k m b) := by
  refine h.wr hk fun n hn => ?_
  rw [bit_setBit _ _ _ (by omega), if_neg (by omega)]

theorem CplWork.gotItem (h : CplWork p a s) {q : Ring} : CplWork p a (s.gotItem p q) := h.modPort

theorem CplWork.writeCpl (h : CplWork p a s) : CplWork p a (s.writeCpl p) := by
  have hcpl : hqKey p Reg.HQ_CPLSTAT ∈ cplKeys p := List.mem_cons_self
  have hcmd : hqKey p Reg.HQ_CMDSTAT ∈ cplKeys p := List.mem_cons_of_mem _ List.mem_cons_self
  unfold State.writeCpl
  dsimp only
  split
  · exact h
  · split
    · exact h
    · exact (((((h.modPort.setFld hcpl (by decide) (by decide)).setFlag hcpl (by decide)).setFld hcpl (by decide)
        (by decide)).setFld hcmd (by decide) (by decide)).emit).gotItem

theorem CplWork.drainCpl (h : CplWork p a s) (n : Nat) : CplWork p a (s.drainCpl n p) := by
  induction n generalizing s with
  | zero => exact h
  | succ n ih => exact ih h.writeCpl

theorem CplWork.postCpl (h : CplWork p a s) {c : Cpl} : CplWork p a (s.postCpl p c) :=
  (h.modPort.setFld List.mem_cons_self (by decide) (by decide)).drainCpl _

theorem CplWork.complete (h : CplWork p a s) {tag : Nat} {final : Bool} {status result : Nat} :
    CplWork p a (s.complete p tag final status result) := by
  unfold State.complete
  split
  · exact h.postCpl
  · exact h

end

/-! ### Held entries -/

section
variable {s : State} {p : Nat}

theorem writeCpl_of_off (h : s.ringOn p .cpl = false) : s.writeCpl p = s := by
  unfold State.writeCpl
  dsimp only
  split
  · rfl
  · rw [if_pos (Or.inl h)]

theorem drainCpl_of_off (h : s.ringOn p .cpl = false) (n : Nat) : s.drainCpl n p = s := by
  induction n with
  | zero => rfl
  | succ n ih => rw [State.drainCpl, writeCpl_of_off h, ih]

theorem port_modPort (hp : p < s.hq.ports.length) (f : PortSt → PortSt) : (s.modPort p f).port p = f (s.port p) :=
  (nth_modAt _ _ _ _ _ hp).trans (if_pos rfl)

theorem port_congr {t : State} (h : t.hq = s.hq) : t.port p = s.port p := by rw [State.port, h, State.port]

@[simp] theorem length_ports_modPort (f : PortSt → PortSt) : (s.modPort p f).hq.ports.length = s.hq.ports.length := List.length_modify ..

/-- Where the ring has room the oldest held entry leaves. -/
theorem writeCpl_port {c : Cpl} {rest : List Cpl} (hp : p < s.hq.ports.length) (hheld : (s.port p).held = c :: rest)
    (hon : s.ringOn p .cpl = true) (hroom : (s.port p).out < 2 ^ s.fld (hqKey p Reg.HQ_CPLSIZE) 3 0) :
    ((s.writeCpl p).port p).held = rest ∧ ((s.writeCpl p).port p).out = (s.port p).out + 1 := by
  have hfree : ¬ (s.ringOn p .cpl = false ∨ 2 ^ s.fld (hqKey p Reg.HQ_CPLSIZE) 3 0 ≤ (s.port p).out) := by
    rw [hon]
    simp only [Bool.true_eq_false, false_or, not_le]
    exact hroom
  unfold State.writeCpl
  simp only [hheld, if_neg hfree]
  rw [State.gotItem, port_modPort (by simpa using hp)]
  have hport := port_modPort hp
  simp only [State.port, State.emit_hq, State.setFld_hq, State.setFlag_hq] at hport ⊢
  simp only [hport, and_self]

/-- Held entries that the ring has room for all leave. -/
theorem held_drainCpl {n : Nat} (hp : p < s.hq.ports.length) (hon : s.ringOn p .cpl = true) (hn : (s.port p).held.length = n)
    (hroom : (s.port p).out + n ≤ 2 ^ s.fld (hqKey p Reg.HQ_CPLSIZE) 3 0) : ((s.drainCpl n p).port p).held = [] := by
  induction n generalizing s with
  | zero => exact List.length_eq_zero_iff.1 hn
  | succ n ih =>
    obtain ⟨c, rest, hheld⟩ := List.exists_cons_of_length_eq_add_one hn
    obtain ⟨hrest, hout⟩ := writeCpl_port hp hheld hon (by omega)
    have hwork := (CplWork.refl p s).writeCpl
    rw [hheld, List.length_cons] at hn
    refine ih ?_ ?_ ?_ ?_
    · rwa [hwork.length]
    · rwa [hwork.ringOn]
    · rw [hrest]
      omega
    · rw [hout, State.fld_congr (hwork.cplSize p)]
      omega

/-! ### The entry of a command -/

theorem complete_eq_of_mem {d : Cmd} (hd : d ∈ (s.port p).cmds) (huniq : ∀ c, c ∈ (s.port p).cmds → c.tag = d.tag → c = d)
    (final : Bool) (status result : Nat) :
    s.complete p d.tag final status result = s.postCpl p ⟨d.tag, d.cid, d.opcode, final, status, s.frame, result⟩ := by
  unfold State.complete
  cases hfind : (s.port p).cmds.find? (fun c => c.tag == d.tag) with
  | none =>
    have hno := List.find?_eq_none.1 hfind d hd
    simp at hno
  | some c =>
    have htag := List.find?_some hfind
    rw [huniq c (List.mem_of_find?_eq_some hfind) (by simpa using htag)]

theorem held_postCpl_of_off (hp : p < s.hq.ports.length) (hoff : s.ringOn p .cpl = false) (c : Cpl) :
    ((s.postCpl p c).port p).held = (s.port p).held ++ [c] := by
  have hwork (v : Nat) : CplWork p s ((s.modPort p (fun x => { x with held := x.held ++ [c] })).setFld (hqKey p Reg.HQ_CPLSTAT) 24 16 v) :=
    (CplWork.refl p s).modPort.setFld List.mem_cons_self (by decide) (by decide)
  unfold State.postCpl
  rw [drainCpl_of_off ((hwork _).ringOn p .cpl ▸ hoff), port_congr (State.setFld_hq ..), port_modPort hp]

/-- A command in flight receives its entry. -/
theorem posts_complete {d : Cmd} (hd : d ∈ (s.port p).cmds) (final : Bool) (status result : Nat) :
    Posts s (s.complete p d.tag final status result) p d final status result := by
  intro hoff huniq hp
  rw [complete_eq_of_mem hd huniq]
  exact held_postCpl_of_off hp hoff _

/-- A port without commands in flight receives none. -/
theorem complete_port_of_nil {j : Nat} (h : (s.port j).cmds = []) (p tag : Nat) (final : Bool) (status result : Nat) :
    (s.complete p tag final status result).port j = s.port j := by
  by_cases hj : j = p
  · rw [← hj, State.complete, h]
    rfl
  · exact (CplWork.refl p s).complete.port j hj

end

end Sys2Proof.Machine
end

section
/-! ## The end of a load

What the records, the result and the final entry of a load or delta may change (`EndWork`), and what a refusal shows (R424 to R426,
R428). -/
namespace Sys2Proof.Machine

/-! ### What the end of a load may change -/

section
variable {a s : State}

/-- The registers that show a load and its result. -/
def loadKeys : List Nat := [Reg.SEC_STAT, Reg.SEC_VRES, Reg.SEC_VITEM]

theorem lt_of_mem_loadKeys {k : Nat} (h : k ∈ loadKeys) : k < 2 ^ 24 := by
  simp only [loadKeys, List.mem_cons, List.not_mem_nil, or_false] at h
  obtain rfl | rfl | rfl := h
  · decide
  · decide
  · decide

theorem hqKey_notMem_loadKeys (p addr : Nat) : hqKey p addr ∉ loadKeys :=
  fun h => absurd (lt_of_mem_loadKeys h) (not_lt.2 (le_portKey p addr))

/-- From a to t the parts of a load and of its completion entry have changed. -/
structure EndWork (a t : State) : Prop where
  only : t = { a with
    hq := { a.hq with ports := t.hq.ports }, regs := t.regs, evl := t.evl, sec := t.sec, sent := t.sent }
  regs : ∀ k, k ∉ loadKeys → (∀ p, k ∉ cplKeys p) → t.rd k = a.rd k
  flags : ∀ k n, k ∉ loadKeys → 30 ≤ n → t.flag k n = a.flag k n
  port : ∀ j, (a.port j).cmds = [] → t.port j = a.port j

theorem EndWork.refl (s : State) : EndWork s s where
  only := rfl
  regs _ _ _ := rfl
  flags _ _ _ _ := rfl
  port _ _ := rfl

theorem EndWork.rd (h : EndWork a s) {k : Nat} (hk : k < 2 ^ 24) (hl : k ∉ loadKeys) : s.rd k = a.rd k :=
  h.regs k hl (notMem_cplKeys hk)

theorem EndWork.ringOn (h : EndWork a s) (j : Nat) (q : Ring) : s.ringOn j q = a.ringOn j q :=
  h.flags _ _ (hqKey_notMem_loadKeys _ _) le_rfl

theorem EndWork.wr (h : EndWork a s) {k : Nat} (hk : k ∈ loadKeys) {w : Word} : EndWork a (s.wr k w) where
  only := by
    rw [h.only]
    rfl
  regs j hj hc := (State.rd_wr_other s w (fun e => hj (by rwa [e]))).trans (h.regs j hj hc)
  flags j n hj hn := (State.flag_congr (State.rd_wr_other s w (fun e => hj (by rwa [e]))) n).trans (h.flags j n hj hn)
  port := h.port

theorem EndWork.inert (h : EndWork a s) {evl : EvlSt} {sec : SecSt} {sent : List Out} :
    EndWork a { s with evl := evl, sec := sec, sent := sent } where
  only := by rw [h.only]
  regs := h.regs
  flags := h.flags
  port := h.port

theorem EndWork.setLoad (h : EndWork a s) {l : LoadSt} : EndWork a (s.setLoad l) :=
  (h.inert (evl := s.evl) (sent := s.sent) (sec := { s.sec with load := l })).wr List.mem_cons_self

theorem EndWork.pedRecord (h : EndWork a s) {kind code adm : Nat} {l : LoadSt} : EndWork a (s.pedRecord kind l code adm) :=
  h.inert (sec := s.sec) (sent := s.sent)

theorem EndWork.emit (h : EndWork a s) {o : Out} : EndWork a (s.emit o) := h.inert (evl := s.evl) (sec := s.sec)

theorem EndWork.showVres (h : EndWork a s) {l : LoadSt} {busy : Bool} {code tag adm : Nat} :
    EndWork a (s.showVres l busy code tag adm) := h.wr (List.mem_cons_of_mem _ List.mem_cons_self)

theorem EndWork.complete (h : EndWork a s) {p tag : Nat} {final : Bool} {status result : Nat} :
    EndWork a (s.complete p tag final status result) where
  only := by
    have hc := ((CplWork.refl p s).complete (tag := tag) (final := final) (status := status) (result := result)).only
    rw [hc, h.only]
  regs j hj hc := ((CplWork.refl p s).complete.regs j (hc p)).trans (h.regs j hj hc)
  flags j n hj hn := ((CplWork.refl p s).complete.flags j n hn).trans (h.flags j n hj hn)
  port j hj := (complete_port_of_nil (by rwa [h.port j hj]) p tag final status result).trans (h.port j hj)

theorem EndWork.finishLoad (h : EndWork a s) {l : LoadSt} {status result : Nat} : EndWork a (s.finishLoad l status result) := by
  unfold State.finishLoad
  split
  · exact h.complete
  · exact h

theorem EndWork.nextLoad (h : EndWork a s) : EndWork a s.nextLoad := by
  unfold State.nextLoad
  split
  · next m rest _ => exact EndWork.setLoad (h.inert (evl := s.evl) (sent := s.sent) (sec := { s.sec with waiting := rest }))
  · exact h.setLoad

theorem EndWork.foldl {β : Type} {f : State → β → State} {l : List β} (h : EndWork a s)
    (hf : ∀ b t, EndWork a t → EndWork a (f t b)) : EndWork a (l.foldl f s) := by
  induction l generalizing s with
  | nil => exact h
  | cons b l ih => exact ih (hf b s h)

end

/-! ### The next load -/

section
variable {s : State}

@[simp] theorem load_setLoad (l : LoadSt) : (s.setLoad l).sec.load = l := rfl

theorem sec_complete (p tag : Nat) (final : Bool) (status result : Nat) : (s.complete p tag final status result).sec = s.sec := by
  have hc := ((CplWork.refl p s).complete (tag := tag) (final := final) (status := status) (result := result)).only
  rw [hc]

theorem sec_finishLoad (l : LoadSt) (status result : Nat) : (s.finishLoad l status result).sec = s.sec := by
  unfold State.finishLoad
  split
  · exact sec_complete ..
  · rfl

/-- The next waiting delta is in progress in t, or no load is (R47). -/
def NextLoad (s t : State) : Prop :=
  t.sec.load = (match s.sec.waiting with
    | m :: _ => { m with stage := 1 }
    | [] => {}) ∧ t.sec.waiting = s.sec.waiting.tail

theorem nextLoad_next : NextLoad s s.nextLoad := by
  unfold NextLoad State.nextLoad
  cases hw : s.sec.waiting with
  | nil => exact ⟨rfl, hw⟩
  | cons m rest => exact ⟨rfl, rfl⟩

theorem NextLoad.of_sec {t u : State} (h : t.sec = s.sec) (hu : NextLoad t u) : NextLoad s u := by
  unfold NextLoad at *
  rwa [← h]

end

/-! ### A refusal -/

section
variable {s : State}

/-- What a refusal without another slot to try shows: the result, its item and the final entry. -/
def State.refusedEntry (s : State) (code tag item adm status : Nat) : State :=
  let l := s.sec.load
  let t := (s.pedRecord (if l.delta then 4 else 2) l code adm).showVres l false code tag adm
  let t := if 10 ≤ code ∧ code ≤ 15 then t.wr Reg.SEC_VITEM (BitVec.ofNat 32 item) else t
  t.finishLoad l status (if status = 7 then code + 256 * adm else 0)

theorem refuseLoad_last (h : s.sec.load.fallback = none) (code tag item adm status : Nat) :
    s.refuseLoad code tag item adm status =
      if s.sec.load.delta then (s.refusedEntry code tag item adm status).nextLoad
      else (s.refusedEntry code tag item adm status).setLoad
        { s.sec.load with stage := 6, due := (s.frame + 1) % 2 ^ 32, image := [] } := by
  unfold State.refuseLoad
  simp only [h]
  rfl

theorem refuseLoad_slot {k : Nat} (h : s.sec.load.fallback = some k) (code tag item adm status : Nat) :
    s.refuseLoad code tag item adm status =
      ((s.pedRecord (if s.sec.load.delta then 4 else 2) s.sec.load code adm).setLoad
        { s.sec.load with stage := 1, src := 5 + k, fallback := none, image := [], readErr := false }).emit (.qspi k) := by
  unfold State.refuseLoad
  simp only [h]

theorem sec_pedRecord (kind code adm : Nat) (l : LoadSt) : (s.pedRecord kind l code adm).sec = s.sec := State.postNow_sec ..

theorem sec_showVres (l : LoadSt) (busy : Bool) (code tag adm : Nat) : (s.showVres l busy code tag adm).sec = s.sec := State.wr_sec ..

theorem sec_refusedEntry (code tag item adm status : Nat) : (s.refusedEntry code tag item adm status).sec = s.sec := by
  unfold State.refusedEntry
  dsimp only
  rw [sec_finishLoad]
  split
  · rw [State.wr_sec, sec_showVres, sec_pedRecord]
  · rw [sec_showVres, sec_pedRecord]

theorem EndWork.refusedEntry {a : State} (h : EndWork a s) {code tag item adm status : Nat} :
    EndWork a (s.refusedEntry code tag item adm status) := by
  unfold State.refusedEntry
  dsimp only
  refine EndWork.finishLoad ?_
  split
  · exact h.pedRecord.showVres.wr (List.mem_cons_of_mem _ (List.mem_cons_of_mem _ List.mem_cons_self))
  · exact h.pedRecord.showVres

theorem EndWork.refuseLoad {a : State} (h : EndWork a s) {code tag item adm status : Nat} :
    EndWork a (s.refuseLoad code tag item adm status) := by
  cases hf : s.sec.load.fallback with
  | some k =>
    rw [refuseLoad_slot hf]
    exact h.pedRecord.setLoad.emit
  | none =>
    rw [refuseLoad_last hf]
    split
    · exact h.refusedEntry.nextLoad
    · exact h.refusedEntry.setLoad

/-- A whole load without another slot waits for the end of LOAD (R426). -/
theorem stage_refuseLoad (hd : s.sec.load.delta = false) (hf : s.sec.load.fallback = none) (code tag item adm status : Nat) :
    (s.refuseLoad code tag item adm status).sec.load.stage = 6 := by
  rw [refuseLoad_last hf, hd]
  rfl

/-- A delta gives way to the next one (R47). -/
theorem next_refuseLoad (hd : s.sec.load.delta = true) (hf : s.sec.load.fallback = none) (code tag item adm status : Nat) :
    NextLoad s (s.refuseLoad code tag item adm status) := by
  rw [refuseLoad_last hf, if_pos hd]
  exact nextLoad_next.of_sec (sec_refusedEntry ..)

end

end Sys2Proof.Machine
end

section
/-! ## Rings and resets of host ports

A write of a ring's control register (R394), the service of held entries (R44, R380), a DMA read error (R368, R388), a port reset
(R389) and a data link that is active (R366, R389). -/
namespace Sys2Proof.Machine

/-! ### The registers of a ring -/

section
variable {s : State} {p : Nat} {q : Ring}

theorem ringStat_lt (q : Ring) : ringStat q < 2 ^ 24 := by cases q <;> decide

theorem flag_wr_other {k j : Nat} (h : j ≠ k) (v : Word) (n : Nat) : (s.wr k v).flag j n = s.flag j n :=
  State.flag_congr (State.rd_wr_other s v h) n

theorem flag_plain {k n : Nat} {w : Word} (h : bit w n = false) (v : Word) : (s.plain k w 0#32 v).flag k n = s.flag k n := by
  unfold bit at h
  rw [State.flag, State.rd_plain, if_pos rfl, State.flag]
  by_cases hn : n < 32
  · simp only [bit, BitVec.getLsbD_or, BitVec.getLsbD_and, BitVec.getLsbD_not, h]
    simp [hn]
  · rw [bit, bit, BitVec.getLsbD_of_ge _ _ (by omega), BitVec.getLsbD_of_ge _ _ (by omega)]

/-- The control register that is written holds no rw bit where its ring shows ACTIVE and ERR. -/
theorem flag_plainCtl {n : Nat} (h : n = 30 ∨ n = 31) (v : Word) :
    (s.plain (hqKey p (ringCtl q).1) (ringCtl q).2.2 0#32 v).flag (hqKey p (ringStat q)) n = s.flag (hqKey p (ringStat q)) n := by
  have hmask : bit (ringCtl q).2.2 n = false := by obtain rfl | rfl := h <;> cases q <;> decide
  by_cases hk : hqKey p (ringStat q) = hqKey p (ringCtl q).1
  · rw [hk]
    exact flag_plain hmask v
  · exact flag_wr_other hk _ n

theorem hqKey_add (p addr o : Nat) : hqKey p addr + o = hqKey p (addr + o) := Nat.add_assoc ..

theorem ringFits_congr {t : State} (hbase : t.rd (hqKey p (ringBase q)) = s.rd (hqKey p (ringBase q)))
    (hsize : t.rd (hqKey p (ringBase q) + 0x08) = s.rd (hqKey p (ringBase q) + 0x08)) : t.ringFits p q = s.ringFits p q := by
  unfold State.ringFits
  simp only [hbase, State.fld_congr hsize]

theorem ringFits_plainCtl (v : Word) :
    (s.plain (hqKey p (ringCtl q).1) (ringCtl q).2.2 0#32 v).ringFits p q = s.ringFits p q := by
  have hbase : ringBase q ≠ (ringCtl q).1 := by cases q <;> decide
  have hsize : ringBase q + 0x08 ≠ (ringCtl q).1 := by cases q <;> decide
  refine ringFits_congr (State.rd_wr_other _ _ (hqKey_ne_of_addr p hbase)) ?_
  rw [hqKey_add]
  exact State.rd_wr_other _ _ (hqKey_ne_of_addr p hsize)

theorem flag_producer {n : Nat} (h : ringStat q ≠ ringBase q + 0x18) (v : Word) :
    (s.wr (hqKey p (ringBase q) + 0x18) v).flag (hqKey p (ringStat q)) n = s.flag (hqKey p (ringStat q)) n :=
  flag_wr_other (by rw [hqKey_add]; exact hqKey_ne_of_addr p h) v n

/-- The start of a ring leaves what it shows above its counts. -/
theorem flag_startRing {n : Nat} (hn : 30 ≤ n) : (s.startRing p q).flag (hqKey p (ringStat q)) n = s.flag (hqKey p (ringStat q)) n := by
  have hcpl : hqKey p Reg.HQ_CPLSTAT ∈ cplKeys p := List.mem_cons_self
  have hcmd : hqKey p Reg.HQ_CMDSTAT ∈ cplKeys p := List.mem_cons_of_mem _ List.mem_cons_self
  have hrefl := CplWork.refl p s
  cases q with
  | cmd => exact (hrefl.setFld hcmd (by decide) (by decide)).modPort.flags _ n hn
  | cpl =>
    exact (((hrefl.setFld hcpl (by decide) (by decide)).setFlag hcpl (by decide)).modPort.drainCpl _).flags _ n hn
  | evq | rcq | msq => exact flag_producer (by decide) _

/-! ### A write of a control register -/

theorem onlyRegs_wr {a : State} {ks : List Nat} (h : OnlyRegs ks a s) {k : Nat} (hk : k ∈ ks) (v : Word) : OnlyRegs ks a (s.wr k v) := by
  obtain ⟨he, hr⟩ := h
  refine ⟨?_, fun j hj => (State.rd_wr_other s v (fun e => hj (by rwa [e]))).trans (hr j hj)⟩
  rw [he]
  rfl

/-- The control register of a ring as a write leaves it. -/
def State.plainCtl (s : State) (p : Nat) (q : Ring) (v : Word) : State := s.plain (hqKey p (ringCtl q).1) (ringCtl q).2.2 0#32 v

/-- A ring's ACTIVE as it changes, with ERR clear. -/
def State.showActive (s : State) (p : Nat) (q : Ring) (on : Bool) : State :=
  (s.setFlag (hqKey p (ringStat q)) 31 false).setFlag (hqKey p (ringStat q)) 30 on

theorem wrRingCtl_eq (p : Nat) (q : Ring) (v : Word) (s : State) : wrRingCtl p q v s =
    if bit v 0 = false then (s.plainCtl p q v).showActive p q false
    else if (s.plainCtl p q v).ringFits p q then ((s.plainCtl p q v).showActive p q true).startRing p q
    else (s.plainCtl p q v).setFlag (hqKey p (ringStat q)) 31 true := rfl

theorem showActive_effect (s : State) (p : Nat) (q : Ring) (on : Bool) :
    (s.showActive p q on).ringOn p q = on ∧ (s.showActive p q on).flag (hqKey p (ringStat q)) 31 = false := by
  unfold State.showActive
  refine ⟨State.flag_setFlag_self _ _ _ (by decide), ?_⟩
  rw [State.flag_setFlag _ _ _ _ (by decide), if_neg (by decide), State.flag_setFlag_self _ _ _ (by decide)]

theorem wrRingCtl_off {v : Word} (hv : bit v 0 = false) :
    OnlyRegs [hqKey p (ringCtl q).1, hqKey p (ringStat q)] s (wrRingCtl p q v s) ∧
    (wrRingCtl p q v s).ringOn p q = false ∧ (wrRingCtl p q v s).flag (hqKey p (ringStat q)) 31 = false := by
  have hstat : hqKey p (ringStat q) ∈ [hqKey p (ringCtl q).1, hqKey p (ringStat q)] := List.mem_cons_of_mem _ List.mem_cons_self
  rw [wrRingCtl_eq, if_pos hv]
  exact ⟨onlyRegs_wr (onlyRegs_wr (onlyRegs_wr ⟨rfl, fun _ _ => rfl⟩ List.mem_cons_self _) hstat _) hstat _, showActive_effect ..⟩

theorem wrRingCtl_fits {v : Word} (hv : bit v 0 = true) (hf : s.ringFits p q = true) :
    (wrRingCtl p q v s).ringOn p q = true ∧ (wrRingCtl p q v s).flag (hqKey p (ringStat q)) 31 = false := by
  rw [wrRingCtl_eq, if_neg (by rw [hv]; decide), State.plainCtl, ringFits_plainCtl, if_pos hf, State.ringOn, flag_startRing le_rfl,
    flag_startRing (by decide)]
  exact showActive_effect ..

theorem wrRingCtl_unfit {v : Word} (hv : bit v 0 = true) (hf : s.ringFits p q = false) :
    (wrRingCtl p q v s).ringOn p q = s.ringOn p q ∧ (wrRingCtl p q v s).flag (hqKey p (ringStat q)) 31 = true ∧
    (wrRingCtl p q v s).sent = s.sent := by
  rw [wrRingCtl_eq, if_neg (by rw [hv]; decide), State.plainCtl, ringFits_plainCtl, if_neg (by rw [hf]; decide), State.ringOn,
    State.flag_setFlag _ _ _ _ (by decide), if_neg (by decide), flag_plainCtl (Or.inl rfl)]
  exact ⟨rfl, State.flag_setFlag_self _ _ _ (by decide), (State.setFlag_sent ..).trans (State.wr_sent ..)⟩

end

theorem bit_setBit_self (v : Word) {n : Nat} (hn : n < 32) (b : Bool) : bit (setBit v n b) n = b := by
  rw [bit_setBit _ _ _ hn, if_pos rfl]

theorem queueEnable_effect (s : State) (p : Nat) (r : Ring) (v : Word) :
    if s.ringFits p r = true then
      (wrRingCtl p r (setBit v 0 true) s).ringOn p r = true ∧
        (wrRingCtl p r (setBit v 0 true) s).flag (hqKey p (ringStat r)) 31 = false
    else (wrRingCtl p r (setBit v 0 true) s).ringOn p r = s.ringOn p r ∧
      (wrRingCtl p r (setBit v 0 true) s).flag (hqKey p (ringStat r)) 31 = true ∧ (wrRingCtl p r (setBit v 0 true) s).sent = s.sent := by
  have hv := bit_setBit_self v (by decide : 0 < 32) true
  split
  · next hf => exact wrRingCtl_fits hv hf
  · next hf => exact wrRingCtl_unfit hv (by simpa using hf)

/-! ### The service of held entries -/

section
variable {s : State}

/-- The service of a port's held entries. -/
def State.servePort (s : State) (p : Nat) : State := s.drainCpl (s.port p).held.length p

theorem CplWork.servePort (s : State) (p : Nat) : CplWork p s (s.servePort p) := (CplWork.refl p s).drainCpl _

theorem servePort_of_nil {p : Nat} (h : (s.port p).held = []) : s.servePort p = s := by
  rw [State.servePort, h]
  rfl

/-- What the service of several ports keeps. -/
structure Served (s t : State) : Prop where
  triad : t.triad = s.triad
  mem : t.mem = s.mem
  sent : s.sent <+: t.sent
  length : t.hq.ports.length = s.hq.ports.length
  ringOn : ∀ j, t.ringOn j .cpl = s.ringOn j .cpl
  cplSize : ∀ j, t.rd (hqKey j Reg.HQ_CPLSIZE) = s.rd (hqKey j Reg.HQ_CPLSIZE)

theorem Served.refl (s : State) : Served s s := ⟨rfl, rfl, List.prefix_rfl, rfl, fun _ => rfl, fun _ => rfl⟩

theorem Served.servePort {a : State} (h : Served a s) (p : Nat) : Served a (s.servePort p) where
  triad := by
    rw [(CplWork.servePort s p).only]
    exact h.triad
  mem := by
    rw [(CplWork.servePort s p).only]
    exact h.mem
  sent := h.sent.trans (CplWork.servePort s p).sent
  length := (CplWork.servePort s p).length.trans h.length
  ringOn j := ((CplWork.servePort s p).ringOn j .cpl).trans (h.ringOn j)
  cplSize j := ((CplWork.servePort s p).cplSize j).trans (h.cplSize j)

theorem Served.foldl {a : State} (h : Served a s) (l : List Nat) : Served a (l.foldl State.servePort s) := by
  induction l generalizing s with
  | nil => exact h
  | cons p l ih => exact ih (h.servePort p)

theorem port_serve_of_notMem {l : List Nat} {j : Nat} (h : j ∉ l) : (l.foldl State.servePort s).port j = s.port j := by
  induction l generalizing s with
  | nil => rfl
  | cons p l ih =>
    obtain ⟨hp, hl⟩ := not_or.1 (fun hm => h (List.mem_cons.2 hm))
    exact (ih hl).trans ((CplWork.servePort s p).port j hp)

/-- A port that is served once: its entries stay where its ring is off, and leave where it has room for all. -/
theorem held_serve {l : List Nat} {j : Nat} (hl : l.Nodup) (hj : j ∈ l) (hp : j < s.hq.ports.length) :
    (s.ringOn j .cpl = false → ((l.foldl State.servePort s).port j).held = (s.port j).held) ∧
    (s.ringOn j .cpl = true → (s.port j).out + (s.port j).held.length ≤ 2 ^ s.fld (hqKey j Reg.HQ_CPLSIZE) 3 0 →
      ((l.foldl State.servePort s).port j).held = []) := by
  induction l generalizing s with
  | nil => exact absurd hj List.not_mem_nil
  | cons p l ih =>
    obtain ⟨hnot, hnodup⟩ := List.nodup_cons.1 hl
    rw [List.foldl_cons]
    by_cases he : j = p
    · subst he
      rw [port_serve_of_notMem hnot]
      refine ⟨fun hoff => ?_, fun hon hroom => held_drainCpl hp hon rfl hroom⟩
      rw [State.servePort, drainCpl_of_off hoff]
    · have hw := CplWork.servePort s p
      have hrest := ih hnodup ((List.mem_cons.1 hj).resolve_left he) (by rwa [hw.length])
      rwa [hw.port j he, hw.ringOn, State.fld_congr (hw.cplSize j)] at hrest

theorem serve_of_nil {l : List Nat} (h : ∀ j ∈ l, (s.port j).held = []) : l.foldl State.servePort s = s :=
  foldl_of_fixed fun j hj => servePort_of_nil (h j hj)

/-- The state that the service of the rings begins with. -/
def State.serviceTurn (s : State) : State :=
  { s with triad := { s.triad with turn := if s.planRuns then 5 else s.triad.turn } }

theorem queueService_answers (s : State) : Answers .queueService s (fun t =>
    let due := s.planRuns = false ∨ s.triad.turn = 4
    (¬ due → t = s) ∧
    (due →
      t.triad = { s.triad with turn := if s.planRuns = true then 5 else s.triad.turn } ∧ s.sent <+: t.sent ∧ t.mem = s.mem ∧
      ((∀ j, j < 4 → (s.port j).held = []) → t = { s with triad := t.triad }) ∧
      (s.hq.ports.length = 4 → ∀ j, j < 4 →
        (s.ringOn j .cpl = false → (t.port j).held = (s.port j).held) ∧
        (s.ringOn j .cpl = true → (s.port j).out + (s.port j).held.length ≤ 2 ^ s.fld (hqKey j Reg.HQ_CPLSIZE) 3 0 →
          (t.port j).held = [])))) := by
  have hexec : exec .queueService s =
      .next (if s.planRuns = true ∧ s.triad.turn ≠ 4 then s else (List.range 4).foldl State.servePort s.serviceTurn) := by
    refine Eq.trans ?_ (apply_ite Host.Outcome.next _ _ _).symm
    rfl
  refine answers_of hexec ?_
  dsimp only
  by_cases hdue : s.planRuns = false ∨ s.triad.turn = 4
  · have hnot : ¬ (s.planRuns = true ∧ s.triad.turn ≠ 4) := by
      rintro ⟨hplan, hturn⟩
      obtain h | h := hdue
      · rw [h] at hplan
        exact Bool.noConfusion hplan
      · exact hturn h
    rw [if_neg hnot]
    have hserved := (Served.refl s.serviceTurn).foldl (List.range 4)
    refine ⟨fun h => absurd hdue h, fun _ => ⟨hserved.triad, hserved.sent, hserved.mem, fun hnil => ?_, fun hlen j hj => ?_⟩⟩
    · rw [serve_of_nil (s := s.serviceTurn) fun j hj => hnil j (List.mem_range.1 hj)]
      rfl
    · have hlt : j < s.hq.ports.length := by omega
      exact held_serve (s := s.serviceTurn) List.nodup_range (List.mem_range.2 hj) hlt
  · have hskip : s.planRuns = true ∧ s.triad.turn ≠ 4 := by simpa [not_or] using hdue
    rw [if_pos hskip]
    exact ⟨fun _ => rfl, fun h => absurd h hdue⟩

end

/-! ### A DMA read error -/

theorem perr_notMem (p : Nat) : hqKey p Reg.HQ_PERR ∉ loadKeys ∧ ∀ j, hqKey p Reg.HQ_PERR ∉ cplKeys j :=
  ⟨hqKey_notMem_loadKeys p _, fun _ => hqKey_notMem_cplKeys (by decide) (Or.inr (by decide))⟩

section
variable (s : State) (p kind arg cid lost first k : Nat)

theorem regs_hostRecord : (s.hostRecord p kind arg cid lost first).regs = s.regs := by
  rw [State.hostRecord, State.cause_regs, State.postNow_regs]

theorem rd_hostRecord : (s.hostRecord p kind arg cid lost first).rd k = s.rd k := State.rd_congr (regs_hostRecord ..) k

theorem sec_hostRecord : (s.hostRecord p kind arg cid lost first).sec = s.sec := by
  rw [State.hostRecord, State.cause_sec, State.postNow_sec]

theorem hq_hostRecord : (s.hostRecord p kind arg cid lost first).hq = s.hq := by
  rw [State.hostRecord, State.cause_hq, State.postNow_hq]

theorem posted_hostRecord : (s.hostRecord p kind arg cid lost first).evl.posted.length = s.evl.posted.length + 1 := by
  rw [State.hostRecord, State.cause_evl]
  exact List.length_append

end

/-- The CID of the command whose load a port is reading. -/
def State.readingCid (s : State) (p : Nat) : Nat :=
  if s.readingOf p then
    match (s.port p).cmds.find? (fun c => some (p, c.tag) == s.sec.load.cmd) with
    | some c => c.cid
    | none => 0
  else 0

/-- A DMA read error as the host sees it: its flag and its record. -/
def State.dmaFailed (s : State) (p : Nat) : State :=
  (s.setFlag (hqKey p Reg.HQ_PERR) 0 true).hostRecord p 4 0 (s.readingCid p) 0 0

theorem dmaReadError_answers (s : State) (p : Fin 4) : Answers (.dmaReadError p) s (fun t =>
    t.flag (hqKey p.val Reg.HQ_PERR) 0 = true ∧
    (s.readingOf p.val = false → t.sec = s.sec) ∧
    (s.readingOf p.val = true → s.sec.load.delta = false → s.sec.load.fallback = none → t.sec.load.stage = 6)) := by
  have hexec : exec (.dmaReadError p) s =
      .next (if s.readingOf p.val then (s.dmaFailed p.val).refuseLoad 0 0 0 0 5 else s.dmaFailed p.val) := rfl
  obtain ⟨hl, hc⟩ := perr_notMem p.val
  have hflag : (s.dmaFailed p.val).flag (hqKey p.val Reg.HQ_PERR) 0 = true := by
    rw [State.dmaFailed, State.flag_congr (rd_hostRecord ..)]
    exact State.flag_setFlag_self _ _ _ (by decide)
  have hsec : (s.dmaFailed p.val).sec = s.sec := by rw [State.dmaFailed, sec_hostRecord, State.setFlag_sec]
  refine answers_of hexec ?_
  cases hr : s.readingOf p.val with
  | false => exact ⟨hflag, fun _ => hsec, fun h => Bool.noConfusion h⟩
  | true =>
    refine ⟨?_, fun h => Bool.noConfusion h, fun _ hd hf => ?_⟩
    · exact (State.flag_congr ((EndWork.refl _).refuseLoad.regs _ hl hc) 0).trans hflag
    · exact stage_refuseLoad (by rwa [hsec]) (by rwa [hsec]) 0 0 0 0 5

/-! ### A port reset -/

theorem sget_filter {α : Type} (d : Nat → α) (f : Nat → Bool) (l : List (Nat × α)) (k : Nat) :
    sget d (l.filter (fun e => f e.1)) k = if f k then sget d l k else d k := by
  induction l with
  | nil => simp [sget]
  | cons e l ih =>
    by_cases he : e.1 = k
    · by_cases hf : f k = true
      · simp [sget, he, hf]
      · simp [he, hf, ih]
    · by_cases hf : f e.1 = true
      · simp [sget, he, hf, ih]
      · simp [sget, he, hf, ih]

theorem State.rd_clearRegs (s : State) (lo hi k : Nat) :
    (s.clearRegs lo hi).rd k = if lo ≤ k ∧ k < hi then regReset k else s.rd k := by
  refine (sget_filter regReset (fun k => decide (k < lo) || decide (hi ≤ k)) s.regs k).trans ?_
  by_cases h : lo ≤ k ∧ k < hi
  · rw [if_pos h, if_neg (by simp; omega)]
  · rw [if_neg h, if_pos (by simp; omega)]
    rfl

/-- The registers that a reset of port p clears hold ACTIVE of each of its rings, which is clear at reset. -/
theorem ringStat_reset (p : Fin 4) (q : Ring) :
    hqKey p.val 0x110000 ≤ hqKey p.val (ringStat q) ∧ hqKey p.val (ringStat q) < hqKey p.val 0x120000 ∧
    hqKey p.val (ringStat q) < bar2Key p.val 0 ∧ bit (regReset (hqKey p.val (ringStat q))) 30 = false := by
  cases q <;> revert p <;> decide

theorem ringStat_ne (p j : Nat) (q : Ring) :
    hqKey p (ringStat q) ≠ hqKey j Reg.HQ_PERR ∧ hqKey p (ringStat q) ≠ hqKey j Reg.HQ_PSTAT := by
  have hperr : ringStat q ≠ Reg.HQ_PERR := by cases q <;> decide
  have hpstat : ringStat q ≠ Reg.HQ_PSTAT := by cases q <;> decide
  exact ⟨hqKey_ne hperr (ringStat_lt q) (by decide) p j, hqKey_ne hpstat (ringStat_lt q) (by decide) p j⟩

section
variable {s : State}

/-- The registers after a reset of port p: those of the port itself at reset, PRST and HQ_PSTAT. -/
def State.resetRegs (s : State) (p cause : Nat) : State :=
  let t := (s.clearRegs (hqKey p 0x110000) (hqKey p 0x120000)).clearRegs (bar2Key p 0) (bar2Key p 0x10000)
  let t := (t.setFlag (hqKey p Reg.HQ_PERR) 4 true).showPstat
  if cause = 4 then t.wr (hqKey p Reg.HQ_PSTAT) (s.rd (hqKey p Reg.HQ_PSTAT)) else t

/-- What stands of port p and of its loads after its reset, but for a load that is being read. -/
def State.resetPort (s : State) (p cause : Nat) : State :=
  let t := (s.resetRegs p cause).modPort p (fun x => { nextTag := x.nextTag })
  (s.sec.waiting.filter (fun l => l.src == p)).foldl (fun u l => u.pedRecord 4 l 0 0) { t with
    hq := { t.hq with shadows := modAt t.hq.shadows p (fun _ => none) }
    sec := { t.sec with waiting := t.sec.waiting.filter (fun l => l.src != p) } }

theorem rd_showPstat {k : Nat} (h : ∀ j, k ≠ hqKey j Reg.HQ_PSTAT) : s.showPstat.rd k = s.rd k := by
  unfold State.showPstat
  refine List.foldlRecOn (motive := fun t : State => t.rd k = s.rd k) _ _ rfl fun t ht j _ => ?_
  rw [State.rd_setFlag, if_neg (h j), State.rd_setFlag, if_neg (h j), ht]

theorem rd_resetRegs {p k cause : Nat} (h : ∀ j, k ≠ hqKey j Reg.HQ_PSTAT) : (s.resetRegs p cause).rd k =
    (((s.clearRegs (hqKey p 0x110000) (hqKey p 0x120000)).clearRegs (bar2Key p 0) (bar2Key p 0x10000)).setFlag
      (hqKey p Reg.HQ_PERR) 4 true).rd k := by
  unfold State.resetRegs
  dsimp only
  split
  · rw [State.rd_wr_other _ _ (h p), rd_showPstat h]
  · exact rd_showPstat h

theorem prst_resetRegs (p cause : Nat) : (s.resetRegs p cause).flag (hqKey p Reg.HQ_PERR) 4 = true := by
  rw [State.flag_congr (rd_resetRegs fun j => hqKey_ne (by decide) (by decide) (by decide) p j)]
  exact State.flag_setFlag_self _ _ _ (by decide)

theorem ringOn_resetRegs (p : Fin 4) (cause : Nat) (q : Ring) : (s.resetRegs p.val cause).ringOn p.val q = false := by
  obtain ⟨hlo, hhi, hbar, hbit⟩ := ringStat_reset p q
  rw [State.ringOn, State.flag, rd_resetRegs fun j => (ringStat_ne p.val j q).2, State.rd_setFlag, if_neg (ringStat_ne p.val p.val q).1,
    State.rd_clearRegs, if_neg (fun h => absurd h.1 (not_le.2 hbar)), State.rd_clearRegs, if_pos ⟨hlo, hhi⟩]
  exact hbit

theorem modPort_emptied (p : Nat) :
    ((s.modPort p (fun x => { nextTag := x.nextTag })).port p).cmds = [] ∧
    ((s.modPort p (fun x => { nextTag := x.nextTag })).port p).held = [] := by
  by_cases hp : p < s.hq.ports.length
  · rw [port_modPort hp]
    exact ⟨rfl, rfl⟩
  · have hnone : ((s.modPort p (fun x => { nextTag := x.nextTag })).port p) = {} :=
      List.getD_eq_default _ _ (by rw [length_ports_modPort]; omega)
    rw [hnone]
    exact ⟨rfl, rfl⟩

/-- A reset leaves PRST, no ring active and nothing at the port. -/
theorem resetPort_effect (p : Fin 4) (cause : Nat) :
    (s.resetPort p.val cause).flag (hqKey p.val Reg.HQ_PERR) 4 = true ∧ (∀ r, (s.resetPort p.val cause).ringOn p.val r = false) ∧
    ((s.resetPort p.val cause).port p.val).cmds = [] ∧ ((s.resetPort p.val cause).port p.val).held = [] := by
  have hrecords : EndWork _ (s.resetPort p.val cause) := (EndWork.refl _).foldl fun _ _ h => h.pedRecord
  obtain ⟨hl, hc⟩ := perr_notMem p.val
  obtain ⟨hcmds, hheld⟩ := modPort_emptied (s := s.resetRegs p.val cause) p.val
  refine ⟨?_, fun r => ?_, ?_⟩
  · exact (State.flag_congr (hrecords.regs _ hl hc) 4).trans (prst_resetRegs p.val cause)
  · exact (hrecords.ringOn p.val r).trans (ringOn_resetRegs p cause r)
  · rw [hrecords.port p.val hcmds]
    exact ⟨hcmds, hheld⟩

/-- A refusal of the load that was being read leaves what a reset has left of its port. -/
theorem resetPort_refused (p : Fin 4) (cause : Nat) :
    let t := (s.resetPort p.val cause).refuseLoad 0 0 0 0 6
    t.flag (hqKey p.val Reg.HQ_PERR) 4 = true ∧ (∀ r, t.ringOn p.val r = false) ∧
    (t.port p.val).cmds = [] ∧ (t.port p.val).held = [] := by
  have hrefused := (EndWork.refl (s.resetPort p.val cause)).refuseLoad (code := 0) (tag := 0) (item := 0) (adm := 0) (status := 6)
  obtain ⟨hl, hc⟩ := perr_notMem p.val
  obtain ⟨hprst, hring, hcmds, hheld⟩ := resetPort_effect (s := s) p cause
  dsimp only
  rw [State.flag_congr (hrefused.regs _ hl hc), hrefused.port p.val hcmds]
  exact ⟨hprst, fun r => (hrefused.ringOn p.val r).trans (hring r), hcmds, hheld⟩

theorem portReset_answers (s : State) (p : Fin 4) (cause : Fin 6) : Answers (.portReset p cause) s (fun t =>
    if cause = 0 then t = s
    else
      t.flag (hqKey p.val Reg.HQ_PERR) 4 = true ∧ (∀ r, t.ringOn p.val r = false) ∧
      (t.port p.val).cmds = [] ∧ (t.port p.val).held = []) := by
  have hexec : exec (.portReset p cause) s = if cause.val = 0 then .next s else
      .next ((if s.readingOf p.val then (s.resetPort p.val cause.val).refuseLoad 0 0 0 0 6
        else s.resetPort p.val cause.val).hostRecord p.val 1 cause.val 0 0 0) := rfl
  by_cases hcause : cause = 0
  · subst hcause
    exact answers_of hexec (by rw [if_pos rfl])
  · have hval : cause.val ≠ 0 := fun h => hcause (Fin.ext h)
    refine answers_of (hexec.trans (if_neg hval)) ?_
    rw [if_neg hcause]
    split
    · exact resetPort_refused p cause.val
    · exact resetPort_effect p cause.val

/-! ### A data link -/

/-- HQ_PSTAT shows an active data link with its rate and width. -/
def State.showLink (s : State) (k speed width : Nat) : State := ((s.setFlag k 31 true).setFld k 3 0 speed).setFld k 7 4 width

theorem regsBut_showLink (k speed width : Nat) : RegsBut [k] s (s.showLink k speed width) := by
  intro j hj
  have hne : j ≠ k := by simpa using hj
  rw [State.showLink, State.rd_setFld, if_neg hne, State.rd_setFld, if_neg hne, State.rd_setFlag, if_neg hne]

theorem flag_showLink (k speed width : Nat) : (s.showLink k speed width).flag k 31 = true := by
  rw [State.showLink, State.flag, State.rd_setFld, if_pos rfl, bit_setField _ _ _ (by decide) (by decide), if_neg (by decide),
    State.rd_setFld, if_pos rfl, bit_setField _ _ _ (by decide) (by decide), if_neg (by decide)]
  exact State.flag_setFlag_self _ _ _ (by decide)

theorem fld_showLink (k : Nat) (speed width : Fin 4) :
    (s.showLink k speed.val width.val).fld k 3 0 = speed.val ∧ (s.showLink k speed.val width.val).fld k 7 4 = width.val := by
  unfold State.showLink
  constructor
  · rw [State.fld_setFld_other _ _ _ (by decide) (by decide) (by decide), State.fld_setFld _ _ _ (by decide) (by decide)]
    exact Nat.mod_eq_of_lt (by omega)
  · rw [State.fld_setFld _ _ _ (by decide) (by decide)]
    exact Nat.mod_eq_of_lt (by omega)

/-- A port whose data link is active and whose configuration space is set up. -/
def State.linkedPort (s : State) (p speed width : Nat) (setup : PciSetup) : State :=
  (s.showLink (hqKey p Reg.HQ_PSTAT) speed width).modPort p (fun x => { x with setup := setup })

theorem setup_linkedPort {p : Nat} (hp : p < s.hq.ports.length) (speed width : Nat) (setup : PciSetup) :
    ((s.linkedPort p speed width setup).port p).setup = setup := by
  rw [State.linkedPort, port_modPort (by rwa [State.showLink, State.setFld_hq, State.setFld_hq, State.setFlag_hq])]

theorem regs_modPort (p : Nat) (f : PortSt → PortSt) : (s.modPort p f).regs = s.regs := rfl

theorem evl_modPort (p : Nat) (f : PortSt → PortSt) : (s.modPort p f).evl = s.evl := rfl

theorem regs_linkedPort (p speed width : Nat) (setup : PciSetup) :
    (s.linkedPort p speed width setup).regs = (s.showLink (hqKey p Reg.HQ_PSTAT) speed width).regs := regs_modPort ..

theorem evl_linkedPort (p speed width : Nat) (setup : PciSetup) : (s.linkedPort p speed width setup).evl = s.evl := by
  rw [State.linkedPort, evl_modPort, State.showLink, State.setFld_evl, State.setFld_evl, State.setFlag_evl]

theorem portLinkUp_answers (s : State) (p speed width : Fin 4) (setup : PciSetup) : Answers (.portLinkUp p speed width setup) s (fun t =>
    let k := hqKey p.val Reg.HQ_PSTAT
    (s.hq.ports.length = 4 → (t.port p.val).setup = setup) ∧
    RegsBut [k] s t ∧ t.flag k 31 = true ∧ t.fld k 3 0 = speed.val ∧ t.fld k 7 4 = width.val ∧
    t.evl.posted.length = s.evl.posted.length + (if s.flag k 31 = true then 0 else 1)) := by
  have hexec : exec (.portLinkUp p speed width setup) s = .next (if s.flag (hqKey p.val Reg.HQ_PSTAT) 31 = true
      then s.linkedPort p.val speed.val width.val setup
      else (s.linkedPort p.val speed.val width.val setup).hostRecord p.val 2 (speed.val + 16 * width.val) 0 0 0) := rfl
  refine answers_of hexec ?_
  dsimp only
  generalize hu : s.linkedPort p.val speed.val width.val setup = u
  have hregs : u.regs = (s.showLink (hqKey p.val Reg.HQ_PSTAT) speed.val width.val).regs := by rw [← hu, regs_linkedPort]
  have hevl : u.evl = s.evl := by rw [← hu, evl_linkedPort]
  have hsetup : s.hq.ports.length = 4 → (u.port p.val).setup = setup := fun hlen => by
    rw [← hu]
    exact setup_linkedPort (by omega) ..
  have hshown (t : State) (ht : t.regs = u.regs) : RegsBut [hqKey p.val Reg.HQ_PSTAT] s t ∧
      t.flag (hqKey p.val Reg.HQ_PSTAT) 31 = true ∧ t.fld (hqKey p.val Reg.HQ_PSTAT) 3 0 = speed.val ∧
      t.fld (hqKey p.val Reg.HQ_PSTAT) 7 4 = width.val := by
    have hrd := State.rd_congr (ht.trans hregs)
    obtain ⟨hspeed, hwidth⟩ := fld_showLink (s := s) (hqKey p.val Reg.HQ_PSTAT) speed width
    refine ⟨fun j hj => (hrd j).trans (regsBut_showLink _ _ _ j hj), ?_⟩
    rw [State.flag_congr (hrd _), State.fld_congr (hrd _), State.fld_congr (hrd _)]
    exact ⟨flag_showLink .., hspeed, hwidth⟩
  split
  · obtain ⟨hbut, hflag, hspeed, hwidth⟩ := hshown u rfl
    exact ⟨hsetup, hbut, hflag, hspeed, hwidth, by rw [hevl]; rfl⟩
  · obtain ⟨hbut, hflag, hspeed, hwidth⟩ := hshown _ (regs_hostRecord u p.val 2 (speed.val + 16 * width.val) 0 0 0)
    refine ⟨fun hlen => ?_, hbut, hflag, hspeed, hwidth, by rw [posted_hostRecord, hevl]⟩
    rw [port_congr (hq_hostRecord ..)]
    exact hsetup hlen

end

/-- Settles O57: the two writes of a ring's control register by what `wrRingCtl` leaves for EN = 0 and for EN = 1, the others by their
`_answers`. -/
theorem ringsAndPorts : Obligations.RingsAndPorts := by
  unfold Obligations.RingsAndPorts
  refine fun s p => ⟨fun r v => ⟨writeAnswers_of_gate rfl (queueEnable_effect s p.val r v), writeAnswers_of_gate rfl ?_⟩,
    queueService_answers s, dmaReadError_answers s p, portReset_answers s p, portLinkUp_answers s p⟩
  exact wrRingCtl_off (bit_setBit_self v (by decide) false)

end Sys2Proof.Machine
end

section
/-! ## What staging and a restart leave

Staging writes the registers of every block, and a restart stops the plan with its survey and its heeling; neither writes a register of
the SYS block but SYS_STAT, nor what is known of loads, nor the boundary of STANDBY (`Steady`). The lemmas go by operation, as those of
`Evolves` do. -/
namespace Sys2Proof.Machine

/-- From a to t some registers of the SYS block, the loads and the boundary of STANDBY stand. -/
structure Steady (ks : List Nat) (a t : State) : Prop where
  low : ∀ k ∈ ks, k < 0x010000
  rd : ∀ k ∈ ks, t.rd k = a.rd k
  sec : t.sec = a.sec
  standby : t.run.standbyNext = a.run.standbyNext

/-! ### Registers above the SYS block -/

/-- A register by its index lies above the SYS block where the first of them does. -/
theorem inBlock {c o : Nat} (h : Nat.ble 0x010000 c = true) : 0x010000 ≤ c + o := Nat.le_add_right_of_le (Nat.le_of_ble_eq_true h)

/-- The same by two indices. -/
theorem inBlock₂ {c o o' : Nat} (h : Nat.ble 0x010000 c = true) : 0x010000 ≤ c + o + o' := Nat.le_add_right_of_le (inBlock h)

theorem sysEnd_le_portKey (p addr : Nat) : 0x010000 ≤ portKey p addr := le_trans (by decide) (le_portKey p addr)

theorem sysEnd_le_hqKey (p addr : Nat) : 0x010000 ≤ hqKey p addr := sysEnd_le_portKey p addr

section
variable {ks : List Nat} {a s t : State}

/-! ### Machine/Ops.lean -/

theorem Steady.refl (h : ∀ k ∈ ks, k < 0x010000) : Steady ks s s := ⟨h, fun _ _ => rfl, rfl, rfl⟩

/-- An update of any field but the registers and the loads, where the boundary of STANDBY stands. -/
theorem Steady.setRun (h : Steady ks a s) {mem : List Host.Cell} {reqs : List (Nat × List Req)}
    {freeIx : Nat} {sent : List Out} {rdata : Option Word} {phase : Phase} {pins : Pins} {causes : List Nat} {sup : Sup} {link : LinkSt}
    {time : TimeSt} {evl : EvlSt} {mst : MemSt} {run : RunSt} {budget : BudgetSt} {ojobs : List OJob} {triad : TriadSt}
    {slx : SlxSt} {lanes : List LaneSt} {aux : AuxSt} {sniff : SniffSt} {fio : FioSt} {hq : HqSt}
    {pbx : PbxSt} {pel : PelSt} {tw : TwSt} {acq : AcqSt} {bays : List BaySt} (hrun : run.standbyNext = s.run.standbyNext) :
    Steady ks a { s with
      mem, reqs, freeIx, sent, rdata, phase, pins, causes, sup, link, time, evl, mst, run, budget, ojobs, triad, slx, lanes, aux,
      sniff, fio, hq, pbx, pel, tw, acq, bays } := ⟨h.low, h.rd, h.sec, hrun.trans h.standby⟩

/-- An update of any field but the registers, the loads and the run of the device. -/
theorem Steady.inert (h : Steady ks a s) {mem : List Host.Cell} {reqs : List (Nat × List Req)}
    {freeIx : Nat} {sent : List Out} {rdata : Option Word} {phase : Phase} {pins : Pins} {causes : List Nat} {sup : Sup} {link : LinkSt}
    {time : TimeSt} {evl : EvlSt} {mst : MemSt} {budget : BudgetSt} {ojobs : List OJob} {triad : TriadSt}
    {slx : SlxSt} {lanes : List LaneSt} {aux : AuxSt} {sniff : SniffSt} {fio : FioSt} {hq : HqSt}
    {pbx : PbxSt} {pel : PelSt} {tw : TwSt} {acq : AcqSt} {bays : List BaySt} :
    Steady ks a { s with
      mem, reqs, freeIx, sent, rdata, phase, pins, causes, sup, link, time, evl, mst, budget, ojobs, triad, slx, lanes, aux,
      sniff, fio, hq, pbx, pel, tw, acq, bays } := h.setRun rfl

theorem Steady.ite {p : Prop} {_ : Decidable p} (hs : Steady ks a s) (ht : Steady ks a t) : Steady ks a (if p then s else t) := by
  split
  · exact hs
  · exact ht

theorem Steady.foldl {β : Type} {f : State → β → State} {l : List β} (h : Steady ks a s)
    (hf : ∀ t b, Steady ks a t → Steady ks a (f t b)) : Steady ks a (l.foldl f s) := by
  induction l generalizing s with
  | nil => exact h
  | cons b l ih => exact ih (hf s b h)

theorem Steady.wrOther (h : Steady ks a s) {k : Nat} {v : Word} (hk : k ∉ ks) : Steady ks a (s.wr k v) :=
  ⟨h.low, fun j hj => (State.rd_wr_other s v (fun e => hk (by rwa [← e]))).trans (h.rd j hj), h.sec, h.standby⟩

theorem Steady.notMem (h : Steady ks a s) {k : Nat} (hk : 0x010000 ≤ k) : k ∉ ks := fun hm => absurd (h.low k hm) (not_lt.2 hk)

theorem Steady.wr (h : Steady ks a s) {k : Nat} {v : Word} (hk : 0x010000 ≤ k) : Steady ks a (s.wr k v) :=
  h.wrOther (h.notMem hk)

theorem Steady.setFld (h : Steady ks a s) {k hi lo v : Nat} (hk : 0x010000 ≤ k) : Steady ks a (s.setFld k hi lo v) := h.wr hk

theorem Steady.setFlag (h : Steady ks a s) {k n : Nat} {b : Bool} (hk : 0x010000 ≤ k) : Steady ks a (s.setFlag k n b) :=
  h.wr hk

theorem Steady.incFld (h : Steady ks a s) {k hi lo : Nat} (hk : 0x010000 ≤ k) : Steady ks a (s.incFld k hi lo) := h.wr hk

theorem Steady.wrList (h : Steady ks a s) {k : Nat} {ws : List Word} (hk : 0x010000 ≤ k) : Steady ks a (s.wrList k ws) :=
  .foldl h (fun _ _ ht => .wr ht (Nat.le_add_right_of_le hk))

theorem Steady.clearRegs (h : Steady ks a s) {lo hi : Nat} (hk : 0x010000 ≤ lo) : Steady ks a (s.clearRegs lo hi) := by
  refine ⟨h.low, fun j hj => ?_, h.sec, h.standby⟩
  have hlow := h.low j hj
  rw [State.rd_clearRegs, if_neg (by omega), h.rd j hj]

theorem Steady.emit (h : Steady ks a s) {o : Out} : Steady ks a (s.emit o) := .inert h

theorem Steady.dropReqs (h : Steady ks a s) {k : Nat} : Steady ks a (s.dropReqs k) := .inert h

theorem Steady.causeAll (h : Steady ks a s) {n : Nat} : Steady ks a (s.causeAll n) := .inert h

theorem Steady.post (h : Steady ks a s) {typ src : Nat} {payload : List Byte} {logs : Nat} {kennel : Bool} :
    Steady ks a (s.post typ src payload logs kennel) := .inert h

theorem Steady.setStore (h : Steady ks a s) {st : Store} {x : StoreSt} : Steady ks a (s.setStore st x) := by
  unfold State.setStore
  split
  · split
    · exact .inert h
    · exact .inert h
    · exact .inert h
    · exact .inert h
  · exact .inert h

theorem sysEnd_le_storeStat (st : Store) : 0x010000 ≤ storeStat st := by
  cases st with
  | log p => exact (inBlock rfl)
  | kennel => decide

theorem Steady.putStore (h : Steady ks a s) {st : Store} {x : StoreSt} : Steady ks a (s.putStore st x) :=
  .setFlag (.setFld (.setStore h) (sysEnd_le_storeStat st)) (sysEnd_le_storeStat st)

theorem Steady.wrMem (h : Steady ks a s) {region w : Nat} {v : Word} : Steady ks a (s.wrMem region w v) := .inert h

theorem Steady.powerRecord (h : Steady ks a s) {item st pend : Nat} : Steady ks a (s.powerRecord item st pend) := .post h

theorem Steady.modLane (h : Steady ks a s) {l : Nat} {f : LaneSt → LaneSt} : Steady ks a (s.modLane l f) := .inert h

theorem Steady.modBay (h : Steady ks a s) {b : Nat} {f : BaySt → BaySt} : Steady ks a (s.modBay b f) := .inert h

theorem Steady.modPart (h : Steady ks a s) {p : Nat} {f : PartSt → PartSt} : Steady ks a (s.modPart p f) := by
  unfold State.modPart State.setPart
  split
  · exact .inert h
  · exact .inert h
  · exact .inert h
  · exact .inert h

/-! ### Machine/Memory.lean and Machine/Queues.lean -/

theorem Steady.memRecord (h : Steady ks a s) {region kind syn flags addr count : Nat} :
    Steady ks a (s.memRecord region kind syn flags addr count) :=
  .ite (.post h) (.causeAll (.post h))

theorem Steady.countCorrection (h : Steady ks a s) {region w syn flags : Nat} :
    Steady ks a (s.countCorrection region w syn flags) := by
  unfold State.countCorrection
  refine .ite h ?_
  extract_lets t _ _ t1 _ _ u
  have ht : Steady ks a t := .wr (.incFld h (inBlock rfl)) (inBlock rfl)
  have ht1 : Steady ks a t1 := .inert ht
  have hu : Steady ks a u := .memRecord (.setFlag (.setFld ht1 (inBlock rfl)) (inBlock rfl))
  exact .ite (.inert hu) (.setFld ht1 (inBlock rfl))

theorem Steady.countBad (h : Steady ks a s) {region w : Nat} : Steady ks a (s.countBad region w) :=
  .wr (.wr (.wr (.setFlag (.incFld h (inBlock rfl)) (inBlock rfl)) (by decide)) (by decide)) (by decide)

theorem Steady.freshWin (h : Steady ks a s) {w n : Nat} : Steady ks a (s.freshWin w n) := .inert h

theorem Steady.modPort (h : Steady ks a s) {p : Nat} {f : PortSt → PortSt} : Steady ks a (s.modPort p f) := .inert h

theorem Steady.ringWrite (h : Steady ks a s) {p : Nat} {q : Ring} {bytes : List Byte} {pois : Bool} :
    Steady ks a (s.ringWrite p q bytes pois) :=
  .modPort (.emit (.wr (.ite (.emit h) (.emit (.emit h))) (Nat.le_add_right_of_le (sysEnd_le_hqKey _ _))))

theorem Steady.hostRecord (h : Steady ks a s) {p kind arg cid lost first : Nat} :
    Steady ks a (s.hostRecord p kind arg cid lost first) := .inert h

theorem Steady.evqItem (h : Steady ks a s) {p : Nat} {bytes : List Byte} {pois : Bool} {seq : Nat} :
    Steady ks a (s.evqItem p bytes pois seq) := by
  unfold State.evqItem
  refine .ite h (.ite (.ite (.ringWrite h) (.hostRecord (.modPort (.ringWrite h)))) ?_)
  exact .modPort (.setFlag (.incFld h (Nat.le_add_right_of_le (sysEnd_le_hqKey _ _))) (sysEnd_le_hqKey _ _))

theorem Steady.evqCopy (h : Steady ks a s) {p : Nat} {pois : Bool} {r : Rec} : Steady ks a (s.evqCopy p pois r) :=
  .ite (.modPort h) (.evqItem h)

/-! ### Machine/EventLog.lean -/

theorem Steady.endLoss (h : Steady ks a s) {st : Store} : Steady ks a (s.endLoss st) := by
  unfold State.endLoss
  dsimp only
  split
  · exact .ite (.putStore h) h
  · exact h

theorem Steady.setPtrs (h : Steady ks a s) {st : Store} {fend wptr old : Nat} {full : Bool} :
    Steady ks a (s.setPtrs st fend wptr old full) := by
  unfold State.setPtrs
  split
  · exact .setFlag (.wr (.wr (.wr h (inBlock rfl)) (inBlock rfl)) (inBlock rfl)) (inBlock rfl)
  · exact .inert (.setFlag (.wr (.wr (.wr h (by decide)) (by decide)) (by decide)) (by decide))

theorem Steady.clearStore (h : Steady ks a s) {st : Store} {req : Nat} : Steady ks a (s.clearStore st req) := by
  refine .endLoss (.putStore (.setPtrs ?_))
  split
  · exact .wrMem (.wrMem h)
  · exact h

/-! ### Lanes and bays -/

theorem Steady.mark (h : Steady ks a s) {l n : Nat} : Steady ks a (s.mark l n) := .setFld h (inBlock rfl)

theorem Steady.restartInt (h : Steady ks a s) {l : Nat} : Steady ks a (s.restartInt l) := .ite (.setFld (.modLane h) (inBlock rfl)) h

theorem Steady.voidSkew (h : Steady ks a s) {l : Nat} : Steady ks a (s.voidSkew l) := .modLane (.setFlag h (inBlock₂ rfl))

theorem Steady.voidLevel (h : Steady ks a s) {l : Nat} : Steady ks a (s.voidLevel l) := .modLane (.setFlag h (inBlock₂ rfl))

theorem Steady.showInj (h : Steady ks a s) {l : Nat} {levelChanged : Bool} : Steady ks a (s.showInj l levelChanged) := by
  unfold State.showInj
  extract_lets _ _ t _ t1 t2 t3
  have ht : Steady ks a t := .setFld h (inBlock rfl)
  have ht1 : Steady ks a t1 := .ite (.mark ht) ht
  have ht2 : Steady ks a t2 := .ite (.restartInt ht1) ht1
  have ht3 : Steady ks a t3 := .ite (.voidSkew ht2) ht2
  exact .ite (.voidLevel ht3) ht3

theorem Steady.takeHold (h : Steady ks a s) {l : Nat} {v : Word} : Steady ks a (s.takeHold l v) := by
  unfold State.takeHold
  extract_lets _ _ _ _ t t1 _ _ t2 t3 t4
  have ht : Steady ks a t := .setFld (.setFld h (inBlock rfl)) (inBlock rfl)
  have ht1 : Steady ks a t1 := .setFlag ht (inBlock rfl)
  have ht2 : Steady ks a t2 := .ite (.modLane (.mark ht1)) ht1
  have ht3 : Steady ks a t3 := .ite (.modLane (.mark ht2)) ht2
  have ht4 : Steady ks a t4 := .ite (.restartInt ht3) ht3
  exact .showInj ht4

theorem Steady.putInj (h : Steady ks a s) {l : Nat} {v : Word} : Steady ks a (s.putInj l v) := .showInj (.modLane h)

theorem Steady.sniffSwitch (h : Steady ks a s) {l : Nat} : Steady ks a (s.sniffSwitch l) := .ite h (.modLane h)

theorem Steady.sniffLeaves (h : Steady ks a s) {l : Nat} : Steady ks a (s.sniffLeaves l) := by
  unfold State.sniffLeaves
  refine .ite h ?_
  extract_lets t
  have ht : Steady ks a t := .sniffSwitch (.showInj (.setFlag h (inBlock rfl)))
  split
  · exact .setFlag (.putInj (.modLane (.setFlag ht (inBlock rfl)))) (inBlock rfl)
  · exact ht

theorem Steady.putTrim (h : Steady ks a s) {b k : Nat} {v : Word} : Steady ks a (s.putTrim b k v) := by
  unfold State.putTrim
  extract_lets _ _ _ t _ u
  have ht : Steady ks a t := .setFlag (.setFld h (inBlock₂ rfl)) (inBlock₂ rfl)
  have hu : Steady ks a u := .modLane ht
  exact .ite hu (.voidSkew hu)

theorem Steady.putLtrim (h : Steady ks a s) {l : Nat} {v : Word} : Steady ks a (s.putLtrim l v) :=
  .ite (.modLane h) (.voidLevel (.modLane h))

theorem Steady.putDec (h : Steady ks a s) {l : Nat} {v : Word} : Steady ks a (s.putDec l v) := by
  unfold State.putDec
  extract_lets _ _ t _ t1
  have ht : Steady ks a t := .modLane h
  have ht1 : Steady ks a t1 := .ite (.mark ht) ht
  exact .ite ht (.ite (.restartInt ht1) ht1)

theorem Steady.modTwLane (h : Steady ks a s) {l : Nat} {f : TwLane → TwLane} : Steady ks a (s.modTwLane l f) := .inert h

theorem Steady.modTwBay (h : Steady ks a s) {b : Nat} {f : TwBay → TwBay} : Steady ks a (s.modTwBay b f) := .inert h

/-! ### The plan stops -/

theorem Steady.heelEnds (h : Steady ks a s) {code outcome cycle : Nat} : Steady ks a (s.heelEnds code outcome cycle) := by
  unfold State.heelEnds
  extract_lets t t1 _ t2
  have ht : Steady ks a t := .setFld (.setFlag h (by decide)) (by decide)
  have ht1 : Steady ks a t1 := .setFlag (.setFlag ht (by decide)) (by decide)
  have ht2 : Steady ks a t2 := .setRun ht1 rfl
  exact .causeAll (.post ht2)

theorem Steady.abandonHeel (h : Steady ks a s) : Steady ks a s.abandonHeel := .ite (.heelEnds h) h

theorem Steady.twGiveUp (h : Steady ks a s) : Steady ks a s.twGiveUp := 
  .ite h (.setFld (.setFld (.wr (.inert (.inert h)) (by decide)) (by decide)) (by decide))

theorem Steady.endSniff (h : Steady ks a s) {ls : List Nat} : Steady ks a (s.endSniff ls) :=
  .ite (.foldl h (fun _ _ ht => .sniffLeaves ht)) h

theorem Steady.surveyAbort (h : Steady ks a s) {code : Nat} : Steady ks a (s.surveyAbort code) :=
  .ite (.inert (.setFld (.inert (.ite (.endSniff h) h)) (by decide))) h

theorem Steady.planStops (h : Steady ks a s) : Steady ks a s.planStops := by
  unfold State.planStops
  refine .ite h ?_
  extract_lets t _ _ t1
  have ht : Steady ks a t := .setFlag h (by decide)
  have ht1 : Steady ks a t1 := .setRun ht rfl
  exact .powerRecord (.abandonHeel (.twGiveUp (.surveyAbort ht1)))

theorem Steady.triggerRestart (h : Steady ks a s) {g : Nat} : Steady ks a (s.triggerRestart g) := by
  unfold State.triggerRestart
  extract_lets t _ t1
  have ht : Steady ks a t := .setFlag h (by decide)
  have ht1 : Steady ks a t1 := .setRun ht rfl
  exact .ite (.planStops ht1) ht1

/-! ### Recorders -/

theorem Steady.modRec (h : Steady ks a s) {r : Nat} {f : RecSt → RecSt} : Steady ks a (s.modRec r f) := .inert h

theorem Steady.setRc (h : Steady ks a s) {r st : Nat} : Steady ks a (s.setRc r st) := .setFld h (inBlock rfl)

theorem Steady.enterArmed (h : Steady ks a s) {r f : Nat} : Steady ks a (s.enterArmed r f) :=
  .ite (.setRc (.modRec h)) (.ite (.setRc h) (.setRc (.setFld (.modRec (.modRec h)) (inBlock rfl))))

theorem Steady.acqStart (h : Steady ks a s) : Steady ks a s.acqStart := .foldl h (fun _ _ ht => .ite (.enterArmed ht) ht)

theorem Steady.acqStopAll (h : Steady ks a s) : Steady ks a s.acqStopAll := by
  unfold State.acqStopAll
  extract_lets t
  have ht : Steady ks a t := .foldl h (fun _ _ ht =>
    .setFlag (.setFld (.setFlag (.setRc (.modRec ht)) (inBlock rfl)) (inBlock rfl)) (inBlock rfl))
  exact .inert (.inert (.wr (.inert ht) (by decide)))

/-! ### The entry to STANDBY -/

theorem Steady.holdLane (h : Steady ks a s) {sec : List Byte} {l : Nat} : Steady ks a (s.holdLane sec l) := by
  unfold State.holdLane
  extract_lets _ t t1 t2 t3
  have ht : Steady ks a t := .putDec (.modLane h)
  have ht1 : Steady ks a t1 := .modLane ht
  have ht2 : Steady ks a t2 := .ite (.takeHold ht1) (.modLane ht1)
  have ht3 : Steady ks a t3 := .putTrim (.putLtrim ht2)
  exact .ite ht1 (.modTwLane ht3)

theorem Steady.holdBay (h : Steady ks a s) {sec : List Byte} {y : Nat} : Steady ks a (s.holdBay sec y) := by
  unfold State.holdBay
  extract_lets _ _ t t1
  have ht : Steady ks a t := .ite (.modBay h) (.modBay h)
  have ht1 : Steady ks a t1 := .modBay ht
  exact .ite ht1 (.modTwBay ht1)

theorem Steady.holdSettings (h : Steady ks a s) {b : List Byte} : Steady ks a (s.holdSettings b) :=
  .foldl (.foldl h (fun _ _ ht => .holdLane ht)) (fun _ _ ht => .holdBay ht)

theorem Steady.showSlotLoads (h : Steady ks a s) : Steady ks a s.showSlotLoads :=
  .wr (.freshWin (.foldl h (fun _ _ ht => .wr ht (inBlock rfl)))) (by decide)

theorem Steady.showPstat (h : Steady ks a s) : Steady ks a s.showPstat :=
  .foldl h (fun _ _ ht => .setFlag (.setFlag ht (sysEnd_le_hqKey _ _)) (sysEnd_le_hqKey _ _))

/-! ### Sections that write no register of the SYS block -/

theorem Steady.stageWr (h : Steady ks a s) {k : Nat} {v : Word} (hk : 0x010000 ≤ k) : Steady ks a (s.stageWr k v) :=
  .dropReqs (.wr h hk)

theorem Steady.stageFld (h : Steady ks a s) {k hi lo v : Nat} (hk : 0x010000 ≤ k) : Steady ks a (s.stageFld k hi lo v) :=
  .stageWr h hk

theorem Steady.stageLane (h : Steady ks a s) {v : List Byte} {l : Nat} : Steady ks a (s.stageLane v l) := by
  unfold State.stageLane
  extract_lets _ t t1 t2 t3 t4 t5
  have ht : Steady ks a t := .stageWr (.stageWr (.stageWr h (inBlock rfl)) (inBlock rfl)) (inBlock rfl)
  have ht1 : Steady ks a t1 := .setFlag ht (inBlock rfl)
  have ht2 : Steady ks a t2 := .stageWr ht1 (inBlock rfl)
  have ht3 : Steady ks a t3 := .stageWr ht2 (inBlock₂ rfl)
  have ht4 : Steady ks a t4 := .stageFld ht3 (inBlock₂ rfl)
  have ht5 : Steady ks a t5 := .stageWr (.stageWr ht4 (inBlock rfl)) (inBlock rfl)
  exact .ite ht1 (.wr ht5 (inBlock rfl))

theorem Steady.stageBay (h : Steady ks a s) {v : List Byte} {y : Nat} : Steady ks a (s.stageBay v y) := by
  unfold State.stageBay
  extract_lets _ t t1 t2 t3
  have ht : Steady ks a t := .stageWr h (inBlock rfl)
  have ht1 : Steady ks a t1 := .wr ht (inBlock rfl)
  have ht2 : Steady ks a t2 := .setFld (.stageFld ht1 (inBlock rfl)) (inBlock rfl)
  have ht3 : Steady ks a t3 := .setFlag (.modBay (.setFld ht2 (inBlock rfl))) (inBlock rfl)
  exact .ite ht3 (.stageWr (.stageWr (.stageWr (.stageWr ht3 (inBlock rfl)) (inBlock rfl)) (inBlock rfl)) (inBlock rfl))

theorem Steady.noControls (h : Steady ks a s) {i : Nat} : Steady ks a (s.noControls i) := .inert (.wr (.wr h (inBlock rfl)) (inBlock rfl))

theorem Steady.dropCommits (h : Steady ks a s) : Steady ks a s.dropCommits :=
  .foldl (.foldl (.inert h) (fun _ _ hu => .setFlag hu (sysEnd_le_portKey _ _))) (fun _ _ hu => .setFlag hu (sysEnd_le_portKey _ _))

theorem Steady.stageElems (h : Steady ks a s) {b v : List Byte} : Steady ks a (s.stageElems b v) := by
  unfold State.stageElems
  extract_lets _ _ t t1
  have ht : Steady ks a t := .inert h
  have ht1 : Steady ks a t1 := .foldl ht fun u _ hu => by
    extract_lets _ _ _ u1 u2
    have hu1 : Steady ks a u1 := .wr hu (inBlock rfl)
    have hu2 : Steady ks a u2 := .setFld (.wr hu1 (inBlock rfl)) (inBlock rfl)
    exact .ite hu2 (.noControls (.wr (.wr (.wr hu2 (inBlock rfl)) (inBlock rfl)) (inBlock rfl)))
  exact .foldl ht1 (fun _ _ ht => .ite (.wr ht (inBlock rfl)) ht)

theorem Steady.stageZones (h : Steady ks a s) {v : List Byte} : Steady ks a (s.stageZones v) := by
  unfold State.stageZones
  extract_lets _ _ t t1
  have ht : Steady ks a t := .inert h
  have ht1 : Steady ks a t1 := .foldl ht (fun _ _ hu =>
    .ite (.wr (.wr hu (inBlock rfl)) (inBlock rfl)) (.clearRegs (.wr hu (inBlock rfl)) (inBlock rfl)))
  exact .dropCommits (.wr ht1 (by decide))

theorem Steady.stageBudget (h : Steady ks a s) {v : List Byte} : Steady ks a (s.stageBudget v) := by
  unfold State.stageBudget
  extract_lets t t1 t2 t3
  have ht : Steady ks a t := .inert h
  have ht1 : Steady ks a t1 := .wr (.wr (.wr ht (by decide)) (by decide)) (by decide)
  have ht2 : Steady ks a t2 := .wr ht1 (by decide)
  have ht3 : Steady ks a t3 := .wr (.wr ht2 (by decide)) (by decide)
  exact .foldl ht3 (fun _ _ ht => .wr (.wr ht (inBlock rfl)) (inBlock rfl))

theorem Steady.stageRec (h : Steady ks a s) {v : List Byte} {r : Nat} {x : RecEnt} : Steady ks a (s.stageRec v r x) := by
  unfold State.stageRec
  extract_lets _ _ _ _ t t1 t2 t3 t4 t5 t6 t7
  have ht : Steady ks a t := .modRec h
  have ht1 : Steady ks a t1 := .stageWr (.stageWr (.stageWr (.stageWr ht (inBlock rfl)) (inBlock rfl)) (inBlock rfl)) (inBlock rfl)
  have ht2 : Steady ks a t2 := .stageWr (.stageWr ht1 (inBlock rfl)) (inBlock rfl)
  have ht3 : Steady ks a t3 := .wr (.wr (.wr ht2 (inBlock rfl)) (inBlock rfl)) (inBlock rfl)
  have ht4 : Steady ks a t4 := .wr ht3 (inBlock rfl)
  have ht5 : Steady ks a t5 := .wrList ht4 (inBlock₂ rfl)
  have ht6 : Steady ks a t6 := .foldl ht5 (fun _ _ ht => .wrList (.wr ht (inBlock₂ rfl)) (inBlock₂ rfl))
  have ht7 : Steady ks a t7 := .wr (.wr ht6 (inBlock rfl)) (inBlock rfl)
  exact .wr (.wr (.wr ht7 (inBlock rfl)) (inBlock rfl)) (inBlock rfl)

theorem Steady.stageAcq (h : Steady ks a s) {b : List Byte} : Steady ks a (s.stageAcq b) := by
  unfold State.stageAcq
  extract_lets _ _ t t1 t2 t3 t4
  have ht : Steady ks a t := .foldl (.acqStopAll h) (fun _ _ ht => .clearRegs ht (inBlock rfl))
  have ht1 : Steady ks a t1 := .inert ht
  have ht2 : Steady ks a t2 := .foldl ht1 (fun _ _ ht => .stageRec ht)
  have ht3 : Steady ks a t3 := .wr ht2 (by decide)
  have ht4 : Steady ks a t4 := .wr ht3 (by decide)
  exact .wr ht4 (by decide)

theorem Steady.stageFio (h : Steady ks a s) {v : List Byte} : Steady ks a (s.stageFio v) := by
  unfold State.stageFio
  extract_lets t t1 t2
  have ht : Steady ks a t := .foldl h (fun _ _ ht => .inert (.setFld (.stageWr ht (inBlock rfl)) (inBlock rfl)))
  have ht1 : Steady ks a t1 := .foldl ht (fun _ _ ht => .inert (.wr (.stageWr ht (inBlock rfl)) (inBlock rfl)))
  have ht2 : Steady ks a t2 := .foldl ht1 (fun _ _ ht => .wr ht (inBlock rfl))
  exact .foldl ht2 (fun _ _ ht => .setFld (.wr ht (inBlock rfl)) (inBlock rfl))

theorem Steady.stagePbx (h : Steady ks a s) {b : List Byte} : Steady ks a (s.stagePbx b) := by
  unfold State.stagePbx
  extract_lets _ _ t t1 t2 t3 _ t4 t5 t6
  have ht : Steady ks a t := by
    unfold t
    refine .foldl h fun s1 p hs1 => ?_
    extract_lets _ t1 t2 t3 t4 t5
    have ht1 : Steady ks a t1 := .wr hs1 (inBlock rfl)
    have ht2 : Steady ks a t2 := .wr (.wr ht1 (inBlock rfl)) (inBlock rfl)
    have ht3 : Steady ks a t3 := .stageWr (.stageWr ht2 (inBlock rfl)) (inBlock rfl)
    have ht4 : Steady ks a t4 :=
      .wr (.wr (.wr (.wr (.wr (.wr ht3 (inBlock rfl)) (inBlock rfl)) (inBlock rfl)) (inBlock rfl)) (inBlock rfl)) (inBlock rfl)
    have ht5 : Steady ks a t5 := .setFld (.setFld ht4 (inBlock rfl)) (inBlock rfl)
    exact .inert ht5
  have ht1 : Steady ks a t1 := .wr ht (by decide)
  have ht2 : Steady ks a t2 := .clearRegs (.clearRegs ht1 (by decide)) (by decide)
  have ht3 : Steady ks a t3 := .wr (.clearRegs ht2 (by decide)) (by decide)
  have ht4 : Steady ks a t4 := .inert ht3
  have ht5 : Steady ks a t5 := .foldl ht4 (fun _ _ ht => .wr ht (inBlock rfl))
  have ht6 : Steady ks a t6 := .foldl ht5 (fun _ _ ht => .inert (.wr ht (inBlock rfl)))
  exact .foldl ht6 (fun _ _ ht => .wr ht (inBlock rfl))

theorem Steady.clearHqCounters (h : Steady ks a s) : Steady ks a s.clearHqCounters :=
  .foldl h (fun _ _ ht => .foldl ht (fun _ _ hu => .wr hu (Nat.le_add_right_of_le (sysEnd_le_hqKey _ _))))

theorem Steady.digStart (h : Steady ks a s) : Steady ks a s.digStart := .foldl h (fun _ _ ht => .modRec ht)

end

/-! ### Staging, which may show a fault or a force in SYS_STAT -/

section
variable {a s : State}

theorem Steady.mode (h : Steady [Reg.SYS_MODE] a s) : s.mode = a.mode := State.fld_congr (h.rd _ List.mem_cons_self) 2 0

theorem Steady.setStat (h : Steady [Reg.SYS_MODE] a s) {n : Nat} {b : Bool} : Steady [Reg.SYS_MODE] a (s.setFlag Reg.SYS_STAT n b) :=
  h.wrOther (by decide)

theorem Steady.toSafe (h : Steady [Reg.SYS_MODE] a s) {cause : Nat} : Steady [Reg.SYS_MODE] a (s.toSafe cause) := by
  unfold State.toSafe
  refine .ite h ?_
  extract_lets t
  have ht : Steady [Reg.SYS_MODE] a t := h.setStat
  exact .setRun ht rfl

theorem Steady.noteRead (h : Steady [Reg.SYS_MODE] a s) {region w flags : Nat} : Steady [Reg.SYS_MODE] a (s.noteRead region w flags) := by
  unfold State.noteRead
  extract_lets _ _ t
  have ht : Steady [Reg.SYS_MODE] a t := .memRecord (.countBad h)
  split
  · exact h
  · exact .countCorrection h
  · exact .ite ht.toSafe ht

theorem Steady.closeQueueRun (h : Steady [Reg.SYS_MODE] a s) {st : Store} : Steady [Reg.SYS_MODE] a (s.closeQueueRun st) := by
  unfold State.closeQueueRun
  split
  · exact h
  · split
    · exact .evqCopy (.foldl (.putStore h) (fun _ _ ht => ht.noteRead))
    · exact h

theorem Steady.stageLogs (h : Steady [Reg.SYS_MODE] a s) {v : List Byte} : Steady [Reg.SYS_MODE] a (s.stageLogs v) := by
  unfold State.stageLogs
  extract_lets s1
  have hs1 : Steady [Reg.SYS_MODE] a s1 := .foldl h (fun _ _ ht => ht.closeQueueRun)
  refine .foldl hs1 fun s2 _ hs2 => ?_
  extract_lets _ _ _ t t1 t2
  have ht : Steady [Reg.SYS_MODE] a t := .clearRegs (.setStore hs2) (inBlock rfl)
  have ht1 : Steady [Reg.SYS_MODE] a t1 := .dropReqs ht
  have ht2 : Steady [Reg.SYS_MODE] a t2 := .wr ht1 (inBlock rfl)
  exact .ite ht1 (.clearStore (.wr ht2 (inBlock rfl)))

theorem Steady.showForced (h : Steady [Reg.SYS_MODE] a s) : Steady [Reg.SYS_MODE] a s.showForced := by
  unfold State.showForced
  extract_lets _ t
  have ht : Steady [Reg.SYS_MODE] a t := Steady.setStat (.foldl h (fun _ _ ht => .setFlag ht (inBlock rfl)))
  exact .ite (.inert ht) ht

theorem Steady.showForces (h : Steady [Reg.SYS_MODE] a s) {p : Nat} : Steady [Reg.SYS_MODE] a (s.showForces p) := by
  refine Steady.showForced (.foldl (.setFld h (inBlock rfl)) fun t j ht => ?_)
  split
  · exact .wr (.wr ht (inBlock₂ rfl)) (inBlock₂ rfl)
  · exact .wr (.wr ht (inBlock₂ rfl)) (inBlock₂ rfl)

theorem Steady.endForces (h : Steady [Reg.SYS_MODE] a s) {p : Nat} {keep : Force → Bool} {logs : Nat} :
    Steady [Reg.SYS_MODE] a (s.endForces p keep logs) :=
  .ite h (.post (Steady.showForces (.modPart h)))

theorem Steady.showTasks {ks : List Nat} (h : Steady ks a s) {p : Nat} : Steady ks a (s.showTasks p) :=
  .setFld (.foldl h (fun _ _ ht => .ite
    (.setFlag (.setFlag (.wr (.wr ht (inBlock₂ rfl)) (inBlock₂ rfl)) (inBlock₂ rfl)) (inBlock₂ rfl))
    (.wr (.wr (.wr ht (inBlock₂ rfl)) (inBlock₂ rfl)) (inBlock₂ rfl)))) (inBlock rfl)

theorem Steady.initScheme (h : Steady [Reg.SYS_MODE] a s) {staging : Bool} : Steady [Reg.SYS_MODE] a (s.initScheme staging) := by
  unfold State.initScheme
  refine .foldl (.inert h) fun s1 _ hs1 => ?_
  exact .showTasks (.foldl (.modPart (Steady.endForces hs1)) (fun _ _ ht =>
    .setFlag (.setFlag ht (inBlock₂ rfl)) (inBlock₂ rfl)))

theorem Steady.stageSlx (h : Steady [Reg.SYS_MODE] a s) {b : List Byte} : Steady [Reg.SYS_MODE] a (s.stageSlx b) := by
  unfold State.stageSlx
  extract_lets t _ t1
  have ht : Steady [Reg.SYS_MODE] a t := .foldl h (fun _ _ ht => .foldl (.wrList (.wr (.wr (.setFld (.setFld
    (.modPart ht) (inBlock rfl)) (inBlock rfl)) (inBlock rfl)) (inBlock rfl)) (inBlock₂ rfl)) (fun _ _ hu => .wr hu (inBlock₂ rfl)))
  have ht1 : Steady [Reg.SYS_MODE] a t1 := .setRun ht rfl
  exact ht1.initScheme

theorem Steady.stagePed (h : Steady [Reg.SYS_MODE] a s) {b : List Byte} : Steady [Reg.SYS_MODE] a (s.stagePed b) := by
  unfold State.stagePed
  extract_lets _ _ t t1 t2 t3 t4 t5 _ t6
  have ht : Steady [Reg.SYS_MODE] a t := .foldl h (fun _ _ ht => .stageLane ht)
  have ht1 : Steady [Reg.SYS_MODE] a t1 := .foldl ht (fun _ _ ht => .stageBay ht)
  have ht2 : Steady [Reg.SYS_MODE] a t2 := .stageZones (.stageElems ht1)
  have ht3 : Steady [Reg.SYS_MODE] a t3 := Steady.stageSlx (.stageBudget ht2)
  have ht4 : Steady [Reg.SYS_MODE] a t4 := .stageFio (Steady.stageLogs (.stageAcq ht3))
  have ht5 : Steady [Reg.SYS_MODE] a t5 := .stagePbx ht4
  have ht6 : Steady [Reg.SYS_MODE] a t6 := .wr (.wr ht5 (by decide)) (by decide)
  exact .digStart (.clearHqCounters ht6)

theorem Steady.assignParts (h : Steady [Reg.SYS_MODE] a s) {b : List Byte} : Steady [Reg.SYS_MODE] a (s.assignParts b) := by
  unfold State.assignParts
  extract_lets _ t t1 t2 t3
  have ht : Steady [Reg.SYS_MODE] a t := .foldl h (fun _ _ ht => .modBay ht)
  have ht1 : Steady [Reg.SYS_MODE] a t1 := .foldl ht (fun _ _ ht => .inert ht)
  have ht2 : Steady [Reg.SYS_MODE] a t2 := .foldl ht1 (fun _ _ ht => .inert ht)
  have ht3 : Steady [Reg.SYS_MODE] a t3 := .foldl ht2 (fun _ _ ht => .modPart ht)
  exact ht3.wrOther (by decide)

end

end Sys2Proof.Machine
end

section
/-! ## A load's way: command and read

The command of SEC_LOADCMD (R422), the word of SEC_VRES (R433) and the end of a read (R423). -/
namespace Sys2Proof.Machine

/-! ### SEC_LOADCMD -/

section
variable {s : State}

/-- GO does not touch a field above it. -/
theorem field_or_one (v : Word) {hi lo : Nat} (h : 0 < lo) : field (v ||| 1#32) hi lo = field v hi lo := by
  refine Nat.eq_of_testBit_eq fun j => ?_
  have hone : (1 : Nat).testBit (lo + j) = false := by
    obtain ⟨n, hn⟩ := Nat.exists_eq_succ_of_ne_zero (show lo + j ≠ 0 by omega)
    rw [hn, Nat.testBit_succ]
    exact Nat.zero_testBit n
  rw [testBit_field, testBit_field, BitVec.toNat_or, Nat.testBit_or]
  simp [hone]

theorem bit_or_one (v : Word) : bit (v ||| 1#32) 0 = true := by simp [bit]

/-- SEC_LOADCMD with the slot of a command and BUSY. -/
def State.showLoadcmd (s : State) (slot : Nat) : State :=
  (s.setFld Reg.SEC_LOADCMD 2 1 slot).setFlag Reg.SEC_LOADCMD 31 true

theorem onlyRequests_showLoadcmd (slot : Nat) : OnlyRequests [Reg.SEC_LOADCMD] s (s.showLoadcmd slot) :=
  ((OnlyRequests.refl _ s).wr _).wr _

theorem fld_showLoadcmd (v : Word) : (s.showLoadcmd (field v 2 1)).fld Reg.SEC_LOADCMD 2 1 = field v 2 1 := by
  rw [State.showLoadcmd, State.fld_setFlag_other _ _ _ (by decide) (by decide), State.fld_setFld_field _ _ _ (by decide) (by decide)]

theorem flag_showLoadcmd (slot : Nat) : (s.showLoadcmd slot).flag Reg.SEC_LOADCMD 31 = true := State.flag_setFlag_self _ _ _ (by decide)

theorem waiting_showLoadcmd (slot k : Nat) : (s.showLoadcmd slot).waiting k = s.waiting k :=
  State.waiting_congr ((State.setFlag_reqs ..).trans (State.setFld_reqs ..)) k

theorem wrLoadcmd_go {v : Word} (hv : bit v 0 = true) (p : Port) :
    wrLoadcmd p v s = (s.showLoadcmd (field v 2 1)).placeAll Reg.SEC_LOADCMD v p := if_pos hv

theorem fld_placeAll (k j hi lo : Nat) (v : Word) (p : Port) : (s.placeAll k v p).fld j hi lo = s.fld j hi lo := rfl

theorem flag_placeAll (k j n : Nat) (v : Word) (p : Port) : (s.placeAll k v p).flag j n = s.flag j n := rfl

theorem OnlyRequests.placeAll {k : Nat} {a t : State} (h : OnlyRequests [k] a t) (v : Word) (p : Port) :
    OnlyRequests [k] a (t.placeAll k v p) := by
  obtain ⟨he, hr, hq⟩ := h
  refine ⟨?_, hr, fun j hj => ?_⟩
  · rw [he]
    rfl
  · rw [State.waiting_placeAll, if_neg (by simpa using hj), hq j hj]

theorem wrLoadcmd_effect (s : State) (p : Port) (v : Word) :
    OnlyRequests [Reg.SEC_LOADCMD] s (wrLoadcmd p (v ||| 1#32) s) ∧
    (wrLoadcmd p (v ||| 1#32) s).waiting Reg.SEC_LOADCMD =
      s.waiting Reg.SEC_LOADCMD ++ [⟨(s.frame + 3) % 2 ^ 32, v ||| 1#32, p⟩] ∧
    (wrLoadcmd p (v ||| 1#32) s).fld Reg.SEC_LOADCMD 2 1 = field v 2 1 ∧
    (wrLoadcmd p (v ||| 1#32) s).flag Reg.SEC_LOADCMD 31 = true := by
  have hshown := onlyRequests_showLoadcmd (s := s) (field v 2 1)
  have hframe : (s.showLoadcmd (field v 2 1)).frame = s.frame := congrArg BitVec.toNat (hshown.2.1 Reg.ENG_FRAME (by decide))
  rw [wrLoadcmd_go (bit_or_one v), field_or_one v (by decide), State.waiting_placeAll, if_pos rfl, hframe, waiting_showLoadcmd,
    fld_placeAll, fld_showLoadcmd, flag_placeAll, flag_showLoadcmd]
  exact ⟨hshown.placeAll _ p, rfl, rfl, rfl⟩

/-! ### SEC_VRES -/

/-- The word of SEC_VRES for a load (R433). -/
def vresWord (l : LoadSt) (busy : Bool) (code tag adm : Nat) : Word :=
  BitVec.ofNat 32 (b2n busy * 2 ^ 31 + tag % 16 * 2 ^ 20 + (if l.delta then 2 else 1) * 65536
    + l.src % 16 * 4096 + adm % 16 * 256 + code % 256)

theorem showVres_eq (l : LoadSt) (busy : Bool) (code tag adm : Nat) :
    s.showVres l busy code tag adm = s.wr Reg.SEC_VRES (vresWord l busy code tag adm) := rfl

/-- The fields of SEC_VRES that the obligation names. -/
theorem vresWord_fields (l : LoadSt) (busy : Bool) (code tag adm : Nat) :
    bit (vresWord l busy code tag adm) 31 = busy ∧ field (vresWord l busy code tag adm) 7 0 = code % 256 ∧
    field (vresWord l busy code tag adm) 11 8 = adm % 16 ∧
    field (vresWord l busy code tag adm) 17 16 = if l.delta then 2 else 1 := by
  have hb : b2n busy ≤ 1 := by cases busy <;> decide
  have hd : (if l.delta then 2 else 1) ≤ 2 ∧ 1 ≤ (if l.delta then 2 else 1) := by cases l.delta <;> decide
  have hbit : bit (vresWord l busy code tag adm) 31 = decide ((vresWord l busy code tag adm).toNat / 2 ^ 31 % 2 = 1) := by
    rw [bit_eq, Nat.testBit_eq_decide_div_mod_eq]
  rw [hbit]
  unfold vresWord field
  rw [BitVec.toNat_ofNat]
  generalize (if l.delta then 2 else 1) = d at *
  refine ⟨?_, by omega, by omega, by omega⟩
  have hbusy : decide (b2n busy = 1) = busy := by cases busy <;> rfl
  refine (decide_eq_decide.2 ?_).trans hbusy
  omega

theorem rd_showVres (l : LoadSt) (busy : Bool) (code tag adm : Nat) :
    (s.showVres l busy code tag adm).rd Reg.SEC_VRES = vresWord l busy code tag adm := by
  rw [showVres_eq, State.rd_wr, if_pos rfl]

/-! ### The end of a read (R423) -/

/-- A load once its slot has been chosen. -/
def LoadSt.chosen (l : LoadSt) (headers : List (List Byte)) : LoadSt :=
  if l.choose then
    match slotOrder headers with
    | a :: rest => { l with src := 5 + a, choose := false, fallback := rest.head? }
    | [] => { l with choose := false, fallback := none, readErr := true }
  else l

/-- Whether the read of an image has failed, or its slot is empty. -/
def LoadSt.badRead (l : LoadSt) (image : List Byte) (ok : Bool) : Bool :=
  l.readErr || !ok || (decide (5 ≤ l.src) && image.take 4 != pedMagic)

/-- A load whose image has been read. -/
def LoadSt.read (l : LoadSt) (image : List Byte) (ok : Bool) : LoadSt :=
  { l with stage := 2, image := if l.badRead image ok then [] else image, readErr := l.badRead image ok }

theorem read_of_port {l : LoadSt} {image : List Byte} (hc : l.choose = false) (he : l.readErr = false) (hsrc : l.src < 5)
    (headers : List (List Byte)) : (l.chosen headers).read image true = { l with stage := 2, image := image } := by
  have hgood : l.badRead image true = false := by simp [LoadSt.badRead, he, Nat.not_le.2 hsrc]
  have hchosen : l.chosen headers = l := if_neg (by rw [hc]; decide)
  rw [hchosen, LoadSt.read, hgood, he]
  rfl

/-- A load in progress, with SEC_STAT and SEC_VRES as they show it. -/
def State.showRead (s : State) (l : LoadSt) : State := (s.setLoad l).showVres l true 0 0 0

theorem showRead_effect (l : LoadSt) :
    s.showRead l = { s with regs := (s.showRead l).regs, sec := (s.showRead l).sec } ∧
    RegsBut [Reg.SEC_STAT, Reg.SEC_VRES] s (s.showRead l) ∧ (s.showRead l).sec.load = l ∧
    (s.showRead l).flag Reg.SEC_VRES 31 = true := by
  refine ⟨rfl, fun k hk => ?_, ?_, ?_⟩
  · obtain ⟨hstat, hvres⟩ : k ≠ Reg.SEC_STAT ∧ k ≠ Reg.SEC_VRES := by simpa using hk
    rw [State.showRead, showVres_eq, State.rd_wr_other _ _ hvres]
    exact State.rd_wr_other _ _ hstat
  · rw [State.showRead, sec_showVres, load_setLoad]
  · rw [State.flag, State.showRead, rd_showVres]
    exact (vresWord_fields ..).1

theorem pedigreeReadDone_answers (s : State) (image : List Byte) (headers : List (List Byte)) (ok : Bool) :
    Answers (.pedigreeReadDone image headers ok) s (fun t =>
      let l := s.sec.load
      if l.stage ≠ 1 then t = s
      else
        t = { s with regs := t.regs, sec := t.sec } ∧ RegsBut [Reg.SEC_STAT, Reg.SEC_VRES] s t ∧
        t.sec.load.stage = 2 ∧ t.flag Reg.SEC_VRES 31 = true ∧
        (l.choose = false → l.readErr = false → l.src < 5 → ok = true → t.sec.load = { l with stage := 2, image := image })) := by
  have hexec : exec (.pedigreeReadDone image headers ok) s = if s.sec.load.stage ≠ 1 then .next s
      else .next (s.showRead ((s.sec.load.chosen headers).read image ok)) := rfl
  by_cases hstage : s.sec.load.stage ≠ 1
  · exact answers_of (hexec.trans (if_pos hstage)) (by simp only [if_pos hstage])
  · refine answers_of (hexec.trans (if_neg hstage)) ?_
    obtain ⟨hother, hregs, hload, hbusy⟩ := showRead_effect (s := s) ((s.sec.load.chosen headers).read image ok)
    simp only [if_neg hstage]
    refine ⟨hother, hregs, by rw [hload]; rfl, hbusy, fun hc he hsrc hok => ?_⟩
    rw [hload, hok, read_of_port hc he hsrc]

end
end Sys2Proof.Machine
end

section
/-! ## A load's way: refusal and verification

What a refusal shows and to whom (R424, R426), and what the checks of a whole image and of a delta leave (R255, R424, R428). -/
namespace Sys2Proof.Machine

/-! ### What a command's final entry rests on -/

section
variable {a s t : State}

/-- From a to t the queues of the host ports, their rings and the frame stand. -/
structure HostKept (a t : State) : Prop where
  hq : t.hq = a.hq
  frame : t.frame = a.frame
  ringOn : ∀ p q, t.ringOn p q = a.ringOn p q

theorem HostKept.refl (s : State) : HostKept s s := ⟨rfl, rfl, fun _ _ => rfl⟩

theorem HostKept.trans (h : HostKept a s) (ht : HostKept s t) : HostKept a t :=
  ⟨ht.hq.trans h.hq, ht.frame.trans h.frame, fun p q => (ht.ringOn p q).trans (h.ringOn p q)⟩

/-- An update that leaves the registers and the queues. -/
theorem HostKept.of_regs (hq : t.hq = s.hq) (hregs : t.regs = s.regs) : HostKept s t :=
  ⟨hq, congrArg BitVec.toNat (State.rd_congr hregs _), fun _ _ => State.flag_congr (State.rd_congr hregs _) 30⟩

theorem HostKept.wr (h : HostKept a s) {k : Nat} (hk : k < 2 ^ 24) (hf : Reg.ENG_FRAME ≠ k) (w : Word) : HostKept a (s.wr k w) :=
  h.trans ⟨State.wr_hq .., congrArg BitVec.toNat (State.rd_wr_other s w hf), fun _ _ => flag_wr_other (ne_portKey hk _ _).symm w 30⟩

theorem HostKept.pedRecord (h : HostKept a s) (kind code adm : Nat) (l : LoadSt) : HostKept a (s.pedRecord kind l code adm) :=
  h.trans (.of_regs (State.postNow_hq ..) (State.postNow_regs ..))

theorem Posts.of_hostKept {p : Nat} {c : Cmd} {final : Bool} {status result : Nat} (h : HostKept s t) {u : State}
    (hu : Posts t u p c final status result) : Posts s u p c final status result := by
  intro hoff huniq hp
  have hport : t.port p = s.port p := port_congr h.hq
  have hheld := hu ((h.ringOn p .cpl).trans hoff) (by rwa [hport]) (by rwa [h.hq])
  rwa [hport, h.frame] at hheld

theorem Posts.congr {p : Nat} {c : Cmd} {final : Bool} {status result : Nat} (h : Posts s t p c final status result) {u : State}
    (hu : u.hq = t.hq) : Posts s u p c final status result := by
  intro hoff huniq hp
  rw [port_congr hu]
  exact h hoff huniq hp

end

/-! ### A final entry, and the load after -/

section
variable {s : State}

theorem rd_finishLoad {k : Nat} (hk : k < 2 ^ 24) (l : LoadSt) (status result : Nat) :
    (s.finishLoad l status result).rd k = s.rd k := by
  unfold State.finishLoad
  split
  · exact (CplWork.refl _ s).complete.rd hk
  · rfl

theorem rd_setLoad {k : Nat} (hk : k ≠ Reg.SEC_STAT) (l : LoadSt) : (s.setLoad l).rd k = s.rd k := State.rd_wr_other _ _ hk

theorem rd_nextLoad {k : Nat} (hk : k ≠ Reg.SEC_STAT) : s.nextLoad.rd k = s.rd k := by
  unfold State.nextLoad
  split
  · exact rd_setLoad hk _
  · exact rd_setLoad hk _

theorem hq_setLoad (l : LoadSt) : (s.setLoad l).hq = s.hq := State.setFlag_hq ..

theorem hq_nextLoad : s.nextLoad.hq = s.hq := by
  unfold State.nextLoad
  split
  · exact hq_setLoad _
  · exact hq_setLoad _

theorem posts_finishLoad {l : LoadSt} {q : Nat} {d : Cmd} (hcmd : l.cmd = some (q, d.tag)) (hd : d ∈ (s.port q).cmds)
    (status result : Nat) : Posts s (s.finishLoad l status result) q d true status result := by
  rw [State.finishLoad, hcmd]
  exact posts_complete hd true status result

/-! ### What a refusal shows -/

/-- The record, the result and the item of a refusal. -/
def State.refusedResult (s : State) (code tag item adm : Nat) : State :=
  let l := s.sec.load
  let t := (s.pedRecord (if l.delta then 4 else 2) l code adm).showVres l false code tag adm
  if 10 ≤ code ∧ code ≤ 15 then t.wr Reg.SEC_VITEM (BitVec.ofNat 32 item) else t

theorem refusedEntry_eq (code tag item adm status : Nat) : s.refusedEntry code tag item adm status =
    (s.refusedResult code tag item adm).finishLoad s.sec.load status (if status = 7 then code + 256 * adm else 0) := rfl

theorem hostKept_refusedResult (code tag item adm : Nat) : HostKept s (s.refusedResult code tag item adm) := by
  have hshown := ((HostKept.refl s).pedRecord (if s.sec.load.delta then 4 else 2) code adm s.sec.load).wr (k := Reg.SEC_VRES)
    (by decide) (by decide) (vresWord s.sec.load false code tag adm)
  unfold State.refusedResult
  dsimp only
  split
  · exact hshown.wr (by decide) (by decide) _
  · exact hshown

theorem vres_refusedResult (code tag item adm : Nat) :
    (s.refusedResult code tag item adm).rd Reg.SEC_VRES = vresWord s.sec.load false code tag adm := by
  unfold State.refusedResult
  dsimp only
  split
  · rw [State.rd_wr_other _ _ (by decide), rd_showVres]
  · exact rd_showVres ..

/-- Without another slot to try a refusal shows its codes (R424, R433). -/
theorem vres_refuseLoad (hf : s.sec.load.fallback = none) (code tag item adm status : Nat) :
    (s.refuseLoad code tag item adm status).rd Reg.SEC_VRES = vresWord s.sec.load false code tag adm := by
  have hentry : (s.refusedEntry code tag item adm status).rd Reg.SEC_VRES = vresWord s.sec.load false code tag adm := by
    rw [refusedEntry_eq, rd_finishLoad (by decide), vres_refusedResult]
  rw [refuseLoad_last hf]
  split
  · rw [rd_nextLoad (by decide), hentry]
  · rw [rd_setLoad (by decide), hentry]

/-- With one, SEC_VRES stands and the other slot is read (R426). -/
theorem refuseLoad_retries {k : Nat} (hf : s.sec.load.fallback = some k) (code tag item adm status : Nat) :
    (s.refuseLoad code tag item adm status).rd Reg.SEC_VRES = s.rd Reg.SEC_VRES ∧
    (s.refuseLoad code tag item adm status).sec.load.stage = 1 ∧ (s.refuseLoad code tag item adm status).sec.load.src = 5 + k := by
  rw [refuseLoad_slot hf]
  refine ⟨?_, rfl, rfl⟩
  rw [State.emit_rd, rd_setLoad (by decide)]
  exact State.rd_congr (State.postNow_regs ..) _

/-- The command of the load receives its final entry. -/
theorem posts_refuseLoad (hf : s.sec.load.fallback = none) {q : Nat} {d : Cmd} (hcmd : s.sec.load.cmd = some (q, d.tag))
    (hd : d ∈ (s.port q).cmds) (code tag item adm : Nat) :
    Posts s (s.refuseLoad code tag item adm 7) q d true 7 (code + 256 * adm) := by
  have hkept := hostKept_refusedResult (s := s) code tag item adm
  have hentry : Posts s (s.refusedEntry code tag item adm 7) q d true 7 (code + 256 * adm) :=
    .of_hostKept hkept (posts_finishLoad hcmd (by rwa [port_congr hkept.hq]) 7 _)
  rw [refuseLoad_last hf]
  split
  · exact hentry.congr hq_nextLoad
  · exact hentry.congr (hq_setLoad _)

end
end Sys2Proof.Machine
end

section
/-! ## A load's way: verification

What PEDIGREE_VERIFY_DONE leaves where the header fails, and of a whole image and a delta whose header passes (R424 to R428). -/
namespace Sys2Proof.Machine

/-! ### The parts of the state that a load reads -/

section
variable {a s t : State}

theorem part_congr (h : t.slx = s.slx) (p : Nat) : t.part p = s.part p := by
  unfold State.part
  rw [h]

theorem part_modPart (p : Nat) (f : PartSt → PartSt) : (s.modPart p f).part p = f (s.part p) := by
  obtain _ | _ | _ | _ := p
  · rfl
  · rfl
  · rfl
  · rfl

theorem slx_setLoad (l : LoadSt) : (s.setLoad l).slx = s.slx := State.setFlag_slx ..

/-- From a to t the loads and the partitions stand. -/
structure ChecksOnly (a t : State) : Prop where
  sec : t.sec = a.sec
  slx : t.slx = a.slx

theorem ChecksOnly.refl (s : State) : ChecksOnly s s := ⟨rfl, rfl⟩

theorem ChecksOnly.showPchk (h : ChecksOnly a s) {p code task pos : Nat} : ChecksOnly a (s.showPchk p code task pos) :=
  ⟨(State.wr_sec ..).trans h.sec, (State.wr_slx ..).trans h.slx⟩

/-- The checks of a delta show their result and change nothing else (R428). -/
theorem checksOnly_checkDelta (s : State) (b : List Byte) (p : Nat) : ChecksOnly s (s.checkDelta b p).2.1 := by
  unfold State.checkDelta
  split
  · exact .refl s
  · dsimp only
    split
    · exact .refl s
    · split
      · exact (ChecksOnly.refl s).showPchk
      · split
        · exact (ChecksOnly.refl s).showPchk
        · exact (ChecksOnly.refl s).showPchk

end

/-! ### Verification -/

section
variable {s : State}

/-- The code of the checks of a header (R424). -/
def State.verifyCode (s : State) : Nat :=
  let l := s.sec.load
  if l.readErr then 16 else s.headerCode l.delta l.part l.image

/-- A load whose admission runs. -/
def State.admitting (s : State) (l : LoadSt) (r : AdmRes) : State := (s.setLoad (l.withAdm r)).setFlag Reg.ENG_ADM_STAT 31 true

/-- A delta whose checks have passed, in its shadow bank. -/
def State.enterShadow (s : State) (p : Nat) (x : Blk) (jobs : List OJob) : State :=
  (s.modPart p (fun y => { y with shadow := x.prog, shadowJobs := jobs, carried := none })).setFld (Reg.SLX_PSTAT p) 31 30 1

/-- What the checks of the sections of a delta lead to. -/
def State.deltaChecked (s : State) : State :=
  let l := s.sec.load
  match s.checkDelta l.image l.part with
  | (_, t, some (x, jobs)) =>
    let t := t.enterShadow l.part x jobs
    t.admitting l (t.admitChange l.part x.ntask)
  | (r, t, none) => t.refuseLoad r.code r.tag r.item 0 7

/-- What the checks of the sections of a whole image lead to. -/
def State.wholeChecked (s : State) : State :=
  let l := s.sec.load
  let r := s.checkWhole l.image
  if r.1.code ≠ 0 then r.2.refuseLoad r.1.code r.1.tag r.1.item 0 7
  else r.2.admitting l (admitPed (((s.stagePed l.image).assignParts l.image).holdRoles (sectVal l.image 1)) l.image)

theorem exec_pedigreeVerifyDone (s : State) : exec .pedigreeVerifyDone s =
    .next (if s.sec.load.stage ≠ 2 then s
      else if s.verifyCode ≠ 0 then s.refuseLoad s.verifyCode 0 0 0 7
      else if s.sec.load.delta then s.deltaChecked else s.wholeChecked) := by
  change execPedigreeVerifyDone s = _
  unfold execPedigreeVerifyDone State.deltaChecked State.wholeChecked State.admitting State.enterShadow
  dsimp only
  change (if _ ≠ 2 then _ else if s.verifyCode ≠ 0 then _ else _) = _
  split
  · rfl
  · split
    · rfl
    · cases s.sec.load.delta with
      | true =>
        generalize s.checkDelta s.sec.load.image s.sec.load.part = r
        obtain ⟨_, _, _ | _⟩ := r
        · rfl
        · rfl
      | false =>
        generalize s.checkWhole s.sec.load.image = r
        exact (apply_ite ..).symm

/-! ### A load whose admission runs -/

theorem rd_admitting {k : Nat} (hk : k ≠ Reg.SEC_STAT) (hadm : k ≠ Reg.ENG_ADM_STAT) (l : LoadSt) (r : AdmRes) :
    (s.admitting l r).rd k = s.rd k := (State.rd_wr_other _ _ hadm).trans (rd_setLoad hk _)

theorem slx_admitting (l : LoadSt) (r : AdmRes) : (s.admitting l r).slx = s.slx := (State.setFlag_slx ..).trans (slx_setLoad _)

theorem sec_admitting (l : LoadSt) (r : AdmRes) : (s.admitting l r).sec.load = l.withAdm r := by
  rw [State.admitting, State.setFlag_sec, load_setLoad]

theorem flag_admitting (l : LoadSt) (r : AdmRes) : (s.admitting l r).flag Reg.ENG_ADM_STAT 31 = true :=
  State.flag_setFlag_self _ _ _ (by decide)

/-! ### A header that fails -/

/-- A header that fails is shown, and the load is refused (R424, R426). -/
theorem header_refused (hc : s.verifyCode < 256) (hf : s.sec.load.fallback = none) :
    let t := s.refuseLoad s.verifyCode 0 0 0 7
    t.fld Reg.SEC_VRES 7 0 = s.verifyCode ∧ t.flag Reg.SEC_VRES 31 = false ∧
    (s.sec.load.delta = false → t.sec.load.stage = 6) ∧ (s.sec.load.delta = true → NextLoad s t) ∧
    ∀ q d, s.sec.load.cmd = some (q, d.tag) → d ∈ (s.port q).cmds → Posts s t q d true 7 s.verifyCode := by
  obtain ⟨hbusy, hcode, -⟩ := vresWord_fields s.sec.load false s.verifyCode 0 0
  refine ⟨?_, ?_, fun hd => stage_refuseLoad hd hf .., fun hd => next_refuseLoad hd hf .., fun q d hcmd hd => ?_⟩
  · rw [State.fld, vres_refuseLoad hf, hcode, Nat.mod_eq_of_lt hc]
  · rw [State.flag, vres_refuseLoad hf, hbusy]
  · exact posts_refuseLoad hf hcmd hd s.verifyCode 0 0 0

/-! ### A header that passes -/

/-- A whole image that passes goes to admission. -/
theorem whole_admitted (h : (s.checkWhole s.sec.load.image).1.code = 0) :
    s.wholeChecked.sec.load.stage = 3 ∧ s.wholeChecked.sec.load.image = s.sec.load.image ∧
    s.wholeChecked.flag Reg.ENG_ADM_STAT 31 = true := by
  unfold State.wholeChecked
  rw [if_neg (not_not.2 h), sec_admitting, flag_admitting]
  exact ⟨rfl, rfl, rfl⟩

theorem part_enterShadow (p : Nat) (x : Blk) (jobs : List OJob) :
    (s.enterShadow p x jobs).part p = { s.part p with shadow := x.prog, shadowJobs := jobs, carried := none } :=
  (part_congr (State.setFld_slx ..) p).trans (part_modPart p _)

theorem pstat_enterShadow (p : Nat) (x : Blk) (jobs : List OJob) : (s.enterShadow p x jobs).fld (Reg.SLX_PSTAT p) 31 30 = 1 :=
  State.fld_setFld _ _ _ (by decide) (by decide)

/-- SLX_PSTAT of a partition is no register of a load's result. -/
theorem pstat_ne (p : Fin 4) : Reg.SLX_PSTAT p.val ≠ Reg.SEC_STAT ∧ Reg.SLX_PSTAT p.val ≠ Reg.ENG_ADM_STAT ∧
    Reg.SLX_PSTAT p.val < 2 ^ 24 ∧ Reg.SLX_PSTAT p.val ∉ loadKeys := by
  revert p
  decide

/-- A delta whose sections fail is refused with their code, and the next one begins. -/
theorem delta_refused {r : Verdict424} {t : State} (h : s.checkDelta s.sec.load.image s.sec.load.part = (r, t, none))
    (hd : s.sec.load.delta = true) (hf : s.sec.load.fallback = none) (hc : r.code < 256) :
    s.deltaChecked.fld Reg.SEC_VRES 7 0 = r.code ∧ s.deltaChecked.fld Reg.SEC_VRES 17 16 = 2 ∧
    s.deltaChecked.flag Reg.SEC_VRES 31 = false ∧ NextLoad s s.deltaChecked := by
  have hchecks := checksOnly_checkDelta s s.sec.load.image s.sec.load.part
  rw [h] at hchecks
  have hkept : t.sec = s.sec := hchecks.sec
  have hchecked : s.deltaChecked = t.refuseLoad r.code r.tag r.item 0 7 := by
    unfold State.deltaChecked
    dsimp only
    rw [h]
  obtain ⟨hbusy, hcode, -, hkind⟩ := vresWord_fields t.sec.load false r.code r.tag 0
  have hvres := vres_refuseLoad (s := t) (by rwa [hkept]) r.code r.tag r.item 0 7
  rw [hchecked, State.fld, State.fld, State.flag, hvres, hcode, hkind, hbusy, hkept, hd, Nat.mod_eq_of_lt hc]
  exact ⟨rfl, rfl, rfl, (next_refuseLoad (by rwa [hkept]) (by rwa [hkept]) ..).of_sec hkept⟩

/-- A delta that passes stands in its shadow bank while its admission runs (R255). -/
theorem delta_shadowed {r : Verdict424} {t : State} {x : Blk} {jobs : List OJob}
    (h : s.checkDelta s.sec.load.image s.sec.load.part = (r, t, some (x, jobs))) (hp : s.sec.load.part < 4) :
    (s.deltaChecked.part s.sec.load.part).shadow = x.prog ∧ (s.deltaChecked.part s.sec.load.part).shadowJobs = jobs ∧
    (s.deltaChecked.part s.sec.load.part).prog = (s.part s.sec.load.part).prog ∧
    s.deltaChecked.fld (Reg.SLX_PSTAT s.sec.load.part) 31 30 = 1 ∧ s.deltaChecked.sec.load.stage = 3 ∧
    s.deltaChecked.flag Reg.ENG_ADM_STAT 31 = true := by
  have hchecks := checksOnly_checkDelta s s.sec.load.image s.sec.load.part
  rw [h] at hchecks
  have hkept : t.slx = s.slx := hchecks.slx
  have hchecked : s.deltaChecked = (t.enterShadow s.sec.load.part x jobs).admitting s.sec.load
      ((t.enterShadow s.sec.load.part x jobs).admitChange s.sec.load.part x.ntask) := by
    unfold State.deltaChecked
    dsimp only
    rw [h]
  obtain ⟨hstat, hadm, -⟩ := pstat_ne ⟨s.sec.load.part, hp⟩
  rw [hchecked, part_congr (slx_admitting ..), part_enterShadow, part_congr hkept, State.fld_congr (rd_admitting hstat hadm ..),
    pstat_enterShadow, sec_admitting, flag_admitting]
  exact ⟨rfl, rfl, rfl, rfl, rfl, rfl⟩

theorem pedigreeVerifyDone_answers (s : State) : Answers .pedigreeVerifyDone s (fun t =>
    let l := s.sec.load
    if l.stage ≠ 2 then t = s
    else
      let c := s.verifyCode
      (c ≠ 0 → c < 256 → l.fallback = none → t.fld Reg.SEC_VRES 7 0 = c ∧ t.flag Reg.SEC_VRES 31 = false ∧
        (l.delta = false → t.sec.load.stage = 6) ∧ (l.delta = true → NextLoad s t) ∧
        ∀ q d, l.cmd = some (q, d.tag) → d ∈ (s.port q).cmds → Posts s t q d true 7 c) ∧
      (c ≠ 0 → ∀ k, l.fallback = some k → t.rd Reg.SEC_VRES = s.rd Reg.SEC_VRES ∧ t.sec.load.stage = 1 ∧ t.sec.load.src = 5 + k) ∧
      (c = 0 → l.delta = false → (s.checkWhole l.image).1.code = 0 →
        t.sec.load.stage = 3 ∧ t.sec.load.image = l.image ∧ t.flag Reg.ENG_ADM_STAT 31 = true) ∧
      (c = 0 → l.delta = true → l.part < 4 →
        match s.checkDelta l.image l.part with
        | (r, _, none) => l.fallback = none → r.code < 256 →
          t.fld Reg.SEC_VRES 7 0 = r.code ∧ t.fld Reg.SEC_VRES 17 16 = 2 ∧ t.flag Reg.SEC_VRES 31 = false ∧ NextLoad s t
        | (_, _, some (x, jobs)) =>
          (t.part l.part).shadow = x.prog ∧ (t.part l.part).shadowJobs = jobs ∧ (t.part l.part).prog = (s.part l.part).prog ∧
          t.fld (Reg.SLX_PSTAT l.part) 31 30 = 1 ∧ t.sec.load.stage = 3 ∧ t.flag Reg.ENG_ADM_STAT 31 = true)) := by
  refine answers_of (exec_pedigreeVerifyDone s) ?_
  dsimp only
  by_cases hstage : s.sec.load.stage ≠ 2
  · simp only [if_pos hstage]
  · rw [if_neg hstage, if_neg hstage]
    by_cases hc : s.verifyCode = 0
    · rw [if_neg (not_not.2 hc)]
      refine ⟨fun h => absurd hc h, fun h => absurd hc h, fun _ hd hcode => ?_, fun _ hd hp => ?_⟩
      · rw [if_neg (by rw [hd]; decide)]
        exact whole_admitted hcode
      · rw [if_pos hd]
        split
        · next h => exact delta_refused h hd
        · next h => exact delta_shadowed h hp
    · rw [if_pos hc]
      exact ⟨fun _ hlt hf => header_refused hlt hf, fun _ k hf => refuseLoad_retries hf .., fun h => absurd h hc, fun h => absurd h hc⟩

end
end Sys2Proof.Machine
end

section
/-! ## A load's way: admission

What ADMISSION_COMPLETE leaves of a whole load and of a delta (R51, R255, R424 to R428). -/
namespace Sys2Proof.Machine

/-! ### What the result of an admission leaves -/

section
variable {a s t : State}

/-- From a to t the loads, the mode and what a command's final entry rests on stand. -/
structure LoadKept (a t : State) : Prop where
  host : HostKept a t
  sec : t.sec = a.sec
  mode : t.mode = a.mode

theorem LoadKept.refl (s : State) : LoadKept s s := ⟨.refl s, rfl, rfl⟩

theorem LoadKept.wr (h : LoadKept a s) {k : Nat} (hk : k < 2 ^ 24) (hf : Reg.ENG_FRAME ≠ k) (hm : Reg.SYS_MODE ≠ k) (w : Word) :
    LoadKept a (s.wr k w) :=
  ⟨h.host.wr hk hf w, (State.wr_sec ..).trans h.sec, (State.fld_congr (State.rd_wr_other s w hm) 2 0).trans h.mode⟩

/-- An update that leaves the registers, the queues and the loads. -/
theorem LoadKept.of_regs (h : LoadKept a s) (hq : t.hq = s.hq) (hregs : t.regs = s.regs) (hsec : t.sec = s.sec) : LoadKept a t :=
  ⟨h.host.trans (.of_regs hq hregs), hsec.trans h.sec, (State.fld_congr (State.rd_congr hregs _) 2 0).trans h.mode⟩

theorem modPart_eq (p : Nat) (f : PartSt → PartSt) : ∃ x : SlxSt, s.modPart p f = { s with slx := x } := by
  unfold State.modPart State.setPart
  split
  · exact ⟨_, rfl⟩
  · exact ⟨_, rfl⟩
  · exact ⟨_, rfl⟩
  · exact ⟨_, rfl⟩

theorem LoadKept.modPart (h : LoadKept a s) (p : Nat) (f : PartSt → PartSt) : LoadKept a (s.modPart p f) := by
  obtain ⟨x, hx⟩ := modPart_eq (s := s) p f
  rw [hx]
  exact h.of_regs rfl rfl rfl

theorem run_modPart (p : Nat) (f : PartSt → PartSt) : (s.modPart p f).run = s.run := by
  obtain ⟨x, hx⟩ := modPart_eq (s := s) p f
  rw [hx]

theorem EndWork.mode (h : EndWork a s) : s.mode = a.mode := State.fld_congr (h.rd (by decide) (by decide)) 2 0

theorem EndWork.run (h : EndWork a s) : s.run = a.run := by rw [h.only]

theorem EndWork.slx (h : EndWork a s) : s.slx = a.slx := by rw [h.only]

end

/-! ### The registers of an admission -/

section
variable {s : State}

/-- The result of an admission in its registers. -/
def State.admShown (s : State) : State :=
  let l := s.sec.load
  s.showAdm (if 5 ≤ l.src then 5 else l.src)
    { code := l.adm, item := l.admItem, slot := l.admSlot, count := l.admCount, load := l.admLoad }

theorem loadKept_admShown (s : State) : LoadKept s s.admShown :=
  (((LoadKept.refl s).wr (by decide) (by decide) (by decide) _).wr (by decide) (by decide) (by decide) _).wr
    (by decide) (by decide) (by decide) _

theorem run_admShown : s.admShown.run = s.run := (State.wr_run ..).trans ((State.wr_run ..).trans (State.wr_run ..))

/-- SLX_PSTAT and SEC_DSEQ of a partition lie below the copies of the ports; no result of a load and no frame stands there. -/
theorem partKey_ne (p : Fin 4) : ∀ k ∈ [Reg.SLX_PSTAT p.val, Reg.SEC_DSEQ p.val],
    k < 2 ^ 24 ∧ Reg.ENG_FRAME ≠ k ∧ Reg.SYS_MODE ≠ k ∧ k ∉ loadKeys := by
  revert p
  decide

theorem pstat_ne_dseq (p : Fin 4) : Reg.SLX_PSTAT p.val ≠ Reg.SEC_DSEQ p.val := by
  revert p
  decide

theorem LoadKept.wrPart {a : State} (h : LoadKept a s) (p : Fin 4) {k : Nat} (hk : k ∈ [Reg.SLX_PSTAT p.val, Reg.SEC_DSEQ p.val])
    (w : Word) : LoadKept a (s.wr k w) := by
  obtain ⟨hlt, hframe, hmode, -⟩ := partKey_ne p k hk
  exact h.wr hlt hframe hmode w

theorem EndWork.rdPart {a : State} (h : EndWork a s) (p : Fin 4) {k : Nat} (hk : k ∈ [Reg.SLX_PSTAT p.val, Reg.SEC_DSEQ p.val]) :
    s.rd k = a.rd k := by
  obtain ⟨hlt, -, -, hload⟩ := partKey_ne p k hk
  exact h.rd hlt hload

/-! ### A delta that is not admitted -/

theorem loadKept_emptyShadow {a : State} (h : LoadKept a s) (p : Fin 4) : LoadKept a (s.emptyShadow p.val) :=
  (h.modPart p.val _).wrPart p List.mem_cons_self _

theorem run_emptyShadow (p : Nat) : (s.emptyShadow p).run = s.run := (State.setFld_run ..).trans (run_modPart ..)

theorem shadow_emptyShadow (p : Nat) : ((s.emptyShadow p).part p).shadow = {} :=
  congrArg PartSt.shadow ((part_congr (State.setFld_slx ..) p).trans (part_modPart p _))

theorem pstat_emptyShadow (p : Nat) : (s.emptyShadow p).fld (Reg.SLX_PSTAT p) 31 30 = 0 :=
  State.fld_setFld _ _ _ (by decide) (by decide)

/-- Its shadow bank is empty, and its command ends with the code of the admission (R428). -/
theorem admission_refused (p : Fin 4) (hd : s.sec.load.delta = true) (hadm : s.sec.load.adm < 16)
    (hf : s.sec.load.fallback = none) :
    let t := (s.admShown.emptyShadow p.val).refuseLoad 0 0 0 s.sec.load.adm 7
    t.fld (Reg.SLX_PSTAT p.val) 31 30 = 0 ∧ (t.part p.val).shadow = {} ∧ t.fld Reg.SEC_VRES 11 8 = s.sec.load.adm ∧
    t.run.swapDue = s.run.swapDue ∧ NextLoad s t ∧ t.mode = s.mode ∧
    ∀ q d, s.sec.load.cmd = some (q, d.tag) → d ∈ (s.port q).cmds → Posts s t q d true 7 (256 * s.sec.load.adm) := by
  have hkept := loadKept_emptyShadow (loadKept_admShown s) p
  have hrun : (s.admShown.emptyShadow p.val).run = s.run := (run_emptyShadow _).trans run_admShown
  have hshadow := shadow_emptyShadow (s := s.admShown) p.val
  have hpstat := pstat_emptyShadow (s := s.admShown) p.val
  generalize s.admShown.emptyShadow p.val = u at *
  have hend : EndWork u (u.refuseLoad 0 0 0 s.sec.load.adm 7) := (EndWork.refl u).refuseLoad
  have hfu : u.sec.load.fallback = none := by rwa [hkept.sec]
  have hdu : u.sec.load.delta = true := by rwa [hkept.sec]
  obtain ⟨-, -, hvres, -⟩ := vresWord_fields u.sec.load false 0 0 s.sec.load.adm
  refine ⟨?_, ?_, ?_, ?_, (next_refuseLoad hdu hfu ..).of_sec hkept.sec, hend.mode.trans hkept.mode, fun q d hcmd hmem => ?_⟩
  · rw [State.fld_congr (hend.rdPart p List.mem_cons_self), hpstat]
  · rw [part_congr hend.slx, hshadow]
  · rw [State.fld, vres_refuseLoad hfu, hvres, Nat.mod_eq_of_lt hadm]
  · rw [hend.run, hrun]
  · have hposts := posts_refuseLoad hfu (by rwa [hkept.sec]) (by rwa [port_congr hkept.host.hq]) 0 0 0 s.sec.load.adm
    rw [Nat.zero_add] at hposts
    exact hposts.of_hostKept hkept.host

/-! ### A delta that is admitted -/

/-- A swap that waits for a boundary. -/
def State.addSwap (s : State) (p g : Nat) : State := { s with run := { s.run with swapDue := s.run.swapDue ++ [(p, g)] } }

theorem rd_addSwap (p g k : Nat) : (s.addSwap p g).rd k = s.rd k := rfl

theorem LoadKept.addSwap {a : State} (h : LoadKept a s) (p g : Nat) : LoadKept a (s.addSwap p g) := h.of_regs rfl rfl rfl

/-- A delta admitted shows its state and DSEQ, and its swap waits. -/
def State.swapNoted (s : State) (l : LoadSt) (p g : Nat) : State :=
  ((s.setFld (Reg.SLX_PSTAT p) 31 30 2).wr (Reg.SEC_DSEQ p) (BitVec.ofNat 32 (pedDseq l.image))).addSwap p g

/-- The result, the record and the final entry of a delta admitted. -/
def State.deltaEnds (s : State) (l : LoadSt) : State := (((s.showVres l false 0 0 0).pedRecord 3 l 0 0).finishLoad l 0 0).nextLoad

theorem loadKept_swapNoted {a : State} (h : LoadKept a s) (l : LoadSt) (p : Fin 4) (g : Nat) : LoadKept a (s.swapNoted l p.val g) :=
  ((h.wrPart p List.mem_cons_self _).wrPart p (List.mem_cons_of_mem _ List.mem_cons_self) _).addSwap p.val g

theorem swapDue_swapNoted (l : LoadSt) (p g : Nat) : (s.swapNoted l p g).run.swapDue = s.run.swapDue ++ [(p, g)] := by
  rw [State.swapNoted, State.addSwap, State.wr_run, State.setFld_run]

theorem dseq_swapNoted (l : LoadSt) (p g : Nat) :
    (s.swapNoted l p g).rd (Reg.SEC_DSEQ p) = BitVec.ofNat 32 (pedDseq l.image) := by
  rw [State.swapNoted, rd_addSwap, State.rd_wr, if_pos rfl]

theorem pstat_swapNoted (l : LoadSt) (p : Fin 4) (g : Nat) : (s.swapNoted l p.val g).fld (Reg.SLX_PSTAT p.val) 31 30 = 2 := by
  rw [State.swapNoted, State.fld_congr (rd_addSwap ..), State.fld_congr (State.rd_wr_other _ _ (pstat_ne_dseq p))]
  exact State.fld_setFld _ _ _ (by decide) (by decide)

theorem EndWork.deltaEnds (s : State) (l : LoadSt) : EndWork s (s.deltaEnds l) :=
  (EndWork.refl s).showVres.pedRecord.finishLoad.nextLoad

theorem next_deltaEnds (l : LoadSt) : NextLoad s (s.deltaEnds l) :=
  nextLoad_next.of_sec ((sec_finishLoad ..).trans ((sec_pedRecord ..).trans (sec_showVres ..)))

theorem posts_deltaEnds {l : LoadSt} {q : Nat} {d : Cmd} (hcmd : l.cmd = some (q, d.tag)) (hd : d ∈ (s.port q).cmds) :
    Posts s (s.deltaEnds l) q d true 0 := by
  have hkept : HostKept s ((s.showVres l false 0 0 0).pedRecord 3 l 0 0) :=
    ((HostKept.refl s).wr (by decide) (by decide) _).pedRecord 3 0 0 l
  exact (Posts.of_hostKept hkept (posts_finishLoad hcmd (by rwa [port_congr hkept.hq]) 0 0)).congr hq_nextLoad

/-- A delta admitted waits for its swap, and its command ends (R255, R428). -/
theorem admission_noted (p : Fin 4) (g : Nat) :
    let t := (s.admShown.swapNoted s.sec.load p.val g).deltaEnds s.sec.load
    t.fld (Reg.SLX_PSTAT p.val) 31 30 = 2 ∧ t.rd (Reg.SEC_DSEQ p.val) = BitVec.ofNat 32 (pedDseq s.sec.load.image) ∧
    t.run.swapDue = s.run.swapDue ++ [(p.val, g)] ∧ NextLoad s t ∧ t.mode = s.mode ∧
    ∀ q d, s.sec.load.cmd = some (q, d.tag) → d ∈ (s.port q).cmds → Posts s t q d true 0 := by
  have hkept := loadKept_swapNoted (loadKept_admShown s) s.sec.load p g
  have hpstat := pstat_swapNoted (s := s.admShown) s.sec.load p g
  have hdseq := dseq_swapNoted (s := s.admShown) s.sec.load p.val g
  have hswap := swapDue_swapNoted (s := s.admShown) s.sec.load p.val g
  rw [run_admShown] at hswap
  generalize s.admShown.swapNoted s.sec.load p.val g = u at *
  have hend := EndWork.deltaEnds u s.sec.load
  refine ⟨?_, ?_, ?_, (next_deltaEnds _).of_sec hkept.sec, hend.mode.trans hkept.mode, fun q d hcmd hmem => ?_⟩
  · rw [State.fld_congr (hend.rdPart p List.mem_cons_self), hpstat]
  · rw [hend.rdPart p (List.mem_cons_of_mem _ List.mem_cons_self), hdseq]
  · rw [hend.run, hswap]
  · exact (posts_deltaEnds hcmd (by rwa [port_congr hkept.host.hq])).of_hostKept hkept.host

/-! ### ADMISSION_COMPLETE -/

/-- A whole load admitted, whose staging is due. -/
def State.stagingDue (s : State) (l : LoadSt) : State := (s.setFlag Reg.SYS_STAT 6 true).setLoad { l with stage := 4 }

theorem stagingDue_effect (l : LoadSt) :
    (s.stagingDue l).sec.load = { l with stage := 4 } ∧ (s.stagingDue l).flag Reg.SYS_STAT 6 = true := by
  refine ⟨load_setLoad _, ?_⟩
  rw [State.stagingDue, State.flag_congr (rd_setLoad (by decide) _)]
  exact State.flag_setFlag_self _ _ _ (by decide)

theorem exec_admissionComplete (s : State) : exec .admissionComplete s =
    .next (if s.sec.load.stage ≠ 3 then s
      else if s.sec.load.adm ≠ 0 then
        (if s.sec.load.delta then s.admShown.emptyShadow s.sec.load.part else s.admShown).refuseLoad 0 0 0 s.sec.load.adm 7
      else if s.sec.load.delta then (s.admShown.swapNoted s.sec.load s.sec.load.part s.nextHyper).deltaEnds s.sec.load
      else s.admShown.stagingDue s.sec.load) := by
  rw [apply_ite Host.Outcome.next, apply_ite Host.Outcome.next, apply_ite Host.Outcome.next]
  rfl

theorem admissionComplete_answers (s : State) : Answers .admissionComplete s (fun t =>
    let l := s.sec.load
    if l.stage ≠ 3 then t = s
    else
      (l.delta = false → l.adm = 0 → t.sec.load = { l with stage := 4 } ∧ t.flag Reg.SYS_STAT 6 = true) ∧
      (l.delta = false → l.adm ≠ 0 → l.fallback = none → t.sec.load.stage = 6 ∧ t.mode = s.mode) ∧
      (l.delta = true → l.part < 4 → l.adm = 0 →
        t.fld (Reg.SLX_PSTAT l.part) 31 30 = 2 ∧ t.rd (Reg.SEC_DSEQ l.part) = BitVec.ofNat 32 (pedDseq l.image) ∧
        t.run.swapDue = s.run.swapDue ++ [(l.part, s.nextHyper)] ∧ NextLoad s t ∧ t.mode = s.mode ∧
        ∀ q d, l.cmd = some (q, d.tag) → d ∈ (s.port q).cmds → Posts s t q d true 0) ∧
      (l.delta = true → l.part < 4 → l.adm ≠ 0 → l.adm < 16 → l.fallback = none →
        t.fld (Reg.SLX_PSTAT l.part) 31 30 = 0 ∧ (t.part l.part).shadow = {} ∧ t.fld Reg.SEC_VRES 11 8 = l.adm ∧
        t.run.swapDue = s.run.swapDue ∧ NextLoad s t ∧ t.mode = s.mode ∧
        ∀ q d, l.cmd = some (q, d.tag) → d ∈ (s.port q).cmds → Posts s t q d true 7 (256 * l.adm))) := by
  refine answers_of (exec_admissionComplete s) ?_
  dsimp only
  by_cases hstage : s.sec.load.stage ≠ 3
  · simp only [if_pos hstage]
  rw [if_neg hstage, if_neg hstage]
  by_cases hd : s.sec.load.delta = true
  · refine ⟨fun h => absurd h (by simp [hd]), fun h => absurd h (by simp [hd]), fun _ hp hadm => ?_, fun _ hp hadm hlt hf => ?_⟩
    · rw [if_neg (not_not.2 hadm), if_pos hd]
      exact admission_noted ⟨s.sec.load.part, hp⟩ s.nextHyper
    · rw [if_pos hadm, if_pos hd]
      exact admission_refused ⟨s.sec.load.part, hp⟩ hd hlt hf
  · refine ⟨fun _ hadm => ?_, fun hwhole hadm hf => ?_, fun h => absurd h hd, fun h => absurd h hd⟩
    · rw [if_neg (not_not.2 hadm), if_neg hd]
      exact stagingDue_effect s.sec.load
    · have hkept := loadKept_admShown s
      rw [if_pos hadm, if_neg hd]
      exact ⟨stage_refuseLoad (by rwa [hkept.sec]) (by rwa [hkept.sec]) .., (EndWork.refl _).refuseLoad.mode.trans hkept.mode⟩

end
end Sys2Proof.Machine
end

section
/-! ## A load's way: staging, refusal, STANDBY and swaps

What STAGING_COMPLETE, LOAD_REFUSED, STANDBY_ENTRY and PLAN_SWAP leave (R48, R50, R51, R62, R425, R426). -/
namespace Sys2Proof.Machine

/-! ### STAGING_COMPLETE -/

section
variable {ks : List Nat} {a s : State}

/-- The pedigree in force. -/
def State.putInForce (s : State) (b : List Byte) : State := { s with sec := { s.sec with
  hash := pedHash b, anchor := pedAnchor b, rollback := pedRollback b, build := pedBuild b, inForce := true, image := b } }

/-- The registers that show it. -/
def State.showInForce (s : State) (b : List Byte) : State :=
  let t := (s.setFld Reg.SEC_STAT 9 8 (pedAnchor b)).setFld Reg.SEC_RB 14 8 (pedRollback b)
  let t := (t.wr Reg.SEC_BUILD (BitVec.ofNat 32 (pedBuild b))).wrList (Reg.SEC_PEDHASH 0) (wordsOf 16 (pedHash b))
  t.wrList (Reg.SEC_DSEQ 0) (List.replicate 4 0#32)

theorem Steady.showInForce (h : Steady ks a s) {b : List Byte} : Steady ks a (s.showInForce b) :=
  .wrList (.wrList (.wr (.setFld (.setFld h (by decide)) (by decide)) (by decide)) (by decide)) (by decide)

/-- The result, the record and the final entry of a load that has been staged. -/
def State.stagingEnds (s : State) (l : LoadSt) : State :=
  (((s.showVres l false 0 0 0).pedRecord 1 l 0 0).finishLoad l 0 0).setLoad { l with stage := 5, image := [] }

theorem stagingEnds_effect (l : LoadSt) :
    (s.stagingEnds l).sec = { s.sec with load := { l with stage := 5, image := [] } } ∧ (s.stagingEnds l).mode = s.mode := by
  have hend : EndWork s (s.stagingEnds l) := (EndWork.refl s).showVres.pedRecord.finishLoad.setLoad
  refine ⟨?_, hend.mode⟩
  rw [State.stagingEnds, State.setLoad, State.setFlag_sec, sec_finishLoad, sec_pedRecord, sec_showVres]

/-- The boundary at which STANDBY begins. -/
def State.noteStandby (s : State) (g : Nat) : State := { s with run := { s.run with standbyNext := some g } }

theorem mode_noteStandby (g : Nat) : (s.noteStandby g).mode = s.mode := rfl

theorem mode_putInForce (b : List Byte) : (s.putInForce b).mode = s.mode := rfl

theorem sec_noteStandby (g : Nat) : (s.noteStandby g).sec = s.sec := rfl

/-- A pedigree staged, while the owners before it are held. -/
def State.staged (s : State) (b : List Byte) : State :=
  let t := (s.stagePed b).twGiveUp
  { t with run := { t.run with heldOwners := s.presentOwners } }

theorem steady_staged (s : State) (b : List Byte) : Steady [Reg.SYS_MODE] s (s.staged b) :=
  .setRun (.twGiveUp (Steady.stagePed (.refl (by decide)))) rfl

theorem stagingComplete_answers (s : State) : Answers .stagingComplete s (fun t =>
    let l := s.sec.load
    if l.stage ≠ 4 then t = s
    else t.sec.inForce = true ∧ t.sec.hash = pedHash l.image ∧ t.sec.build = pedBuild l.image ∧ t.sec.load.stage = 5 ∧
      t.run.standbyNext = some s.nextHyper ∧ t.mode = s.mode) := by
  have hexec : exec .stagingComplete s = if s.sec.load.stage ≠ 4 then .next s
      else .next (((((s.staged s.sec.load.image).putInForce s.sec.load.image).showInForce s.sec.load.image).stagingEnds
        s.sec.load).noteStandby s.nextHyper) := rfl
  by_cases hstage : s.sec.load.stage ≠ 4
  · exact answers_of (hexec.trans (if_pos hstage)) (by simp only [if_pos hstage])
  refine answers_of (hexec.trans (if_neg hstage)) ?_
  simp only [if_neg hstage]
  have hstaged := steady_staged s s.sec.load.image
  generalize s.staged s.sec.load.image = u at *
  have hshown : Steady [Reg.SYS_MODE] (u.putInForce s.sec.load.image) _ := (Steady.refl (by decide)).showInForce (b := s.sec.load.image)
  obtain ⟨hsec, hmode⟩ := stagingEnds_effect (s := (u.putInForce s.sec.load.image).showInForce s.sec.load.image) s.sec.load
  rw [mode_noteStandby, sec_noteStandby, hsec, hmode, hshown.sec, hshown.mode, mode_putInForce, hstaged.mode]
  exact ⟨rfl, rfl, rfl, rfl, rfl, rfl⟩

end

/-! ### The mode after LOAD -/

section
variable {s : State}

/-- The mode that follows LOAD, with FAULT_N; no load is in progress. -/
def State.leaveLoad (s : State) (m requester : Nat) (fault : Bool) : State := ((s.setLoad {}).setMode m mLOAD requester).setFault fault

theorem rd_setMode (m prior cause : Nat) : (s.setMode m prior cause).rd Reg.SYS_MODE = BitVec.ofNat 32 (m + 16 * prior) := by
  have hpost (t : State) (pl : List Byte) : ((t.post 0x08 (srcOf 0 0) pl everyLog true).causeAll 4).rd Reg.SYS_MODE = t.rd Reg.SYS_MODE :=
    State.rd_congr ((State.causeAll_regs ..).trans (State.post_regs ..)) _
  unfold State.setMode
  dsimp only
  rw [hpost, State.rd_wr_other _ _ (by decide), State.rd_wr, if_pos rfl]

theorem sec_setMode (m prior cause : Nat) : (s.setMode m prior cause).sec = s.sec := by
  unfold State.setMode
  dsimp only
  rw [State.causeAll_sec, State.post_sec, State.wr_sec, State.wr_sec]

theorem run_setMode (m prior cause : Nat) : (s.setMode m prior cause).run = s.run := by
  unfold State.setMode
  dsimp only
  rw [State.causeAll_run, State.post_run, State.wr_run, State.wr_run]

theorem sec_leaveLoad (m requester : Nat) (fault : Bool) : (s.leaveLoad m requester fault).sec = { s.sec with load := {} } := by
  rw [State.leaveLoad, State.setFault_sec, sec_setMode, State.setLoad, State.setFlag_sec]

theorem run_leaveLoad (m requester : Nat) (fault : Bool) : (s.leaveLoad m requester fault).run = s.run := by
  rw [State.leaveLoad, State.setFault_run, run_setMode, State.setLoad, State.setFlag_run]

theorem rd_leaveLoad (m requester : Nat) (fault : Bool) :
    (s.leaveLoad m requester fault).rd Reg.SYS_MODE = BitVec.ofNat 32 (m + 16 * mLOAD) :=
  (State.rd_wr_other _ _ (by decide)).trans (rd_setMode ..)

theorem fault_leaveLoad (m requester : Nat) (fault : Bool) : (s.leaveLoad m requester fault).flag Reg.SYS_STAT 4 = fault :=
  State.flag_setFlag_self _ _ _ (by decide)

/-! ### LOAD_REFUSED -/

/-- The recorders start, and a restart follows where the triad is enabled (R67). -/
def State.startAgain (s : State) (g : Nat) : State := if s.acqStart.run.triadEn then s.acqStart.triggerRestart g else s.acqStart

theorem Steady.startAgain {ks : List Nat} {a : State} (h : Steady ks a s) {g : Nat} : Steady ks a (s.startAgain g) :=
  .ite (.triggerRestart (.acqStart h)) (.acqStart h)

/-- What a refused load leaves at its boundary. -/
def State.refusedBack (s : State) : State :=
  if s.sec.inForce = false ∨ s.run.loadFrom = mLOAD then s.setLoad {}
  else (s.leaveLoad s.run.loadFrom s.sec.load.port (assertsFault s.run.loadFrom)).startAgain s.frame

theorem exec_loadRefused (s : State) : exec .loadRefused s =
    .next (if s.sec.load.stage ≠ 6 ∨ frameReached s.frame s.sec.load.due = false then s else s.refusedBack) := by
  unfold State.refusedBack State.startAgain
  rw [apply_ite Host.Outcome.next, apply_ite Host.Outcome.next]
  rfl

theorem sec_refusedBack : s.refusedBack.sec = { s.sec with load := {} } := by
  unfold State.refusedBack
  split
  · exact State.setFlag_sec ..
  · exact (Steady.startAgain (ks := []) (.refl (by simp))).sec.trans (sec_leaveLoad ..)

theorem mode_setLoad (l : LoadSt) : (s.setLoad l).mode = s.mode := (EndWork.refl s).setLoad.mode

/-- With a pedigree in force the device returns to STANDBY or SAFE (R426). -/
theorem mode_refusedBack (hin : s.sec.inForce = true) (hm : s.run.loadFrom = mSTANDBY ∨ s.run.loadFrom = mSAFE) :
    s.refusedBack.mode = s.run.loadFrom := by
  have hword : field (BitVec.ofNat 32 (s.run.loadFrom + 16 * mLOAD)) 2 0 = s.run.loadFrom ∧ s.run.loadFrom ≠ mLOAD := by
    obtain h | h := hm
    · rw [h]
      decide
    · rw [h]
      decide
  obtain ⟨hfield, hne⟩ := hword
  have hstay : ¬ (s.sec.inForce = false ∨ s.run.loadFrom = mLOAD) := by simp [hin, hne]
  unfold State.refusedBack
  rw [if_neg hstay, (Steady.startAgain (.refl (by decide))).mode, State.mode, State.fld, rd_leaveLoad, hfield]

theorem loadRefused_answers (s : State) : Answers .loadRefused s (fun t =>
    if s.sec.load.stage ≠ 6 ∨ frameReached s.frame s.sec.load.due = false then t = s
    else t.sec.load = {} ∧ t.sec.hash = s.sec.hash ∧ (s.sec.inForce = false → t.mode = s.mode) ∧
      (s.sec.inForce = true → s.run.loadFrom = mSTANDBY ∨ s.run.loadFrom = mSAFE → t.mode = s.run.loadFrom)) := by
  refine answers_of (exec_loadRefused s) ?_
  by_cases hwait : s.sec.load.stage ≠ 6 ∨ frameReached s.frame s.sec.load.due = false
  · simp only [if_pos hwait]
  · simp only [if_neg hwait]
    refine ⟨by rw [sec_refusedBack], by rw [sec_refusedBack], fun hin => ?_, mode_refusedBack⟩
    rw [State.refusedBack, if_pos (Or.inl hin), mode_setLoad]

/-! ### STANDBY_ENTRY -/

/-- No boundary of STANDBY is awaited, and no owners are held. -/
def State.standbyTaken (s : State) : State := { s with run := { s.run with standbyNext := none, heldOwners := [] } }

/-- The assignment, the settings and the custodian of the pedigree in force take hold. -/
def State.takeHolds (s : State) (b : List Byte) : State := ((s.assignParts b).holdSettings b).showPstat

theorem Steady.takeHolds {a : State} (h : Steady [Reg.SYS_MODE] a s) {b : List Byte} : Steady [Reg.SYS_MODE] a (s.takeHolds b) :=
  .showPstat (.holdSettings h.assignParts)

/-- The entry to STANDBY. -/
def State.enterStandby (s : State) (g : Nat) : State :=
  (((s.standbyTaken.takeHolds s.sec.image).leaveLoad mSTANDBY (if s.run.loadFrom = mLOAD then 7 else s.sec.load.port)
    false).showSlotLoads).startAgain g

theorem exec_standbyEntry {g : Nat} (h : s.run.standbyNext = some g) : exec .standbyEntry s =
    .next (if frameReached s.frame g = true then s.enterStandby g else s) := by
  change execStandbyEntry s = _
  unfold execStandbyEntry
  rw [h]
  exact (apply_ite ..).symm

theorem exec_standbyEntry_none (h : s.run.standbyNext = none) : exec .standbyEntry s = .next s := by
  change execStandbyEntry s = _
  unfold execStandbyEntry
  rw [h]

theorem enterStandby_effect (g : Nat) :
    (s.enterStandby g).mode = mSTANDBY ∧ (s.enterStandby g).fld Reg.SYS_MODE 6 4 = mLOAD ∧
    (s.enterStandby g).flag Reg.SYS_STAT 4 = false ∧ (s.enterStandby g).run.standbyNext = none ∧ (s.enterStandby g).sec.load = {} := by
  have hheld : Steady [Reg.SYS_MODE] s.standbyTaken (s.standbyTaken.takeHolds s.sec.image) := (Steady.refl (by decide)).takeHolds
  unfold State.enterStandby
  generalize s.standbyTaken.takeHolds s.sec.image = u at *
  generalize (if s.run.loadFrom = mLOAD then 7 else s.sec.load.port) = requester
  have hsteady : Steady [Reg.SYS_MODE, Reg.SYS_STAT] (u.leaveLoad mSTANDBY requester false)
      (((u.leaveLoad mSTANDBY requester false).showSlotLoads).startAgain g) := .startAgain (.showSlotLoads (.refl (by decide)))
  have hmode := (hsteady.rd Reg.SYS_MODE (by decide)).trans (rd_leaveLoad ..)
  rw [State.mode, State.fld, State.fld, hmode, State.flag_congr (hsteady.rd Reg.SYS_STAT (by decide)), fault_leaveLoad, hsteady.standby,
    run_leaveLoad, hheld.standby, hsteady.sec, sec_leaveLoad]
  exact ⟨by decide, by decide, rfl, rfl, rfl⟩

theorem standbyEntry_answers (s : State) : Answers .standbyEntry s (fun t =>
    match s.run.standbyNext with
    | none => t = s
    | some g =>
      if frameReached s.frame g = true then
        t.mode = mSTANDBY ∧ t.fld Reg.SYS_MODE 6 4 = mLOAD ∧ t.flag Reg.SYS_STAT 4 = false ∧ t.run.standbyNext = none ∧
        t.sec.load = {}
      else t = s) := by
  cases h : s.run.standbyNext with
  | none => exact answers_of (exec_standbyEntry_none h) rfl
  | some g =>
    refine answers_of (exec_standbyEntry h) ?_
    dsimp only
    by_cases hg : frameReached s.frame g = true
    · rw [if_pos hg, if_pos hg]
      exact enterStandby_effect g
    · rw [if_neg hg, if_neg hg]

end

/-! ### PLAN_SWAP -/

section
variable {s : State}

/-- The swaps of the plan whose boundary has come, without the rest of what SCHEME_SWAP does. -/
def State.dueSwapped (s : State) : State :=
  (s.run.swapDue.filter (fun e => frameReached s.frame e.2)).foldl
    (fun s e => s.modPart e.1 (fun x => { x with prog := x.shadow })) s

theorem dueSwapped_of_nil (h : s.run.swapDue = []) : s.dueSwapped = s := by
  rw [State.dueSwapped, h]
  rfl

theorem mem_dueSwapped : s.dueSwapped.mem = s.mem := by
  unfold State.dueSwapped
  refine List.foldlRecOn (motive := fun t : State => t.mem = s.mem) _ _ rfl fun t ht e _ => ?_
  obtain ⟨x, hx⟩ := modPart_eq (s := t) e.1 (fun x => { x with prog := x.shadow })
  rw [hx]
  exact ht

theorem rd_freshWin (w n k : Nat) : (s.freshWin w n).rd k = s.rd k := rfl

/-- A fresh window lies in the window SRAM. -/
theorem get_freshWin {w n a : Nat} (hn : 5 * (w + n) ≤ 2 ^ 36) (ha : a / 2 ^ 36 ≠ 7) :
    Memory.get (s.freshWin w n).mem a = Memory.get s.mem a := by
  refine (sget_filter memDefault (fun c => !(decide (cellAddr 7 w 0 ≤ c) && decide (c < cellAddr 7 (w + n) 0))) s.mem a).trans ?_
  refine if_pos ?_
  have hout : a < cellAddr 7 w 0 ∨ cellAddr 7 (w + n) 0 ≤ a := by
    simp only [cellAddr, cellAt]
    simp
    omega
  simpa [Nat.not_le] using hout

/-- The slot loads of a plan in their registers. -/
def State.putSlotLoads (s : State) (loads : List Nat) : State :=
  loads.zipIdx.foldl (fun s e => s.wr (Reg.ENG_SLOTLOAD e.2) (BitVec.ofNat 32 (e.1 % 65536))) s

theorem mem_putSlotLoads (loads : List Nat) : (s.putSlotLoads loads).mem = s.mem :=
  List.foldlRecOn (motive := fun t : State => t.mem = s.mem) _ _ rfl fun _ ht _ _ => ht

/-- Words written by their position in a list. -/
theorem rd_foldl_zipIdx {α : Type} (key : Nat → Nat) (val : α → Word) (hk : ∀ i j, key i = key j → i = j) (l : List α) (n : Nat)
    {i : Nat} (hi : i < l.length) :
    ((l.zipIdx n).foldl (fun t e => t.wr (key e.2) (val e.1)) s).rd (key (n + i)) = val l[i] := by
  induction l generalizing s n i with
  | nil => exact absurd hi (Nat.not_lt_zero i)
  | cons x l ih =>
    rw [List.zipIdx_cons, List.foldl_cons]
    cases i with
    | zero =>
      refine List.foldlRecOn (motive := fun t : State => t.rd (key n) = val x) _ _ ?_ fun t ht e he => ?_
      · rw [State.rd_wr, if_pos rfl]
      · have hlater : n + 1 ≤ e.2 := List.le_snd_of_mem_zipIdx he
        rw [State.rd_wr_other _ _ fun h => absurd (hk _ _ h) (by omega), ht]
    | succ i =>
      have hrest := ih (s := s.wr (key n) (val x)) (n + 1) (Nat.lt_of_succ_lt_succ hi)
      rwa [show n + 1 + i = n + (i + 1) by omega] at hrest

theorem rd_putSlotLoads {loads : List Nat} {k : Nat} (hk : k < loads.length) :
    (s.putSlotLoads loads).rd (Reg.ENG_SLOTLOAD k) = BitVec.ofNat 32 (loads[k] % 65536) := by
  have h := rd_foldl_zipIdx (s := s) Reg.ENG_SLOTLOAD (fun x => BitVec.ofNat 32 (x % 65536))
    (fun i j h => by unfold Reg.ENG_SLOTLOAD at h; omega) loads 0 hk
  rwa [Nat.zero_add] at h

/-- The load of every slot of the plan in force. -/
def State.slotLoads (s : State) : List Nat := (List.range 256).map (slotLoad s.elementLoad (gTasks (s.progs false)))

theorem showSlotLoads_eq (s : State) :
    ∃ w, s.showSlotLoads = ((s.putSlotLoads s.slotLoads).freshWin winSlot 256).wr Reg.ENG_PLAN w := ⟨_, rfl⟩

theorem get_showSlotLoads {a : Nat} (ha : a / 2 ^ 36 ≠ 7) : Memory.get s.showSlotLoads.mem a = Memory.get s.mem a := by
  obtain ⟨w, hw⟩ := showSlotLoads_eq s
  rw [hw, State.wr_mem, get_freshWin (by decide) ha, mem_putSlotLoads]

theorem rd_showSlotLoads {k : Nat} (hk : k < 256) : s.showSlotLoads.rd (Reg.ENG_SLOTLOAD k) =
    BitVec.ofNat 32 (slotLoad s.elementLoad (gTasks (s.progs false)) k % 65536) := by
  obtain ⟨w, hw⟩ := showSlotLoads_eq s
  have hne : Reg.ENG_SLOTLOAD k ≠ Reg.ENG_PLAN := by
    unfold Reg.ENG_SLOTLOAD Reg.ENG_PLAN
    omega
  have hlen : k < s.slotLoads.length := by simpa [State.slotLoads] using hk
  rw [hw, State.rd_wr_other _ _ hne, rd_freshWin, rd_putSlotLoads hlen]
  simp [State.slotLoads]

/-- The registers and the memory of another state. -/
def State.shownAs (s u : State) : State := { s with regs := u.regs, mem := u.mem, mst := u.mst }

theorem shownAs_self (s u : State) : s.shownAs u =
    { s with regs := (s.shownAs u).regs, mem := (s.shownAs u).mem, mst := (s.shownAs u).mst } := rfl

theorem mem_shownAs (s u : State) : (s.shownAs u).mem = u.mem := rfl

theorem rd_shownAs (s u : State) (k : Nat) : (s.shownAs u).rd k = u.rd k := rfl

theorem exec_planSwap (s : State) : exec .planSwap s =
    .next (if s.slot = 0 ∧ mSTANDBY ≤ s.mode then s.shownAs s.dueSwapped.showSlotLoads else s) := by
  rw [apply_ite Host.Outcome.next]
  rfl

theorem planSwap_answers (s : State) : Answers .planSwap s (fun t =>
    t = { s with regs := t.regs, mem := t.mem, mst := t.mst } ∧ (∀ a, a / 2 ^ 36 ≠ 7 → Memory.get t.mem a = Memory.get s.mem a) ∧
    (s.slot ≠ 0 ∨ s.mode < mSTANDBY → t = s) ∧
    (s.slot = 0 → mSTANDBY ≤ s.mode → s.run.swapDue = [] → ∀ k, k < 256 →
      t.rd (Reg.ENG_SLOTLOAD k) = BitVec.ofNat 32 (slotLoad s.elementLoad (gTasks (s.progs false)) k % 65536))) := by
  refine answers_of (exec_planSwap s) ?_
  by_cases hdue : s.slot = 0 ∧ mSTANDBY ≤ s.mode
  · rw [if_pos hdue]
    obtain ⟨hslot, hmode⟩ := hdue
    refine ⟨shownAs_self .., fun a ha => ?_, fun h => ?_, fun _ _ hnil k hk => ?_⟩
    · rw [mem_shownAs, get_showSlotLoads ha, mem_dueSwapped]
    · exact absurd h (by simp [hslot, hmode])
    · rw [dueSwapped_of_nil hnil, rd_shownAs, rd_showSlotLoads hk]
  · rw [if_neg hdue]
    exact ⟨rfl, fun _ _ => rfl, fun _ => rfl, fun hslot hmode => absurd ⟨hslot, hmode⟩ hdue⟩

end

/-- Settles O59: the write of SEC_LOADCMD by `wrLoadcmd_effect`, each stage of a load by its `_answers`. -/
theorem loads : Obligations.Loads := by
  unfold Obligations.Loads
  intro s
  refine ⟨fun p v => writeAnswers_of_gate rfl (wrLoadcmd_effect s p v), ?_, ?_, ?_, ?_, ?_, ?_, ?_⟩
  · exact pedigreeReadDone_answers s
  · exact pedigreeVerifyDone_answers s
  · exact admissionComplete_answers s
  · exact stagingComplete_answers s
  · exact loadRefused_answers s
  · exact standbyEntry_answers s
  · exact planSwap_answers s

end Sys2Proof.Machine
end

section
/-! ## What a reset leaves

A device reset starts from the state after reset and takes over what `State.deviceReset` lists; the registers of the fuses, the RESET
record and the release of the bank drops change nothing that the statement speaks of (`Outlasts`). -/
namespace Sys2Proof.Machine

/-- Settles O4: no register, no byte of memory and no request is listed. -/
theorem resetCanonical : Obligations.ResetCanonical := ⟨swf_nil _, swf_nil _, swf_nil _⟩

/-! ### What outlasts the records of a reset (R68, R74) -/

/-- From a to t memory, the kennel's pointer words, the fuses, the commands that wait, the levels and the phase stand. -/
structure Outlasts (a t : State) : Prop where
  mem : t.mem = a.mem
  kfend : t.evl.kfend = a.evl.kfend
  kwptr : t.evl.kwptr = a.evl.kwptr
  kold : t.evl.kold = a.evl.kold
  kfull : t.evl.kfull = a.evl.kfull
  sec : t.sec = a.sec
  pending : t.pending = a.pending
  pins : t.pins = a.pins
  phase : t.phase = a.phase

section
variable {a s t : State}

theorem Outlasts.refl (s : State) : Outlasts s s := ⟨rfl, rfl, rfl, rfl, rfl, rfl, rfl, rfl, rfl⟩

/-- An update of the registers and what hangs on them, where the pointer words stand. -/
theorem Outlasts.setEvl (h : Outlasts a s) {regs : List (Nat × Word)} {freeIx : Nat} {sup : Sup} {hq : HqSt} {evl : EvlSt}
    (hfend : evl.kfend = s.evl.kfend) (hwptr : evl.kwptr = s.evl.kwptr) (hold : evl.kold = s.evl.kold)
    (hfull : evl.kfull = s.evl.kfull) : Outlasts a { s with regs, freeIx, sup, hq, evl } :=
  ⟨h.mem, hfend.trans h.kfend, hwptr.trans h.kwptr, hold.trans h.kold, hfull.trans h.kfull, h.sec, h.pending, h.pins, h.phase⟩

theorem Outlasts.inert (h : Outlasts a s) {regs : List (Nat × Word)} {freeIx : Nat} {sup : Sup} {hq : HqSt} :
    Outlasts a { s with regs, freeIx, sup, hq } := h.setEvl rfl rfl rfl rfl

theorem Outlasts.ite {p : Prop} {_ : Decidable p} (hs : Outlasts a s) (ht : Outlasts a t) : Outlasts a (if p then s else t) := by
  split
  · exact hs
  · exact ht

theorem Outlasts.foldl {β : Type} {f : State → β → State} {l : List β} (h : Outlasts a s)
    (hf : ∀ t b, Outlasts a t → Outlasts a (f t b)) : Outlasts a (l.foldl f s) := by
  induction l generalizing s with
  | nil => exact h
  | cons b l ih => exact ih (hf s b h)

theorem Outlasts.wr (h : Outlasts a s) {k : Nat} {v : Word} : Outlasts a (s.wr k v) := .inert h

theorem Outlasts.setFlag (h : Outlasts a s) {k n : Nat} {b : Bool} : Outlasts a (s.setFlag k n b) := .wr h

theorem Outlasts.setFld (h : Outlasts a s) {k hi lo v : Nat} : Outlasts a (s.setFld k hi lo v) := .wr h

theorem Outlasts.wrList (h : Outlasts a s) {k : Nat} {ws : List Word} : Outlasts a (s.wrList k ws) := .foldl h fun _ _ ht => .wr ht

theorem Outlasts.fieldRecord (h : Outlasts a s) {kind code idx logs : Nat} {kennel : Bool} :
    Outlasts a (s.fieldRecord kind code idx logs kennel) := .setEvl h rfl rfl rfl rfl

theorem Outlasts.setKennel (h : Outlasts a s) {x : StoreSt} : Outlasts a (s.setStore .kennel x) := .setEvl h rfl rfl rfl rfl

theorem Outlasts.putKennel (h : Outlasts a s) {x : StoreSt} : Outlasts a (s.putStore .kennel x) := .setFlag (.setFld (.setKennel h))

theorem Outlasts.supPost (h : Outlasts a s) {typ src : Nat} {payload : List Byte} : Outlasts a (s.supPost typ src payload) :=
  .ite (.putKennel h) (.setFld (.setKennel h))

theorem Outlasts.resetRecord (h : Outlasts a s) : Outlasts a s.resetRecord := .inert (.supPost (.inert h))

theorem Outlasts.showFuses (h : Outlasts a s) : Outlasts a s.showFuses := .foldl (.setFld (.setFld h)) fun _ _ ht => .wrList ht

theorem Outlasts.showDo (h : Outlasts a s) {n : Nat} : Outlasts a (s.showDo n) := by
  unfold State.showDo
  extract_lets _ _ _ _ t t1 _ t2 t3
  have ht2 : Outlasts a t2 := .wr (.setFlag (.wr h))
  have ht3 : Outlasts a t3 := .ite (.setFlag ht2) ht2
  exact .ite ht2 (.fieldRecord ht3)

theorem Outlasts.showBank (h : Outlasts a s) {m : Nat} : Outlasts a (s.showBank m) := .foldl (.setFlag h) fun _ _ ht => .showDo ht

theorem Outlasts.releaseDrops (h : Outlasts a s) : Outlasts a s.releaseDrops := .foldl (.wr h) fun _ _ ht => .showBank ht

theorem Outlasts.supervisorOff (h : Outlasts a s) : Outlasts a s.supervisorOff := by
  unfold State.supervisorOff
  extract_lets _ t _ _ u
  have ht : Outlasts a t := .releaseDrops h
  clear_value t
  have hu : Outlasts a u := .setEvl ht rfl rfl rfl rfl
  exact .putKennel hu

end

/-! ### Registers up to ENG_FRAME -/

theorem State.rd_wrList_below (s : State) {k base : Nat} (ws : List Word) (h : k < base) : (s.wrList base ws).rd k = s.rd k :=
  List.foldlRecOn (motive := fun t : State => t.rd k = s.rd k) _ _ rfl fun t ht e _ =>
    (State.rd_wr_other t _ (by omega)).trans ht

/-- A register up to ENG_FRAME is none of a block above. -/
theorem ne_of_le_frame {k j : Nat} (h : k ≤ Reg.ENG_FRAME) (hj : Reg.ENG_FRAME < j) : k ≠ j := (lt_of_le_of_lt h hj).ne

theorem rd_showFuses (s : State) {k : Nat} (h : k ≤ Reg.ENG_FRAME) : s.showFuses.rd k = s.rd k := by
  have hanchor (j : Nat) : k < Reg.SEC_ANCHOR j 0 := by unfold Reg.ENG_FRAME at h; unfold Reg.SEC_ANCHOR; omega
  refine (foldl_view_other (view := fun t : State => t.rd k) (fun t j _ => t.rd_wrList_below _ (hanchor j)) _).trans ?_
  exact (State.rd_wr_other _ _ (ne_of_le_frame h (by decide))).trans (State.rd_wr_other _ _ (ne_of_le_frame h (by decide)))

theorem rd_supPost (s : State) {k : Nat} (h : k ≤ Reg.ENG_FRAME) (typ src : Nat) (payload : List Byte) :
    (s.supPost typ src payload).rd k = s.rd k := by
  unfold State.supPost
  dsimp only
  split
  · exact (State.rd_wr_other _ _ (ne_of_le_frame h (by decide))).trans (State.rd_wr_other _ _ (ne_of_le_frame h (by decide)))
  · exact State.rd_wr_other _ _ (ne_of_le_frame h (by decide))

theorem rd_resetRecord (s : State) {k : Nat} (h : k ≤ Reg.ENG_FRAME) : s.resetRecord.rd k = s.rd k :=
  rd_supPost s.free.2 h _ _ _

/-! ### The device reset (R74) -/

/-- A register that a reset neither keeps nor shows has its reset value. -/
theorem rd_deviceReset (s : State) (cause req : Nat) {k : Nat} (hk : k ≤ Reg.ENG_FRAME) (hstat : k ≠ Reg.SYS_STAT)
    (hlost : retainedKeys.contains k = false) : (s.deviceReset cause req).rd k = regReset k := by
  unfold State.deviceReset
  dsimp only
  rw [State.setFlag, State.rd_wr_other _ _ hstat, rd_showFuses _ hk]
  exact (sget_filter regReset (fun j => retainedKeys.contains j) s.regs k).trans (if_neg (by rw [hlost]; exact Bool.false_ne_true))

/-- What a device reset takes over of the state before it. -/
def State.takenOver (s : State) : State :=
  { State.reset with
    mem := s.mem.filter (inRegion 6), pending := s.pending, pins := s.pins, phase := s.startPhase
    evl := { State.reset.evl with kfend := s.evl.kfend, kwptr := s.evl.kwptr, kold := s.evl.kold, kfull := s.evl.kfull }
    sec := { State.reset.sec with
      anchors := s.sec.anchors, revoked := s.sec.revoked, damaged := s.sec.damaged, counter := s.sec.counter } }

theorem outlasts_deviceReset (s : State) (cause req : Nat) : Outlasts s.takenOver (s.deviceReset cause req) := by
  unfold State.deviceReset
  extract_lets _ _ t _ _ _ _ _ _ u
  have hu : Outlasts s.takenOver u := ⟨rfl, rfl, rfl, rfl, rfl, rfl, rfl, rfl, rfl⟩
  exact .setFlag (.showFuses hu)

theorem State.pack_of_zero {s : State} (h : s.rd Reg.PWR_PACKSTAT = 0#32) (p : Nat) : s.pack p = 0 := by
  simp [State.pack, State.fld, h, field]

/-- What every reset leaves, from what it takes over and the registers up to ENG_FRAME. -/
theorem afterReset_of {s t : State} (h : Outlasts s.takenOver t)
    (hrd : ∀ k ∈ [Reg.SYS_MODE, Reg.ENG_FRAME, Reg.PWR_PACKSTAT, Reg.PWR_REF, Reg.PWR_TRIAD], t.rd k = 0#32) : AfterReset s t := by
  refine ⟨?_, ?_, fun p _ => State.pack_of_zero (hrd _ (by decide)) p, hrd _ (by decide), hrd _ (by decide), fun a ha => ?_,
    h.kfend, h.kwptr, h.kold, h.kfull, by rw [h.sec]; rfl, by rw [h.sec]; rfl, by rw [h.sec]; rfl, by rw [h.sec]; rfl, h.pending⟩
  · rw [State.mode, State.fld, hrd _ (by decide)]
    rfl
  · rw [State.frame, hrd _ (by decide)]
    rfl
  · rw [h.mem]
    exact (sget_filter memDefault (fun a => a / 2 ^ 36 == 6) s.mem a).trans (if_pos (by simpa using ha))

theorem rd_deviceReset_zero (s : State) (cause req : Nat) {k : Nat}
    (hk : k ∈ [Reg.SYS_MODE, Reg.ENG_FRAME, Reg.PWR_PACKSTAT, Reg.PWR_REF, Reg.PWR_TRIAD]) : (s.deviceReset cause req).rd k = 0#32 := by
  have hall : ∀ k ∈ [Reg.SYS_MODE, Reg.ENG_FRAME, Reg.PWR_PACKSTAT, Reg.PWR_REF, Reg.PWR_TRIAD],
      k ≤ Reg.ENG_FRAME ∧ k ≠ Reg.SYS_STAT ∧ retainedKeys.contains k = false ∧ regReset k = 0#32 := by decide
  obtain ⟨hle, hstat, hlost, hzero⟩ := hall k hk
  exact (rd_deviceReset s cause req hle hstat hlost).trans hzero

theorem deviceReset_leaves (s : State) (cause req : Nat) :
    AfterReset s (s.deviceReset cause req) ∧ (s.deviceReset cause req).pins = s.pins ∧
      (s.deviceReset cause req).phase = s.startPhase := by
  have h := outlasts_deviceReset s cause req
  exact ⟨afterReset_of h fun k hk => rd_deviceReset_zero s cause req hk, h.pins, h.phase⟩

/-- A device reset with the supervisor's record. -/
theorem resetBy_leaves (s : State) (cause req : Nat) :
    AfterReset s (s.resetBy cause req) ∧ (s.resetBy cause req).pins = s.pins ∧ (s.resetBy cause req).phase = s.startPhase := by
  have h := outlasts_deviceReset s cause req
  have hle : ∀ k ∈ [Reg.SYS_MODE, Reg.ENG_FRAME, Reg.PWR_PACKSTAT, Reg.PWR_REF, Reg.PWR_TRIAD], k ≤ Reg.ENG_FRAME := by decide
  unfold State.resetBy
  dsimp only
  split
  · exact ⟨afterReset_of h.resetRecord fun k hk => (rd_resetRecord _ (hle k hk)).trans (rd_deviceReset_zero s cause req hk),
      h.resetRecord.pins, h.resetRecord.phase⟩
  · exact deviceReset_leaves s cause req

/-- The levels before a reset do not matter. -/
theorem AfterReset.of_outlasts {s u t : State} (hu : Outlasts s u) {pins : Pins} (h : AfterReset { u with pins } t) : AfterReset s t := by
  unfold AfterReset at h ⊢
  rwa [hu.mem, hu.kfend, hu.kwptr, hu.kold, hu.kfull, hu.sec, hu.pending] at h

/-! ### The commands -/

theorem supplyBelowThreshold_answers (s : State) : Answers .supplyBelowThreshold s (fun t =>
    AfterReset s t ∧ t.phase = .off ∧ t.pins = { s.pins with supplies := false }) := by
  obtain ⟨hafter, hpins, hphase⟩ := resetBy_leaves { s with pins := { s.pins with supplies := false } } 4 0
  exact answers_of (t := State.resetBy { s with pins := { s.pins with supplies := false } } 4 0) rfl ⟨hafter, hphase, hpins⟩

theorem resetNAssert_answers (s : State) (w : Nat) : Answers (.resetNAssert w) s (fun t =>
    if 1000 ≤ w ∨ (200 ≤ w ∧ Config.resetPulse w = true) then
      AfterReset s t ∧ t.pins = { s.pins with resetN := false } ∧ t.phase = (if s.pins.supplies = true then .held else .off)
    else t = s) := by
  have hi : exec (.resetNAssert w) s = execResetNAssert w s := rfl
  unfold execResetNAssert at hi
  by_cases hw : 1000 ≤ w ∨ (200 ≤ w ∧ Config.resetPulse w = true)
  · rw [if_pos hw] at hi
    simp only [if_pos hw]
    obtain ⟨hafter, hpins, hphase⟩ := resetBy_leaves { s with pins := { s.pins with resetN := false } } 2 0
    refine answers_of hi ⟨hafter, hpins, hphase.trans ?_⟩
    unfold State.startPhase
    cases s.pins.supplies
    · rfl
    · rfl
  · rw [if_neg hw] at hi
    simp only [if_neg hw]
    exact answers_of hi rfl

theorem powerOn_answers (s : State) (kept : Bool) : Answers (.powerOn kept) s (fun t =>
    t.phase = .held ∧ t.pins = { resetN := false } ∧ t.sup.running = false ∧
    (if kept = true then AfterReset s t
     else t.mode = mFILL ∧ t.frame = 0 ∧ t.evl.kfend = 0#32 ∧ t.evl.kwptr = 0#32 ∧ t.evl.kold = 0#32 ∧ t.evl.kfull = 0#32 ∧
       t.sec.anchors = s.sec.anchors ∧ t.sec.counter = s.sec.counter ∧ t.pending = s.pending)) := by
  have hoff : Outlasts s s.supervisorOff := (Outlasts.refl s).supervisorOff
  obtain ⟨hafter, hpins, hphase⟩ := deviceReset_leaves { s.supervisorOff with pins := { resetN := false } } 1 0
  have hleft : AfterReset s _ := .of_outlasts hoff hafter
  have hi : exec (.powerOn kept) s = execPowerOn kept s := rfl
  unfold execPowerOn at hi
  dsimp only at hi
  generalize State.deviceReset { s.supervisorOff with pins := { resetN := false } } 1 0 = t at *
  obtain ⟨hmode, hframe, -, -, -, -, -, -, -, -, hanchors, -, -, hcounter, hpending⟩ := id hleft
  cases kept with
  | true => exact answers_of hi ⟨hphase, hpins, rfl, hleft⟩
  | false => exact answers_of hi ⟨hphase, hpins, rfl, hmode, hframe, rfl, rfl, rfl, rfl, hanchors, hcounter, hpending⟩

/-- With the bits above the key zero, the key is the whole word. -/
theorem field_eq_key_iff {v : Word} (h : v &&& 0xFFFF0000#32 = 0#32) : field v 15 0 = 0xA5C3 ↔ v = 0xA5C3#32 := by
  have hsplit : v &&& (0xFFFF0000#32 ||| 0xFFFF#32) = v := BitVec.and_allOnes
  rw [BitVec.and_or_distrib_left, h, BitVec.zero_or] at hsplit
  have hlow : v.toNat % 2 ^ 16 = v.toNat := by
    rw [← Nat.and_two_pow_sub_one_eq_mod]
    exact congrArg BitVec.toNat hsplit
  have hfield : field v 15 0 = v.toNat := by
    rw [field, Nat.pow_zero, Nat.div_one]
    exact hlow
  rw [hfield]
  exact BitVec.toNat_inj (x := v) (y := 0xA5C3#32)

theorem sysResetKey_answers (s : State) (p : Port) (v : Word) :
    WriteAnswers (.sysResetKey p v) s p .always .global 0xFFFF0000#32 v
      (fun t => if v = 0xA5C3#32 then AfterReset s t ∧ t.pins = s.pins ∧ t.phase = s.startPhase else t = s) := by
  intro hv
  refine writeAnswers_of_gate (i := .sysResetKey p v) rfl ?_ hv
  unfold wrSysReset
  by_cases hkey : v = 0xA5C3#32
  · rw [if_pos hkey, if_pos ((field_eq_key_iff hv).2 hkey)]
    exact resetBy_leaves s 3 (portCode p)
  · rw [if_neg hkey, if_neg (fun h => hkey ((field_eq_key_iff hv).1 h))]

/-- Settles O9: what a device reset takes over outlasts its records (`resetBy_leaves`); each command is one such reset, or none. -/
theorem resetsLeave : Obligations.ResetsLeave := by
  unfold Obligations.ResetsLeave
  exact fun s => ⟨supplyBelowThreshold_answers s, resetNAssert_answers s, powerOn_answers s, sysResetKey_answers s⟩

end Sys2Proof.Machine
end

section
/-! ## A zeroing that clears between the words of a window

The window arrays that the zeroing of the SRAM clears are `windowReg`: every address from the first word of a port's buffer to the last,
where the statement names the addresses of the words alone. A register map may list an address inside a word, as that of `oddState`
does, and the zeroing clears it. -/
namespace Sys2Proof.Machine

/-- The address of the second byte of a port's transmit buffer: it lies inside a window, and is the address of none of its words. -/
def oddAddress : Nat := Reg.PBX_PTX 0 0 + 1

/-- The state after reset, in FILL, with a register listed at `oddAddress`. -/
def oddState : State := State.reset.wr oddAddress 1#32

theorem oddState_fills : oddState.phase = .running ∧ oddState.mode = mFILL ∧ oddState.rd oddAddress = 1#32 := by decide +kernel

/-- The zeroing clears what is listed inside a window, at the address of a word or not. -/
theorem sramZeroing_clears_odd : ∃ t, exec .sramZeroingComplete oddState = .next t ∧ t.rd oddAddress = 0#32 := by
  obtain ⟨hphase, hmode, -⟩ := oddState_fills
  have hi : exec .sramZeroingComplete oddState = execSramZeroingComplete oddState := rfl
  unfold execSramZeroingComplete at hi
  rw [if_pos ⟨hphase, hmode⟩] at hi
  exact ⟨_, hi, (sget_filter regReset (fun k => !windowReg k) oddState.regs oddAddress).trans (by decide +kernel)⟩

theorem oddAddress_notMem : oddAddress ∉ (List.range 4).flatMap (fun p => (List.range 64).map (fun i => Reg.PBX_PTX p i)) := by
  simp only [List.mem_flatMap, List.mem_map, not_exists, not_and]
  intro p _ i _ h
  unfold oddAddress Reg.PBX_PTX at h
  omega

/-- Refutes O10: in `oddState` SRAM_ZEROING_COMPLETE changes a register that is no word of a transmit buffer. -/
theorem not_startUp : ¬ Obligations.StartUp := by
  unfold Obligations.StartUp
  rintro ⟨-, h⟩
  obtain ⟨⟨t, ht, hfill⟩, -⟩ := h oddState
  obtain ⟨hphase, hmode, hone⟩ := oddState_fills
  rw [if_pos ⟨hphase, hmode⟩] at hfill
  obtain ⟨-, hregs, -⟩ := hfill
  obtain ⟨u, hu, hzero⟩ := sramZeroing_clears_odd
  have heq : t = u := Host.Outcome.next.inj (ht.symm.trans hu)
  have hkept := hregs oddAddress oddAddress_notMem
  rw [heq, hzero, hone] at hkept
  exact absurd hkept (by decide)

end Sys2Proof.Machine
end

section
/-! ## A mode request that loses the count of frames

As with O50, a survey may hold a lane whose AFE_LSTAT has the address of ENG_FRAME (`surveyedState`). The exit from SAFE triggers a restart,
which stops the plan and with it the survey, and ENG_FRAME loses its bit 12. -/
namespace Sys2Proof.Machine

/-- `surveyedState` with the triad enabled, where a request for STANDBY is due. -/
def surveyedRequest : State := { surveyedState with
  reqs := [(Reg.SYS_MODE_REQ, [⟨0x1000, 2#32, .svc⟩])]
  run := { formed := true, triadEn := true } }

/-- What the boundary makes of a request for a mode. -/
def State.answerMode (s : State) (r : Req) : State :=
  let v := field r.value 2 0
  let t := ((s.setReq Reg.SYS_MODE_REQ none).setFlag Reg.SYS_MODE_REQ 31 false).wr Reg.SYS_MODE_RES
    (BitVec.ofNat 32 (portCode r.port * 2 ^ 29 + v * 16 + s.modeCode v))
  if s.modeCode v = 0 then t.takeMode v (portCode r.port) else t

theorem exec_modeRequestEffect {s : State} {r : Req} (h : s.due Reg.SYS_MODE_REQ = some r) :
    exec .modeRequestEffect s = .next (s.answerMode r) := by
  change execModeRequestEffect s = _
  unfold execModeRequestEffect
  rw [h]
  rfl

theorem surveyedRequest_due : surveyedRequest.due Reg.SYS_MODE_REQ = some ⟨0x1000, 2#32, .svc⟩ := by decide +kernel

theorem frame_surveyedRequest :
    surveyedRequest.frame = 0x1000 ∧ (surveyedRequest.answerMode ⟨0x1000, 2#32, .svc⟩).frame = 0 := by decide +kernel

/-- Refutes O12: ENG_FRAME of `surveyedRequest` goes from 4 096 to 0. -/
theorem not_modeRequests : ¬ Obligations.ModeRequests := by
  unfold Obligations.ModeRequests
  rintro ⟨-, h⟩
  obtain ⟨t, ht, heffect⟩ := h surveyedRequest
  obtain ⟨hbefore, hafter⟩ := frame_surveyedRequest
  rw [surveyedRequest_due] at heffect
  obtain ⟨-, -, -, hframe, -⟩ := heffect
  have heq := Host.Outcome.next.inj (ht.symm.trans (exec_modeRequestEffect surveyedRequest_due))
  rw [heq, hafter, hbefore] at hframe
  exact absurd hframe (by decide)

end Sys2Proof.Machine
end

section
/-! ## Gating of the triad

A plan that stops gives up its survey, its locations and a heeling; a restart starts elements and schemes afresh. Neither touches memory,
the requests that wait, the time base, the mode or what is noted of the gating (`GateKept`); PWR_TRIAD itself changes by its own flags
alone. -/
namespace Sys2Proof.Machine

/-- From a to t SYS_MODE, PWR_TRIAD, memory, requests and time stand, and so does what is noted of the gating. -/
structure GateKept (a t : State) : Prop where
  mode : t.rd Reg.SYS_MODE = a.rd Reg.SYS_MODE
  triad : t.rd Reg.PWR_TRIAD = a.rd Reg.PWR_TRIAD
  mem : t.mem = a.mem
  reqs : t.reqs = a.reqs
  time : t.time = a.time
  triadEn : t.run.triadEn = a.run.triadEn
  restartAt : t.run.restartAt = a.run.restartAt

/-- A register by its index lies above PWR_TRIAD where the first of them does. -/
theorem aboveTriad {c o : Nat} (h : Nat.blt Reg.PWR_TRIAD c = true) : Reg.PWR_TRIAD < c + o :=
  Nat.lt_add_right o (Nat.blt_eq.mp h)

/-- The same by two indices. -/
theorem aboveTriad₂ {c o o' : Nat} (h : Nat.blt Reg.PWR_TRIAD c = true) : Reg.PWR_TRIAD < c + o + o' := Nat.lt_add_right o' (aboveTriad h)

section
variable {a s t : State}

theorem GateKept.refl (s : State) : GateKept s s := ⟨rfl, rfl, rfl, rfl, rfl, rfl, rfl⟩

/-- An update of any other field, where the gating stands. -/
theorem GateKept.setRun (h : GateKept a s) {causes : List Nat} {evl : EvlSt} {run : RunSt} {ojobs : List OJob} {triad : TriadSt}
    {slx : SlxSt} {sniff : SniffSt} {pel : PelSt} {tw : TwSt} (hen : run.triadEn = s.run.triadEn)
    (hat : run.restartAt = s.run.restartAt) : GateKept a { s with causes, evl, run, ojobs, triad, slx, sniff, pel, tw } :=
  ⟨h.mode, h.triad, h.mem, h.reqs, h.time, hen.trans h.triadEn, hat.trans h.restartAt⟩

theorem GateKept.inert (h : GateKept a s) {causes : List Nat} {evl : EvlSt} {ojobs : List OJob} {triad : TriadSt}
    {slx : SlxSt} {sniff : SniffSt} {pel : PelSt} {tw : TwSt} :
    GateKept a { s with causes, evl, ojobs, triad, slx, sniff, pel, tw } := h.setRun rfl rfl

theorem GateKept.ite {p : Prop} {_ : Decidable p} (hs : GateKept a s) (ht : GateKept a t) : GateKept a (if p then s else t) := by
  split
  · exact hs
  · exact ht

theorem GateKept.foldl {β : Type} {f : State → β → State} {l : List β} (h : GateKept a s)
    (hf : ∀ t b, GateKept a t → GateKept a (f t b)) : GateKept a (l.foldl f s) := by
  induction l generalizing s with
  | nil => exact h
  | cons b l ih => exact ih (hf s b h)

theorem GateKept.wrOther (h : GateKept a s) {k : Nat} {v : Word} (hm : Reg.SYS_MODE ≠ k) (ht : Reg.PWR_TRIAD ≠ k) :
    GateKept a (s.wr k v) :=
  ⟨(State.rd_wr_other s v hm).trans h.mode, (State.rd_wr_other s v ht).trans h.triad, h.mem, h.reqs, h.time, h.triadEn, h.restartAt⟩

theorem GateKept.wr (h : GateKept a s) {k : Nat} {v : Word} (hk : Reg.PWR_TRIAD < k) : GateKept a (s.wr k v) :=
  h.wrOther (lt_trans (by decide) hk).ne hk.ne

theorem GateKept.setFld (h : GateKept a s) {k hi lo v : Nat} (hk : Reg.PWR_TRIAD < k) : GateKept a (s.setFld k hi lo v) := h.wr hk

theorem GateKept.setFlag (h : GateKept a s) {k n : Nat} {b : Bool} (hk : Reg.PWR_TRIAD < k) : GateKept a (s.setFlag k n b) := h.wr hk

/-- Work on lanes that leaves the blocks SYS and PWR. -/
theorem GateKept.lanes {c : Bool} (h : GateKept a s) (hw : LaneWork c s t) (hl : LowKept s t) : GateKept a t := by
  obtain ⟨he, -, -⟩ := hw
  refine ⟨(hl _ (by decide)).trans h.mode, (hl _ (by decide)).trans h.triad, ?_, ?_, ?_, ?_, ?_⟩
  · rw [he]
    exact h.mem
  · rw [he]
    exact h.reqs
  · rw [he]
    exact h.time
  · rw [he]
    exact h.triadEn
  · rw [he]
    exact h.restartAt

/-! ### A plan that stops (R73, R126, R205, R226) -/

theorem GateKept.powerRecord (h : GateKept a s) {item st pend : Nat} : GateKept a (s.powerRecord item st pend) := .inert h

theorem GateKept.triadRecord (h : GateKept a s) {kind member voter outcome cycle detail mode cause : Nat} :
    GateKept a (s.triadRecord kind member voter outcome cycle detail mode cause) := .inert h

theorem GateKept.sniffLeaves (h : GateKept a s) {l : Nat} : GateKept a (s.sniffLeaves l) :=
  h.lanes (c := false) (.sniffLeaves (.refl false s)) (.sniffLeaves (.refl s))

theorem GateKept.endSniff (h : GateKept a s) {ls : List Nat} : GateKept a (s.endSniff ls) :=
  .ite (.foldl h fun _ _ ht => .sniffLeaves ht) h

theorem GateKept.surveyAbort (h : GateKept a s) {code : Nat} : GateKept a (s.surveyAbort code) :=
  .ite (.inert (.setFld (.inert (.ite (.endSniff h) h)) (by decide))) h

theorem GateKept.twShow (h : GateKept a s) : GateKept a s.twShow := .setFld (.setFld h (by decide)) (by decide)

theorem GateKept.twGiveUp (h : GateKept a s) : GateKept a s.twGiveUp := .ite h (.twShow (.wr (.inert (.inert h)) (by decide)))

theorem GateKept.heelEnds (h : GateKept a s) {code outcome cycle : Nat} : GateKept a (s.heelEnds code outcome cycle) := by
  unfold State.heelEnds
  extract_lets t t1 _ t2
  have ht : GateKept a t := .setFld (.setFlag h (by decide)) (by decide)
  have ht1 : GateKept a t1 := .setFlag (.setFlag ht (by decide)) (by decide)
  have ht2 : GateKept a t2 := .setRun ht1 rfl rfl
  exact .triadRecord ht2

theorem GateKept.abandonHeel (h : GateKept a s) : GateKept a s.abandonHeel := .ite (.heelEnds h) h

/-- Beside RUN, a plan that stops leaves PWR_TRIAD and what else is noted. -/
theorem planStops_kept (h : s.planRuns = true) : GateKept (s.setFlag Reg.PWR_TRIAD 8 false) s.planStops := by
  unfold State.planStops
  rw [if_neg (by rw [h]; decide)]
  extract_lets t _ _ t1
  have ht1 : GateKept t t1 := .setRun (.refl t) rfl rfl
  exact .powerRecord (.abandonHeel (.twGiveUp (.surveyAbort ht1)))

theorem planStops_of_idle (h : s.planRuns = false) : s.planStops = s := if_pos h

/-! ### Elements and schemes start afresh (R67, R235, R253) -/

theorem GateKept.clearTriad (h : GateKept a s) : GateKept a s.clearTriad := by
  unfold State.clearTriad
  extract_lets t t1 t2
  have ht : GateKept a t := .setFld (.setFld h (by decide)) (by decide)
  have ht1 : GateKept a t1 := .wr (.wr (.wr ht (by decide)) (by decide)) (by decide)
  have ht2 : GateKept a t2 := .setFld ht1 (by decide)
  exact .inert ht2

theorem GateKept.initElements (h : GateKept a s) : GateKept a s.initElements := by
  unfold State.initElements
  exact .foldl (.inert h) fun _ _ ht => .ite (.wr ht (aboveTriad rfl)) ht

theorem GateKept.modPart (h : GateKept a s) {p : Nat} {f : PartSt → PartSt} : GateKept a (s.modPart p f) := by
  unfold State.modPart State.setPart
  split
  · exact .inert h
  · exact .inert h
  · exact .inert h
  · exact .inert h

theorem GateKept.showForced (h : GateKept a s) : GateKept a s.showForced := by
  have hinputs : GateKept a s.showForcedDi := .foldl h fun _ _ ht => .setFlag ht (aboveTriad rfl)
  have hstat : GateKept a (s.showForcedDi.setFlag Reg.SYS_STAT 3 s.anyForce) := hinputs.wrOther (by decide) (by decide)
  exact .ite (.inert hstat) hstat

theorem GateKept.showForces (h : GateKept a s) {p : Nat} : GateKept a (s.showForces p) := by
  refine .showForced (.foldl (.setFld h (aboveTriad rfl)) fun t j ht => ?_)
  split
  · exact .wr (.wr ht (aboveTriad₂ rfl)) (aboveTriad₂ rfl)
  · exact .wr (.wr ht (aboveTriad₂ rfl)) (aboveTriad₂ rfl)

theorem GateKept.endForces (h : GateKept a s) {p : Nat} {keep : Force → Bool} {logs : Nat} : GateKept a (s.endForces p keep logs) := by
  unfold State.endForces
  extract_lets _ _ t
  have ht : GateKept a t := .showForces (.modPart h)
  exact .ite h (.inert ht)

theorem GateKept.showTasks (h : GateKept a s) {p : Nat} : GateKept a (s.showTasks p) :=
  .setFld (.foldl h fun _ _ ht => .ite
    (.setFlag (.setFlag (.wr (.wr ht (aboveTriad₂ rfl)) (aboveTriad₂ rfl)) (aboveTriad₂ rfl)) (aboveTriad₂ rfl))
    (.wr (.wr (.wr ht (aboveTriad₂ rfl)) (aboveTriad₂ rfl)) (aboveTriad₂ rfl))) (aboveTriad rfl)

theorem GateKept.initScheme (h : GateKept a s) {staging : Bool} : GateKept a (s.initScheme staging) := by
  unfold State.initScheme
  refine .foldl (.inert h) fun u _ hu => ?_
  exact .showTasks (.foldl (.modPart (.endForces hu)) fun _ _ ht =>
    .setFlag (.setFlag ht (aboveTriad₂ rfl)) (aboveTriad₂ rfl))

end

section
variable (s : State)

/-- RUN clears; every other flag of PWR_TRIAD stands. -/
theorem flag_planStops (n : Nat) : s.planStops.flag Reg.PWR_TRIAD n = if n = 8 then false else s.flag Reg.PWR_TRIAD n := by
  cases h : s.planRuns with
  | false =>
    rw [planStops_of_idle h]
    split
    · rename_i hn
      rw [hn]
      exact h
    · rfl
  | true => rw [State.flag_congr (planStops_kept h).triad, State.flag_setFlag _ _ _ _ (by decide)]

/-- What the stop of a plan leaves. -/
theorem planStops_leaves : s.planStops.rd Reg.SYS_MODE = s.rd Reg.SYS_MODE ∧ s.planStops.mem = s.mem ∧ s.planStops.reqs = s.reqs ∧
    s.planStops.time = s.time ∧ s.planStops.run.triadEn = s.run.triadEn ∧ s.planStops.run.restartAt = s.run.restartAt := by
  cases h : s.planRuns with
  | false =>
    rw [planStops_of_idle h]
    exact ⟨rfl, rfl, rfl, rfl, rfl, rfl⟩
  | true =>
    have hk := planStops_kept h
    exact ⟨hk.mode.trans (State.rd_wr_other _ _ (by decide)), hk.mem, hk.reqs, hk.time, hk.triadEn, hk.restartAt⟩

theorem mode_congr {t : State} (h : t.rd Reg.SYS_MODE = s.rd Reg.SYS_MODE) : t.mode = s.mode := State.fld_congr h 2 0

theorem triadGateStop_answers : Answers .triadGateStop s (fun t =>
    match s.run.gateStop with
    | none => t = s
    | some g =>
      if frameReached s.frame g = true then t.flag Reg.PWR_TRIAD 8 = false ∧ t.mem = s.mem ∧ t.mode = s.mode else t = s) := by
  have hi : exec .triadGateStop s = execTriadGateStop s := rfl
  unfold execTriadGateStop at hi
  cases hstop : s.run.gateStop with
  | none =>
    rw [hstop] at hi
    exact answers_of hi rfl
  | some g =>
    rw [hstop] at hi
    dsimp only at hi ⊢
    by_cases hg : frameReached s.frame g = true
    · rw [if_pos hg] at hi
      simp only [if_pos hg]
      obtain ⟨hmode, hmem, -⟩ := planStops_leaves s
      exact answers_of hi ⟨flag_planStops s 8, hmem, mode_congr s hmode⟩
    · rw [if_neg hg] at hi
      simp only [if_neg hg]
      exact answers_of hi rfl

/-! ### A restart is triggered (R67) -/

/-- PEND reads 1 and the restart is noted; no other flag of PWR_TRIAD but RUN changes. -/
theorem triggerRestart_leaves (g : Nat) :
    (s.triggerRestart g).rd Reg.SYS_MODE = s.rd Reg.SYS_MODE ∧ (s.triggerRestart g).mem = s.mem ∧ (s.triggerRestart g).reqs = s.reqs ∧
    (s.triggerRestart g).run.triadEn = s.run.triadEn ∧
    (s.triggerRestart g).run.restartAt = some ((g + 287) / 256 * 256 % 2 ^ 32) ∧
    ∀ n, n ≠ 8 → (s.triggerRestart g).flag Reg.PWR_TRIAD n = if n = 9 then true else s.flag Reg.PWR_TRIAD n := by
  have hmode : (s.setFlag Reg.PWR_TRIAD 9 true).rd Reg.SYS_MODE = s.rd Reg.SYS_MODE := State.rd_wr_other _ _ (by decide)
  have hflag (n : Nat) : (s.setFlag Reg.PWR_TRIAD 9 true).flag Reg.PWR_TRIAD n = if n = 9 then true else s.flag Reg.PWR_TRIAD n :=
    State.flag_setFlag _ _ _ _ (by decide)
  unfold State.triggerRestart
  extract_lets t _ u
  split
  · obtain ⟨hm, hmem, hreqs, -, hen, hat⟩ := planStops_leaves u
    exact ⟨hm.trans hmode, hmem, hreqs, hen, hat, fun n hn => (flag_planStops u n).trans ((if_neg hn).trans (hflag n))⟩
  · exact ⟨hmode, rfl, rfl, rfl, rfl, fun n _ => hflag n⟩

/-! ### FAULT_N is released (R66) -/

theorem releaseFault_leaves : (∀ k, k ≠ Reg.SYS_STAT → s.releaseFault.rd k = s.rd k) ∧ s.releaseFault.mem = s.mem ∧
    s.releaseFault.reqs = s.reqs ∧ s.releaseFault.time = s.time ∧ s.releaseFault.run = { s.run with faultHold := false } := by
  unfold State.releaseFault
  split
  · dsimp only
    split
    · exact ⟨fun _ _ => rfl, rfl, rfl, rfl, rfl⟩
    · exact ⟨fun k hk => State.rd_wr_other _ _ hk, rfl, rfl, rfl, rfl⟩
  · rename_i hold
    have hrun : ({ s.run with faultHold := false } : RunSt) = s.run := by
      rw [← Bool.eq_false_of_not_eq_true hold]
    exact ⟨fun _ _ => rfl, rfl, rfl, rfl, hrun.symm⟩

/-! ### EN takes effect (R67, R69, R73) -/

/-- What an EN that is due leaves of PWR_TRIAD, of the gating and of the plan. -/
def EnTaken (s t : State) (en : Bool) (g : Nat) : Prop :=
  if en = true then
    t.run.triadEn = true ∧ t.flag Reg.PWR_TRIAD 16 = s.flag Reg.PWR_TRIAD 16 ∧
    (s.run.triadEn = true → t.run = s.run ∧ t.flag Reg.PWR_TRIAD 9 = s.flag Reg.PWR_TRIAD 9) ∧
    (s.run.triadEn = false → t.flag Reg.PWR_TRIAD 9 = true ∧
      t.run.restartAt = (if s.mode = mLOAD ∨ s.mode = mFILL then s.run.restartAt
        else some ((g + 287) / 256 * 256 % 2 ^ 32)))
  else if s.mode = mSTANDBY then
    t.run.triadEn = false ∧ t.flag Reg.PWR_TRIAD 9 = false ∧ t.run.restartAt = none ∧
    (s.planRuns = true → s.run.gateStop = none → t.run.gateStop = some ((g / 256 + 1) * 256 % 2 ^ 32))
  else t.run = s.run ∧ t.flag Reg.PWR_TRIAD 16 = true ∧ t.flag Reg.PWR_TRIAD 0 = s.run.triadEn

/-- The triad is noted as enabled. -/
def State.noteEn (s : State) : State := { s with run := { s.run with triadEn := true } }

theorem triadEnable_on (g : Nat) : s.triadEnable true g =
    if s.run.triadEn = true then s.noteEn
    else if s.mode = mLOAD ∨ s.mode = mFILL then s.noteEn.setFlag Reg.PWR_TRIAD 9 true else s.noteEn.triggerRestart g := rfl

theorem run_noteEn (h : s.run.triadEn = true) : s.noteEn.run = s.run := by
  unfold State.noteEn
  rw [← h]

theorem enTaken_on (g : Nat) : EnTaken s (s.triadEnable true g) true g := by
  unfold EnTaken
  rw [if_pos rfl, triadEnable_on]
  by_cases hen : s.run.triadEn = true
  · rw [if_pos hen]
    exact ⟨rfl, rfl, fun _ => ⟨run_noteEn s hen, rfl⟩, fun h => absurd (hen.symm.trans h) (by decide)⟩
  · rw [if_neg hen]
    by_cases hheld : s.mode = mLOAD ∨ s.mode = mFILL
    · rw [if_pos hheld]
      refine ⟨rfl, ?_, fun h => absurd h hen, fun _ => ⟨State.flag_setFlag_self _ _ _ (by decide), (if_pos hheld).symm⟩⟩
      exact (State.flag_setFlag _ _ _ _ (by decide)).trans (if_neg (by decide))
    · rw [if_neg hheld]
      obtain ⟨-, -, -, htriadEn, hat, hflag⟩ := triggerRestart_leaves s.noteEn g
      exact ⟨htriadEn, hflag 16 (by decide), fun h => absurd h hen, fun _ => ⟨hflag 9 (by decide), hat.trans (if_neg hheld).symm⟩⟩

/-- EN = 0 in STANDBY: the plan, if one runs, is to stop, and no restart is pending. -/
def State.noteOff (s : State) (g : Nat) : State :=
  { s with run := { s.run with
      triadEn := false, restartAt := none
      gateStop := if s.planRuns then some (s.run.gateStop.getD ((g / 256 + 1) * 256 % 2 ^ 32)) else none } }

theorem triadEnable_off (g : Nat) : s.triadEnable false g =
    if s.mode ≠ mSTANDBY then (s.setFlag Reg.PWR_TRIAD 0 s.run.triadEn).setFlag Reg.PWR_TRIAD 16 true
    else ((s.noteOff g).setFlag Reg.PWR_TRIAD 9 false).releaseFault := rfl

theorem enTaken_off (g : Nat) : EnTaken s (s.triadEnable false g) false g := by
  unfold EnTaken
  rw [if_neg Bool.false_ne_true, triadEnable_off]
  by_cases hm : s.mode = mSTANDBY
  · rw [if_pos hm, if_neg (not_not.2 hm)]
    obtain ⟨hrd, -, -, -, hrun⟩ := releaseFault_leaves ((s.noteOff g).setFlag Reg.PWR_TRIAD 9 false)
    rw [hrun, State.flag_congr (hrd Reg.PWR_TRIAD (by decide)), State.flag_setFlag_self _ _ _ (by decide)]
    refine ⟨rfl, rfl, rfl, fun hplan hnone => ?_⟩
    simp [State.noteOff, hplan, hnone]
  · rw [if_neg hm, if_pos hm]
    refine ⟨rfl, State.flag_setFlag_self _ _ _ (by decide), ?_⟩
    rw [State.flag_setFlag _ _ _ _ (by decide), if_neg (by decide), State.flag_setFlag_self _ _ _ (by decide)]

theorem triadEnable_leaves (en : Bool) (g : Nat) : (s.triadEnable en g).rd Reg.SYS_MODE = s.rd Reg.SYS_MODE ∧
    (s.triadEnable en g).mem = s.mem ∧ (s.triadEnable en g).reqs = s.reqs := by
  cases en with
  | true =>
    rw [triadEnable_on]
    split
    · exact ⟨rfl, rfl, rfl⟩
    · split
      · exact ⟨State.rd_wr_other _ _ (by decide), rfl, rfl⟩
      · obtain ⟨hmode, hmem, hreqs, -⟩ := triggerRestart_leaves s.noteEn g
        exact ⟨hmode, hmem, hreqs⟩
  | false =>
    rw [triadEnable_off]
    split
    · exact ⟨(State.rd_wr_other _ _ (by decide)).trans (State.rd_wr_other _ _ (by decide)), rfl, rfl⟩
    · obtain ⟨hrd, hmem, hreqs, -⟩ := releaseFault_leaves ((s.noteOff g).setFlag Reg.PWR_TRIAD 9 false)
      exact ⟨(hrd _ (by decide)).trans (State.rd_wr_other _ _ (by decide)), hmem, hreqs⟩

/-! ### TRIAD_GATE_EFFECT (R69, R73) -/

/-- A 1 written to REFUSED clears it. -/
def State.clearRefused (s : State) (b : Bool) : State := if b then s.setFlag Reg.PWR_TRIAD 16 false else s

/-- A write of PWR_TRIAD that is due. -/
def State.takeTriad (s : State) (r : Req) : State := (s.clearRefused (bit r.value 16)).triadEnable (bit r.value 0) r.due

theorem clearRefused_leaves (b : Bool) : (s.clearRefused b).rd Reg.SYS_MODE = s.rd Reg.SYS_MODE ∧ (s.clearRefused b).mem = s.mem ∧
    (s.clearRefused b).reqs = s.reqs ∧ (s.clearRefused b).run = s.run ∧
    (∀ n, n ≠ 16 → (s.clearRefused b).flag Reg.PWR_TRIAD n = s.flag Reg.PWR_TRIAD n) ∧
    (b = true → (s.clearRefused b).flag Reg.PWR_TRIAD 16 = false) := by
  cases b with
  | true =>
    exact ⟨State.rd_wr_other _ _ (by decide), rfl, rfl, rfl,
      fun n hn => (State.flag_setFlag _ _ _ _ (by decide)).trans (if_neg hn), fun _ => State.flag_setFlag_self _ _ _ (by decide)⟩
  | false => exact ⟨rfl, rfl, rfl, rfl, fun _ _ => rfl, nofun⟩

theorem takeTriad_leaves (r : Req) : (s.takeTriad r).rd Reg.SYS_MODE = s.rd Reg.SYS_MODE ∧ (s.takeTriad r).mem = s.mem ∧
    (s.takeTriad r).reqs = s.reqs := by
  obtain ⟨hmode, hmem, hreqs, -⟩ := clearRefused_leaves s (bit r.value 16)
  obtain ⟨hmode', hmem', hreqs'⟩ := triadEnable_leaves (s.clearRefused (bit r.value 16)) (bit r.value 0) r.due
  exact ⟨hmode'.trans hmode, hmem'.trans hmem, hreqs'.trans hreqs⟩

theorem enTaken_triadEnable (en : Bool) (g : Nat) : EnTaken s (s.triadEnable en g) en g := by
  cases en with
  | true => exact enTaken_on s g
  | false => exact enTaken_off s g

/-- What a write of PWR_TRIAD leaves at its boundary. -/
def TriadTaken (s t : State) (r : Req) : Prop :=
  if bit r.value 0 = true then
    t.run.triadEn = true ∧ (bit r.value 16 = true → t.flag Reg.PWR_TRIAD 16 = false) ∧
    (s.run.triadEn = true → t.run = s.run ∧ t.flag Reg.PWR_TRIAD 9 = s.flag Reg.PWR_TRIAD 9) ∧
    (s.run.triadEn = false → t.flag Reg.PWR_TRIAD 9 = true ∧
      t.run.restartAt = (if s.mode = mLOAD ∨ s.mode = mFILL then s.run.restartAt
        else some ((r.due + 287) / 256 * 256 % 2 ^ 32)))
  else if s.mode = mSTANDBY then
    t.run.triadEn = false ∧ t.flag Reg.PWR_TRIAD 9 = false ∧ t.run.restartAt = none ∧
    (s.planRuns = true → s.run.gateStop = none → t.run.gateStop = some ((r.due / 256 + 1) * 256 % 2 ^ 32))
  else t.run = s.run ∧ t.flag Reg.PWR_TRIAD 16 = true ∧ t.flag Reg.PWR_TRIAD 0 = s.run.triadEn

theorem triadTaken_takeTriad (r : Req) : TriadTaken s (s.takeTriad r) r := by
  obtain ⟨hmode, -, -, hrun, hother, hcleared⟩ := clearRefused_leaves s (bit r.value 16)
  have h := enTaken_triadEnable (s.clearRefused (bit r.value 16)) (bit r.value 0) r.due
  have hplan : (s.clearRefused (bit r.value 16)).planRuns = s.planRuns := hother 8 (by decide)
  unfold EnTaken at h
  rw [mode_congr s hmode, hrun, hplan, hother 9 (by decide)] at h
  unfold TriadTaken State.takeTriad
  split
  · rename_i hen
    rw [if_pos hen] at h
    obtain ⟨htriadEn, hrefused, hagain, hfirst⟩ := h
    exact ⟨htriadEn, fun hb => hrefused.trans (hcleared hb), hagain, hfirst⟩
  · rename_i hen
    rwa [if_neg hen] at h

theorem triadGateEffect_answers : Answers .triadGateEffect s (fun t =>
    t.mem = s.mem ∧ t.mode = s.mode ∧ ReqsBut [Reg.PWR_TRIAD, Reg.ENG_HEEL] s t ∧
    (s.waiting Reg.PWR_TRIAD = [] → t.regs = s.regs ∧ t.run = s.run) ∧
    ∀ r, s.waiting Reg.PWR_TRIAD = [r] → frameReached s.frame r.due = true →
      t.waiting Reg.PWR_TRIAD = [] ∧ TriadTaken s t r) := by
  have hi : exec .triadGateEffect s = .next (s.onDue Reg.PWR_TRIAD fun s r => s.takeTriad r) := rfl
  have hfold (l : List Req) (u : State) :
      (l.foldl (fun s r => s.takeTriad r) u).rd Reg.SYS_MODE = u.rd Reg.SYS_MODE ∧ (l.foldl (fun s r => s.takeTriad r) u).mem = u.mem ∧
      (l.foldl (fun s r => s.takeTriad r) u).reqs = u.reqs := by
    refine List.foldlRecOn (motive := fun t : State => t.rd Reg.SYS_MODE = u.rd Reg.SYS_MODE ∧ t.mem = u.mem ∧ t.reqs = u.reqs)
      _ _ ⟨rfl, rfl, rfl⟩ fun t ht r _ => ?_
    obtain ⟨hmode, hmem, hreqs⟩ := ht
    obtain ⟨hmode', hmem', hreqs'⟩ := takeTriad_leaves t r
    exact ⟨hmode'.trans hmode, hmem'.trans hmem, hreqs'.trans hreqs⟩
  obtain ⟨hmode, hmem, hreqs⟩ := hfold _ _
  refine answers_of hi ⟨hmem, mode_congr s hmode, fun k hk => ?_, fun h => ?_, fun r h hr => ⟨?_, ?_⟩⟩
  · have hne : k ≠ Reg.PWR_TRIAD := fun e => hk (e ▸ List.mem_cons_self)
    exact (State.waiting_congr hreqs k).trans ((State.waiting_reqs ..).trans (if_neg hne))
  · rw [State.onDue_nil _ _ _ h]
    exact ⟨rfl, rfl⟩
  · refine (State.waiting_congr hreqs _).trans ((State.waiting_reqs ..).trans ((if_pos rfl).trans ?_))
    rw [h]
    simp [hr]
  · rw [State.onDue_one _ _ _ r h hr]
    exact triadTaken_takeTriad { s with reqs := sset (fun _ => []) s.reqs Reg.PWR_TRIAD [] } r

/-! ### TRIAD_RESTART (R66, R67) -/

/-- The plan that runs stops, and elements and schemes start afresh. -/
def State.startAfresh (s : State) : State := ((s.planStops.clearTriad).initElements).initScheme false

/-- The plan starts: RUN reads 1 and no restart is pending. -/
def State.startPlan (s : State) : State :=
  let t := (s.setFlag Reg.PWR_TRIAD 9 false).setFlag Reg.PWR_TRIAD 8 true
  { t with run := { t.run with restartAt := none } }

theorem startPlan_shows : s.startPlan.rd Reg.SYS_MODE = s.rd Reg.SYS_MODE ∧ s.startPlan.flag Reg.PWR_TRIAD 8 = true ∧
    s.startPlan.flag Reg.PWR_TRIAD 9 = false := by
  have hregs : s.startPlan.regs = ((s.setFlag Reg.PWR_TRIAD 9 false).setFlag Reg.PWR_TRIAD 8 true).regs := rfl
  refine ⟨(State.rd_congr hregs _).trans ((State.rd_wr_other _ _ (by decide)).trans (State.rd_wr_other _ _ (by decide))), ?_, ?_⟩
  · rw [State.flag_congr (State.rd_congr hregs _), State.flag_setFlag_self _ _ _ (by decide)]
  · rw [State.flag_congr (State.rd_congr hregs _), State.flag_setFlag _ _ _ _ (by decide), if_neg (by decide),
      State.flag_setFlag_self _ _ _ (by decide)]

/-- What is left to do once the plan has started: its record, FAULT_N, and the header of the image. -/
def State.startEnds (s : State) : State := (s.powerRecord 8 1 0).releaseFault.latchTstat

theorem startEnds_leaves : (∀ k, k ≠ Reg.SYS_STAT → s.startEnds.rd k = s.rd k) ∧ s.startEnds.mem = s.mem ∧
    s.startEnds.time = s.time ∧ s.startEnds.run = { s.run with faultHold := false } := by
  obtain ⟨hrd, hmem, -, htime, hrun⟩ := releaseFault_leaves (s.powerRecord 8 1 0)
  exact ⟨hrd, hmem, htime, hrun⟩

theorem exec_triadRestart {g : Nat} (h : s.run.restartAt = some g) : exec .triadRestart s =
    .next (if frameReached s.frame g = true then s.startAfresh.startPlan.startEnds else s) := by
  change execTriadRestart s = _
  unfold execTriadRestart
  rw [h]
  exact (apply_ite ..).symm

theorem exec_triadRestart_none (h : s.run.restartAt = none) : exec .triadRestart s = .next s := by
  change execTriadRestart s = _
  unfold execTriadRestart
  rw [h]

theorem startAfresh_kept : GateKept s.planStops s.startAfresh := .initScheme (.initElements (.clearTriad (.refl _)))

theorem triadRestart_answers : Answers .triadRestart s (fun t =>
    match s.run.restartAt with
    | none => t = s
    | some g =>
      if frameReached s.frame g = true then
        t.flag Reg.PWR_TRIAD 8 = true ∧ t.flag Reg.PWR_TRIAD 9 = false ∧ t.run.restartAt = none ∧ t.mem = s.mem ∧
        t.mode = s.mode ∧ t.time = s.time ∧ t.run.faultHold = false
      else t = s) := by
  cases h : s.run.restartAt with
  | none => exact answers_of (exec_triadRestart_none s h) rfl
  | some g =>
    refine answers_of (exec_triadRestart s h) ?_
    dsimp only
    by_cases hg : frameReached s.frame g = true
    · rw [if_pos hg, if_pos hg]
      obtain ⟨hmode, hmem, -, htime, -⟩ := planStops_leaves s
      have hkept := startAfresh_kept s
      generalize s.startAfresh = u at *
      obtain ⟨hstart, hrun, hpend⟩ := startPlan_shows u
      obtain ⟨hrd, hemem, hetime, herun⟩ := startEnds_leaves u.startPlan
      have htriad := hrd Reg.PWR_TRIAD (by decide)
      exact ⟨(State.flag_congr htriad 8).trans hrun, (State.flag_congr htriad 9).trans hpend, congrArg RunSt.restartAt herun,
        hemem.trans (hkept.mem.trans hmem), mode_congr s ((hrd _ (by decide)).trans (hstart.trans (hkept.mode.trans hmode))),
        hetime.trans (hkept.time.trans htime), congrArg RunSt.faultHold herun⟩
    · rw [if_neg hg, if_neg hg]

end

/-- Settles O14: EN by `triadTaken_takeTriad`, the stop of the plan by `planStops_leaves`, and a restart by `startAfresh_kept`. -/
theorem triadGating : Obligations.TriadGating := by
  unfold Obligations.TriadGating
  exact fun s => ⟨triadGateEffect_answers s, triadGateStop_answers s, triadRestart_answers s⟩

end Sys2Proof.Machine
end

section
/-! ## The words of stage A

The word of a lane is that of its pack, of its type, or the clamped sum (R71, R82, R100); the integrator and stage B leave it. -/
namespace Sys2Proof.Machine

/-! ### Sample words (R112) -/

theorem toNat_word (x : Sample) : x.word.toNat = x.src % 16 * 2 ^ 28 + x.t.toNat * 2 ^ 27 + x.s.toNat * 2 ^ 26 + x.o.toNat * 2 ^ 25 +
    x.u.toNat * 2 ^ 24 + toTwos 24 x.val := by
  have hv : toTwos 24 x.val < 2 ^ 24 := by unfold toTwos; omega
  have ht := Bool.toNat_le x.t
  have hs := Bool.toNat_le x.s
  have ho := Bool.toNat_le x.o
  have hu := Bool.toNat_le x.u
  rw [Sample.word, BitVec.toNat_ofNat, b2n, b2n, b2n, b2n]
  omega

theorem wordT_word (x : Sample) : wordT x.word = x.t := by
  have hv : toTwos 24 x.val < 2 ^ 24 := by unfold toTwos; omega
  have hs := Bool.toNat_le x.s
  have ho := Bool.toNat_le x.o
  have hu := Bool.toNat_le x.u
  rw [wordT, bit_eq, toNat_word, Nat.testBit_eq_decide_div_mod_eq]
  cases x.t
  · simp
    omega
  · simp
    omega

/-- A value in the range of VAL reads back. -/
theorem wordVal_word (x : Sample) (h : -valMax ≤ x.val ∧ x.val ≤ valMax) : wordVal x.word = x.val := by
  unfold valMax at h
  have hv : toTwos 24 x.val = (x.val % 16777216).toNat := rfl
  have hmod : x.word.toNat % 2 ^ 24 = toTwos 24 x.val := by
    rw [toNat_word]
    omega
  unfold wordVal sext
  dsimp only
  rw [hmod]
  split <;> omega

theorem clampVal_range (x : Int) : -valMax ≤ (clampVal x).1 ∧ (clampVal x).1 ≤ valMax := by
  unfold clampVal clampInt valMax
  dsimp only
  split
  · omega
  · split <;> omega

/-! ### Stage A (R71, R82, R100) -/

theorem aOut_stageA_off {x : LaneSt} (h : x.form.on = false) : (stageA x).aOut = wordOffT x.form.t := by simp [stageA, h]

theorem aOut_stageA_disabled {x : LaneSt} (h : x.form.on = true) (ht : x.form.typ = 0) : (stageA x).aOut = wordDisabled x.form.t := by
  simp [stageA, h, ht]

/-- The sum of R100 over a lane's codes. -/
def laneSum (x : LaneSt) : Int :=
  stageASum (coefBase (presetOf x.form.dec) (bit x.form.dec 4)) (taps (presetOf x.form.dec)) (x.old.reverse ++ x.raw)

theorem aOut_stageA_live {x : LaneSt} (h : x.form.on = true) (ht : x.form.typ ≠ 0) :
    wordVal (stageA x).aOut = (clampVal (roundEven (laneSum x) (2 ^ 22))).1 ∧ wordT (stageA x).aOut = x.form.t := by
  have hw : ∃ y : Sample, (stageA x).aOut = y.word ∧ y.val = (clampVal (roundEven (laneSum x) (2 ^ 22))).1 ∧ y.t = x.form.t := by
    simp only [stageA, h, ht, if_false, Bool.true_eq_false]
    exact ⟨_, rfl, rfl, rfl⟩
  obtain ⟨y, haout, hval, hty⟩ := hw
  rw [haout, wordT_word, wordVal_word y (hval ▸ clampVal_range _)]
  exact ⟨hval, hty⟩

theorem aOut_settleInt (x : LaneSt) : (settleInt x).aOut = x.aOut := by
  unfold settleInt
  split
  · rfl
  · rfl

theorem aOut_integrate (x : LaneSt) : (integrate x).aOut = x.aOut := by
  unfold integrate
  dsimp only
  split
  · rfl
  · split
    · exact aOut_settleInt x
    · exact aOut_settleInt x

theorem aOut_stageB (f : Nat) (x : LaneSt) : (stageB f x).aOut = x.aOut := rfl

end Sys2Proof.Machine
end

section
/-! ## Forming the frame before

Stage A forms each lane's word from that lane alone; measurement, the traveling-wave path and the recorders leave the words
(`FormOnly`). -/
namespace Sys2Proof.Machine

/-- What forming the frame before may change; where c is true, the words of stage A stand. -/
structure FormOnly (c : Bool) (a t : State) : Prop where
  only : t = { a with
    acq := t.acq, triad := t.triad, tw := t.tw, regs := t.regs, run := t.run, lanes := t.lanes, bays := t.bays }
  low : LowKept a t
  out : c = true → ∀ l, (t.lane l).aOut = (a.lane l).aOut

/-- A register by its index lies above the blocks SYS and PWR where the first of them does. -/
theorem lowAbove {c o : Nat} (h : Nat.ble 0x020000 c = true) : 0x020000 ≤ c + o := Nat.le_add_right_of_le (Nat.le_of_ble_eq_true h)

/-- The same by two indices. -/
theorem lowAbove₂ {c o o' : Nat} (h : Nat.ble 0x020000 c = true) : 0x020000 ≤ c + o + o' := Nat.le_add_right_of_le (lowAbove h)

section
variable {c : Bool} {a s t : State}

theorem FormOnly.refl (c : Bool) (s : State) : FormOnly c s s := ⟨rfl, .refl s, fun _ _ => rfl⟩

theorem FormOnly.trans {d : Bool} (hs : FormOnly c a s) (ht : FormOnly d s t) (hd : c = true → d = true) : FormOnly c a t := by
  refine ⟨?_, fun k hk => (ht.low k hk).trans (hs.low k hk), fun hc l => (ht.out (hd hc) l).trans (hs.out hc l)⟩
  rw [ht.only, hs.only]

theorem FormOnly.ite {p : Prop} {_ : Decidable p} (hs : FormOnly c a s) (ht : FormOnly c a t) : FormOnly c a (if p then s else t) := by
  split
  · exact hs
  · exact ht

theorem FormOnly.foldl {β : Type} {f : State → β → State} {l : List β} (h : FormOnly c a s)
    (hf : ∀ t b, FormOnly c a t → FormOnly c a (f t b)) : FormOnly c a (l.foldl f s) := by
  induction l generalizing s with
  | nil => exact h
  | cons b l ih => exact ih (hf s b h)

/-- An update of what forming may change beside registers and lanes. -/
theorem FormOnly.inert (h : FormOnly c a s) {acq : AcqSt} {triad : TriadSt} {tw : TwSt} {run : RunSt} {bays : List BaySt} :
    FormOnly c a { s with acq, triad, tw, run, bays } := by
  refine ⟨?_, h.low, h.out⟩
  rw [h.only]

theorem FormOnly.wr (h : FormOnly c a s) {k : Nat} (hk : 0x020000 ≤ k) {v : Word} : FormOnly c a (s.wr k v) := by
  refine ⟨?_, h.low.wr hk, h.out⟩
  rw [h.only]
  rfl

theorem FormOnly.setFld (h : FormOnly c a s) {k : Nat} (hk : 0x020000 ≤ k) {hi lo v : Nat} : FormOnly c a (s.setFld k hi lo v) := h.wr hk

theorem FormOnly.setFlag (h : FormOnly c a s) {k : Nat} (hk : 0x020000 ≤ k) {n : Nat} {b : Bool} : FormOnly c a (s.setFlag k n b) :=
  h.wr hk

theorem FormOnly.incFld (h : FormOnly c a s) {k : Nat} (hk : 0x020000 ≤ k) {hi lo : Nat} : FormOnly c a (s.incFld k hi lo) := h.wr hk

theorem FormOnly.wrList (h : FormOnly c a s) {k : Nat} (hk : 0x020000 ≤ k) {ws : List Word} : FormOnly c a (s.wrList k ws) :=
  .foldl h fun _ _ ht => .wr ht (Nat.le_add_right_of_le hk)

theorem FormOnly.modBay (h : FormOnly c a s) {b : Nat} {f : BaySt → BaySt} : FormOnly c a (s.modBay b f) := h.inert

theorem FormOnly.deliver (h : FormOnly c a s) {i : Nat} {ws : List Word} : FormOnly c a (s.deliver i ws) := h.inert

/-- Lanes change; where c is true, they keep their words. -/
theorem FormOnly.setLanes (h : FormOnly c a s) {lanes : List LaneSt}
    (hl : c = true → ∀ l, (nth {} lanes l).aOut = (s.lane l).aOut) : FormOnly c a { s with lanes } := by
  refine ⟨?_, h.low, fun hc l => (hl hc l).trans (h.out hc l)⟩
  rw [h.only]

/-! ### Measurement (R139 to R156) -/

theorem nth_modAt_congr {α β : Type} (g : α → β) (d : α) (l : List α) (i j : Nat) {f : α → α} (hf : ∀ x, g (f x) = g x) :
    g (nth d (modAt l i f) j) = g (nth d l j) := by
  unfold nth modAt
  rw [List.getD_eq_getElem?_getD, List.getD_eq_getElem?_getD, List.getElem?_modify]
  cases l[j]? with
  | none => rfl
  | some x =>
    by_cases h : i = j
    · simp [h, hf]
    · simp [h]

theorem FormOnly.measureLane (h : FormOnly c a s) {b l : Nat} : FormOnly c a (s.measureLane b l) :=
  h.setLanes fun _ j => nth_modAt_congr LaneSt.aOut {} s.lanes l j fun _ => rfl

theorem low_le_msrCfg (b o : Nat) : 0x020000 ≤ Reg.MSR_CFG b + o := lowAbove₂ rfl

theorem FormOnly.bayChange (h : FormOnly c a s) {b : Nat} : FormOnly c a (s.bayChange b) := by
  have ht := FormOnly.modBay (h.setFld (lowAbove rfl : 0x020000 ≤ Reg.MSR_FSTAT b) (hi := 1) (lo := 0) (v := 1)) (b := b)
    (f := fun x => { x with acqRun := 0, guardRun := 0, fHist := [] })
  exact .ite (.modBay (.ite ht h)) (.ite ht h)

theorem FormOnly.track (h : FormOnly c a s) {b : Nat} : FormOnly c a (s.track b) := by
  have hk : 0x020000 ≤ Reg.MSR_FSTAT b := lowAbove rfl
  unfold State.track
  extract_lets _ _ _ _ _ _ _ _ _ _ _ t _ t1 t2 t3
  have ht : FormOnly c a t := .modBay h
  have ht1 : FormOnly c a t1 := .ite (ht.setFlag hk) ht
  have ht2 : FormOnly c a t2 := .setFld (.setFlag (ht1.setFld hk) hk) hk
  have ht3 : FormOnly c a t3 := ht2.wr (lowAbove rfl)
  split
  · exact ht3.wr (lowAbove rfl)
  · exact ht3

theorem FormOnly.deliverBay (h : FormOnly c a s) {b : Nat} {lanes rms : List Word} {flags : Nat} {res : List Word} :
    FormOnly c a (s.deliverBay b lanes rms flags res) := .deliver (.deliver (.deliver (.deliver h)))

theorem FormOnly.bayOff (h : FormOnly c a s) {b : Nat} : FormOnly c a (s.bayOff b) :=
  .deliverBay (.modBay (.setFld (.foldl h fun _ _ ht => ht.wr (low_le_msrCfg _ _)) (lowAbove rfl)))

theorem FormOnly.latchOne (h : FormOnly c a s) {b f : Nat} {ms : List LaneMeas} {fUsed tk : ℚ} :
    FormOnly c a (s.latchOne b f ms fUsed tk) :=
  .setFld (.ite (.setFld (.modBay h) (lowAbove rfl)) (.modBay h)) (lowAbove rfl)

theorem FormOnly.latchReports (h : FormOnly c a s) {b f : Nat} {ms : List LaneMeas} {fUsed : ℚ} :
    FormOnly c a (s.latchReports b f ms fUsed) := .ite (.modBay h) (.modBay (.foldl h fun _ _ ht => ht.latchOne))

theorem FormOnly.measureBay (h : FormOnly c a s) {f b : Nat} : FormOnly c a (s.measureBay f b) := by
  unfold State.measureBay
  extract_lets s1 _ s2 _ _ _ t _ _ _ _ t1 t2 t3 t4 t5 t6 t7 _ t8 t9
  have hs2 : FormOnly c a s2 := .foldl h.bayChange fun _ _ ht => ht.measureLane
  have ht2 : FormOnly c a t2 := (hs2.track.wr (low_le_msrCfg _ _)).wr (low_le_msrCfg _ _)
  have ht4 : FormOnly c a t4 := (ht2.wrList (low_le_msrCfg _ _)).wrList (low_le_msrCfg _ _)
  have ht6 : FormOnly c a t6 := (ht4.wrList (low_le_msrCfg _ _)).wrList (low_le_msrCfg _ _)
  have ht7 : FormOnly c a t7 := ht6.wr (lowAbove rfl)
  have ht9 : FormOnly c a t9 := .modBay ht7.deliverBay
  exact .ite hs2.bayOff ht9.latchReports

theorem FormOnly.measureFrame (h : FormOnly c a s) {f : Nat} : FormOnly c a (s.measureFrame f) := .foldl h fun _ _ ht => ht.measureBay

/-! ### Traveling waves and recorders -/

theorem FormOnly.twFrame (h : FormOnly c a s) : FormOnly c a s.twFrame := by
  unfold State.twFrame
  extract_lets t
  have ht : FormOnly c a t := .foldl h fun _ _ ht => ht.setFlag (lowAbove rfl)
  exact ht.inert

theorem FormOnly.acqThresholds (h : FormOnly c a s) : FormOnly c a s.acqThresholds :=
  .foldl h fun _ _ ht => .ite ht (.ite ht ht.inert)

/-! ### Thresholds and lanes (R104, R113) -/

theorem FormOnly.evalThresholds (h : FormOnly c a s) {l : Nat} : FormOnly c a (s.evalThresholds l) := by
  have hk : 0x020000 ≤ Reg.DEC_TSTAT l := lowAbove rfl
  unfold State.evalThresholds
  extract_lets x k one
  have hone (t : State) (i : Nat) (set : Word) (ht : FormOnly c a t) : FormOnly c a (one t i set) := by
    unfold one
    extract_lets old new t1 t2
    have ht1 : FormOnly c a t1 := ht.setFlag hk
    have ht2 : FormOnly c a t2 := .ite ((ht1.setFlag hk).incFld hk) ht1
    exact .ite ht2 ht2.inert
  exact .ite (h.setFld hk) (hone _ _ _ (hone _ _ _ h))

end

section
variable (s : State)

theorem lanes_evalThresholds (l : Nat) : (s.evalThresholds l).lanes = s.lanes := by
  unfold State.evalThresholds
  dsimp only
  split
  · rfl
  · split_ifs <;> rfl

/-- The lane that stages A and B make of a local lane. -/
def formedLane (f : Nat) (x : LaneSt) : LaneSt := stageB f (integrate (stageA x))

theorem lanes_filterLane (f l : Nat) : (s.filterLane f l).lanes =
    modAt s.lanes l (if l < 256 then fun _ => formedLane f (s.lane l) else stageB f) := by
  unfold State.filterLane
  dsimp only
  split
  · rw [lanes_evalThresholds]
    rfl
  · rw [lanes_evalThresholds]
    rfl

theorem lane_filterLane_self {l : Nat} (hl : l < 256) (hlen : s.lanes.length = 384) (f : Nat) :
    (s.filterLane f l).lane l = formedLane f (s.lane l) := by
  rw [State.lane, lanes_filterLane, if_pos hl, nth_modAt _ _ _ _ _ (by omega), if_pos rfl]

theorem lane_filterLane_other {l j : Nat} (hj : l ≠ j) (f : Nat) : (s.filterLane f j).lane l = s.lane l := by
  rw [State.lane, lanes_filterLane, nth_modAt_other _ _ _ hj, State.lane]

theorem length_filterLane (f l : Nat) : (s.filterLane f l).lanes.length = s.lanes.length := by
  rw [lanes_filterLane]
  exact List.length_modify ..

theorem aOut_formedLane (f : Nat) (x : LaneSt) : (formedLane f x).aOut = (stageA x).aOut :=
  (aOut_stageB f _).trans (aOut_integrate _)

/-! ### The frame before is formed (R26) -/

theorem FormOnly.filterLane {a s : State} (h : FormOnly false a s) {f l : Nat} : FormOnly false a (s.filterLane f l) := by
  have hk : 0x020000 ≤ Reg.DEC_LSTAT l := lowAbove rfl
  unfold State.filterLane
  extract_lets x k y rog t
  have ht : FormOnly false a t := ((h.setFld hk).setFlag hk).setFlag hk
  exact .ite (.evalThresholds (ht.setLanes nofun)) (.evalThresholds (h.setLanes nofun))

/-- Every lane takes the frame. -/
def State.filterLanes (s : State) (f : Nat) : State := (List.range 384).foldl (fun s l => s.filterLane f l) s

theorem filterLanes_only (f : Nat) : FormOnly false s (s.filterLanes f) := .foldl (.refl _ _) fun _ _ ht => ht.filterLane

/-- Each local lane is formed once, from the lane as it was. -/
theorem lane_filterLanes {l : Nat} (hl : l < 256) (hlen : s.lanes.length = 384) (f : Nat) :
    (s.filterLanes f).lane l = formedLane f (s.lane l) := by
  obtain ⟨u, hu, hv⟩ := foldl_view (f := fun s j => s.filterLane f j) (view := fun t : State => (t.lanes.length, t.lane l)) (k := l)
    (l := List.range 384) (fun t j _ hj => Prod.ext (length_filterLane t f j) (lane_filterLane_other t hj.symm f)) List.nodup_range
    (List.mem_range.mpr (by omega)) s
  obtain ⟨hulen, hulane⟩ := Prod.mk.inj hu
  rw [← hulane, ← lane_filterLane_self u hl (hulen.trans hlen) f]
  exact (Prod.mk.inj hv).2

/-- No edge of this frame has been found yet. -/
def State.noEdges (s : State) : State := { s with run := { s.run with edges := [] } }

/-- What is delivered, measured and kept once every lane has taken the frame leaves the words of stage A. -/
theorem formFrame_only : FormOnly true (s.noEdges.filterLanes ((s.frame + 2 ^ 32 - 1) % 2 ^ 32)) s.formFrame := by
  unfold State.formFrame
  extract_lets f t u
  have hfilter : FormOnly true (s.noEdges.filterLanes f) (s.filterFrame f) := .deliver (.deliver (.deliver (.refl _ _)))
  have ht : FormOnly true (s.noEdges.filterLanes f) t := .measureFrame hfilter
  have hu : FormOnly true (s.noEdges.filterLanes f) u := .acqThresholds (.twFrame ht)
  exact hu.inert

/-- A local lane's word after the frame before has been formed. -/
theorem aOut_formFrame {l : Nat} (hl : l < 256) (hlen : s.lanes.length = 384) : (s.formFrame.lane l).aOut = (stageA (s.lane l)).aOut := by
  have hlane := lane_filterLanes s.noEdges hl hlen ((s.frame + 2 ^ 32 - 1) % 2 ^ 32)
  rw [(formFrame_only s).out rfl l, hlane, aOut_formedLane]
  rfl

theorem ensureFormed_only : FormOnly false s s.ensureFormed := by
  have hedges : FormOnly false s s.noEdges := (FormOnly.refl false s).inert
  have hlanes := hedges.trans (filterLanes_only s.noEdges ((s.frame + 2 ^ 32 - 1) % 2 ^ 32)) fun h => h
  exact .ite (.refl _ _) (hlanes.trans (formFrame_only s) nofun)

theorem stageAOutput_answers (hlen : s.lanes.length = 384) : Answers .stageAOutput s (fun t =>
    if s.run.formed = true then t = s
    else
      t = { s with
        acq := t.acq, triad := t.triad, tw := t.tw, regs := t.regs, run := t.run, lanes := t.lanes, bays := t.bays } ∧
      t.run.formed = true ∧ t.frame = s.frame ∧ t.mode = s.mode ∧
      ∀ l, l < 256 →
        let x := s.lane l
        let p := presetOf x.form.dec
        let sum := stageASum (coefBase p (bit x.form.dec 4)) (taps p) (x.old.reverse ++ x.raw)
        (x.form.on = false → (t.lane l).aOut = wordOffT x.form.t) ∧
        (x.form.on = true → x.form.typ = 0 → (t.lane l).aOut = wordDisabled x.form.t) ∧
        (x.form.on = true → x.form.typ ≠ 0 →
          wordVal (t.lane l).aOut = (clampVal (roundEven sum (2 ^ 22))).1 ∧ wordT (t.lane l).aOut = x.form.t)) := by
  have hi : exec .stageAOutput s = .next s.ensureFormed := rfl
  refine answers_of hi ?_
  by_cases h : s.run.formed = true
  · rw [if_pos h]
    exact ensureFormed_of_formed h
  · rw [if_neg h]
    have honly := ensureFormed_only s
    refine ⟨honly.only, ensureFormed_formed s, (FormWork.refl s).ensureFormed.frame, State.fld_congr (honly.low _ (by decide)) 2 0,
      fun l hl => ?_⟩
    have hout : (s.ensureFormed.lane l).aOut = (stageA (s.lane l)).aOut := by
      rw [State.ensureFormed, if_neg h]
      exact aOut_formFrame s hl hlen
    rw [hout]
    exact ⟨aOut_stageA_off, aOut_stageA_disabled, aOut_stageA_live⟩

/-! ### INTEGRATOR_SETTLED (R108) -/

theorem modAt_self {α : Type} (d : α) {f : α → α} (l : List α) {i : Nat} (h : f (nth d l i) = nth d l i) : modAt l i f = l := by
  refine List.ext_getElem? fun j => ?_
  rw [modAt, List.getElem?_modify]
  by_cases hij : i = j
  · subst hij
    rw [nth, List.getD_eq_getElem?_getD] at h
    cases hl : l[i]? with
    | none => rfl
    | some x =>
      rw [hl, Option.getD_some] at h
      simp [h]
  · simp [hij]

/-- A lane that its settlement leaves is left with the rest of the state. -/
theorem modLane_self {l : Nat} {f : LaneSt → LaneSt} (h : f (s.lane l) = s.lane l) : s.modLane l f = s := by
  rw [State.modLane, modAt_self {} s.lanes h]

theorem integratorSettled_answers (lane : Fin 256) (hlen : s.lanes.length = 384) : Answers (.integratorSettled lane) s (fun t =>
    t = { s with lanes := t.lanes } ∧ (∀ j, j ≠ lane.val → t.lane j = s.lane j) ∧
    ((s.lane lane.val).intPend = true →
      (t.lane lane.val).y = (s.lane lane.val).y - (s.lane lane.val).ySum / 640 ∧ (t.lane lane.val).intPend = false) ∧
    ((s.lane lane.val).intPend = false → t = s)) := by
  have hi : exec (.integratorSettled lane) s = .next (s.modLane lane.val settleInt) := rfl
  have hself : (s.modLane lane.val settleInt).lane lane.val = settleInt (s.lane lane.val) := by
    rw [State.lane_modLane _ _ _ (by omega), if_pos rfl]
  refine answers_of hi ⟨rfl, fun j hj => nth_modAt_other _ _ _ hj, fun h => ?_, fun h => ?_⟩
  · rw [hself, settleInt, if_pos h]
    exact ⟨rfl, rfl⟩
  · refine modLane_self s ?_
    rw [settleInt, h]
    rfl

/-! ### DEC_LANE_APPLY (R103) -/

/-- A DEC_LANE that is due is taken off, and no write is pending. -/
def State.takeDec (s : State) (l : Nat) : State := (s.setReq (Reg.DEC_LANE l) none).setFlag (Reg.DEC_LANE l) 31 false

theorem exec_decLaneApply (lane : Fin 384) {r : Req} (h : s.due (Reg.DEC_LANE lane.val) = some r) : exec (.decLaneApply lane) s =
    .next (if s.permits = true then (s.takeDec lane.val).putDec lane.val r.value
      else (s.takeDec lane.val).setFlag (Reg.DEC_LSTAT lane.val) 31 true) := by
  change execDecLaneApply lane s = _
  unfold execDecLaneApply
  dsimp only
  rw [h]
  exact (apply_ite ..).symm

theorem exec_decLaneApply_none (lane : Fin 384) (h : s.due (Reg.DEC_LANE lane.val) = none) : exec (.decLaneApply lane) s = .next s := by
  change execDecLaneApply lane s = _
  unfold execDecLaneApply
  dsimp only
  rw [h]

theorem decLane_ne_decLstat (l : Nat) : Reg.DEC_LANE l ≠ Reg.DEC_LSTAT l := by
  unfold Reg.DEC_LANE Reg.DEC_LSTAT
  omega

theorem flag_takeDec (l : Nat) : (s.takeDec l).flag (Reg.DEC_LANE l) 31 = false := State.flag_setFlag_self _ _ _ (by decide)

theorem CodeWork.reqs {ks : List Nat} {a t : State} (h : CodeWork ks a t) : t.reqs = a.reqs := by
  obtain ⟨he, _⟩ := h
  rw [he]

/-- DEC_LANE is in force, and beside lanes the work on it changed DEC_LSTAT (R110). -/
structure DecInForce (l : Nat) (w : Word) (a t : State) : Prop where
  work : CodeWork [Reg.DEC_LSTAT l] a t
  dec : (t.lane l).dec = w

section
variable {a t u : State} {l : Nat} {w : Word}

theorem DecInForce.ite {p : Prop} {_ : Decidable p} (ht : DecInForce l w a t) (hu : DecInForce l w a u) :
    DecInForce l w a (if p then t else u) := by
  split
  · exact ht
  · exact hu

theorem DecInForce.setFld (h : DecInForce l w a t) {hi lo v : Nat} : DecInForce l w a (t.setFld (Reg.DEC_LSTAT l) hi lo v) :=
  ⟨h.work.wr (List.mem_singleton_self _), h.dec⟩

theorem DecInForce.mark (h : DecInForce l w a t) {n : Nat} : DecInForce l w a (t.mark l n) := h.setFld

theorem DecInForce.restartInt (h : DecInForce l w a t) : DecInForce l w a (t.restartInt l) := by
  have hdec : ((t.modLane l fun x => { x with restart := true }).lane l).dec = (t.lane l).dec :=
    nth_modAt_congr LaneSt.dec {} t.lanes l l fun _ => rfl
  have hlane : DecInForce l w a (t.modLane l fun x => { x with restart := true }) := ⟨h.work.modLane, hdec.trans h.dec⟩
  exact .ite hlane.setFld h

theorem putDec_inForce (hl : l < a.lanes.length) (v : Word) : DecInForce l (v &&& 0x00FF0713#32) a (a.putDec l v) := by
  unfold State.putDec
  extract_lets _ w t _ t1
  have ht : DecInForce l w a t := ⟨(CodeWork.refl _ a).modLane, congrArg LaneSt.dec ((State.lane_modLane a l _ hl).trans (if_pos rfl))⟩
  have ht1 : DecInForce l w a t1 := .ite ht.mark ht
  exact .ite ht (.ite ht1.restartInt ht1)

end

/-- Work on a lane after DEC_LANE is taken off leaves no write pending. -/
theorem takeDec_leaves {l : Nat} {t : State} (h : CodeWork [Reg.DEC_LSTAT l] (s.takeDec l) t) :
    t.flag (Reg.DEC_LANE l) 31 = false ∧ t = { s with regs := t.regs, reqs := t.reqs, lanes := t.lanes } := by
  have hreqs := h.reqs
  obtain ⟨honly, hregs⟩ := h
  have hk : Reg.DEC_LANE l ∉ [Reg.DEC_LSTAT l] := by simpa using decLane_ne_decLstat l
  rw [State.flag_congr (hregs _ hk), hreqs]
  exact ⟨flag_takeDec s l, honly⟩

theorem decLaneApply_answers (lane : Fin 384) (hlen : s.lanes.length = 384) : Answers (.decLaneApply lane) s (fun t =>
    match s.due (Reg.DEC_LANE lane.val) with
    | none => t = s
    | some r =>
      t.flag (Reg.DEC_LANE lane.val) 31 = false ∧ t = { s with regs := t.regs, reqs := t.reqs, lanes := t.lanes } ∧
      (s.permits = false → t.lanes = s.lanes ∧ t.flag (Reg.DEC_LSTAT lane.val) 31 = true) ∧
      (s.permits = true → (t.lane lane.val).dec = r.value &&& 0x00FF0713#32)) := by
  cases hdue : s.due (Reg.DEC_LANE lane.val) with
  | none => exact answers_of (exec_decLaneApply_none s lane hdue) rfl
  | some r =>
    refine answers_of (exec_decLaneApply s lane hdue) ?_
    have hlanes : (s.takeDec lane.val).lanes = s.lanes := (State.setFlag_lanes ..).trans (State.setReq_lanes ..)
    by_cases hp : s.permits = true
    · rw [if_pos hp]
      obtain ⟨hwork, hdec⟩ := putDec_inForce (a := s.takeDec lane.val) (l := lane.val) (by rw [hlanes]; omega) r.value
      obtain ⟨hflag, honly⟩ := takeDec_leaves s hwork
      exact ⟨hflag, honly, fun h => absurd (hp.symm.trans h) nofun, fun _ => hdec⟩
    · rw [if_neg hp]
      have hwork := (CodeWork.refl [Reg.DEC_LSTAT lane.val] (s.takeDec lane.val)).setFlag (List.mem_singleton_self _) (n := 31) (b := true)
      obtain ⟨hflag, honly⟩ := takeDec_leaves s hwork
      have hrej := State.flag_setFlag_self (s.takeDec lane.val) (Reg.DEC_LSTAT lane.val) (n := 31) true (by decide)
      exact ⟨hflag, honly, fun _ => ⟨(State.setFlag_lanes ..).trans hlanes, hrej⟩, fun h => absurd h hp⟩

/-! ### THRESHOLD_APPLY (R115) -/

theorem decHi_ne_decHh (l : Nat) : Reg.DEC_HI l ≠ Reg.DEC_HH l := by
  unfold Reg.DEC_HI Reg.DEC_HH
  omega

def State.takeHi (s : State) (l : Nat) (r : Req) : State := s.modLane l fun x => { x with hi := r.value }

def State.takeHh (s : State) (l : Nat) (r : Req) : State := s.modLane l fun x => { x with hh := r.value }

/-- The thresholds of a lane that are due take hold. -/
def State.takeThresholds (s : State) (l : Nat) : State :=
  (s.onDue (Reg.DEC_HI l) fun s r => s.takeHi l r).onDue (Reg.DEC_HH l) fun s r => s.takeHh l r

theorem exec_thresholdApply (lane : Fin 384) : exec (.thresholdApply lane) s =
    .next (if ((s.takeThresholds lane.val).req (Reg.DEC_HI lane.val)).isNone ∧ ((s.takeThresholds lane.val).req (Reg.DEC_HH lane.val)).isNone
      then (s.takeThresholds lane.val).setFlag (Reg.DEC_TSTAT lane.val) 5 false else s.takeThresholds lane.val) := (apply_ite ..).symm

/-- What the thresholds of a lane change when they take hold: lanes, requests and the lane's status register. -/
def ThresholdWork (l : Nat) (a t : State) : Prop :=
  t = { a with regs := t.regs, reqs := t.reqs, lanes := t.lanes } ∧ RegsBut [Reg.DEC_TSTAT l] a t

section
variable {a t u : State} {l : Nat}

theorem ThresholdWork.refl (l : Nat) (s : State) : ThresholdWork l s s := ⟨rfl, fun _ _ => rfl⟩

theorem ThresholdWork.modLane (h : ThresholdWork l a t) {j : Nat} {f : LaneSt → LaneSt} : ThresholdWork l a (t.modLane j f) := by
  obtain ⟨he, hr⟩ := h
  refine ⟨?_, fun k hk => (t.modLane_rd j f k).trans (hr k hk)⟩
  rw [he]
  rfl

theorem ThresholdWork.setFlag (h : ThresholdWork l a t) {n : Nat} {b : Bool} : ThresholdWork l a (t.setFlag (Reg.DEC_TSTAT l) n b) := by
  obtain ⟨he, hr⟩ := h
  refine ⟨?_, fun k hk => ?_⟩
  · rw [he]
    rfl
  · rw [State.rd_setFlag, if_neg (by simpa using hk), hr k hk]

theorem ThresholdWork.onDue (h : ThresholdWork l a t) {k : Nat} {f : State → Req → State}
    (hf : ∀ u r, ThresholdWork l a u → ThresholdWork l a (f u r)) : ThresholdWork l a (t.onDue k f) := by
  obtain ⟨he, hr⟩ := h
  have hreqs (rs : List Req) : ThresholdWork l a { t with reqs := sset (fun _ => []) t.reqs k rs } := by
    refine ⟨?_, hr⟩
    rw [he]
  exact List.foldlRecOn _ _ (hreqs _) fun u hu r _ => hf u r hu

theorem ThresholdWork.ite {p : Prop} {_ : Decidable p} (ht : ThresholdWork l a t) (hu : ThresholdWork l a u) :
    ThresholdWork l a (if p then t else u) := by
  split
  · exact ht
  · exact hu

end

theorem takeThresholds_work (l : Nat) : ThresholdWork l s (s.takeThresholds l) :=
  .onDue (.onDue (.refl l s) fun _ _ h => h.modLane) fun _ _ h => h.modLane

/-- No threshold of a lane waits. -/
def State.noThresholds (s : State) (l : Nat) : State :=
  { s with reqs := sset (fun _ => []) (sset (fun _ => []) s.reqs (Reg.DEC_HI l) []) (Reg.DEC_HH l) [] }

theorem waiting_noThresholds_hi (l : Nat) : (s.noThresholds l).waiting (Reg.DEC_HI l) = [] := by
  rw [State.noThresholds, State.waiting, sget_sset, if_neg (decHi_ne_decHh l), sget_sset, if_pos rfl]

theorem waiting_noThresholds_hh (l : Nat) : (s.noThresholds l).waiting (Reg.DEC_HH l) = [] := by
  rw [State.noThresholds, State.waiting, sget_sset, if_pos rfl]

section
variable {l : Nat} {r : Req}

theorem takeThresholds_hi (hhi : s.waiting (Reg.DEC_HI l) = [r]) (hhh : s.waiting (Reg.DEC_HH l) = [])
    (hr : frameReached s.frame r.due = true) : s.takeThresholds l = (s.noThresholds l).takeHi l r := by
  rw [State.takeThresholds, State.onDue_one s _ _ r hhi hr, State.onDue_nil]
  · rfl
  · rw [State.takeHi, State.waiting_congr (State.modLane_reqs ..), State.waiting_reqs, if_neg (decHi_ne_decHh l).symm, hhh]

theorem takeThresholds_hh (hhh : s.waiting (Reg.DEC_HH l) = [r]) (hhi : s.waiting (Reg.DEC_HI l) = [])
    (hr : frameReached s.frame r.due = true) : s.takeThresholds l = (s.noThresholds l).takeHh l r := by
  rw [State.takeThresholds, State.onDue_nil s _ _ hhi, State.onDue_one (r := r)]
  · rfl
  · rw [State.waiting_reqs, if_neg (decHi_ne_decHh l).symm, hhh]
  · exact hr

theorem lane_takeHi (hl : l < s.lanes.length) : ((s.noThresholds l).takeHi l r).lane l = { s.lane l with hi := r.value } :=
  ((s.noThresholds l).lane_modLane l _ hl).trans (if_pos rfl)

theorem lane_takeHh (hl : l < s.lanes.length) : ((s.noThresholds l).takeHh l r).lane l = { s.lane l with hh := r.value } :=
  ((s.noThresholds l).lane_modLane l _ hl).trans (if_pos rfl)

end

/-- Once no threshold waits, PENDING clears. -/
theorem req_none_of_noThresholds {l : Nat} {t : State} (h : t.reqs = (s.noThresholds l).reqs) :
    (t.req (Reg.DEC_HI l)).isNone ∧ (t.req (Reg.DEC_HH l)).isNone := by
  rw [State.req, State.req, State.waiting_congr h, State.waiting_congr h, waiting_noThresholds_hi, waiting_noThresholds_hh]
  exact ⟨rfl, rfl⟩

theorem thresholdApply_answers (lane : Fin 384) (hlen : s.lanes.length = 384) : Answers (.thresholdApply lane) s (fun t =>
    t = { s with regs := t.regs, reqs := t.reqs, lanes := t.lanes } ∧ RegsBut [Reg.DEC_TSTAT lane.val] s t ∧
    (∀ r, s.waiting (Reg.DEC_HI lane.val) = [r] → s.waiting (Reg.DEC_HH lane.val) = [] → frameReached s.frame r.due = true →
      (t.lane lane.val).hi = r.value ∧ (t.lane lane.val).hh = (s.lane lane.val).hh ∧ t.flag (Reg.DEC_TSTAT lane.val) 5 = false) ∧
    (∀ r, s.waiting (Reg.DEC_HH lane.val) = [r] → s.waiting (Reg.DEC_HI lane.val) = [] → frameReached s.frame r.due = true →
      (t.lane lane.val).hh = r.value ∧ (t.lane lane.val).hi = (s.lane lane.val).hi ∧ t.flag (Reg.DEC_TSTAT lane.val) 5 = false)) := by
  have hlen' : lane.val < s.lanes.length := lane.isLt.trans_eq hlen.symm
  have hwork := takeThresholds_work s lane.val
  obtain ⟨honly, hregs⟩ := hwork.setFlag.ite hwork
  refine answers_of (exec_thresholdApply s lane) ⟨honly, hregs, fun r hhi hhh hr => ?_, fun r hhh hhi hr => ?_⟩
  · rw [takeThresholds_hi s hhi hhh hr, if_pos (req_none_of_noThresholds (t := (s.noThresholds lane.val).takeHi lane.val r) s rfl)]
    rw [State.lane, State.setFlag_lanes, ← State.lane, lane_takeHi s hlen']
    exact ⟨rfl, rfl, State.flag_setFlag_self _ _ _ (by decide)⟩
  · rw [takeThresholds_hh s hhh hhi hr, if_pos (req_none_of_noThresholds (t := (s.noThresholds lane.val).takeHh lane.val r) s rfl)]
    rw [State.lane, State.setFlag_lanes, ← State.lane, lane_takeHh s hlen']
    exact ⟨rfl, rfl, State.flag_setFlag_self _ _ _ (by decide)⟩

end

/-- Settles O32: each local lane is formed once from its own codes (`lane_filterLanes`), and what follows in the frame leaves its word
(`formFrame_only`); the other three commands act on their lane. -/
theorem filterChain : Obligations.FilterChain := by
  unfold Obligations.FilterChain
  exact fun s hlen => ⟨stageAOutput_answers s hlen, fun lane => integratorSettled_answers s lane hlen,
    fun lane => decLaneApply_answers s lane hlen, fun lane => thresholdApply_answers s lane hlen⟩

end Sys2Proof.Machine
end

section
/-!
Settings and injections of a lane at their boundary (O30): what a change of them marks (R96, R97, R110), then the two commands.
-/
namespace Sys2Proof.Machine

/-! ### Marks and void measurements (R96, R97, R108, R110) -/

/-- Where a lane's marks and its measurements under injection stand. -/
def markRegs (l : Nat) : List Nat := [Reg.DEC_LSTAT l, Reg.CNV_SKEW (l / 8) (l % 8), Reg.CNV_DCMEAS (l / 8) (l % 8)]

/-- No register of the AFE block is among them. -/
theorem notMem_markRegs {k : Nat} (l : Nat) (hk : k < 0x030000) : k ∉ markRegs l := by
  simp only [markRegs, Reg.DEC_LSTAT, Reg.CNV_SKEW, Reg.CNV_DCMEAS, List.mem_cons, List.not_mem_nil, or_false]
  omega

theorem afeLstat_lt {l : Nat} (hl : l < 256) : Reg.AFE_LSTAT l < 0x030000 := by unfold Reg.AFE_LSTAT; omega

theorem afeLane_lt {l : Nat} (hl : l < 256) : Reg.AFE_LANE l < 0x030000 := by unfold Reg.AFE_LANE; omega

theorem decLstat_ne_afeLstat (l : Nat) : Reg.DEC_LSTAT l ≠ Reg.AFE_LSTAT l := by
  unfold Reg.DEC_LSTAT Reg.AFE_LSTAT; omega

theorem decLstat_ne_cnvSkew (l : Nat) : Reg.DEC_LSTAT l ≠ Reg.CNV_SKEW (l / 8) (l % 8) := by
  unfold Reg.DEC_LSTAT Reg.CNV_SKEW; omega

theorem decLstat_ne_cnvDcmeas (l : Nat) : Reg.DEC_LSTAT l ≠ Reg.CNV_DCMEAS (l / 8) (l % 8) := by
  unfold Reg.DEC_LSTAT Reg.CNV_DCMEAS; omega

theorem afeLane_ne_afeLstat (l : Nat) : Reg.AFE_LANE l ≠ Reg.AFE_LSTAT l := by
  unfold Reg.AFE_LANE Reg.AFE_LSTAT; omega

theorem afeInj_ne_afeLstat (l : Nat) : Reg.AFE_INJ l ≠ Reg.AFE_LSTAT l := by
  unfold Reg.AFE_INJ Reg.AFE_LSTAT; omega

theorem CodeWork.trans {ks js : List Nat} {a s t : State} (hs : CodeWork ks a s) (ht : CodeWork js s t) (h : js ⊆ ks) :
    CodeWork ks a t := by
  obtain ⟨he, hr⟩ := hs
  obtain ⟨he', hr'⟩ := ht
  refine ⟨?_, fun k hk => (hr' k fun hj => hk (h hj)).trans (hr k hk)⟩
  rw [he', he]

/-- N_A fits the U count of DEC_LSTAT (R111). -/
theorem nA_lt (s : State) (l : Nat) : s.nA l < 16 := by
  have h : ∀ p, unsettled p < 16
    | 0 | 1 | 2 => by decide
    | _ + 3 => by simp [unsettled, nth]
  exact h _

theorem fld_mark (s : State) (l : Nat) {n : Nat} (hn : n < 16) :
    (s.mark l n).fld (Reg.DEC_LSTAT l) 7 4 = max n (s.fld (Reg.DEC_LSTAT l) 7 4) := by
  have hold : s.fld (Reg.DEC_LSTAT l) 7 4 < 16 := field_lt _ 7 4
  rw [State.mark, State.fld_setFld _ _ _ (by decide) (by decide), Nat.mod_eq_of_lt (by omega)]

/-- What marks and voids change: they raise the U count and leave the lane's injection. -/
structure MarkWork (l : Nat) (a t : State) : Prop where
  work : CodeWork (markRegs l) a t
  marks : a.fld (Reg.DEC_LSTAT l) 7 4 ≤ t.fld (Reg.DEC_LSTAT l) 7 4
  inj : (t.lane l).inj = (a.lane l).inj
  held : (t.lane l).injHeld = (a.lane l).injHeld

section
variable {a s t : State} {l : Nat}

theorem MarkWork.refl (l : Nat) (s : State) : MarkWork l s s := ⟨.refl _ s, le_rfl, rfl, rfl⟩

theorem MarkWork.ite {p : Prop} {_ : Decidable p} (hs : MarkWork l a s) (ht : MarkWork l a t) : MarkWork l a (if p then s else t) := by
  split
  · exact hs
  · exact ht

theorem MarkWork.mark (h : MarkWork l a s) {n : Nat} (hn : n < 16) : MarkWork l a (s.mark l n) := by
  refine ⟨h.work.wr (by simp [markRegs]), h.marks.trans ?_, h.inj, h.held⟩
  rw [fld_mark s l hn]
  exact le_max_right ..

/-- A lane's update that leaves its injection. -/
theorem MarkWork.modLane (h : MarkWork l a s) {f : LaneSt → LaneSt} (hi : ∀ x, (f x).inj = x.inj)
    (hh : ∀ x, (f x).injHeld = x.injHeld) : MarkWork l a (s.modLane l f) := by
  refine ⟨h.work.modLane, ?_, (nth_modAt_congr LaneSt.inj {} s.lanes l l hi).trans h.inj,
    (nth_modAt_congr LaneSt.injHeld {} s.lanes l l hh).trans h.held⟩
  rw [State.fld_modLane]
  exact h.marks

/-- A field of DEC_LSTAT above the U count is written. -/
theorem MarkWork.setFld (h : MarkWork l a s) {hi lo v : Nat} (h1 : hi < 32) (h2 : lo ≤ hi) (h7 : 7 < lo) :
    MarkWork l a (s.setFld (Reg.DEC_LSTAT l) hi lo v) := by
  refine ⟨h.work.wr (by simp [markRegs]), ?_, h.inj, h.held⟩
  rw [State.fld_setFld_other s _ v h1 h2 (.inl h7)]
  exact h.marks

theorem MarkWork.restartInt (h : MarkWork l a s) : MarkWork l a (s.restartInt l) := by
  have hlane : MarkWork l a (s.modLane l fun x => { x with restart := true }) := h.modLane (fun _ => rfl) fun _ => rfl
  exact .ite (hlane.setFld (by decide) (by decide) (by decide)) h

/-- A flag of a measurement is written. -/
theorem MarkWork.setFlag (h : MarkWork l a s) {k : Nat} (hk : k ∈ markRegs l) (hd : Reg.DEC_LSTAT l ≠ k) {n : Nat} {b : Bool} :
    MarkWork l a (s.setFlag k n b) := by
  refine ⟨h.work.setFlag hk, ?_, h.inj, h.held⟩
  have hk : (s.setFlag k n b).rd (Reg.DEC_LSTAT l) = s.rd (Reg.DEC_LSTAT l) := State.rd_wr_other s _ hd
  rw [State.fld_congr hk]
  exact h.marks

theorem MarkWork.voidSkew (h : MarkWork l a s) : MarkWork l a (s.voidSkew l) :=
  (h.setFlag (by simp [markRegs]) (decLstat_ne_cnvSkew l)).modLane (fun _ => rfl) fun _ => rfl

theorem MarkWork.voidLevel (h : MarkWork l a s) : MarkWork l a (s.voidLevel l) :=
  (h.setFlag (by simp [markRegs]) (decLstat_ne_cnvDcmeas l)).modLane (fun _ => rfl) fun _ => rfl

/-- AFE_LSTAT.INJ follows; the rest are marks and voids. -/
theorem showInj_marks (s : State) (levelChanged : Bool) :
    MarkWork l (s.setFld (Reg.AFE_LSTAT l) 11 10 (s.effInj l)) (s.showInj l levelChanged) := by
  unfold State.showInj
  extract_lets _ new t _ t1 t2 t3
  have h1 : MarkWork l t t1 := .ite (.mark (.refl l t) (nA_lt s l)) (.refl l t)
  have h2 : MarkWork l t t2 := .ite h1.restartInt h1
  have h3 : MarkWork l t t3 := .ite h2.voidSkew h2
  exact .ite h3.voidLevel h3

theorem marks_showInj (s : State) (levelChanged : Bool) :
    s.fld (Reg.DEC_LSTAT l) 7 4 ≤ (s.showInj l levelChanged).fld (Reg.DEC_LSTAT l) 7 4 := by
  have hk : (s.setFld (Reg.AFE_LSTAT l) 11 10 (s.effInj l)).rd (Reg.DEC_LSTAT l) = s.rd (Reg.DEC_LSTAT l) :=
    State.rd_wr_other s _ (decLstat_ne_afeLstat l)
  rw [← State.fld_congr hk]
  exact (showInj_marks s levelChanged).marks

theorem CodeWork.showInj (h : CodeWork (Reg.AFE_LSTAT l :: markRegs l) a s) {levelChanged : Bool} :
    CodeWork (Reg.AFE_LSTAT l :: markRegs l) a (s.showInj l levelChanged) :=
  (h.wr (List.mem_cons_self ..)).trans (showInj_marks s levelChanged).work (List.subset_cons_self ..)

variable (hl : l < 256)
include hl

theorem MarkWork.rd_afeLstat (h : MarkWork l a t) : t.rd (Reg.AFE_LSTAT l) = a.rd (Reg.AFE_LSTAT l) :=
  have ⟨_, hregs⟩ := h.work
  hregs _ (notMem_markRegs l (afeLstat_lt hl))

/-- The injection in force is shown. -/
theorem injection_showInj (s : State) (levelChanged : Bool) : (s.showInj l levelChanged).injection l = s.effInj l % 4 := by
  rw [State.injection, State.fld_congr ((showInj_marks s levelChanged).rd_afeLstat hl),
    State.fld_setFld _ _ _ (by decide) (by decide)]
  rfl

/-- Gain and type as shown stay. -/
theorem settings_showInj (s : State) (levelChanged : Bool) :
    (s.showInj l levelChanged).gainSet l = s.gainSet l ∧ (s.showInj l levelChanged).typ l = s.typ l := by
  have h := (showInj_marks s levelChanged).rd_afeLstat hl
  rw [State.gainSet, State.typ, State.fld_congr h, State.fld_congr h, State.fld_setFld_other _ _ _ (by decide) (by decide) (by decide),
    State.fld_setFld_other _ _ _ (by decide) (by decide) (by decide)]
  exact ⟨rfl, rfl⟩

end

/-! ### Gain and type take hold (R81, R82, R110) -/

/-- Gain and type as AFE_LSTAT shows them once they have taken hold. -/
def State.showSettings (s : State) (l : Nat) (v : Word) : State :=
  ((s.setFld (Reg.AFE_LSTAT l) 1 0 (field v 1 0)).setFld (Reg.AFE_LSTAT l) 5 4 (field v 5 4)).showPwr l

section
variable (s : State) (v : Word) {l : Nat}

theorem showSettings_work (l : Nat) : CodeWork (Reg.AFE_LSTAT l :: markRegs l) s (s.showSettings l v) :=
  (((CodeWork.refl _ s).wr (List.mem_cons_self ..)).wr (List.mem_cons_self ..)).setFlag (List.mem_cons_self ..)

theorem settings_showSettings (l : Nat) :
    (s.showSettings l v).gainSet l = field v 1 0 ∧ (s.showSettings l v).typ l = field v 5 4 := by
  refine ⟨?_, ?_⟩
  · simp (disch := decide) only [State.gainSet, State.showSettings, State.showPwr, State.fld_setFlag_other, State.fld_setFld_other,
      State.fld_setFld_field]
  · simp (disch := decide) only [State.typ, State.showSettings, State.showPwr, State.fld_setFlag_other, State.fld_setFld_field]

/-- Settings that take hold are shown, then the lane is marked, where it is enabled with N_A at least, then its injection is shown. -/
theorem takeHold_eq (l : Nat) : ∃ u, MarkWork l (s.showSettings l v) u ∧ s.takeHold l v = u.showInj l false ∧
    (s.typ l = 0 → field v 5 4 ≠ 0 → s.nA l ≤ u.fld (Reg.DEC_LSTAT l) 7 4) := by
  unfold State.takeHold
  extract_lets _ t0 _ t1 t u up gch u1 u2 u3
  have h1 : MarkWork l u u1 := .ite (((MarkWork.refl l u).mark (nA_lt s l)).modLane (fun _ => rfl) fun _ => rfl) (.refl l u)
  have h2 : ∀ {a : State}, MarkWork l a u1 → MarkWork l a u2 := fun h =>
    .ite ((h.mark (nA_lt s l)).modLane (fun _ => rfl) fun _ => rfl) h
  have h3 : ∀ {a : State}, MarkWork l a u1 → MarkWork l a u3 := fun h => .ite (h2 h).restartInt (h2 h)
  refine ⟨u3, h3 h1, rfl, fun ht hv => ?_⟩
  have hup : up = true := by simp [up, t0, t1, ht, hv]
  have hmark : s.nA l ≤ u1.fld (Reg.DEC_LSTAT l) 7 4 := by
    rw [show u1 = _ from if_pos hup, State.fld_modLane, fld_mark u l (nA_lt s l)]
    exact le_max_left ..
  exact hmark.trans (h3 (.refl l u1)).marks

theorem takeHold_work (l : Nat) : CodeWork (Reg.AFE_LSTAT l :: markRegs l) s (s.takeHold l v) := by
  obtain ⟨u, hu, he, -⟩ := takeHold_eq s v l
  rw [he]
  exact ((showSettings_work s v l).trans hu.work (List.subset_cons_self ..)).showInj

theorem settings_takeHold (hl : l < 256) : (s.takeHold l v).gainSet l = field v 1 0 ∧ (s.takeHold l v).typ l = field v 5 4 := by
  obtain ⟨u, hu, he, -⟩ := takeHold_eq s v l
  obtain ⟨hgain, htyp⟩ := settings_showInj hl u false
  obtain ⟨hgain', htyp'⟩ := settings_showSettings s v l
  rw [he, hgain, htyp, ← hgain', ← htyp']
  exact ⟨State.fld_congr (hu.rd_afeLstat hl) 1 0, State.fld_congr (hu.rd_afeLstat hl) 5 4⟩

theorem marks_takeHold (ht : s.typ l = 0) (hv : field v 5 4 ≠ 0) : s.nA l ≤ (s.takeHold l v).fld (Reg.DEC_LSTAT l) 7 4 := by
  obtain ⟨u, -, he, hmark⟩ := takeHold_eq s v l
  rw [he]
  exact (hmark ht hv).trans (marks_showInj u false)

end

/-! ### LANE_SETTINGS_APPLY (R80, R81) -/

/-- An AFE_LANE that is due is taken off, and no write is pending. -/
def State.takeSettings (s : State) (l : Nat) : State := (s.setReq (Reg.AFE_LANE l) none).setFlag (Reg.AFE_LANE l) 31 false

section
variable (s : State)

theorem exec_laneSettingsApply_none (lane : Fin 256) (h : s.due (Reg.AFE_LANE lane.val) = none) :
    exec (.laneSettingsApply lane) s = .next s := by
  change execLaneSettingsApply lane s = _
  unfold execLaneSettingsApply
  dsimp only
  rw [h]

theorem exec_laneSettingsApply (lane : Fin 256) {r : Req} (h : s.due (Reg.AFE_LANE lane.val) = some r) :
    exec (.laneSettingsApply lane) s = .next (
      if s.permits = false then (s.takeSettings lane.val).setFlag (Reg.AFE_LSTAT lane.val) 15 true
      else if s.packOn lane.val = true then (s.takeSettings lane.val).takeHold lane.val r.value
      else (s.takeSettings lane.val).modLane lane.val fun x => { x with stored := some r.value }) := by
  change execLaneSettingsApply lane s = _
  unfold execLaneSettingsApply
  dsimp only
  rw [h]
  split_ifs <;> rfl

theorem takeSettings_lanes (l : Nat) : (s.takeSettings l).lanes = s.lanes := (State.setFlag_lanes ..).trans (State.setReq_lanes ..)

theorem takeSettings_nA (l : Nat) : (s.takeSettings l).nA l = s.nA l := by
  rw [State.nA, State.nA, State.lane, takeSettings_lanes, State.lane]

theorem takeSettings_rd {l k : Nat} (hk : k ≠ Reg.AFE_LANE l) : (s.takeSettings l).rd k = s.rd k :=
  (State.rd_wr_other _ _ hk).trans (State.setReq_rd ..)

/-- Work on a lane after AFE_LANE is taken off leaves no write pending. -/
theorem takeSettings_leaves {l : Nat} {t : State} (hl : l < 256)
    (h : CodeWork (Reg.AFE_LSTAT l :: markRegs l) (s.takeSettings l) t) :
    t.flag (Reg.AFE_LANE l) 31 = false ∧ t = { s with regs := t.regs, reqs := t.reqs, lanes := t.lanes } := by
  have hreqs := h.reqs
  obtain ⟨honly, hregs⟩ := h
  have hk : Reg.AFE_LANE l ∉ Reg.AFE_LSTAT l :: markRegs l :=
    List.not_mem_cons_of_ne_of_not_mem (afeLane_ne_afeLstat l) (notMem_markRegs l (afeLane_lt hl))
  rw [State.flag_congr (hregs _ hk), hreqs]
  exact ⟨State.flag_setFlag_self _ _ _ (by decide), honly⟩

theorem laneSettingsApply_answers (lane : Fin 256) (hlen : s.lanes.length = 384) :
    let l := lane.val
    Answers (.laneSettingsApply lane) s (fun t =>
      match s.due (Reg.AFE_LANE l) with
      | none => t = s
      | some r =>
        t.flag (Reg.AFE_LANE l) 31 = false ∧ t = { s with regs := t.regs, reqs := t.reqs, lanes := t.lanes } ∧
        (s.permits = false →
          t.flag (Reg.AFE_LSTAT l) 15 = true ∧ t.gainSet l = s.gainSet l ∧ t.typ l = s.typ l ∧ t.lanes = s.lanes) ∧
        (s.permits = true → s.packOn l = true →
          t.gainSet l = field r.value 1 0 ∧ t.typ l = field r.value 5 4 ∧
          (s.typ l = 0 → field r.value 5 4 ≠ 0 → s.nA l ≤ t.fld (Reg.DEC_LSTAT l) 7 4)) ∧
        (s.permits = true → s.packOn l = false →
          t.gainSet l = s.gainSet l ∧ t.typ l = s.typ l ∧ (t.lane l).stored = some r.value)) := by
  obtain ⟨l, hl⟩ := lane
  dsimp only
  cases hdue : s.due (Reg.AFE_LANE l) with
  | none => exact answers_of (exec_laneSettingsApply_none s ⟨l, hl⟩ hdue) rfl
  | some r =>
    refine answers_of (exec_laneSettingsApply s ⟨l, hl⟩ hdue) ?_
    dsimp only
    have hrefl := CodeWork.refl (Reg.AFE_LSTAT l :: markRegs l) (s.takeSettings l)
    have hlstat : (s.takeSettings l).rd (Reg.AFE_LSTAT l) = s.rd (Reg.AFE_LSTAT l) := takeSettings_rd s (afeLane_ne_afeLstat l).symm
    have hgain : (s.takeSettings l).gainSet l = s.gainSet l := State.fld_congr hlstat 1 0
    have htyp : (s.takeSettings l).typ l = s.typ l := State.fld_congr hlstat 5 4
    cases hperm : s.permits with
    | false =>
      rw [if_pos rfl]
      obtain ⟨hflag, honly⟩ := takeSettings_leaves s hl (hrefl.setFlag (List.mem_cons_self ..) (n := 15) (b := true))
      refine ⟨hflag, honly, fun _ => ⟨State.flag_setFlag_self _ _ _ (by decide), ?_, ?_, ?_⟩, nofun, nofun⟩
      · exact (State.fld_setFlag_other _ _ _ (by decide) (by decide)).trans hgain
      · exact (State.fld_setFlag_other _ _ _ (by decide) (by decide)).trans htyp
      · exact (State.setFlag_lanes ..).trans (takeSettings_lanes s l)
    | true =>
      rw [if_neg nofun]
      cases hon : s.packOn l with
      | true =>
        rw [if_pos rfl]
        obtain ⟨hflag, honly⟩ := takeSettings_leaves s hl (takeHold_work (s.takeSettings l) r.value l)
        obtain ⟨hg, hy⟩ := settings_takeHold (s.takeSettings l) r.value hl
        refine ⟨hflag, honly, nofun, fun _ _ => ⟨hg, hy, fun ht hv => ?_⟩, nofun⟩
        rw [← takeSettings_nA]
        exact marks_takeHold _ _ (htyp.trans ht) hv
      | false =>
        rw [if_neg nofun]
        obtain ⟨hflag, honly⟩ := takeSettings_leaves s hl (hrefl.modLane (l := l) (f := fun x => { x with stored := some r.value }))
        have hlane : l < (s.takeSettings l).lanes.length := by rw [takeSettings_lanes]; omega
        refine ⟨hflag, honly, nofun, nofun, fun _ _ => ⟨?_, ?_, ?_⟩⟩
        · exact (State.fld_modLane ..).trans hgain
        · exact (State.fld_modLane ..).trans htyp
        · rw [State.lane_modLane _ _ _ hlane, if_pos rfl]

end

/-! ### INJECTION_APPLY (R93, R94) -/

section
variable (s : State) {l : Nat}

/-- No write of an injection waits for its boundary. -/
def State.noInjWaits (s : State) (l : Nat) : State := { s with reqs := sset (fun _ => []) s.reqs (Reg.AFE_INJ l) [] }

theorem waiting_noInjWaits (l : Nat) : (s.noInjWaits l).waiting (Reg.AFE_INJ l) = [] := by
  rw [State.noInjWaits, State.waiting_reqs, if_pos rfl]

/-- What an injection that is due becomes: held by sniff, or in force. -/
def State.injDue (s : State) (l : Nat) (v : Word) : State :=
  if s.flag (Reg.AFE_LSTAT l) 12 = true then s.holdInj l v else s.putInj l v

/-- Where no write waits for its boundary, PENDING reads whether sniff holds one. -/
theorem flag_showPend (h : s.waiting (Reg.AFE_INJ l) = []) :
    (s.showPend l).flag (Reg.AFE_INJ l) 31 = (s.lane l).injHeld.isSome := by
  rw [State.showPend, State.flag_setFlag_self _ _ _ (by decide), State.req, h]
  rfl

/-- What becomes of an injection that is due changes lanes, and beside the marks AFE_LSTAT and AFE_INJ. -/
theorem injDue_work (l : Nat) (v : Word) :
    CodeWork (Reg.AFE_INJ l :: Reg.AFE_LSTAT l :: markRegs l) s ((s.injDue l v).showPend l) := by
  have hhold : CodeWork (Reg.AFE_INJ l :: Reg.AFE_LSTAT l :: markRegs l) s (s.holdInj l v) :=
    ((CodeWork.refl _ s).setFlag (List.mem_cons_self ..)).modLane
  have hput : CodeWork (Reg.AFE_LSTAT l :: markRegs l) s (s.putInj l v) := .showInj (.modLane (.refl _ s))
  exact (CodeWork.ite hhold ((CodeWork.refl _ s).trans hput (List.subset_cons_self ..))).setFlag (List.mem_cons_self ..)

/-- The injection that a write puts in force, by its own mode and that of the machine (R93). -/
def State.permittedInj (s : State) (v : Word) : Word := if field v 1 0 = 3 ∨ s.permits = false then 0#32 else v

theorem field_permittedInj_ne (v : Word) : field (s.permittedInj v) 1 0 ≠ 3 := by
  unfold State.permittedInj
  split
  · decide
  · rename_i h
    exact fun h3 => h (.inl h3)

/-- The injection in force on a lane that sniff has not: the stored one where the lane is powered (R82, R94). -/
theorem effInj_of_stored {w : Word} (hs : s.flag (Reg.AFE_LSTAT l) 12 = false) (hw : (s.lane l).inj = w) (h3 : field w 1 0 ≠ 3) :
    s.effInj l = if s.packOn l = true ∧ s.typ l ≠ 0 then field w 1 0 else 0 := by
  rw [State.effInj, if_neg (by rw [hs]; decide), hw]
  dsimp only
  rw [if_neg h3]
  simp

/-- A lane stores an injection. -/
def State.storeInj (s : State) (l : Nat) (w : Word) : State := s.modLane l fun x => { x with inj := w }

theorem lane_storeInj (hl : l < s.lanes.length) (w : Word) : (s.storeInj l w).lane l = { s.lane l with inj := w } :=
  (s.lane_modLane l _ hl).trans (if_pos rfl)

theorem storeInj_rd (l : Nat) (w : Word) (k : Nat) : (s.storeInj l w).rd k = s.rd k := State.modLane_rd ..

/-- An injection that applies is stored as far as it is permitted, then shown. -/
theorem putInj_eq (l : Nat) (v : Word) : ∃ changed, s.putInj l v = (s.storeInj l (s.permittedInj v)).showInj l changed := ⟨_, rfl⟩

/-- An injection that applies is the lane's, and is in force where the lane is powered. -/
theorem putInj_effect (hl : l < 256) (hlen : s.lanes.length = 384) (hs : s.flag (Reg.AFE_LSTAT l) 12 = false) (v : Word) :
    ((s.putInj l v).lane l).inj = s.permittedInj v ∧ ((s.putInj l v).lane l).injHeld = (s.lane l).injHeld ∧
    (s.putInj l v).injection l = if s.packOn l = true ∧ s.typ l ≠ 0 then field (s.permittedInj v) 1 0 else 0 := by
  have hlane := lane_storeInj s (l := l) (by omega) (s.permittedInj v)
  have hrd := storeInj_rd s l (s.permittedInj v)
  obtain ⟨changed, he⟩ := putInj_eq s l v
  generalize s.storeInj l (s.permittedInj v) = u at hlane hrd he
  have hshown : (u.setFld (Reg.AFE_LSTAT l) 11 10 (u.effInj l)).lane l = u.lane l := by
    rw [State.lane, State.setFld_lanes, State.lane]
  have hmark := showInj_marks (l := l) u changed
  have heff := effInj_of_stored u ((State.flag_congr (hrd _) 12).trans hs) (w := s.permittedInj v) (congrArg LaneSt.inj hlane)
    (field_permittedInj_ne s v)
  have hon : u.packOn l = s.packOn l := by
    rw [State.packOn, State.packOn, State.pack, State.pack, State.fld_congr (hrd _)]
  have htyp : u.typ l = s.typ l := State.fld_congr (hrd _) 5 4
  have hlt : field (s.permittedInj v) 1 0 < 4 := field_lt _ 1 0
  have hinj := hmark.inj
  have hheld := hmark.held
  rw [hshown, hlane] at hinj hheld
  rw [he, injection_showInj hl, heff, hon, htyp]
  refine ⟨hinj, hheld, ?_⟩
  split <;> omega

/-- With no write that waits, PENDING alone is shown. -/
theorem injectionApply_nil (l : Nat) :
    let t := (s.noInjWaits l).showPend l
    RegsBut [Reg.AFE_INJ l] s t ∧ t.lanes = s.lanes ∧ t.flag (Reg.AFE_INJ l) 31 = (s.lane l).injHeld.isSome :=
  ⟨fun _ hk => State.rd_wr_other _ _ (by simpa using hk), rfl, flag_showPend (s.noInjWaits l) (waiting_noInjWaits s l)⟩

theorem inj_holdInj (l : Nat) (v : Word) : ((s.holdInj l v).lane l).inj = (s.lane l).inj := by
  have hlane : (s.setFlag (Reg.AFE_INJ l) 30 true).lane l = s.lane l := by rw [State.lane, State.setFlag_lanes, State.lane]
  rw [← hlane, State.holdInj]
  generalize s.setFlag (Reg.AFE_INJ l) 30 true = u
  exact nth_modAt_congr LaneSt.inj {} u.lanes l l fun _ => rfl

section
variable (v : Word)

/-- A write that sniff holds (R94). -/
theorem injDue_held (hl : l < s.lanes.length) (hs : s.flag (Reg.AFE_LSTAT l) 12 = true) :
    (s.injDue l v).flag (Reg.AFE_INJ l) 30 = true ∧ ((s.injDue l v).lane l).injHeld = some v ∧
    ((s.injDue l v).lane l).inj = (s.lane l).inj := by
  rw [State.injDue, if_pos hs]
  obtain ⟨-, -, -, hheld⟩ := holdInj_reads s v l
  exact ⟨hheld, lane_holdInj s v hl, inj_holdInj s l v⟩

/-- One that applies. -/
theorem injDue_applied (hl : l < 256) (hlen : s.lanes.length = 384) (hs : s.flag (Reg.AFE_LSTAT l) 12 = false) :
    ((s.injDue l v).lane l).inj = s.permittedInj v ∧ ((s.injDue l v).lane l).injHeld = (s.lane l).injHeld ∧
    (s.injDue l v).injection l = if s.packOn l = true ∧ s.typ l ≠ 0 then field (s.permittedInj v) 1 0 else 0 := by
  rw [State.injDue, if_neg (by rw [hs]; decide)]
  exact putInj_effect s hl hlen hs v

end

/-- PENDING alone is shown. -/
theorem showPend_rd {k : Nat} (hk : k ≠ Reg.AFE_INJ l) : (s.showPend l).rd k = s.rd k := State.rd_wr_other _ _ hk

theorem lane_showPend (l j : Nat) : (s.showPend l).lane j = s.lane j := by rw [State.lane, State.showPend, State.setFlag_lanes, State.lane]

theorem flag_showPend_other (l : Nat) {n : Nat} (hn : n ≠ 31) :
    (s.showPend l).flag (Reg.AFE_INJ l) n = s.flag (Reg.AFE_INJ l) n := by
  rw [State.showPend, State.flag_setFlag _ _ _ _ (by decide), if_neg hn]

/-- A write that is due is held where sniff has the lane, else it applies. -/
theorem injectionApply_due (hl : l < 256) (hlen : s.lanes.length = 384) (v : Word) :
    let t := ((s.noInjWaits l).injDue l v).showPend l
    t.waiting (Reg.AFE_INJ l) = [] ∧ t = { s with regs := t.regs, reqs := t.reqs, lanes := t.lanes } ∧
    (s.flag (Reg.AFE_LSTAT l) 12 = true → t.flag (Reg.AFE_INJ l) 30 = true ∧ t.flag (Reg.AFE_INJ l) 31 = true ∧
      (t.lane l).injHeld = some v ∧ (t.lane l).inj = (s.lane l).inj) ∧
    (s.flag (Reg.AFE_LSTAT l) 12 = false →
      (t.lane l).inj = s.permittedInj v ∧ t.flag (Reg.AFE_INJ l) 31 = (s.lane l).injHeld.isSome ∧
      t.injection l = if s.packOn l = true ∧ s.typ l ≠ 0 then field (s.permittedInj v) 1 0 else 0) := by
  have hwork := injDue_work (s.noInjWaits l) l v
  have hreqs := hwork.reqs
  obtain ⟨honly, -⟩ := hwork
  have hwait : ((s.noInjWaits l).injDue l v).waiting (Reg.AFE_INJ l) = [] :=
    (State.waiting_congr hreqs _).trans (waiting_noInjWaits s l)
  have hpend := flag_showPend ((s.noInjWaits l).injDue l v) hwait
  have hrd := State.rd_congr (s := s) (t := s.noInjWaits l) rfl
  have hlane : (s.noInjWaits l).lane l = s.lane l := rfl
  have hsniff := State.flag_congr (hrd (Reg.AFE_LSTAT l)) 12
  have hperm : (s.noInjWaits l).permittedInj v = s.permittedInj v := rfl
  have htyp : (s.noInjWaits l).typ l = s.typ l := State.fld_congr (hrd _) 5 4
  have hon : (s.noInjWaits l).packOn l = s.packOn l := rfl
  dsimp only
  rw [lane_showPend, hpend, hreqs]
  refine ⟨hwait, honly, fun hs => ?_, fun hs => ?_⟩
  · obtain ⟨hflag, hheld, hinj⟩ := injDue_held (s.noInjWaits l) v (l := l) (by change l < s.lanes.length; omega) (hsniff.trans hs)
    exact ⟨(flag_showPend_other _ l (by decide)).trans hflag, by rw [hheld]; rfl, hheld, hinj.trans (congrArg LaneSt.inj hlane)⟩
  · obtain ⟨hinj, hheld, heff⟩ := injDue_applied (s.noInjWaits l) v hl hlen (hsniff.trans hs)
    rw [hperm, hon, htyp] at heff
    refine ⟨hinj.trans hperm, by rw [hheld, hlane], ?_⟩
    exact (State.fld_congr (showPend_rd _ (afeInj_ne_afeLstat l).symm) 11 10).trans heff

theorem injectionApply_answers (lane : Fin 256) (hlen : s.lanes.length = 384) :
    let l := lane.val
    Answers (.injectionApply lane) s (fun t =>
      let k := Reg.AFE_INJ l
      let sniff := s.flag (Reg.AFE_LSTAT l) 12
      (s.waiting k = [] → RegsBut [k] s t ∧ t.lanes = s.lanes ∧ t.flag k 31 = (s.lane l).injHeld.isSome) ∧
      ∀ r, s.waiting k = [r] → frameReached s.frame r.due = true →
        t.waiting k = [] ∧ t = { s with regs := t.regs, reqs := t.reqs, lanes := t.lanes } ∧
        (sniff = true → t.flag k 30 = true ∧ t.flag k 31 = true ∧ (t.lane l).injHeld = some r.value ∧
          (t.lane l).inj = (s.lane l).inj) ∧
        (sniff = false →
          let w := if field r.value 1 0 = 3 ∨ s.permits = false then 0#32 else r.value
          (t.lane l).inj = w ∧ t.flag k 31 = (s.lane l).injHeld.isSome ∧
          t.injection l = if s.packOn l = true ∧ s.typ l ≠ 0 then field w 1 0 else 0)) := by
  obtain ⟨l, hl⟩ := lane
  have hi : exec (.injectionApply ⟨l, hl⟩) s = .next ((s.onDue (Reg.AFE_INJ l) fun s r => s.injDue l r.value).showPend l) := rfl
  refine answers_of hi ⟨fun hnil => ?_, fun r hone hdue => ?_⟩
  · rw [State.onDue_nil s _ _ hnil]
    exact injectionApply_nil s l
  · rw [State.onDue_one s _ _ r hone hdue]
    exact injectionApply_due s hl hlen r.value

end

/-- Settles O30: AFE_LSTAT shows gain and type (`settings_takeHold`) or the injection in force (`putInj_effect`), and beside it only marks
and void measurements change (`showInj_marks`). -/
theorem laneEffects : Obligations.LaneEffects := by
  unfold Obligations.LaneEffects
  exact fun s lane hlen => ⟨laneSettingsApply_answers s lane hlen, injectionApply_answers s lane hlen⟩

end Sys2Proof.Machine
end

section
/-!
Trims of a slice (O31): what TRIM_APPLY may change, then the parts of its answer (R84, R89, R91).
-/
namespace Sys2Proof.Machine

/-! ### What a trim may change -/

/-- Work of TRIM_APPLY: beside a list of registers and their requests it changes lanes and bays, a lane's LTRIM as applied only where
its CNV_LTRIM is in the list, a bay only where its CNV_CTRL is. -/
structure TrimWork (ks : List Nat) (a t : State) : Prop where
  only : t = { a with regs := t.regs, reqs := t.reqs, lanes := t.lanes, bays := t.bays }
  regs : RegsBut ks a t
  reqs : ReqsBut ks a t
  ltrim : ∀ l, Reg.CNV_LTRIM (l / 8) (l % 8) ∉ ks → (t.lane l).ltrim = (a.lane l).ltrim
  bay : ∀ b, Reg.CNV_CTRL b ∉ ks → t.bay b = a.bay b
  lanes : t.lanes.length = a.lanes.length
  bays : t.bays.length = a.bays.length

section
variable {ks js : List Nat} {a s t : State} {k l b : Nat}

theorem TrimWork.refl (ks : List Nat) (s : State) : TrimWork ks s s :=
  ⟨rfl, fun _ _ => rfl, fun _ _ => rfl, fun _ _ => rfl, fun _ _ => rfl, rfl, rfl⟩

theorem TrimWork.trans (hs : TrimWork ks a s) (ht : TrimWork js s t) (h : js ⊆ ks) : TrimWork ks a t := by
  have hj {k : Nat} (hk : k ∉ ks) : k ∉ js := fun hm => hk (h hm)
  refine ⟨?_, fun k hk => (ht.regs k (hj hk)).trans (hs.regs k hk), fun k hk => (ht.reqs k (hj hk)).trans (hs.reqs k hk),
    fun l hl => (ht.ltrim l (hj hl)).trans (hs.ltrim l hl), fun b hb => (ht.bay b (hj hb)).trans (hs.bay b hb),
    ht.lanes.trans hs.lanes, ht.bays.trans hs.bays⟩
  rw [ht.only, hs.only]

theorem TrimWork.ite {p : Prop} {_ : Decidable p} (hs : TrimWork ks a s) (ht : TrimWork ks a t) : TrimWork ks a (if p then s else t) := by
  split
  · exact hs
  · exact ht

theorem TrimWork.foldl {β : Type} {f : State → β → State} {bs : List β} (h : TrimWork ks a s)
    (hf : ∀ t, ∀ x ∈ bs, TrimWork ks a t → TrimWork ks a (f t x)) : TrimWork ks a (bs.foldl f s) :=
  List.foldlRecOn _ _ h fun t ht x hx => hf t x hx ht

theorem TrimWork.wr (h : TrimWork ks a s) (hk : k ∈ ks) {v : Word} : TrimWork ks a (s.wr k v) := by
  refine ⟨?_, fun j hj => ?_, h.reqs, h.ltrim, h.bay, h.lanes, h.bays⟩
  · rw [h.only]
    rfl
  · rw [State.rd_wr_other s v (ne_of_mem_of_not_mem hk hj).symm, h.regs j hj]

theorem TrimWork.setFld (h : TrimWork ks a s) (hk : k ∈ ks) {hi lo v : Nat} : TrimWork ks a (s.setFld k hi lo v) := h.wr hk

theorem TrimWork.setFlag (h : TrimWork ks a s) (hk : k ∈ ks) {n : Nat} {x : Bool} : TrimWork ks a (s.setFlag k n x) := h.wr hk

theorem TrimWork.setReqs (h : TrimWork ks a s) (hk : k ∈ ks) {rs : List Req} :
    TrimWork ks a { s with reqs := sset (fun _ => []) s.reqs k rs } := by
  refine ⟨?_, h.regs, fun j hj => ?_, h.ltrim, h.bay, h.lanes, h.bays⟩
  · rw [h.only]
  · rw [State.waiting_reqs, if_neg (ne_of_mem_of_not_mem hk hj).symm, h.reqs j hj]

theorem TrimWork.onDue (h : TrimWork ks a s) (hk : k ∈ ks) {f : State → Req → State}
    (hf : ∀ t r, TrimWork ks a t → TrimWork ks a (f t r)) : TrimWork ks a (s.onDue k f) :=
  (h.setReqs hk).foldl fun t r _ ht => hf t r ht

theorem length_lanes_modLane (s : State) (l : Nat) (f : LaneSt → LaneSt) : (s.modLane l f).lanes.length = s.lanes.length :=
  List.length_modify ..

theorem length_bays_modBay (s : State) (b : Nat) (f : BaySt → BaySt) : (s.modBay b f).bays.length = s.bays.length :=
  List.length_modify ..

theorem lane_modLane_other (s : State) {j : Nat} (h : j ≠ l) (f : LaneSt → LaneSt) : (s.modLane l f).lane j = s.lane j :=
  nth_modAt_other _ _ _ h

theorem bay_modBay_other (s : State) {j : Nat} (h : j ≠ b) (f : BaySt → BaySt) : (s.modBay b f).bay j = s.bay j :=
  nth_modAt_other _ _ _ h

/-- A lane's update that leaves LTRIM. -/
theorem TrimWork.modLane (h : TrimWork ks a s) {f : LaneSt → LaneSt} (hf : ∀ x, (f x).ltrim = x.ltrim) :
    TrimWork ks a (s.modLane l f) := by
  refine ⟨?_, fun k hk => (s.modLane_rd l f k).trans (h.regs k hk), h.reqs, fun j hj => ?_, h.bay,
    (length_lanes_modLane s l f).trans h.lanes, h.bays⟩
  · rw [h.only]
    rfl
  · exact (nth_modAt_congr LaneSt.ltrim {} s.lanes l j hf).trans (h.ltrim j hj)

/-- The update of a lane whose CNV_LTRIM is in the list. -/
theorem TrimWork.modLtrim (h : TrimWork ks a s) {f : LaneSt → LaneSt} (hk : Reg.CNV_LTRIM (l / 8) (l % 8) ∈ ks) :
    TrimWork ks a (s.modLane l f) := by
  refine ⟨?_, fun k hk => (s.modLane_rd l f k).trans (h.regs k hk), h.reqs, fun j hj => ?_, h.bay,
    (length_lanes_modLane s l f).trans h.lanes, h.bays⟩
  · rw [h.only]
    rfl
  · have hne : j ≠ l := fun e => hj (e ▸ hk)
    rw [← h.ltrim j hj]
    exact congrArg LaneSt.ltrim (lane_modLane_other s hne f)

theorem TrimWork.modBay (h : TrimWork ks a s) {f : BaySt → BaySt} (hk : Reg.CNV_CTRL b ∈ ks) : TrimWork ks a (s.modBay b f) := by
  refine ⟨?_, fun k hk => (s.modBay_rd b f k).trans (h.regs k hk), h.reqs, h.ltrim, fun j hj => ?_, h.lanes,
    (length_bays_modBay s b f).trans h.bays⟩
  · rw [h.only]
    rfl
  · have hne : j ≠ b := fun e => hj (e ▸ hk)
    exact (bay_modBay_other s hne f).trans (h.bay j hj)

theorem TrimWork.voidSkew (h : TrimWork ks a s) (hk : Reg.CNV_SKEW (l / 8) (l % 8) ∈ ks) : TrimWork ks a (s.voidSkew l) :=
  (h.setFlag hk).modLane fun _ => rfl

theorem TrimWork.voidLevel (h : TrimWork ks a s) (hk : Reg.CNV_DCMEAS (l / 8) (l % 8) ∈ ks) : TrimWork ks a (s.voidLevel l) :=
  (h.setFlag hk).modLane fun _ => rfl

theorem TrimWork.mem (h : TrimWork ks a t) : t.mem = a.mem := by rw [h.only]

theorem TrimWork.frame (h : TrimWork ks a t) (hk : Reg.ENG_FRAME ∉ ks) : t.frame = a.frame := by
  rw [State.frame, State.frame, h.regs _ hk]

end

/-! ### The registers of a slice -/

/-- Those that a trim of converter k of bay b changes. -/
def strimRegs (b k : Nat) : List Nat := [Reg.CNV_STRIM b k, Reg.CNV_SKEW b k]

/-- Those that a level trim changes. -/
def ltrimRegs (b k : Nat) : List Nat := [Reg.CNV_LTRIM b k, Reg.CNV_DCMEAS b k]

/-- The measurements of a bay. -/
def voidRegs (b : Nat) : List Nat := (List.range 8).flatMap fun k => [Reg.CNV_SKEW b k, Reg.CNV_DCMEAS b k]

/-- Those that CNV_CTRL changes when it takes hold. -/
def ctrlRegs (b : Nat) : List Nat :=
  Reg.CNV_CTRL b :: Reg.CNV_STAT b :: Reg.CNV_SUBGAIN b :: ((List.range 8).map (Reg.CNV_LOFS b) ++ voidRegs b)

section
variable {b k j : Nat}

theorem mem_voidRegs : j ∈ voidRegs b ↔ ∃ k, k < 8 ∧ (j = Reg.CNV_SKEW b k ∨ j = Reg.CNV_DCMEAS b k) := by simp [voidRegs]

theorem mem_ctrlRegs : j ∈ ctrlRegs b ↔ j = Reg.CNV_CTRL b ∨ j = Reg.CNV_STAT b ∨ j = Reg.CNV_SUBGAIN b ∨
    (∃ k, k < 8 ∧ Reg.CNV_LOFS b k = j) ∨ j ∈ voidRegs b := by simp [ctrlRegs]

theorem voidRegs_subset (b : Nat) : voidRegs b ⊆ ctrlRegs b := fun _ h => mem_ctrlRegs.mpr (.inr (.inr (.inr (.inr h))))

/-- Below the measurements of a bay, and far above them, a register is none of them. -/
theorem notMem_voidRegs (h : j < Reg.CNV_SKEW b 0 ∨ Reg.CNV_LOFS b 0 ≤ j) : j ∉ voidRegs b := by
  intro hm
  obtain ⟨k, hk, e⟩ := mem_voidRegs.mp hm
  simp only [Reg.CNV_SKEW, Reg.CNV_LOFS, Reg.CNV_DCMEAS] at h e
  omega

/-- The trims of a bay lie between its status registers and its measurements. -/
theorem notMem_ctrlRegs (h : Reg.CNV_LTRIM b 0 ≤ j ∧ j < Reg.CNV_SKEW b 0 ∨ Reg.CNV_LOFS b 8 ≤ j) : j ∉ ctrlRegs b := by
  intro hm
  obtain e | e | e | ⟨k, hk, e⟩ | e := mem_ctrlRegs.mp hm
  case inr.inr.inr.inr =>
    exact notMem_voidRegs (b := b) (j := j) (by simp only [Reg.CNV_SKEW, Reg.CNV_LOFS] at h ⊢; omega) e
  all_goals
    simp only [Reg.CNV_SKEW, Reg.CNV_LOFS, Reg.CNV_LTRIM, Reg.CNV_CTRL, Reg.CNV_STAT, Reg.CNV_SUBGAIN] at h e
    omega

theorem cnvStrim_notMem_ctrlRegs (hk : k < 8) : Reg.CNV_STRIM b k ∉ ctrlRegs b :=
  notMem_ctrlRegs (by simp only [Reg.CNV_SKEW, Reg.CNV_LTRIM, Reg.CNV_STRIM, Reg.CNV_LOFS]; omega)

theorem cnvLtrim_notMem_ctrlRegs (hk : k < 8) : Reg.CNV_LTRIM b k ∉ ctrlRegs b :=
  notMem_ctrlRegs (by simp only [Reg.CNV_SKEW, Reg.CNV_LTRIM, Reg.CNV_LOFS]; omega)

/-- What is no trim or measurement of converter k is none of its registers. -/
theorem notMem_sliceRegs (h1 : j ≠ Reg.CNV_STRIM b k) (h2 : j ≠ Reg.CNV_SKEW b k) (h3 : j ≠ Reg.CNV_LTRIM b k)
    (h4 : j ≠ Reg.CNV_DCMEAS b k) : j ∉ strimRegs b k ++ ltrimRegs b k := by
  simp only [strimRegs, ltrimRegs, List.cons_append, List.nil_append, List.mem_cons, List.not_mem_nil, or_false]
  tauto

theorem cnvStrim_notMem_sliceRegs (hk : k < 8) (hj : j < 8) (h : j ≠ k) : Reg.CNV_STRIM b k ∉ strimRegs b j ++ ltrimRegs b j := by
  apply notMem_sliceRegs <;> simp only [Reg.CNV_STRIM, Reg.CNV_SKEW, Reg.CNV_LTRIM, Reg.CNV_DCMEAS] <;> omega

theorem cnvLtrim_notMem_sliceRegs (hk : k < 8) (hj : j < 8) (h : j ≠ k) : Reg.CNV_LTRIM b k ∉ strimRegs b j ++ ltrimRegs b j := by
  apply notMem_sliceRegs <;> simp only [Reg.CNV_STRIM, Reg.CNV_SKEW, Reg.CNV_LTRIM, Reg.CNV_DCMEAS] <;> omega

theorem cnvCtrl_notMem_sliceRegs (c : Nat) (hk : k < 8) : Reg.CNV_CTRL c ∉ strimRegs b k ++ ltrimRegs b k := by
  apply notMem_sliceRegs <;> simp only [Reg.CNV_CTRL, Reg.CNV_STRIM, Reg.CNV_SKEW, Reg.CNV_LTRIM, Reg.CNV_DCMEAS] <;> omega

theorem frame_notMem_sliceRegs (b : Nat) (hk : k < 8) : Reg.ENG_FRAME ∉ strimRegs b k ++ ltrimRegs b k := by
  apply notMem_sliceRegs <;> simp only [Reg.ENG_FRAME, Reg.CNV_STRIM, Reg.CNV_SKEW, Reg.CNV_LTRIM, Reg.CNV_DCMEAS] <;> omega

theorem cnvLtrim_notMem_strimRegs (b k : Nat) : Reg.CNV_LTRIM b k ∉ strimRegs b k := by
  simp only [strimRegs, Reg.CNV_LTRIM, Reg.CNV_STRIM, Reg.CNV_SKEW, List.mem_cons, List.not_mem_nil, or_false]
  omega

theorem cnvStrim_notMem_ltrimRegs (b k : Nat) : Reg.CNV_STRIM b k ∉ ltrimRegs b k := by
  simp only [ltrimRegs, Reg.CNV_LTRIM, Reg.CNV_STRIM, Reg.CNV_DCMEAS, List.mem_cons, List.not_mem_nil, or_false]
  omega

end

/-! ### The trims of a slice take hold (R84, R91) -/

section
variable (s : State) (v : Word) {b k : Nat}

theorem putTrim_work (hk : k < 8) {a s : State} (h : TrimWork (strimRegs b k) a s) : TrimWork (strimRegs b k) a (s.putTrim b k v) := by
  have hlane : (8 * b + k) / 8 = b ∧ (8 * b + k) % 8 = k := by omega
  unfold State.putTrim
  extract_lets r x code t l u
  have hr : r ∈ strimRegs b k := List.mem_cons_self ..
  have hu : TrimWork (strimRegs b k) a u := ((h.setFld hr).setFlag hr).modLane fun _ => rfl
  exact .ite hu (hu.voidSkew (by simp [l, hlane, strimRegs]))

theorem putLtrim_work (hk : k < 8) {a s : State} (h : TrimWork (ltrimRegs b k) a s) :
    TrimWork (ltrimRegs b k) a (s.putLtrim (8 * b + k) v) := by
  have hlane : (8 * b + k) / 8 = b ∧ (8 * b + k) % 8 = k := by omega
  unfold State.putLtrim
  extract_lets t
  have ht : TrimWork (ltrimRegs b k) a t := h.modLtrim (by simp [hlane, ltrimRegs])
  exact .ite ht (ht.voidLevel (by simp [hlane, ltrimRegs]))

/-- A skew that is void leaves every other register. -/
theorem voidSkew_rd {l j : Nat} (h : j ≠ Reg.CNV_SKEW (l / 8) (l % 8)) : (s.voidSkew l).rd j = s.rd j :=
  (State.modLane_rd ..).trans (State.rd_wr_other _ _ h)

theorem clampCode_lt (x : Int) : (clampInt 0 127 x).toNat < 2 ^ 7 := by
  unfold clampInt
  split_ifs <;> omega

theorem cnvStrim_ne_cnvSkew (b k : Nat) : Reg.CNV_STRIM b k ≠ Reg.CNV_SKEW ((8 * b + k) / 8) ((8 * b + k) % 8) := by
  unfold Reg.CNV_STRIM Reg.CNV_SKEW
  omega

/-- CODE is FACT + TRIM held within its range (R84). -/
theorem code_putTrim (b k : Nat) : (s.putTrim b k v).fld (Reg.CNV_STRIM b k) 30 24 =
    (clampInt 0 127 ((s.fld (Reg.CNV_STRIM b k) 22 16 : Int) + sext 8 (field v 7 0))).toNat := by
  unfold State.putTrim
  extract_lets r x code t l u
  have hu : u.fld r 30 24 = code := by
    rw [State.fld_modLane, State.fld_setFlag_other _ _ _ (by decide) (by decide), State.fld_setFld _ _ _ (by decide) (by decide)]
    exact Nat.mod_eq_of_lt (clampCode_lt x)
  split
  · exact hu
  · exact (State.fld_congr (voidSkew_rd u (cnvStrim_ne_cnvSkew b k)) 30 24).trans hu

/-- A void level leaves LTRIM. -/
theorem ltrim_voidLevel (l : Nat) : ((s.voidLevel l).lane l).ltrim = (s.lane l).ltrim :=
  have h : TrimWork [Reg.CNV_DCMEAS (l / 8) (l % 8)] s (s.voidLevel l) := (TrimWork.refl _ s).voidLevel (List.mem_singleton_self _)
  h.ltrim l (by simp only [Reg.CNV_LTRIM, Reg.CNV_DCMEAS, List.mem_singleton]; omega)

theorem ltrim_putLtrim {l : Nat} (hl : l < s.lanes.length) : ((s.putLtrim l v).lane l).ltrim = v := by
  unfold State.putLtrim
  extract_lets t
  have ht : (t.lane l).ltrim = v := congrArg LaneSt.ltrim ((s.lane_modLane l _ hl).trans (if_pos rfl))
  split
  · exact ht
  · exact (ltrim_voidLevel t l).trans ht

/-- The trim of converter k that is due. -/
def State.trimSkew (s : State) (b k : Nat) : State := s.onDue (Reg.CNV_STRIM b k) fun s r => s.putTrim b k r.value

/-- The level trim that is due. -/
def State.trimLevel (s : State) (b k : Nat) : State := s.onDue (Reg.CNV_LTRIM b k) fun s r => s.putLtrim (8 * b + k) r.value

theorem trimSkew_work (hk : k < 8) : TrimWork (strimRegs b k) s (s.trimSkew b k) :=
  (TrimWork.refl _ s).onDue (List.mem_cons_self ..) fun _ r ht => putTrim_work r.value hk ht

theorem trimLevel_work (hk : k < 8) : TrimWork (ltrimRegs b k) s (s.trimLevel b k) :=
  (TrimWork.refl _ s).onDue (List.mem_cons_self ..) fun _ r ht => putLtrim_work r.value hk ht

theorem trims_work (hk : k < 8) : TrimWork (strimRegs b k ++ ltrimRegs b k) s ((s.trimSkew b k).trimLevel b k) :=
  ((TrimWork.refl _ s).trans (trimSkew_work s hk) (List.subset_append_left ..)).trans (trimLevel_work _ hk) (List.subset_append_right ..)

/-- The trims of a bay that are due. -/
def State.trimSlices (s : State) (b : Nat) : State := (List.range 8).foldl (fun s k => (s.trimSkew b k).trimLevel b k) s

/-- A trim of converter k takes hold in its turn, and no other's turn changes it. -/
theorem code_trimSlices (hk : k < 8) {r : Req} (hw : s.waiting (Reg.CNV_STRIM b k) = [r])
    (hr : frameReached s.frame r.due = true) : (s.trimSlices b).fld (Reg.CNV_STRIM b k) 30 24 =
      (clampInt 0 127 ((s.fld (Reg.CNV_STRIM b k) 22 16 : Int) + sext 8 (field r.value 7 0))).toNat := by
  obtain ⟨u, hu, hv⟩ := foldl_view (f := fun s j => (s.trimSkew b j).trimLevel b j) (k := k) (l := List.range 8)
    (view := fun t : State => (t.rd (Reg.CNV_STRIM b k), t.waiting (Reg.CNV_STRIM b k), t.frame)) (fun t j hj hne => by
      have hj8 := List.mem_range.mp hj
      have hstrim := cnvStrim_notMem_sliceRegs (b := b) hk hj8 hne
      have h := trims_work t (b := b) hj8
      exact Prod.ext (h.regs _ hstrim) (Prod.ext (h.reqs _ hstrim) (h.frame (frame_notMem_sliceRegs b hj8))))
    List.nodup_range (List.mem_range.mpr hk) s
  obtain ⟨hrd, hrest⟩ := Prod.mk.inj hu
  obtain ⟨hwait, hframe⟩ := Prod.mk.inj hrest
  have hlevel := (trimLevel_work (u.trimSkew b k) (b := b) hk).regs _ (cnvStrim_notMem_ltrimRegs b k)
  have hcode : (u.trimSkew b k).fld (Reg.CNV_STRIM b k) 30 24 =
      (clampInt 0 127 ((u.fld (Reg.CNV_STRIM b k) 22 16 : Int) + sext 8 (field r.value 7 0))).toNat := by
    rw [State.trimSkew, State.onDue_one u _ _ r (hwait.trans hw) (by rw [hframe, hr])]
    exact code_putTrim _ r.value b k
  rw [State.fld_congr hrd] at hcode
  exact (State.fld_congr ((Prod.mk.inj hv).1.trans hlevel) 30 24).trans hcode

/-- So does a level trim. -/
theorem ltrim_trimSlices (hb : b < 32) (hk : k < 8) (hlen : s.lanes.length = 384) {r : Req} (hw : s.waiting (Reg.CNV_LTRIM b k) = [r])
    (hr : frameReached s.frame r.due = true) : ((s.trimSlices b).lane (8 * b + k)).ltrim = r.value := by
  have hlane : (8 * b + k) / 8 = b ∧ (8 * b + k) % 8 = k := by omega
  obtain ⟨u, hu, hv⟩ := foldl_view (f := fun s j => (s.trimSkew b j).trimLevel b j) (k := k) (l := List.range 8)
    (view := fun t : State => ((t.lane (8 * b + k)).ltrim, t.lanes.length, t.waiting (Reg.CNV_LTRIM b k), t.frame)) (fun t j hj hne => by
      have hj8 := List.mem_range.mp hj
      have hltrim := cnvLtrim_notMem_sliceRegs (b := b) hk hj8 hne
      have h := trims_work t (b := b) hj8
      exact Prod.ext (h.ltrim _ (by rwa [hlane.1, hlane.2]))
        (Prod.ext h.lanes (Prod.ext (h.reqs _ hltrim) (h.frame (frame_notMem_sliceRegs b hj8)))))
    List.nodup_range (List.mem_range.mpr hk) s
  obtain ⟨-, hrest⟩ := Prod.mk.inj hu
  obtain ⟨hlanes, hrest'⟩ := Prod.mk.inj hrest
  obtain ⟨hwait, hframe⟩ := Prod.mk.inj hrest'
  have hskew := trimSkew_work u (b := b) hk
  have hframe' : (u.trimSkew b k).frame = s.frame :=
    (hskew.frame fun hm => frame_notMem_sliceRegs b hk (List.mem_append_left _ hm)).trans hframe
  have hwait' := (hskew.reqs _ (cnvLtrim_notMem_strimRegs b k)).trans (hwait.trans hw)
  refine (Prod.mk.inj hv).1.trans ?_
  rw [State.trimLevel, State.onDue_one _ _ _ r hwait' (by rw [hframe', hr])]
  refine ltrim_putLtrim _ r.value (l := 8 * b + k) ?_
  change 8 * b + k < (u.trimSkew b k).lanes.length
  rw [hskew.lanes, hlanes, hlen]
  omega

/-- The trims of a bay leave its bay record, CNV_CTRL's requests and the frame. -/
theorem trimSlices_leaves (b c : Nat) : (s.trimSlices b).waiting (Reg.CNV_CTRL c) = s.waiting (Reg.CNV_CTRL c) ∧
    (s.trimSlices b).frame = s.frame ∧ (s.trimSlices b).bays.length = s.bays.length ∧ (s.trimSlices b).mem = s.mem := by
  refine List.foldlRecOn (motive := fun t : State => t.waiting (Reg.CNV_CTRL c) = s.waiting (Reg.CNV_CTRL c) ∧ t.frame = s.frame ∧
    t.bays.length = s.bays.length ∧ t.mem = s.mem) _ _ ⟨rfl, rfl, rfl, rfl⟩ fun t ht k hk => ?_
  obtain ⟨hwait, hframe, hbays, hmem⟩ := ht
  have hk8 := List.mem_range.mp hk
  have h := trims_work t (b := b) hk8
  refine ⟨(h.reqs _ (cnvCtrl_notMem_sliceRegs c hk8)).trans hwait, (h.frame (frame_notMem_sliceRegs b hk8)).trans hframe,
    h.bays.trans hbays, h.mem.trans hmem⟩

end

/-- Only requests have changed, and none where none waited. -/
structure StillIdle (a t : State) : Prop where
  only : t = { a with reqs := t.reqs }
  idle : ∀ k, a.waiting k = [] → t.waiting k = []

theorem StillIdle.onDue {a t : State} (h : StillIdle a t) {k : Nat} (hk : a.waiting k = []) (f : State → Req → State) :
    StillIdle a (t.onDue k f) := by
  rw [State.onDue_nil t k f (h.idle k hk)]
  refine ⟨?_, fun j hj => ?_⟩
  · rw [h.only]
  · rw [State.waiting_reqs]
    split
    · rfl
    · exact h.idle j hj

theorem StillIdle.kept {a t : State} (h : StillIdle a t) : t.regs = a.regs ∧ t.lanes = a.lanes ∧ t.bays = a.bays := by
  rw [h.only]
  exact ⟨rfl, rfl, rfl⟩

/-- Without a trim that waits nothing takes hold. -/
theorem trimSlices_idle (s : State) {b : Nat}
    (h : ∀ k, k < 8 → s.waiting (Reg.CNV_STRIM b k) = [] ∧ s.waiting (Reg.CNV_LTRIM b k) = []) : StillIdle s (s.trimSlices b) := by
  refine List.foldlRecOn (motive := StillIdle s) _ _ ⟨rfl, fun _ h => h⟩ fun t ht k hk => ?_
  obtain ⟨hskew, hlevel⟩ := h k (List.mem_range.mp hk)
  exact (ht.onDue hskew _).onDue hlevel _

/-! ### CNV_CTRL takes hold (R89, R91) -/

/-- AVG of what CNV_CTRL stores. -/
theorem field_avg (v : Word) : field (v &&& 0xF1#32) 7 4 = field v 7 4 := by
  refine Nat.eq_of_testBit_eq fun j => ?_
  rw [testBit_field, testBit_field, BitVec.toNat_and, Nat.testBit_and]
  by_cases hj : j < 4
  · have hmask : (0xF1#32 : Word).toNat.testBit (4 + j) = true := by
      revert hj j
      decide
    rw [hmask, Bool.and_true]
  · simp [hj]

/-- The production gains of a bay stand in its CNV_SUBGAIN (R99). -/
theorem regReset_cnvSubgain {b : Nat} (hb : b < 32) : regReset (Reg.CNV_SUBGAIN b) = Config.subgain b := by
  have ha : (0x030008 + 0x100 * b) % 2 ^ 24 = 0x030008 + 0x100 * b := by omega
  have ht : ¬ (0x030008 + 0x100 * b) / 2 ^ 24 ≥ 9 := by omega
  have hv : 0x030008 + 0x100 * b ≠ Reg.SYS_VER := by unfold Reg.SYS_VER; omega
  have hp : 0x030008 + 0x100 * b ≠ Reg.HQ_PSTAT := by unfold Reg.HQ_PSTAT; omega
  have hd : (0x030008 + 0x100 * b) / 65536 = 3 := by omega
  have ho : (0x030008 + 0x100 * b) % 256 = 8 := by omega
  have hi : (0x030008 + 0x100 * b) / 256 % 256 = b := by omega
  simp only [regReset, Reg.CNV_SUBGAIN, ha, if_neg ht, if_neg hv, if_neg hp, hd, ho, hi, if_true]

section
variable (s : State) (v : Word) {b : Nat}

theorem cnvStat_ne_cnvSubgain (b : Nat) : Reg.CNV_STAT b ≠ Reg.CNV_SUBGAIN b := by unfold Reg.CNV_STAT Reg.CNV_SUBGAIN; omega

theorem cnvSubgain_ne_cnvLofs (b k : Nat) : Reg.CNV_SUBGAIN b ≠ Reg.CNV_LOFS b k := by unfold Reg.CNV_SUBGAIN Reg.CNV_LOFS; omega

theorem cnvStat_ne_cnvLofs (b k : Nat) : Reg.CNV_STAT b ≠ Reg.CNV_LOFS b k := by unfold Reg.CNV_STAT Reg.CNV_LOFS; omega

/-- The measurements of a bay are void. -/
def State.voidSlices (s : State) (b : Nat) : State :=
  (List.range 8).foldl (fun s k => (s.voidSkew (8 * b + k)).voidLevel (8 * b + k)) s

theorem voidSlices_work (b : Nat) : TrimWork (voidRegs b) s (s.voidSlices b) := by
  refine (TrimWork.refl _ s).foldl fun t k hk ht => ?_
  have hk8 := List.mem_range.mp hk
  have hlane : (8 * b + k) / 8 = b ∧ (8 * b + k) % 8 = k := by omega
  refine (ht.voidSkew ?_).voidLevel ?_
  · rw [hlane.1, hlane.2]
    exact mem_voidRegs.mpr ⟨k, hk8, .inl rfl⟩
  · rw [hlane.1, hlane.2]
    exact mem_voidRegs.mpr ⟨k, hk8, .inr rfl⟩

/-- The production coefficients of a bay are written. -/
def State.writeCoef (s : State) (b : Nat) : State :=
  (List.range 8).foldl (fun s k => s.wr (Reg.CNV_LOFS b k) (regReset (Reg.CNV_LOFS b k)))
    (s.wr (Reg.CNV_SUBGAIN b) (regReset (Reg.CNV_SUBGAIN b)))

theorem restoreCoef_eq (b : Nat) : s.restoreCoef b = ((s.writeCoef b).setFld (Reg.CNV_STAT b) 2 1 0).freshWindows b := rfl

theorem mem_ctrlRegs_lofs (b : Nat) {k : Nat} (hk : k ∈ List.range 8) : Reg.CNV_LOFS b k ∈ ctrlRegs b :=
  mem_ctrlRegs.mpr (.inr (.inr (.inr (.inl ⟨k, List.mem_range.mp hk, rfl⟩))))

theorem mem_ctrlRegs_stat (b : Nat) : Reg.CNV_STAT b ∈ ctrlRegs b := mem_ctrlRegs.mpr (.inr (.inl rfl))

theorem restoreCoef_work {a s : State} (h : TrimWork (ctrlRegs b) a s) : TrimWork (ctrlRegs b) a (s.restoreCoef b) := by
  have hcoef : TrimWork (ctrlRegs b) a (s.writeCoef b) :=
    (h.wr (mem_ctrlRegs.mpr (.inr (.inr (.inl rfl))))).foldl fun t k hk ht => ht.wr (mem_ctrlRegs_lofs b hk)
  exact (hcoef.setFld (mem_ctrlRegs_stat b)).modBay (List.mem_cons_self ..)

/-- RESTORE writes the production gains and clears the valid bits; it leaves FREEZE's status (R89). -/
theorem restoreCoef_reads (hb : b < 32) : (s.restoreCoef b).rd (Reg.CNV_SUBGAIN b) = Config.subgain b ∧
    (s.restoreCoef b).fld (Reg.CNV_STAT b) 2 1 = 0 ∧ (s.restoreCoef b).flag (Reg.CNV_STAT b) 0 = s.flag (Reg.CNV_STAT b) 0 := by
  have hfresh (k : Nat) : (s.restoreCoef b).rd k = ((s.writeCoef b).setFld (Reg.CNV_STAT b) 2 1 0).rd k := State.modBay_rd ..
  have hstat : (s.writeCoef b).rd (Reg.CNV_STAT b) = s.rd (Reg.CNV_STAT b) :=
    (rd_foldl_wr_other _ _ _ fun k _ => cnvStat_ne_cnvLofs b k).trans (State.rd_wr_other _ _ (cnvStat_ne_cnvSubgain b))
  have hgain : (s.writeCoef b).rd (Reg.CNV_SUBGAIN b) = Config.subgain b :=
    (rd_foldl_wr_other _ _ _ fun k _ => cnvSubgain_ne_cnvLofs b k).trans ((State.rd_wr_self ..).trans (regReset_cnvSubgain hb))
  refine ⟨(hfresh _).trans ((State.rd_wr_other _ _ (cnvStat_ne_cnvSubgain b).symm).trans hgain), ?_, ?_⟩
  · rw [State.fld_congr (hfresh _), State.fld_setFld _ _ _ (by decide) (by decide), Nat.zero_mod]
  · rw [State.flag_congr (hfresh _), State.flag, State.rd_setFld, if_pos rfl, bit_setField _ _ _ (by decide) (by decide),
      if_neg (by decide), hstat, State.flag]

/-- Fresh windows leave CNV_CTRL as applied. -/
theorem cnvCtrl_freshWindows (b : Nat) : ((s.freshWindows b).bay b).cnvCtrl = (s.bay b).cnvCtrl :=
  nth_modAt_congr BaySt.cnvCtrl {} s.bays b b fun _ => rfl

theorem cnvCtrl_restoreCoef (b : Nat) : ((s.restoreCoef b).bay b).cnvCtrl = (s.bay b).cnvCtrl := by
  have hcoef : (s.writeCoef b).bays = s.bays := by
    rw [State.writeCoef, foldl_wr_frame]
    rfl
  rw [restoreCoef_eq, cnvCtrl_freshWindows, State.bay_congr ((State.setFld_bays ..).trans hcoef)]

/-- CNV_CTRL in force, before RESTORE acts: FREEZE in the status, AVG and FREEZE as applied. -/
structure CtrlInForce (b : Nat) (v : Word) (a t : State) : Prop where
  work : TrimWork (ctrlRegs b) a t
  freeze : t.flag (Reg.CNV_STAT b) 0 = bit v 0
  ctrl : b < a.bays.length → (t.bay b).cnvCtrl = v &&& 0xF1#32

/-- CNV_CTRL takes hold, RESTORE acts where it is set, then at most the measurements of the bay are void. -/
theorem putCtrl_stages (b : Nat) : ∃ t, CtrlInForce b v s t ∧
    TrimWork (voidRegs b) (if bit v 1 = true then t.restoreCoef b else t) (s.putCtrl b v) := by
  have hctrl : Reg.CNV_CTRL b ∈ ctrlRegs b := List.mem_cons_self ..
  unfold State.putCtrl
  extract_lets old t t1 t2 t3
  have ht : TrimWork (ctrlRegs b) s t := (TrimWork.refl _ s).modBay hctrl
  have hctrl_t (hb : b < s.bays.length) : (t.bay b).cnvCtrl = v &&& 0xF1#32 :=
    congrArg BaySt.cnvCtrl ((s.bay_modBay b _ hb).trans (if_pos rfl))
  have ht1 : TrimWork (ctrlRegs b) s t1 := .ite (ht.modBay hctrl) ht
  have hctrl_t1 : (t1.bay b).cnvCtrl = (t.bay b).cnvCtrl := by
    unfold t1
    split
    · exact cnvCtrl_freshWindows t b
    · rfl
  refine ⟨t2, ⟨ht1.setFlag (mem_ctrlRegs_stat b), State.flag_setFlag_self _ _ _ (by decide), fun hb => ?_⟩,
    .ite (.refl _ t3) (voidSlices_work t3 b)⟩
  exact (congrArg BaySt.cnvCtrl (State.bay_congr (State.setFlag_bays ..) b)).trans (hctrl_t1.trans (hctrl_t hb))

theorem putCtrl_work {a s : State} (h : TrimWork (ctrlRegs b) a s) : TrimWork (ctrlRegs b) a (s.putCtrl b v) := by
  obtain ⟨t, ht, hvoid⟩ := putCtrl_stages s v b
  have hwork : TrimWork (ctrlRegs b) s t := ht.work
  exact h.trans ((TrimWork.ite (restoreCoef_work hwork) hwork).trans hvoid (voidRegs_subset b)) (List.Subset.refl _)

theorem putCtrl_effect (hb : b < 32) (hlen : b < s.bays.length) :
    (s.putCtrl b v).flag (Reg.CNV_STAT b) 0 = bit v 0 ∧ (s.putCtrl b v).avg b = 2 ^ min 8 (field v 7 4) ∧
    (bit v 1 = true → (s.putCtrl b v).rd (Reg.CNV_SUBGAIN b) = Config.subgain b ∧ (s.putCtrl b v).fld (Reg.CNV_STAT b) 2 1 = 0) := by
  obtain ⟨t, ht, hvoid⟩ := putCtrl_stages s v b
  have hstat := hvoid.regs (Reg.CNV_STAT b) (notMem_voidRegs (by simp only [Reg.CNV_STAT, Reg.CNV_SKEW]; omega))
  have hgain := hvoid.regs (Reg.CNV_SUBGAIN b) (notMem_voidRegs (by simp only [Reg.CNV_SUBGAIN, Reg.CNV_SKEW]; omega))
  have hbay := hvoid.bay b (notMem_voidRegs (by simp only [Reg.CNV_CTRL, Reg.CNV_SKEW]; omega))
  rw [State.avg, hbay, State.flag_congr hstat, State.fld_congr hstat, hgain]
  obtain ⟨hsub, hvalid, hfreeze⟩ := restoreCoef_reads t hb
  by_cases hrestore : bit v 1 = true
  · rw [if_pos hrestore, cnvCtrl_restoreCoef, ht.ctrl hlen, field_avg]
    exact ⟨hfreeze.trans ht.freeze, rfl, fun _ => ⟨hsub, hvalid⟩⟩
  · rw [if_neg hrestore, ht.ctrl hlen, field_avg]
    exact ⟨ht.freeze, rfl, fun h => absurd h hrestore⟩

/-! ### TRIM_APPLY (R91) -/

/-- The CNV_CTRL that is due. -/
def State.trimCtrl (s : State) (b : Nat) : State := s.onDue (Reg.CNV_CTRL b) fun s r => s.putCtrl b r.value

theorem trimCtrl_work (b : Nat) : TrimWork (ctrlRegs b) s (s.trimCtrl b) :=
  (TrimWork.refl _ s).onDue (List.mem_cons_self ..) fun _ r ht => putCtrl_work r.value ht

theorem trimApply_answers (hb : b < 32) :
    Answers (.trimApply ⟨b, hb⟩) s (fun t =>
      t.mem = s.mem ∧
      ((∀ k, k < 8 → s.waiting (Reg.CNV_STRIM b k) = [] ∧ s.waiting (Reg.CNV_LTRIM b k) = []) → s.waiting (Reg.CNV_CTRL b) = [] →
        t.regs = s.regs ∧ t.lanes = s.lanes ∧ t.bays = s.bays) ∧
      (∀ k r, k < 8 → s.waiting (Reg.CNV_STRIM b k) = [r] → frameReached s.frame r.due = true →
        t.fld (Reg.CNV_STRIM b k) 30 24 =
          (clampInt 0 127 ((s.fld (Reg.CNV_STRIM b k) 22 16 : Int) + sext 8 (field r.value 7 0))).toNat) ∧
      (∀ k r, k < 8 → s.waiting (Reg.CNV_LTRIM b k) = [r] → frameReached s.frame r.due = true → s.lanes.length = 384 →
        (t.lane (8 * b + k)).ltrim = r.value) ∧
      (∀ r, s.waiting (Reg.CNV_CTRL b) = [r] → frameReached s.frame r.due = true → s.bays.length = 48 →
        t.flag (Reg.CNV_STAT b) 0 = bit r.value 0 ∧ t.avg b = 2 ^ min 8 (field r.value 7 4) ∧
        (bit r.value 1 = true → t.rd (Reg.CNV_SUBGAIN b) = Config.subgain b ∧ t.fld (Reg.CNV_STAT b) 2 1 = 0))) := by
  have hi : exec (.trimApply ⟨b, hb⟩) s = .next ((s.trimSlices b).trimCtrl b) := rfl
  have hctrl := trimCtrl_work (s.trimSlices b) b
  obtain ⟨hwait, hframe, hbays, hmem⟩ := trimSlices_leaves s b b
  refine answers_of hi ⟨?_, fun htrims hnone => ?_, fun k r hk hw hr => ?_, fun k r hk hw hr hlen => ?_, fun r hw hr hlen => ?_⟩
  · exact hctrl.mem.trans hmem
  · have hidle : StillIdle s ((s.trimSlices b).trimCtrl b) := (trimSlices_idle s htrims).onDue hnone _
    exact hidle.kept
  · rw [State.fld_congr (hctrl.regs _ (cnvStrim_notMem_ctrlRegs hk))]
    exact code_trimSlices s hk hw hr
  · have hlane : (8 * b + k) / 8 = b ∧ (8 * b + k) % 8 = k := by omega
    rw [hctrl.ltrim _ (by rw [hlane.1, hlane.2]; exact cnvLtrim_notMem_ctrlRegs hk)]
    exact ltrim_trimSlices s hb hk hlen hw hr
  · generalize s.trimSlices b = u at hwait hframe hbays ⊢
    have hbay : b < u.bays.length := by omega
    rw [State.trimCtrl, State.onDue_one u _ _ r (hwait.trans hw) (by rw [hframe, hr])]
    exact putCtrl_effect _ r.value hb hbay

end

end Sys2Proof.Machine
end

section
/-!
Coefficients and measurements of a slice (O31): the windows of the background correction, the lock of the tree loops, skew and level
under injection (R89, R90, R96, R97, R99).
-/
namespace Sys2Proof.Machine

/-! ### The background correction (R89, R90) -/

section
variable (s : State) {b : Nat}

/-- A window of 512 frames is taken off the count. -/
def State.takeOffset (s : State) (b : Nat) : State := s.modBay b fun x => { x with offWin := x.offWin - 512 }

/-- The offsets of a bay are written. -/
def State.writeOffsets (s : State) (b : Nat) (est : List (BitVec 16)) : State :=
  (List.range 8).foldl (fun s k => s.wr (Reg.CNV_LOFS b k) ((nth 0#16 est k).setWidth 32)) s

theorem writeOffsets_only (b : Nat) (est : List (BitVec 16)) : s.writeOffsets b est = { s with regs := (s.writeOffsets b est).regs } :=
  foldl_wr_frame ..

theorem rd_writeOffsets (b : Nat) (est : List (BitVec 16)) {k : Nat} (hk : k < 8) :
    (s.writeOffsets b est).rd (Reg.CNV_LOFS b k) = (nth 0#16 est k).setWidth 32 :=
  rd_foldl_wr s (Reg.CNV_LOFS b) (fun k => (nth 0#16 est k).setWidth 32)
    (fun i j h => by simp only [Reg.CNV_LOFS] at h; omega) hk

theorem offsetWindowEnd_answers (hb : b < 32) (est : List (BitVec 16)) : Answers (.offsetWindowEnd ⟨b, hb⟩ est) s (fun t =>
    if s.offsetEnds b = true then
      t = { s with regs := t.regs, bays := t.bays } ∧ (∀ k, k < 8 → t.rd (Reg.CNV_LOFS b k) = (nth 0#16 est k).setWidth 32) ∧
      t.flag (Reg.CNV_STAT b) 1 = true ∧ (s.bays.length = 48 → (t.bay b).offWin = (s.bay b).offWin - 512)
    else t = s) := by
  have hi : exec (.offsetWindowEnd ⟨b, hb⟩ est) s = .next (if s.offsetEnds b = true then
      ((s.takeOffset b).writeOffsets b est).setFlag (Reg.CNV_STAT b) 1 true else s) := (apply_ite ..).symm
  refine answers_of hi ?_
  by_cases h : s.offsetEnds b = true
  · rw [if_pos h, if_pos h]
    have honly := writeOffsets_only (s.takeOffset b) b est
    have hrd {k : Nat} (hk : k < 8) := rd_writeOffsets (s.takeOffset b) b est hk
    generalize (s.takeOffset b).writeOffsets b est = u at honly hrd
    have hbays : u.bays = (s.takeOffset b).bays := by rw [honly]
    refine ⟨?_, fun k hk => (State.rd_wr_other _ _ (cnvStat_ne_cnvLofs b k).symm).trans (hrd hk),
      State.flag_setFlag_self _ _ _ (by decide), fun hlen => ?_⟩
    · rw [honly]
      rfl
    · rw [State.bay_congr ((State.setFlag_bays ..).trans hbays), State.takeOffset, State.bay_modBay _ _ _ (by omega), if_pos rfl]
  · rw [if_neg h, if_neg h]

/-- Writes of two registers leave every other. -/
theorem regsBut_wr_setFlag (k j : Nat) (v : Word) (n : Nat) (x : Bool) : RegsBut [k, j] s ((s.wr k v).setFlag j n x) := fun i hi => by
  simp only [List.mem_cons, List.not_mem_nil, or_false, not_or] at hi
  obtain ⟨hk, hj⟩ := hi
  exact (State.rd_wr_other _ _ hj).trans (State.rd_wr_other _ _ hk)

theorem gainWindowEnd_answers (hb : b < 32) (e o : BitVec 16) : Answers (.gainWindowEnd ⟨b, hb⟩ e o) s (fun t =>
    if s.gainEnds b = true then
      t = { s with regs := t.regs, bays := t.bays } ∧ RegsBut [Reg.CNV_SUBGAIN b, Reg.CNV_STAT b] s t ∧
      t.rd (Reg.CNV_SUBGAIN b) = BitVec.ofNat 32 (e.toNat + 65536 * o.toNat) ∧ t.flag (Reg.CNV_STAT b) 2 = true
    else t = s) := by
  have hi : exec (.gainWindowEnd ⟨b, hb⟩ e o) s = .next (if s.gainEnds b = true then
      ((s.modBay b fun x => { x with gainWin := x.gainWin - 2048 }).wr (Reg.CNV_SUBGAIN b)
        (BitVec.ofNat 32 (e.toNat + 65536 * o.toNat))).setFlag (Reg.CNV_STAT b) 2 true else s) := (apply_ite ..).symm
  refine answers_of hi ?_
  by_cases h : s.gainEnds b = true
  · rw [if_pos h, if_pos h]
    refine ⟨rfl, fun k hk => ?_, (State.rd_wr_other _ _ (cnvStat_ne_cnvSubgain b).symm).trans (State.rd_wr_self ..),
      State.flag_setFlag_self _ _ _ (by decide)⟩
    exact (regsBut_wr_setFlag _ _ _ _ _ _ k hk).trans (State.modBay_rd ..)
  · rw [if_neg h, if_neg h]

/-! ### The lock of the tree loops (R99) -/

/-- The codes of two loops as one word. -/
theorem field_treeCodes (x y : Nat) :
    field (BitVec.ofNat 32 (Config.treeCode x + 256 * Config.treeCode y)) 7 0 = Config.treeCode x ∧
    field (BitVec.ofNat 32 (Config.treeCode x + 256 * Config.treeCode y)) 15 8 = Config.treeCode y := by
  have hx : Config.treeCode x < 256 := by unfold Config.treeCode; omega
  have hy : Config.treeCode y < 256 := by unfold Config.treeCode; omega
  generalize Config.treeCode x = p at hx ⊢
  generalize Config.treeCode y = q at hy ⊢
  simp only [field, BitVec.toNat_ofNat]
  omega

theorem treeCode_range (x : Nat) : 32 ≤ Config.treeCode x ∧ Config.treeCode x ≤ 224 := by unfold Config.treeCode; omega

/-- The codes at a lock, from a free value, unless FREEZE keeps those there are. -/
def State.lockCodes (s : State) (b : Nat) : State :=
  if s.flag (Reg.CNV_STAT b) 0 = true then s
  else s.free.2.wr (Reg.CNV_TREE b)
    (BitVec.ofNat 32 (Config.treeCode (field s.free.1 15 0) + 256 * Config.treeCode (field s.free.1 31 16)))

theorem lockCodes_only (b : Nat) : s.lockCodes b = { s with regs := (s.lockCodes b).regs, freeIx := (s.lockCodes b).freeIx } := by
  unfold State.lockCodes
  split <;> rfl

theorem lockCodes_regs (b : Nat) : RegsBut [Reg.CNV_TREE b] s (s.lockCodes b) := fun k hk => by
  unfold State.lockCodes
  split
  · rfl
  · exact State.rd_wr_other _ _ (by simpa using hk)

theorem cnvTree_ne_cnvStat (b : Nat) : Reg.CNV_TREE b ≠ Reg.CNV_STAT b := by unfold Reg.CNV_TREE Reg.CNV_STAT; omega

theorem rd_lockCodes_frozen (h : s.flag (Reg.CNV_STAT b) 0 = true) : (s.lockCodes b).rd (Reg.CNV_TREE b) = s.rd (Reg.CNV_TREE b) := by
  rw [State.lockCodes, if_pos h]

theorem codes_lockCodes (h : s.flag (Reg.CNV_STAT b) 0 = false) :
    32 ≤ (s.lockCodes b).fld (Reg.CNV_TREE b) 7 0 ∧ (s.lockCodes b).fld (Reg.CNV_TREE b) 7 0 ≤ 224 ∧
    32 ≤ (s.lockCodes b).fld (Reg.CNV_TREE b) 15 8 ∧ (s.lockCodes b).fld (Reg.CNV_TREE b) 15 8 ≤ 224 := by
  obtain ⟨hlow, hhigh⟩ := field_treeCodes (field s.free.1 15 0) (field s.free.1 31 16)
  obtain ⟨hx, hx'⟩ := treeCode_range (field s.free.1 15 0)
  obtain ⟨hy, hy'⟩ := treeCode_range (field s.free.1 31 16)
  rw [State.lockCodes, if_neg (by rw [h]; decide), State.fld, State.fld, State.rd_wr_self, hlow, hhigh]
  exact ⟨hx, hx', hy, hy'⟩

theorem dllLock_answers (hb : b < 32) : Answers (.dllLock ⟨b, hb⟩) s (fun t =>
    if s.pack (b / 4) = 1 then
      t = { s with regs := t.regs, freeIx := t.freeIx } ∧ RegsBut [Reg.CNV_TREE b, Reg.CNV_STAT b] s t ∧
      t.flag (Reg.CNV_STAT b) 3 = true ∧
      (s.flag (Reg.CNV_STAT b) 0 = true → t.rd (Reg.CNV_TREE b) = s.rd (Reg.CNV_TREE b)) ∧
      (s.flag (Reg.CNV_STAT b) 0 = false →
        32 ≤ t.fld (Reg.CNV_TREE b) 7 0 ∧ t.fld (Reg.CNV_TREE b) 7 0 ≤ 224 ∧
        32 ≤ t.fld (Reg.CNV_TREE b) 15 8 ∧ t.fld (Reg.CNV_TREE b) 15 8 ≤ 224)
    else t = s) := by
  have hi : exec (.dllLock ⟨b, hb⟩) s = .next (if s.pack (b / 4) = 1 then
      (s.lockCodes b).setFlag (Reg.CNV_STAT b) 3 true else s) := (apply_ite ..).symm
  refine answers_of hi ?_
  by_cases h : s.pack (b / 4) = 1
  · rw [if_pos h, if_pos h]
    have honly := lockCodes_only s b
    have hregs := lockCodes_regs s b
    have hfrozen := rd_lockCodes_frozen s (b := b)
    have hcodes := codes_lockCodes s (b := b)
    generalize s.lockCodes b = u at honly hregs hfrozen hcodes
    have htree : (u.setFlag (Reg.CNV_STAT b) 3 true).rd (Reg.CNV_TREE b) = u.rd (Reg.CNV_TREE b) :=
      State.rd_wr_other _ _ (cnvTree_ne_cnvStat b)
    refine ⟨?_, fun k hk => ?_, State.flag_setFlag_self _ _ _ (by decide), fun hf => htree.trans (hfrozen hf), fun hf => ?_⟩
    · rw [honly]
      rfl
    · simp only [List.mem_cons, List.not_mem_nil, or_false, not_or] at hk
      obtain ⟨htree, hstat⟩ := hk
      exact (State.rd_wr_other _ _ hstat).trans (hregs k (by simpa using htree))
    · rw [State.fld_congr htree, State.fld_congr htree]
      exact hcodes hf
  · rw [if_neg h, if_neg h]

end

/-! ### Skew under injection (R96) -/

section
variable (s : State) {l : Nat}

/-- A lane's frame has been measured. -/
def State.markMeasured (s : State) (l : Nat) : State := s.modLane l fun x => { x with meas := true }

/-- The accumulation of a lane's skew. -/
def State.setSkew (s : State) (l : Nat) (acc : Rat) (cnt : Nat) : State := s.modLane l fun x => { x with skAcc := acc, skCnt := cnt }

/-- The accumulation with a crossing at strobe n between the codes a and b. -/
def LaneSt.skewWith (x : LaneSt) (n : Nat) (a b : Int) : Rat := x.skAcc + (mkRat 37 2 - (n + mkRat (-a) (b - a).toNat))

/-- The mean of cnt crossings as CNV_SKEW shows it, with its valid bit. -/
def skewWord (acc : Rat) (cnt : Nat) : Word :=
  BitVec.ofNat 32 (toTwos 16 (nearest (acc / (cnt : Rat) * mkRat 15625 2)) + 2 ^ 31)

/-- A crossing counts: the mean is written at the AVG-th. -/
def State.countCrossing (s : State) (l : Nat) (acc : Rat) (cnt : Nat) (last : Bool) : State :=
  if last = true then (s.wr (Reg.CNV_SKEW (l / 8) (l % 8)) (skewWord acc cnt)).setSkew l 0 0 else s.setSkew l acc cnt

theorem State.lane_congr {s t : State} (h : t.lanes = s.lanes) (j : Nat) : t.lane j = s.lane j := by rw [State.lane, h, State.lane]

theorem lane_markMeasured (hl : l < s.lanes.length) : (s.markMeasured l).lane l = { s.lane l with meas := true } :=
  (s.lane_modLane l _ hl).trans (if_pos rfl)

theorem lane_setSkew (hl : l < s.lanes.length) (acc : Rat) (cnt : Nat) :
    (s.setSkew l acc cnt).lane l = { s.lane l with skAcc := acc, skCnt := cnt } := (s.lane_modLane l _ hl).trans (if_pos rfl)

variable (hl : l < 256)

theorem exec_skewMeasure_idle (h : s.injection l ≠ 2 ∨ (s.lane l).meas = true ∨ s.typ l = 0) :
    exec (.skewMeasure ⟨l, hl⟩) s = .next s := if_pos h

theorem exec_skewMeasure_none (h : ¬(s.injection l ≠ 2 ∨ (s.lane l).meas = true ∨ s.typ l = 0))
    (hc : crossing (s.lane l).codes = none) : exec (.skewMeasure ⟨l, hl⟩) s = .next (s.markMeasured l) := by
  change execSkewMeasure ⟨l, hl⟩ s = _
  unfold execSkewMeasure
  dsimp only
  rw [if_neg h, hc]
  rfl

theorem exec_skewMeasure_some (h : ¬(s.injection l ≠ 2 ∨ (s.lane l).meas = true ∨ s.typ l = 0)) {n : Nat} {a b : Int}
    (hc : crossing (s.lane l).codes = some (n, a, b)) : exec (.skewMeasure ⟨l, hl⟩) s =
      .next ((s.markMeasured l).countCrossing l ((s.lane l).skewWith n a b) ((s.lane l).skCnt + 1)
        (decide ((s.lane l).skCnt + 1 = s.avg (l / 8)))) := by
  change execSkewMeasure ⟨l, hl⟩ s = _
  unfold execSkewMeasure
  dsimp only
  rw [if_neg h, hc]
  by_cases hlast : (s.lane l).skCnt + 1 = s.avg (l / 8)
  · rw [State.countCrossing, if_pos (decide_eq_true hlast)]
    exact if_pos hlast
  · rw [State.countCrossing, if_neg (by simpa using hlast)]
    exact if_neg hlast

/-- A crossing that counts changes lanes, and of registers the lane's CNV_SKEW. -/
theorem countCrossing_work (acc : Rat) (cnt : Nat) (last : Bool) :
    CodeWork [Reg.CNV_SKEW (l / 8) (l % 8)] s ((s.markMeasured l).countCrossing l acc cnt last) := by
  have hmark : CodeWork [Reg.CNV_SKEW (l / 8) (l % 8)] s (s.markMeasured l) := .modLane (.refl _ s)
  exact .ite (.modLane (hmark.wr (List.mem_singleton_self _))) hmark.modLane

/-- The mean is written with its valid bit, and the accumulation starts anew. -/
theorem countCrossing_last (hl : l < s.lanes.length) (acc : Rat) (cnt : Nat) :
    (s.countCrossing l acc cnt true).rd (Reg.CNV_SKEW (l / 8) (l % 8)) = skewWord acc cnt ∧
    (s.countCrossing l acc cnt true).lane l = { s.lane l with skAcc := 0, skCnt := 0 } := by
  rw [State.countCrossing, if_pos rfl]
  generalize skewWord acc cnt = v
  refine ⟨?_, ?_⟩
  · rw [State.setSkew, State.modLane_rd, State.rd_wr_self]
  · rw [lane_setSkew _ (by rwa [State.wr_lanes]), State.lane_congr (State.wr_lanes ..)]

theorem lane_countCrossing (hl : l < s.lanes.length) (acc : Rat) (cnt : Nat) :
    (s.countCrossing l acc cnt false).lane l = { s.lane l with skAcc := acc, skCnt := cnt } := lane_setSkew s hl acc cnt

theorem skewMeasure_answers (hlen : s.lanes.length = 384) :
    Answers (.skewMeasure ⟨l, hl⟩) s (fun t =>
      let k := Reg.CNV_SKEW (l / 8) (l % 8)
      let x := s.lane l
      (s.injection l ≠ 2 ∨ x.meas = true ∨ s.typ l = 0 → t = s) ∧
      t = { s with regs := t.regs, lanes := t.lanes } ∧ RegsBut [k] s t ∧
      (s.injection l = 2 → x.meas = false → s.typ l ≠ 0 → (t.lane l).meas = true ∧
        (crossing x.codes = none → t.regs = s.regs ∧ (t.lane l).skCnt = x.skCnt) ∧
        ∀ n a b, crossing x.codes = some (n, a, b) →
          let acc := x.skAcc + (mkRat 37 2 - (n + mkRat (-a) (b - a).toNat))
          if x.skCnt + 1 = s.avg (l / 8) then
            t.rd k = BitVec.ofNat 32 (toTwos 16 (nearest (acc / ((x.skCnt + 1 : Nat) : Rat) * mkRat 15625 2)) + 2 ^ 31) ∧
            (t.lane l).skCnt = 0 ∧ (t.lane l).skAcc = 0
          else t.regs = s.regs ∧ (t.lane l).skCnt = x.skCnt + 1 ∧ (t.lane l).skAcc = acc)) := by
  have hlane : l < s.lanes.length := by omega
  have hmeas := lane_markMeasured s hlane
  have hlane' : l < (s.markMeasured l).lanes.length := hlane.trans_eq (length_lanes_modLane s l _).symm
  by_cases hidle : s.injection l ≠ 2 ∨ (s.lane l).meas = true ∨ s.typ l = 0
  · refine answers_of (exec_skewMeasure_idle s hl hidle) ⟨fun _ => rfl, rfl, fun _ _ => rfl, fun hinj hm htyp => ?_⟩
    exact absurd hidle (by simp [hinj, hm, htyp])
  · cases hc : crossing (s.lane l).codes with
    | none =>
      refine answers_of (exec_skewMeasure_none s hl hidle hc) ⟨fun h => absurd h hidle, rfl, fun k _ => State.modLane_rd ..,
        fun _ _ _ => ⟨by rw [hmeas], fun _ => ⟨rfl, by rw [hmeas]⟩, fun n a b he => ?_⟩⟩
      exact absurd (hc.symm.trans he) nofun
    | some e =>
      obtain ⟨n, a, b⟩ := e
      obtain ⟨honly, hregs⟩ := countCrossing_work s (l := l) ((s.lane l).skewWith n a b) ((s.lane l).skCnt + 1)
        (decide ((s.lane l).skCnt + 1 = s.avg (l / 8)))
      refine answers_of (exec_skewMeasure_some s hl hidle hc) ⟨fun h => absurd h hidle, honly, hregs, fun _ _ _ => ?_⟩
      by_cases hlast : (s.lane l).skCnt + 1 = s.avg (l / 8)
      · obtain ⟨hword, ht⟩ := countCrossing_last (s.markMeasured l) hlane' ((s.lane l).skewWith n a b) ((s.lane l).skCnt + 1)
        rw [decide_eq_true hlast, ht, hmeas]
        refine ⟨rfl, fun he => absurd (hc.symm.trans he) nofun, fun n' a' b' he => ?_⟩
        cases hc.symm.trans he
        rw [if_pos hlast]
        exact ⟨hword, rfl, rfl⟩
      · have ht := lane_countCrossing (s.markMeasured l) hlane' ((s.lane l).skewWith n a b) ((s.lane l).skCnt + 1)
        rw [decide_eq_false hlast, ht, hmeas]
        refine ⟨rfl, fun he => absurd (hc.symm.trans he) nofun, fun n' a' b' he => ?_⟩
        cases hc.symm.trans he
        rw [if_neg hlast]
        exact ⟨rfl, rfl, rfl⟩

/-! ### Level under injection (R97) -/

/-- The level is shown with its valid bit, and the accumulation starts anew. -/
def State.showLevel (s : State) (l : Nat) (v : Word) : State :=
  (s.wr (Reg.CNV_DCMEAS (l / 8) (l % 8)) v).modLane l fun x => { x with dcAcc := 0, dcCnt := 0 }

theorem showLevel_work (l : Nat) (v : Word) : CodeWork [Reg.CNV_DCMEAS (l / 8) (l % 8)] s (s.showLevel l v) :=
  .modLane ((CodeWork.refl _ s).wr (List.mem_singleton_self _))

theorem rd_showLevel (l : Nat) (v : Word) : (s.showLevel l v).rd (Reg.CNV_DCMEAS (l / 8) (l % 8)) = v :=
  (State.modLane_rd ..).trans (State.rd_wr_self ..)

theorem lane_showLevel (hl : l < s.lanes.length) (v : Word) : (s.showLevel l v).lane l = { s.lane l with dcAcc := 0, dcCnt := 0 } :=
  ((s.wr (Reg.CNV_DCMEAS (l / 8) (l % 8)) v).lane_modLane l _ hl).trans (if_pos rfl)

theorem dcLevelResult_answers (hlen : s.lanes.length = 384) :
    Answers (.dcLevelResult ⟨l, hl⟩) s (fun t =>
      if s.injection l = 1 ∧ s.typ l ≠ 0 ∧ s.avg (l / 8) ≤ (s.lane l).dcCnt then
        t = { s with regs := t.regs, lanes := t.lanes } ∧ RegsBut [Reg.CNV_DCMEAS (l / 8) (l % 8)] s t ∧
        t.rd (Reg.CNV_DCMEAS (l / 8) (l % 8)) =
          BitVec.ofNat 32 (toTwos 24 (nearest (mkRat ((s.lane l).dcAcc * 2) (s.lane l).dcCnt)) + 2 ^ 31) ∧
        (t.lane l).dcCnt = 0 ∧ (t.lane l).dcAcc = 0
      else t = s) := by
  have hi : exec (.dcLevelResult ⟨l, hl⟩) s = .next (
      if s.injection l = 1 ∧ s.typ l ≠ 0 ∧ s.avg (l / 8) ≤ (s.lane l).dcCnt then
        s.showLevel l (BitVec.ofNat 32 (toTwos 24 (nearest (mkRat ((s.lane l).dcAcc * 2) (s.lane l).dcCnt)) + 2 ^ 31))
      else s) := (apply_ite ..).symm
  refine answers_of hi ?_
  by_cases h : s.injection l = 1 ∧ s.typ l ≠ 0 ∧ s.avg (l / 8) ≤ (s.lane l).dcCnt
  · rw [if_pos h, if_pos h]
    generalize BitVec.ofNat 32 (toTwos 24 (nearest (mkRat ((s.lane l).dcAcc * 2) (s.lane l).dcCnt)) + 2 ^ 31) = v
    obtain ⟨honly, hregs⟩ := showLevel_work s l v
    rw [lane_showLevel s (by omega) v]
    exact ⟨honly, hregs, rd_showLevel s l v, rfl, rfl⟩
  · rw [if_neg h, if_neg h]

end

/-- Settles O31: each trim takes hold in its turn (`code_trimSlices`, `ltrim_trimSlices`, `putCtrl_effect`); the windows, the lock and the
measurements act on their bay or lane. -/
theorem slices : Obligations.Slices := by
  unfold Obligations.Slices
  exact ⟨fun s ⟨_, hb⟩ =>
      ⟨trimApply_answers s hb, offsetWindowEnd_answers s hb, gainWindowEnd_answers s hb, dllLock_answers s hb⟩,
    fun s ⟨_, hl⟩ hlen => ⟨skewMeasure_answers s hl hlen, dcLevelResult_answers s hl hlen⟩⟩

end Sys2Proof.Machine
end
